-- ==== Sys2Proof/Word.lean ====
section
/-! DEFINITION. The word types of the block: bytes, 64-bit register words and the plain numbering types of the
levels of the package (R13 to R17). -/

namespace Sys2Proof

/-- A byte of memory. -/
abbrev Byte := BitVec 8

/-- One aligned 8-byte word: a register of the control window (R775), a command word (R800), a general register (R28). -/
abbrev Word := BitVec 64

/-- A region, and the stack paired with it (R13). -/
abbrev Region := Fin 12

/-- A physical cluster (R15). -/
abbrev Clu := Fin 156

/-- A device pseudo-channel: stack × 64 + local number (R14). -/
abbrev Pch := Fin 768

end Sys2Proof
end

