-- ==== Sys2Proof/Syntax.lean ====
section
/-! DEFINITION. The commands of the block: one constructor per row of spec/opcode_table.json, with the operands
that say what the row acts on. An operand is what reaches the block from outside (a written value, a packet, a
reading, an error pattern) or the number of the part that acts (a region, a slot, a context). -/

namespace Sys2Proof

/-- A walker context: physical cluster, Weevil and context number (R17; the instance numbers of WLK pages are physical, R16). -/
structure CtxRef where
  clu : Clu
  wv  : Fin 4
  ctx : Fin 512
  deriving DecidableEq, Repr

/-- A page of the control window: block type code and instance (R9, R787). -/
structure PageRef where
  ty   : BitVec 6
  inst : BitVec 10
  deriving DecidableEq, Repr

/-- The requesters that hold slots at a stack port (R126): a cluster request port by logical local number, Comet, the
embedding engine and die-fabric ingress. -/
inductive PortSrc where
  | cluster (l : Fin 12)
  | comet
  | emb
  | fabric
  deriving DecidableEq, Repr

/-- One command of a region controller at a stack port: the fields of the command flit of R119, the data that follow
on the slice, and the requester that holds the slot (R126). -/
structure PortCmd where
  src    : PortSrc
  pch    : BitVec 6
  addr   : BitVec 25
  count  : BitVec 8
  tag    : BitVec 16
  poison : Bool
  arg    : BitVec 32
  data   : List Byte
  deriving DecidableEq, Repr

/-- What the DRAM interface read wrongly in one access (R136 to R138): 36 symbols XORed onto the code word on the
first read, and 36 on the re-read of R853. `cell` are symbols that fail in the cells at this read: they stay wrong in what
is stored until the access is written whole (R130). A missing symbol is 0. -/
structure AccErr where
  first  : List Byte
  second : List Byte
  cell   : List Byte
  deriving DecidableEq, Repr

/-- The class of a memory access for translation (R174, R183). -/
inductive Acc where
  | read
  | write
  | update
  deriving DecidableEq, Repr

/-- Who asked for a translation, so that a fault parks it and a resume finds it (R183, R186). -/
inductive Who where
  | walker (c : CtxRef) (req : Nat)
  | program (clu : Clu) (wv : Fin 4)
  | comet (r : Region) (slot : Nat) (row : Nat)
  | bag (r : Region) (bag : Nat)
  | engine (r : Region) (task : Nat)
  | matrix (clu : Clu)
  | rdma (qp : Nat) (msg : Nat)
  | svc (core : Fin 8)
  | list (slot : Nat) (r : Region)
  | ring (r : Nat)
  | log
  deriving DecidableEq, Repr

/-- A request at a translation unit (R171): a virtual address, its class, whether it is an RDMA access, its owner. -/
structure XReq where
  va   : Word
  acc  : Acc
  rdma : Bool
  who  : Who
  deriving DecidableEq, Repr

/-- A path of a stack port on which a receiver finds a CRC mismatch (R116 to R118). -/
inductive ReplayPath where
  | command
  | response
  | slice (p : Fin 64)
  deriving DecidableEq, Repr

/-- The passing edges a margin sweep found, with the worst pin (R151, R159). -/
structure MarginEdges where
  lo    : Byte
  hi    : Byte
  worst : BitVec 6
  deriving DecidableEq, Repr

/-- A received PTP message with the values the standard's fields give (R64, R65): the sender's timestamps and the correction
fields in units of 2^-16 ns, the sending clock's port by a number, and the place `rank` of an announced data set in the
standard's comparison, lower is better. The device's own timestamps are no part of a message: the device takes them. -/
inductive PtpMsg where
  | announce  (domain : Byte) (source rank intervalNs : Nat)
  | sync      (domain : Byte) (source : Nat) (twoStep : Bool) (origin : Nat) (correction : Int) (intervalNs : Nat)
  | followUp  (domain : Byte) (source origin : Nat) (correction : Int)
  | delayResp (domain : Byte) (source t4 : Nat) (correction : Int)
  | pdelayReq (domain : Byte)
  | pdelayResp (domain : Byte) (t2 t3 : Nat) (correction : Int)
  deriving DecidableEq, Repr

/-- One cadence exchange on the upstream port (R70, R71): the link delay in symbol periods of 18.82 ps, the upstream
Sync's reference time at arrival without that delay, in units of 2^-16 ns, the exchange interval, and what the receive symbol
clock shows of the upstream device: the advance of its ST in one hub cycle of this device, in units of 2^-40 ns. -/
structure CadenceMsg where
  delaySymbols : Nat
  origin       : Nat
  intervalNs   : Nat
  rate         : Nat
  deriving DecidableEq, Repr

/-- The units of a cluster that ask for tasks and gate their clocks (R636, R651). -/
inductive UnitKind where
  | weevil (w : Fin 4)
  | mantis
  | gmx
  | firefly
  deriving DecidableEq, Repr

/-- The ready lists of a dispatcher (R648), the kinds WALK to UPDATE of R640. -/
inductive TaskKind where
  | walk
  | matrix
  | gmx
  | moments
  | transfer
  | lookup
  | update
  | signal
  deriving DecidableEq, Repr

/-- The header values every received RoCEv2 message carries: local queue pair, first PSN, whether any packet was
CE-marked (R725, R764). -/
structure RxHdr where
  qp  : Fin 16384
  psn : BitVec 24
  ce  : Bool
  deriving DecidableEq, Repr

/-- A connection-management message on port p (R737): the queue pair it is about and the peer's values. -/
structure CmMsg where
  port    : Fin 4
  qp      : Fin 16384
  peerQpn : BitVec 24
  peerPsn : BitVec 24
  deriving DecidableEq, Repr

/-- A packet for the neighbour responder (R727). -/
inductive NeighborPkt where
  | arp      (target : BitVec 32)
  | nd       (target : BitVec 128)
  | echo4    (dst : BitVec 32)
  | echo6    (dst : BitVec 128)
  | reply4   (ip : BitVec 32) (mac : BitVec 48)
  | reply6   (ip : BitVec 128) (mac : BitVec 48)
  | dhcp
  | other
  deriving DecidableEq, Repr

/-- The source of an address a link receives (R726, R770): a static address, DHCP, or link-local. -/
structure AddrInfo where
  ipv6   : Bool
  addr   : BitVec 128
  prefixLen : Byte
  source : BitVec 2
  deriving DecidableEq, Repr

/-- Which error record a clear of VALID names, ERR_FIRST or ERR_LAST (R781), and whether a record arrives in its cycle (R785). -/
structure ErrSel where
  last    : Bool
  collide : Bool
  deriving DecidableEq, Repr

/-- Where a host command comes from: a command ring (R794) or a management message of an SPDM session (R913). -/
inductive CmdSrc where
  | ring (r : Fin 64)
  | mgmt (session : Fin 4) (words : List Word)
  deriving DecidableEq, Repr

/-- Where an SPDM request arrives: in the clear on the management connection of a port, or in a secured session (R911, R913). -/
inductive SpdmSrc where
  | plain (port : Fin 4)
  | secured (session : Fin 4)
  deriving DecidableEq, Repr

/-- What the security root's primitives find in the work of one boot step (R905): whether the PUF helper data are
consistent, which record copies (0, 1) pass their HMAC (R900), the item kinds whose slot A or slot B passes both
signatures and the payload hash (R902, R903), and whether the identity leaf names the derived key (R909). -/
structure BootFindings where
  pufOk    : Bool
  recordOk : List Nat
  sigOkA   : List Nat
  sigOkB   : List Nat
  leafOk   : Bool
  deriving DecidableEq, Repr

/-- How one part of an in-service rollout reports (R918, R920). -/
inductive PartReport where
  | ready
  | failed
  deriving DecidableEq, Repr

/-- The instructions of the IEEE 1149.1 port (R976). -/
inductive JtagInstr where
  | bypass
  | samplePreload
  | extest
  | clamp
  | highz
  | idcode
  deriving DecidableEq, Repr

/-- What SECDED and the unit parity of a cluster find while a command reads scratchpad or unit state (R870). -/
inductive SpadErr where
  | none
  | single
  | double
  | unitState
  deriving DecidableEq, Repr

/-- The NAKs a requester receives (R748, R739). -/
inductive NakKind where
  | sequence
  | rnr
  | invalid
  | remoteAccess
  | remoteOp
  deriving DecidableEq, Repr

/-- The commands: one constructor per row of the operations table, in the table's order. The docstring of each is
its row's governing rule. -/
inductive Instr where
  /-- PTP_MESSAGE_RX (R64). -/
  | ptpMessageRx (port : Fin 4) (m : PtpMsg)
  /-- PPS_EDGE (R67). -/
  | ppsEdge
  /-- PPS_LOST (R68). -/
  | ppsLost
  /-- CADENCE_EXCHANGE (R71). -/
  | cadenceExchange (port : Fin 4) (m : CadenceMsg)
  /-- HOLDOVER_ENTRY (R75). -/
  | holdoverEntry
  /-- ST_NS_READ (R62). -/
  | stNsRead
  /-- ST_SET (R73). -/
  | stSet (v : Word)
  /-- PPS_OUT_PULSE (R971). -/
  | ppsOutPulse
  /-- EVENT_DELIVERY (R82). -/
  | eventDelivery
  /-- LAUNCH_EVENT (R809). -/
  | launchEvent
  /-- BARRIER_EVENT (R657). -/
  | barrierEvent
  /-- VERSION_REGION_SWITCH (R252). -/
  | versionRegionSwitch
  /-- VERSION_DEVICE_SWITCH (R255). -/
  | versionDeviceSwitch
  /-- POWER_EVENT (R826). -/
  | powerEvent
  /-- SCRUB_OPEN (R856). -/
  | scrubOpen
  /-- SCRUB_CLOSE (R856). -/
  | scrubClose
  /-- DEADLINE_MISS (R100). -/
  | deadlineMiss (slot : Fin 4096)
  /-- RD (R120). -/
  | rd (stk : Region) (f : PortCmd) (errs : List AccErr)
  /-- WR (R120). -/
  | wr (stk : Region) (f : PortCmd)
  /-- WRM (R130). -/
  | wrm (stk : Region) (f : PortCmd)
  /-- FLIT_FENCE (R120). -/
  | flitFence (stk : Region) (f : PortCmd)
  /-- GPOOL (R225). -/
  | gpool (stk : Region) (f : PortCmd)
  /-- GPOOL_ROW (R121). -/
  | gpoolRow (stk : Region) (f : PortCmd)
  /-- POOL_LANE_DONE (R228). -/
  | poolLaneDone (stk : Region) (tag : BitVec 16)
  /-- RUPD (R267). -/
  | rupd (stk : Region) (f : PortCmd)
  /-- SCRUB (R120). -/
  | scrub (stk : Region) (errs : List AccErr)
  /-- TRAIN (R152). -/
  | train (stk : Region)
  /-- RETRAIN (R146). -/
  | retrain (stk : Region)
  /-- MARGIN_T (R151). -/
  | marginT (stk : Region)
  /-- MARGIN_V (R151). -/
  | marginV (stk : Region)
  /-- PATCH (R859). -/
  | patch (stk : Region) (errs : List AccErr)
  /-- PPR (R859). -/
  | ppr (stk : Region) (errs : List AccErr)
  /-- PCH_RETIRE (R152). -/
  | pchRetire (stk : Region)
  /-- RESPONSE_FLIT (R123). -/
  | responseFlit (stk : Region)
  /-- REPLAY (R118). -/
  | replay (stk : Region) (path : ReplayPath)
  /-- TRAIN_DONE (R152). -/
  | trainDone (d : Pch) (pass : Bool)
  /-- RETRAIN_DONE (R150). -/
  | retrainDone (d : Pch) (pass : Bool)
  /-- MARGIN_STEP_DONE (R151). -/
  | marginStepDone (d : Pch) (found : Option MarginEdges)
  /-- STACK_TEMP_READING (R142). -/
  | stackTempReading (stk : Region) (core : List Int) (base : Int) (pchTemps : List Int)
  /-- REFRESH (R141). -/
  | refresh (d : Pch) (bank : Fin 64)
  /-- STACK_CLEAR_DONE (R991). -/
  | stackClearDone (stk : Region)
  /-- STACK_PORT_TRAINED (R156). -/
  | stackPortTrained (stk : Region)
  /-- SVC_CMD_HI_WRITE (R158). -/
  | svcCmdHiWrite (stk : Region) (v : Word)
  /-- SLOT_GRANT (R127). -/
  | slotGrant (d : Pch)
  /-- TRANSLATE (R171). -/
  | translate (u : Fin 13) (q : XReq)
  /-- WALK_READ_RETURN (R169). -/
  | walkReadReturn (u : Fin 13) (walk : Nat)
  /-- D_BIT_COMPARE_DONE (R175). -/
  | dBitCompareDone (u : Fin 13) (walk : Nat)
  /-- XLAT_ROOT_WRITE (R992). -/
  | xlatRootWrite (v : Word)
  /-- INV_CMD (R176). -/
  | invCmd (u : Fin 13) (v : Word)
  /-- INV_DONE (R177). -/
  | invDone
  /-- RESUME_RETRY (R186). -/
  | resumeRetry (u : Fin 13) (slot : Fin 64)
  /-- RESUME_ABORT (R186). -/
  | resumeAbort (u : Fin 13) (slot : Fin 64)
  /-- FAULT_STALL_RETRY (R182). -/
  | faultStallRetry (u : Fin 13)
  /-- PAGE_IN (R196). -/
  | pageIn (va : Word) (frame : BitVec 42) (data : List Byte)
  /-- PAGE_EVICT (R197). -/
  | pageEvict (va : Word) (tag : BitVec 32)
  /-- TBL_BASE_WRITE (R201). -/
  | tblBaseWrite (r : Region) (v : Word)
  /-- TBL_COUNT_WRITE (R201). -/
  | tblCountWrite (r : Region) (v : Word)
  /-- TBL_INV (R204). -/
  | tblInv (r : Region) (v : Word)
  /-- LOOKUP (R213). -/
  | lookup (r : Region)
  /-- ACC_RESERVE (R442). -/
  | accReserve (r : Region) (bag : Nat)
  /-- BAG_FINISH (R237). -/
  | bagFinish (r : Region) (bag : Nat)
  /-- LOOKUP_DONE (R240). -/
  | lookupDone (r : Region) (task : Nat)
  /-- UPDATE (R260). -/
  | update (r : Region)
  /-- UPDATE_BATCH_DONE (R270). -/
  | updateBatchDone (batch : Nat)
  /-- LOAD_WINDOW_BOUNDARY (R278). -/
  | loadWindowBoundary
  /-- LOAD_REPORT_RX (R280). -/
  | loadReportRx (n from_ : Region)
  /-- MIGRATION_DECISION (R284). -/
  | migrationDecision (n : Region)
  /-- DIR_BROADCAST_APPLY (R294). -/
  | dirBroadcastApply (n : Region) (mv : Nat)
  /-- DIR_BROADCAST_ACK (R291). -/
  | dirBroadcastAck (mv : Nat)
  /-- MOVE_FENCES_DONE (R296). -/
  | moveFencesDone (mv : Nat)
  /-- MOVE_COPY_WRITTEN (R296). -/
  | moveCopyWritten (mv : Nat)
  /-- SWITCH_DRAINED (R301). -/
  | switchDrained (mv : Nat)
  /-- MOVE_ABORT (R296). -/
  | moveAbort (mv : Nat)
  /-- HOLD_QUEUE_RELEASE (R303). -/
  | holdQueueRelease (r : Region)
  /-- DATA_ARRIVAL (R316). -/
  | dataArrival (c : CtxRef) (req : Nat) (e : SpadErr)
  /-- WEEVIL_GATE (R322). -/
  | weevilGate (clu : Clu) (wv : Fin 4)
  /-- WALKER_BAG_QUEUE_FREE (R351). -/
  | walkerBagQueueFree (r : Region)
  /-- NOP (R379). -/
  | wNop (c : CtxRef)
  /-- ADD (R379). -/
  | wAdd (c : CtxRef)
  /-- SUB (R379). -/
  | wSub (c : CtxRef)
  /-- MUL (R379). -/
  | wMul (c : CtxRef)
  /-- MULHU (R379). -/
  | wMulhu (c : CtxRef)
  /-- AND (R379). -/
  | wAnd (c : CtxRef)
  /-- OR (R379). -/
  | wOr (c : CtxRef)
  /-- XOR (R379). -/
  | wXor (c : CtxRef)
  /-- SHL (R379). -/
  | wShl (c : CtxRef)
  /-- SHR (R379). -/
  | wShr (c : CtxRef)
  /-- SAR (R379). -/
  | wSar (c : CtxRef)
  /-- MINU (R379). -/
  | wMinu (c : CtxRef)
  /-- MAXU (R379). -/
  | wMaxu (c : CtxRef)
  /-- SEL (R379). -/
  | wSel (c : CtxRef)
  /-- ADDI (R379). -/
  | wAddi (c : CtxRef)
  /-- MULI (R379). -/
  | wMuli (c : CtxRef)
  /-- ANDI (R379). -/
  | wAndi (c : CtxRef)
  /-- ORI (R379). -/
  | wOri (c : CtxRef)
  /-- XORI (R379). -/
  | wXori (c : CtxRef)
  /-- SHLI (R379). -/
  | wShli (c : CtxRef)
  /-- SHRI (R379). -/
  | wShri (c : CtxRef)
  /-- MOVI (R379). -/
  | wMovi (c : CtxRef)
  /-- MOVHI (R379). -/
  | wMovhi (c : CtxRef)
  /-- SARI (R379). -/
  | wSari (c : CtxRef)
  /-- CMP (R381). -/
  | wCmp (c : CtxRef)
  /-- CMPI (R381). -/
  | wCmpi (c : CtxRef)
  /-- PLOG (R379). -/
  | wPlog (c : CtxRef)
  /-- MOVS (R382). -/
  | wMovs (c : CtxRef)
  /-- LEA (R379). -/
  | wLea (c : CtxRef)
  /-- IDX (R379). -/
  | wIdx (c : CtxRef)
  /-- LD (R384). -/
  | wLd (c : CtxRef)
  /-- ST (R384). -/
  | wSt (c : CtxRef)
  /-- LDS (R383). -/
  | wLds (c : CtxRef) (e : SpadErr)
  /-- STS (R383). -/
  | wSts (c : CtxRef) (e : SpadErr)
  /-- GATHER (R385). -/
  | wGather (c : CtxRef)
  /-- PUT (R385). -/
  | wPut (c : CtxRef)
  /-- FENCE (R422). -/
  | wFence (c : CtxRef)
  /-- DEG (R392). -/
  | wDeg (c : CtxRef)
  /-- SAMPLE (R393). -/
  | wSample (c : CtxRef)
  /-- PF (R352). -/
  | wPf (c : CtxRef)
  /-- GRL (R400). -/
  | wGrl (c : CtxRef)
  /-- GRN (R400). -/
  | wGrn (c : CtxRef)
  /-- SADD (R407). -/
  | wSadd (c : CtxRef)
  /-- SCLOSE (R410). -/
  | wSclose (c : CtxRef)
  /-- CINC (R415). -/
  | wCinc (c : CtxRef)
  /-- CWAIT (R417). -/
  | wCwait (c : CtxRef)
  /-- RAND (R396). -/
  | wRand (c : CtxRef)
  /-- BR (R421). -/
  | wBr (c : CtxRef)
  /-- END (R422). -/
  | wEnd (c : CtxRef)
  /-- TRAP (R423). -/
  | wTrap (c : CtxRef)
  /-- UNDEFINED_OPCODE (R379). -/
  | undefinedOpcode (c : CtxRef)
  /-- HELD_EXCEPTION (R426). -/
  | heldException (c : CtxRef)
  /-- MOMENTS (R446). -/
  | moments (clu : Clu)
  /-- SWARM_PIECE (R462). -/
  | swarmPiece (r : Region)
  /-- SWARM_SET_RX (R465). -/
  | swarmSetRx (clu : Clu)
  /-- MATRIX_TASK (R481). -/
  | matrixTask (clu : Clu) (e : SpadErr)
  /-- TASK_END_DRAIN (R501). -/
  | taskEndDrain (clu : Clu)
  /-- OUTPUT_PATH (R507). -/
  | outputPath (clu : Clu)
  /-- DBG_SEL_WRITE (R504). -/
  | dbgSelWrite (clu : Clu) (v : Word)
  /-- RELAY_CHUNK_RX (R515). -/
  | relayChunkRx (clu : Clu)
  /-- RELAY_CREDIT_RETURN (R516). -/
  | relayCreditReturn (clu : Clu)
  /-- UNIT_GATE (R636). -/
  | unitGate (clu : Clu) (u : UnitKind)
  /-- COMPRESS (R553). -/
  | compress (clu : Clu)
  /-- DIGEST (R554). -/
  | digest (clu : Clu)
  /-- EXPAND (R555). -/
  | expand (clu : Clu)
  /-- DIG_CLR_WRITE (R565). -/
  | digClrWrite (clu : Clu) (v : Word)
  /-- TRANSFER_POST (R572). -/
  | transferPost (r : Region)
  /-- TRANSFER_ACTIVATE (R581). -/
  | transferActivate (r : Region) (q : Fin 64)
  /-- ROW_DELIVERED (R587). -/
  | rowDelivered (r : Region) (slot : Fin 1024) (row : Nat)
  /-- TRANSFER_HALT (R592). -/
  | transferHalt (r : Region) (slot : Fin 1024)
  /-- TRANSFER_DRAIN_DONE (R592). -/
  | transferDrainDone (r : Region) (slot : Fin 1024)
  /-- COUNTER_INCREMENT (R622). -/
  | counterIncrement (r : Region) (ctr : Fin 4096)
  /-- WAIT_RELEASE (R631). -/
  | waitRelease (r : Region)
  /-- WAIT_REOFFER (R629). -/
  | waitReoffer (r : Region)
  /-- WAIT_TIMEOUT (R633). -/
  | waitTimeout (r : Region) (wait : Nat)
  /-- CTR_SET_WRITE (R624). -/
  | ctrSetWrite (r : Region) (v : Word)
  /-- CTR_INC_WRITE (R665). -/
  | ctrIncWrite (r : Region) (v : Word)
  /-- TASK_ENTRY_READ (R644). -/
  | taskEntryRead (r : Region)
  /-- ASK (R653). -/
  | ask (clu : Clu) (u : UnitKind)
  /-- TASK_DELIVER (R654). -/
  | taskDeliver (r : Region) (k : TaskKind)
  /-- SIGNAL_TASK (R647). -/
  | signalTask (r : Region)
  /-- REMOTE_INCREMENT_RX (R663). -/
  | remoteIncrementRx (h : RxHdr) (payload : List Byte)
  /-- PENDING_SIGNAL_APPLY (R663). -/
  | pendingSignalApply (e : Fin 4) (entry : Nat)
  /-- SNAP_CMD (R679). -/
  | snapCmd (v : Word)
  /-- SNAPSHOT_LATCH (R680). -/
  | snapshotLatch
  /-- SNAPSHOT_DONE (R681). -/
  | snapshotDone
  /-- ETH_CFG_WRITE (R720). -/
  | ethCfgWrite (port : Fin 4) (v : Word)
  /-- LINK_TRAINED (R721). -/
  | linkTrained (l : Fin 16)
  /-- LINK_LOSS (R721). -/
  | linkLoss (l : Fin 16)
  /-- LINK_RETRY_TIMER (R721). -/
  | linkRetryTimer (l : Fin 16)
  /-- PFC_FRAME_RX (R722). -/
  | pfcFrameRx (port : Fin 4) (mask : Byte) (quanta : List (BitVec 16))
  /-- PFC_STORM (R724). -/
  | pfcStorm (port : Fin 4) (prio : Fin 8)
  /-- NEIGHBOR_PACKET_RX (R727). -/
  | neighborPacketRx (l : Fin 16) (p : NeighborPkt)
  /-- ADDR_CHANGE (R728). -/
  | addrChange (l : Fin 16) (a : AddrInfo)
  /-- DISCOVERY_ANNOUNCE (R730). -/
  | discoveryAnnounce (l : Fin 16)
  /-- DISCOVERY_QUERY_RX (R731). -/
  | discoveryQueryRx (l : Fin 16) (own : Bool)
  /-- DISCOVERY_QUERY_ANSWER (R731). -/
  | discoveryQueryAnswer (l : Fin 16)
  /-- DISCOVERY_RX (R732). -/
  | discoveryRx (l : Fin 16) (payload : List Byte)
  /-- CM_REQ (R737). -/
  | cmReq (m : CmMsg)
  /-- CM_REP (R737). -/
  | cmRep (m : CmMsg)
  /-- CM_RTU (R737). -/
  | cmRtu (m : CmMsg)
  /-- CM_REJ (R737). -/
  | cmRej (m : CmMsg)
  /-- CM_DREQ (R739). -/
  | cmDreq (m : CmMsg)
  /-- CM_DREP (R737). -/
  | cmDrep (m : CmMsg)
  /-- RX_SEND (R734). -/
  | rxSend (h : RxHdr) (payload : List Byte)
  /-- RX_SEND_IMM (R757). -/
  | rxSendImm (h : RxHdr) (imm : BitVec 32) (payload : List Byte)
  /-- RX_WRITE (R742). -/
  | rxWrite (h : RxHdr) (va : Word) (rkey : BitVec 32) (data : List Byte)
  /-- RX_WRITE_IMM (R734). -/
  | rxWriteImm (h : RxHdr) (imm : BitVec 32) (va : Word) (rkey : BitVec 32) (data : List Byte)
  /-- RX_READ (R745). -/
  | rxRead (h : RxHdr) (va : Word) (rkey : BitVec 32) (len : Nat)
  /-- RX_FETCH_ADD (R744). -/
  | rxFetchAdd (h : RxHdr) (va : Word) (rkey : BitVec 32) (add : Word)
  /-- RX_CMP_SWAP (R744). -/
  | rxCmpSwap (h : RxHdr) (va : Word) (rkey : BitVec 32) (cmp swap : Word)
  /-- ACK_RX (R759). -/
  | ackRx (qp : Fin 16384) (psn : BitVec 24) (credits : BitVec 5)
  /-- NAK_RX (R748). -/
  | nakRx (qp : Fin 16384) (psn : BitVec 24) (k : NakKind)
  /-- ACK_TIMEOUT (R748). -/
  | ackTimeout (qp : Fin 16384)
  /-- CREDIT_ACK (R759). -/
  | creditAck (qp : Fin 16384)
  /-- WQE_WRITE (R751). -/
  | wqeWrite (qp : Fin 16384)
  /-- WQE_WRITE_IMM (R751). -/
  | wqeWriteImm (qp : Fin 16384)
  /-- WQE_SEND (R751). -/
  | wqeSend (qp : Fin 16384)
  /-- WQE_SEND_IMM (R751). -/
  | wqeSendImm (qp : Fin 16384)
  /-- WQE_READ (R751). -/
  | wqeRead (qp : Fin 16384)
  /-- WQE_FETCH_ADD (R751). -/
  | wqeFetchAdd (qp : Fin 16384)
  /-- WQE_CMP_SWAP (R751). -/
  | wqeCmpSwap (qp : Fin 16384)
  /-- WQE_SIGNAL (R757). -/
  | wqeSignal (qp : Fin 16384)
  /-- WQE_COMPLETE (R752). -/
  | wqeComplete (qp : Fin 16384)
  /-- CNP_RX (R765). -/
  | cnpRx (qp : Fin 16384)
  /-- RATE_PERIOD (R765). -/
  | ratePeriod (e : Fin 4)
  /-- EVT_STATUS_CLEAR (R785). -/
  | evtStatusClear (p : PageRef) (v : Word) (collide : Word)
  /-- EVT_SET_WRITE (R786). -/
  | evtSetWrite (p : PageRef) (v : Word)
  /-- CNT_SEL_WRITE (R931). -/
  | cntSelWrite (p : PageRef) (i : Fin 8) (v : Word)
  /-- CNT_VAL_WRITE (R784). -/
  | cntValWrite (p : PageRef) (i : Fin 8) (v : Word) (counted : Word)
  /-- PAGE_CTL_COMMIT (R780). -/
  | pageCtlCommit (p : PageRef) (v : Word)
  /-- ERR_VALID_CLEAR (R781). -/
  | errValidClear (p : PageRef) (last : ErrSel) (v : Word)
  /-- REGISTER_WRITE (R12). -/
  | registerWrite (addr : BitVec 28) (v : Word)
  /-- DOORBELL (R795). -/
  | doorbell (r : Fin 63) (v : Word)
  /-- CPL_HEAD_WRITE (R799). -/
  | cplHeadWrite (v : Word)
  /-- NOP_COMMAND (R801). -/
  | nopCommand (src : CmdSrc)
  /-- LAUNCH (R809). -/
  | launch (src : CmdSrc)
  /-- CANCEL (R809). -/
  | cancel (src : CmdSrc)
  /-- SCHED (R86). -/
  | sched (src : CmdSrc)
  /-- SCHED_CANCEL (R91). -/
  | schedCancel (src : CmdSrc)
  /-- GRAPH_LOAD (R806). -/
  | graphLoad (src : CmdSrc)
  /-- GRAPH_UNLOAD (R807). -/
  | graphUnload (src : CmdSrc)
  /-- SLOT_LOAD_BEGIN (R246). -/
  | slotLoadBegin (src : CmdSrc)
  /-- SLOT_LOAD_END (R246). -/
  | slotLoadEnd (src : CmdSrc)
  /-- SLOT_LOAD_ABORT (R246). -/
  | slotLoadAbort (src : CmdSrc)
  /-- SLOT_FREE (R246). -/
  | slotFree (src : CmdSrc)
  /-- QP_MODIFY (R739). -/
  | qpModify (src : CmdSrc)
  /-- STREAM_OPEN (R816). -/
  | streamOpen (src : CmdSrc)
  /-- STREAM_CLOSE (R816). -/
  | streamClose (src : CmdSrc)
  /-- BIND (R789). -/
  | bind (src : CmdSrc)
  /-- UNBIND (R792). -/
  | unbind (src : CmdSrc)
  /-- FW_WRITE (R916). -/
  | fwWrite (src : CmdSrc) (sigOk : Bool)
  /-- FW_ACTIVATE (R918). -/
  | fwActivate (src : CmdSrc)
  /-- STOP (R888). -/
  | stop (src : CmdSrc)
  /-- RESET (R915). -/
  | reset (src : CmdSrc)
  /-- ADMIT (R809). -/
  | admitSlot (slot : Fin 4096)
  /-- REQUEST_COMPLETE (R809). -/
  | requestComplete (slot : Fin 4096)
  /-- CANCEL_DONE (R809). -/
  | cancelDone (slot : Fin 4096)
  /-- SERVICE_REQUEST (R813). -/
  | serviceRequest (stream : Fin 16)
  /-- GET_VERSION (R910). -/
  | getVersion (src : SpdmSrc)
  /-- GET_CAPABILITIES (R910). -/
  | getCapabilities (src : SpdmSrc)
  /-- NEGOTIATE_ALGORITHMS (R910). -/
  | negotiateAlgorithms (src : SpdmSrc) (offered : Bool)
  /-- GET_DIGESTS (R910). -/
  | getDigests (src : SpdmSrc)
  /-- GET_CERTIFICATE (R910). -/
  | getCertificate (src : SpdmSrc) (slot : Byte) (offset len : BitVec 16)
  /-- CHALLENGE (R910). -/
  | challenge (src : SpdmSrc) (slot : Byte)
  /-- GET_MEASUREMENTS (R923). -/
  | getMeasurements (src : SpdmSrc) (index : Byte)
  /-- KEY_EXCHANGE (R912). -/
  | keyExchange (src : SpdmSrc) (slot : Byte) (mutualAuth : Bool)
  /-- FINISH (R910). -/
  | finish (src : SpdmSrc) (session : Fin 4) (verified : Bool) (chain : List Byte)
  /-- HEARTBEAT (R910). -/
  | heartbeat (session : Fin 4)
  /-- KEY_UPDATE (R910). -/
  | keyUpdate (session : Fin 4)
  /-- END_SESSION (R910). -/
  | endSession (session : Fin 4)
  /-- PWRD_REQ_ON (R826). -/
  | pwrdReqOn (d : Fin 199)
  /-- PWRD_REQ_RET (R826). -/
  | pwrdReqRet (d : Fin 199)
  /-- PWRD_REQ_OFF (R826). -/
  | pwrdReqOff (d : Fin 199)
  /-- DOMAIN_DRAIN_DONE (R824). -/
  | domainDrainDone (d : Fin 199)
  /-- DOMAIN_WAKE_DONE (R825). -/
  | domainWakeDone (d : Fin 199)
  /-- DOMAIN_DEMAND (R827). -/
  | domainDemand (d : Fin 199) (source : BitVec 16)
  /-- POWER_ESTIMATE (R833). -/
  | powerEstimate (watts : Nat)
  /-- PMBUS_POLL (R973). -/
  | pmbusPoll (readPin : List (Option Nat))
  /-- PMB_ALERT (R973). -/
  | pmbAlert (status : List (BitVec 16))
  /-- HOTSPOT_READING (R838). -/
  | hotspotReading (regions : List Int) (dies : List Int)
  /-- THERMAL_TRIP (R978). -/
  | thermalTrip (die : Fin 3)
  /-- SCRUB_PACE (R855). -/
  | scrubPace (stk : Region)
  /-- SCRUB_PERIOD_END (R856). -/
  | scrubPeriodEnd (stk : Region)
  /-- ROW_REPAIR (R857). -/
  | rowRepair (stk : Region) (pprLeft : Bool)
  /-- MOVE_CMD (R863). -/
  | moveCmd (r : Region) (v : Word)
  /-- GRANULE_MOVE_DONE (R863). -/
  | granuleMoveDone (r : Region)
  /-- EPOCH_ADOPT (R865). -/
  | epochAdopt (r : Region)
  /-- STACK_RETURN (R869). -/
  | stackReturn (stk : Region)
  /-- SUBST (R872). -/
  | subst (r : Region) (v : Word)
  /-- LOOPBACK_DONE (R876). -/
  | loopbackDone (l : Fin 16) (badLanes : Byte)
  /-- SVC_WATCHDOG (R53). -/
  | svcWatchdog (core : Fin 8)
  /-- RESET_RELEASE (R888). -/
  | resetRelease
  /-- ENTER_EARLY (R888). -/
  | enterEarly
  /-- ENTER_FULL (R888). -/
  | enterFull
  /-- REGION_RELEASE (R894). -/
  | regionRelease (r : Region) (pass : Bool)
  /-- IDENTITY_READY (R908). -/
  | identityReady (digest : BitVec 384)
  /-- ACTIVATION_PART_DONE (R918). -/
  | activationPartDone (rep : PartReport)
  /-- LOG_WRITE (R933). -/
  | logWrite
  /-- TELEMETRY_SAMPLE (R938). -/
  | telemetrySample
  /-- MARGIN_CMD (R942). -/
  | marginCmd (v : Word)
  /-- HALT (R946). -/
  | halt (wv : Fin 4) (ctx : Fin 512) (all : Bool)
  /-- RESUME (R316). -/
  | resume (wv : Fin 4) (ctx : Fin 512) (all : Bool)
  /-- STEP (R947). -/
  | step (wv : Fin 4) (ctx : Fin 512)
  /-- HALT_UNITS (R949). -/
  | haltUnits
  /-- RESUME_UNITS (R949). -/
  | resumeUnits
  /-- DBG_MODE_WRITE (R952). -/
  | dbgModeWrite (v : Word)
  /-- PWR_OK_RISE (R966). -/
  | pwrOkRise
  /-- PWR_OK_FALL (R965). -/
  | pwrOkFall
  /-- RESET_N_LOW (R966). -/
  | resetNLow
  /-- REFCLK_ETH_LOSS (R969). -/
  | refclkEthLoss (port : Fin 4)
  /-- REFCLK_LOSS (R969). -/
  | refclkLoss (k : Fin 3)
  /-- BOOT_STEP_DONE (R905). -/
  | bootStepDone (f : BootFindings)
  /-- FW_WRITE_COMPLETE (R916). -/
  | fwWriteComplete (readBackOk : Bool)
  /-- CORE_RESTART_DONE (R53). -/
  | coreRestartDone (core : Fin 8)
  /-- LINK_TRAINING_FAILURE (R875). -/
  | linkTrainingFailure (l : Fin 16)
  /-- FEC_UNCORRECTABLE_CODEWORD (R875). -/
  | fecUncorrectableCodeword (l : Fin 16)
  /-- PFC_PAUSE_EXPIRY (R722). -/
  | pfcPauseExpiry (port : Fin 4) (prio : Fin 8)
  /-- RDMA_READ_RESPONSE_RX (R752). -/
  | rdmaReadResponseRx (qp : Fin 16384) (data : List Byte)
  /-- TEST_PORT_INSTRUCTION (R976). -/
  | testPortInstruction (i : JtagInstr)
  deriving DecidableEq, Repr

end Sys2Proof
end

