-- ==== Sys2Proof/Decode.lean ====
section
/-! DEFINITION. The words of the operations table: no row of the table gives bits, so no word spells a command. -/

namespace Sys2Proof

/-- The command a word of the operations table spells: none, since the table gives no row any bits. -/
def decodeTableWord (_nbits _w : Nat) : Option Instr := none

end Sys2Proof
end

