-- ==== Sys2Proof/Machine/Data.lean ====
section
/-! DEFINITION. Plain data helpers of the model: sparse maps in one canonical form, bit fields of a word (R5), and
little-endian byte lists (R3). -/

namespace Sys2Proof.Machine

/-- A sparse map from numbers: keys strictly rising, no entry equal to the default of its key. -/
abbrev SMap (α : Type) := List (Nat × α)

/-- The value at a key: the entry, or the key's default. -/
def smapGet {α : Type} (d : Nat → α) : SMap α → Nat → α
  | [], k => d k
  | (k', v) :: m, k => if k = k' then v else smapGet d m k

/-- The map with an entry put in order. -/
def smapIns {α : Type} : SMap α → Nat → α → SMap α
  | [], k, v => [(k, v)]
  | (k', v') :: m, k, v =>
    if k < k' then (k, v) :: (k', v') :: m
    else if k = k' then (k, v) :: m
    else (k', v') :: smapIns m k v

/-- The map without the entry of a key. -/
def smapDel {α : Type} (m : SMap α) (k : Nat) : SMap α := m.filter (fun e => e.1 ≠ k)

/-- The map after a write: writing the default removes the entry, so equal maps are equal lists. -/
def smapSet {α : Type} [DecidableEq α] (d : Nat → α) (m : SMap α) (k : Nat) (v : α) : SMap α :=
  if v = d k then smapDel m k else smapIns m k v

/-- Keys strictly rise. -/
def smapSorted {α : Type} : SMap α → Bool
  | [] => true
  | [_] => true
  | (k, _) :: (k', v') :: m => decide (k < k') && smapSorted ((k', v') :: m)

/-- The canonical form: keys strictly rise, and no entry equals its key's default. -/
def smapWf {α : Type} [DecidableEq α] (d : Nat → α) (m : SMap α) : Bool :=
  smapSorted m && m.all (fun e => decide (e.2 ≠ d e.1))

/-- Bits [hi:lo] of a number (R5). -/
def bitsOf (n hi lo : Nat) : Nat := n / 2 ^ lo % 2 ^ (hi + 1 - lo)

/-- Field [hi:lo] of a 64-bit word, as a number (R5). -/
def fld (w : Word) (hi lo : Nat) : Nat := bitsOf w.toNat hi lo

/-- Bit i of a word. -/
def bit (w : Word) (i : Nat) : Bool := w.toNat.testBit i

/-- A word from a number, modulo 2^64. -/
def word (n : Nat) : Word := BitVec.ofNat 64 n

/-- The word with field [hi:lo] replaced. -/
def setFld (w : Word) (hi lo v : Nat) : Word :=
  let m := word (2 ^ (hi + 1) - 2 ^ lo)
  (w &&& ~~~m) ||| (word (v * 2 ^ lo) &&& m)

/-- One bit as a word. -/
def bitW (i : Nat) : Word := word (2 ^ i)

/-- A truth value as 0 or 1. -/
def b2n (b : Bool) : Nat := if b then 1 else 0

/-- A signed reading of the low n bits of a number. -/
def signedOf (n v : Nat) : Int :=
  let r := v % 2 ^ n
  if r < 2 ^ (n - 1) then (r : Int) else (r : Int) - (2 ^ n : Int)

/-- An integer reduced to n bits, two's complement. -/
def wrapInt (n : Nat) (v : Int) : Nat := (v % (2 ^ n : Int)).toNat

/-- The n bytes of a number, least significant first (R3). -/
def leBytes : Nat → Nat → List Byte
  | 0, _ => []
  | n + 1, v => BitVec.ofNat 8 v :: leBytes n (v / 256)

/-- The number a little-endian byte list spells (R3). -/
def ofLe : List Byte → Nat
  | [] => 0
  | b :: bs => b.toNat + 256 * ofLe bs

/-- The number a big-endian byte list spells (R4). -/
def ofBe (bs : List Byte) : Nat := ofLe bs.reverse

/-- Bytes [off, off + n) of a list, missing bytes zero. -/
def sliceB (bs : List Byte) (off n : Nat) : List Byte :=
  let t := (bs.drop off).take n
  t ++ List.replicate (n - t.length) 0

/-- The little-endian number at an offset of a byte list. -/
def leAt (bs : List Byte) (off n : Nat) : Nat := ofLe (sliceB bs off n)

/-- The 64-bit word at an offset of a byte list. -/
def wordAt (bs : List Byte) (off : Nat) : Word := word (leAt bs off 8)

/-- A byte list with the bytes from an offset replaced. -/
def patchB (bs : List Byte) (off : Nat) (new : List Byte) : List Byte :=
  bs.take off ++ new ++ bs.drop (off + new.length)

/-- The bytes of a list of 64-bit words. -/
def wordsBytes (ws : List Word) : List Byte := ws.flatMap (fun w => leBytes 8 w.toNat)

/-- All bytes of a list are zero. -/
def allZero (bs : List Byte) : Bool := bs.all (fun b => b == 0)

/-- Round a number up to a multiple. -/
def roundUp (n m : Nat) : Nat := (n + m - 1) / m * m

/-- The element at a position with another put in its place. -/
def setAt {α : Type} (l : List α) (i : Nat) (v : α) : List α := l.set i v

/-- Put an element into a sorted list, behind its equals. -/
def insertBy {α : Type} (lt : α → α → Bool) (x : α) : List α → List α
  | [] => [x]
  | y :: ys => if lt x y then x :: y :: ys else y :: insertBy lt x ys

/-- A list in order, equals in their old order. -/
def sortBy {α : Type} (lt : α → α → Bool) (l : List α) : List α := l.foldl (fun acc x => insertBy lt x acc) []

/-- The first position of a list whose element satisfies a test. -/
def findIdx {α : Type} (p : α → Bool) (l : List α) : Option Nat :=
  let i := l.findIdx p
  if i < l.length then some i else none

/-- The number of ones of a number below bit n. -/
def popcount (n v : Nat) : Nat := (List.range n).countP (fun i => v.testBit i)

/-- The positions of the ones of a number below bit n, ascending. -/
def onesBelow (n v : Nat) : List Nat := (List.range n).filter (fun i => v.testBit i)

end Sys2Proof.Machine
end

