-- ==== Sys2Proof/Machine/Num.lean ====
section
/-! DEFINITION. Numbers: formats and their decoding (R205, R987, R988), one correct rounding (R437, R438), the exact
accumulator and its partials (R429 to R433, R231 to R234), Philox (R701 to R703) and the CRCs (R116, R117, R557). -/

namespace Sys2Proof.Machine

/-! ## Values -/

/-- A decoded value: finite as sign and magnitude in units of 2^-149, infinite, or NaN. -/
inductive Fl where
  | fin (neg : Bool) (mag : Nat)
  | inf (neg : Bool)
  | nan
  deriving DecidableEq, Repr

/-- Positive zero. -/
def Fl.zero : Fl := .fin false 0

/-- The signed integer of a finite magnitude. -/
def signMag (neg : Bool) (mag : Nat) : Int := if neg then -(mag : Int) else (mag : Int)

/-- The integer in units of 2^-149 of a finite value; 0 otherwise. -/
def Fl.int : Fl → Int
  | .fin n m => signMag n m
  | _ => 0

/-- A binary floating-point format: exponent and fraction bits, and whether it has infinities (R988). -/
structure Fmt where
  eb     : Nat
  mb     : Nat
  hasInf : Bool
  deriving DecidableEq, Repr

/-- FP32. -/
def fp32 : Fmt := ⟨8, 23, true⟩
/-- BF16. -/
def bf16 : Fmt := ⟨8, 7, true⟩
/-- FP16. -/
def fp16 : Fmt := ⟨5, 10, true⟩
/-- FP8-E4M3. -/
def e4m3 : Fmt := ⟨4, 3, false⟩
/-- FP8-E5M2. -/
def e5m2 : Fmt := ⟨5, 2, true⟩

/-- Bytes of an element of a format. -/
def Fmt.bytes (f : Fmt) : Nat := (1 + f.eb + f.mb) / 8
/-- Exponent bias. -/
def Fmt.bias (f : Fmt) : Nat := 2 ^ (f.eb - 1) - 1
/-- Minimum normal exponent. -/
def Fmt.emin (f : Fmt) : Int := 1 - (f.bias : Int)
/-- Precision in bits. -/
def Fmt.prec (f : Fmt) : Nat := f.mb + 1

/-- Decode the bits of an element (R205): every NaN code is a NaN (R987). -/
def Fmt.decode (f : Fmt) (v : Nat) : Fl :=
  let neg := v.testBit (f.eb + f.mb)
  let e := bitsOf v (f.eb + f.mb - 1) f.mb
  let m := v % 2 ^ f.mb
  let top := 2 ^ f.eb - 1
  if f.hasInf && decide (e = top) then (if m = 0 then .inf neg else .nan)
  else if !f.hasInf && decide (e = top) && decide (m = 2 ^ f.mb - 1) then .nan
  else if e = 0 then .fin neg (m * 2 ^ (150 - f.bias - f.mb))
  else .fin neg ((2 ^ f.mb + m) * 2 ^ (e + 149 - f.bias - f.mb))

/-- The canonical quiet NaN (R987). -/
def Fmt.qnan (f : Fmt) : Nat :=
  if f.hasInf then (2 ^ f.eb - 1) * 2 ^ f.mb + 2 ^ (f.mb - 1) else 2 ^ (f.eb + f.mb) - 1

/-- The sign bit. -/
def Fmt.sign (f : Fmt) (neg : Bool) : Nat := if neg then 2 ^ (f.eb + f.mb) else 0

/-- Infinity of a sign; the largest finite magnitude where the format has none (R988). -/
def Fmt.infBits (f : Fmt) (neg : Bool) : Nat :=
  f.sign neg + (if f.hasInf then (2 ^ f.eb - 1) * 2 ^ f.mb else 2 ^ (f.eb + f.mb) - 2)

/-! ## Rounding once (R437, R438) -/

/-- How a value is rounded: to nearest, ties to even, or stochastically with 16 random bits. -/
inductive RMode where
  | rne
  | sr (r : Nat)
  deriving DecidableEq, Repr

/-- floor(log2 (n / d)) for positive n and d, as an integer. -/
def log2Q (n d : Nat) : Int :=
  let k : Int := (n.log2 : Int) - (d.log2 : Int)
  let lt := if 0 ≤ k then decide (n < d * 2 ^ k.toNat) else decide (n * 2 ^ (-k).toNat < d)
  if lt then k - 1 else k

/-- n / d rounded to an integer (R437). -/
def roundInt (n d : Nat) : RMode → Nat
  | .rne =>
    let q := n / d
    let r := n % d
    if 2 * r < d then q else if 2 * r > d then q + 1 else if q % 2 = 0 then q else q + 1
  | .sr r16 =>
    let q := n / d
    let f := (n % d) * 2 ^ 16 / d
    if f + r16 ≥ 2 ^ 16 then q + 1 else q

/-- A rounded element: its bits, and whether a finite value left the finite range (R438). -/
structure Rounded where
  bits : Nat
  ovf  : Bool
  deriving DecidableEq, Repr

/-- Round the exact value (-1)^neg × (n / d) × 2^s to a format (R437, R438). -/
def Fmt.round (f : Fmt) (mode : RMode) (neg : Bool) (n d : Nat) (s : Int) : Rounded :=
  if n = 0 then ⟨f.sign neg, false⟩
  else
    let e := max (log2Q n d + s) f.emin
    let u := e - (f.prec : Int) + 1
    let sh := s - u
    let k := if 0 ≤ sh then roundInt (n * 2 ^ sh.toNat) d mode else roundInt n (d * 2 ^ (-sh).toNat) mode
    let k' := if k = 2 ^ f.prec then 2 ^ f.mb else k
    let u' := if k = 2 ^ f.prec then u + 1 else u
    if k' < 2 ^ f.mb then ⟨f.sign neg + k', false⟩
    else
      let ef := (u' + (f.mb : Int) + (f.bias : Int)).toNat
      let bits := ef * 2 ^ f.mb + (k' - 2 ^ f.mb)
      let lim := if f.hasInf then (2 ^ f.eb - 1) * 2 ^ f.mb else 2 ^ (f.eb + f.mb) - 1
      if bits ≥ lim then ⟨f.infBits neg, true⟩ else ⟨f.sign neg + bits, false⟩

/-- Round a signed integer in units of 2^s. -/
def Fmt.roundI (f : Fmt) (mode : RMode) (x : Int) (s : Int) : Rounded :=
  f.round mode (decide (x < 0)) x.natAbs 1 s

/-- Encode a decoded value in a format by RNE or SR. -/
def Fmt.encode (f : Fmt) (mode : RMode) : Fl → Rounded
  | .fin n m => f.round mode n m 1 (-149)
  | .inf n => ⟨f.infBits n, false⟩
  | .nan => ⟨f.qnan, false⟩

/-- The IEEE 754 sum of two values, exact. An exact zero is +0 unless both addends are negative zero. -/
def Fl.add : Fl → Fl → Fl
  | .nan, _ => .nan
  | _, .nan => .nan
  | .inf a, .inf b => if a = b then .inf a else .nan
  | .inf a, _ => .inf a
  | _, .inf b => .inf b
  | .fin a m, .fin b n =>
    let x := signMag a m + signMag b n
    if x = 0 then .fin (a && b && decide (m = 0) && decide (n = 0)) 0 else .fin (decide (x < 0)) x.natAbs

/-- RNE_FP32 of the exact product of two values (R229), with IEEE 754 results for infinities and NaN. -/
def Fl.mul32 : Fl → Fl → Fl
  | .nan, _ => .nan
  | _, .nan => .nan
  | .inf a, .inf b => .inf (a != b)
  | .inf a, .fin b n => if n = 0 then .nan else .inf (a != b)
  | .fin a m, .inf b => if m = 0 then .nan else .inf (a != b)
  | .fin a m, .fin b n => fp32.decode (fp32.round .rne (a != b) (m * n) 1 (-298)).bits

/-- RNE_FP32 of a value. -/
def Fl.to32 (v : Fl) : Fl := fp32.decode (fp32.encode .rne v).bits

/-! ## Table elements (R205, R206) -/

/-- The element format of a table format code 0 to 4. -/
def tblFmt : Nat → Fmt
  | 0 => fp32
  | 1 => bf16
  | 2 => fp16
  | 3 => e4m3
  | _ => e5m2

/-- Bytes of an element of a table format (R205). -/
def tblElemBytes (fmt : Nat) : Nat := if fmt = 5 then 1 else (tblFmt fmt).bytes

/-- Elements of a piece (R205). -/
def tblPerPiece (fmt dim : Nat) : Nat := if fmt = 5 then dim else 256 / tblElemBytes fmt

/-- Bytes of a row (R205, R206). -/
def tblRowBytes (fmt dim : Nat) : Nat := if fmt = 5 then dim + 4 else dim * tblElemBytes fmt

/-- Pieces of a row (R207). -/
def tblPieces (fmt dim : Nat) : Nat := (tblRowBytes fmt dim + 255) / 256

/-- First column and number of columns of piece p (R207). -/
def pieceCols (fmt dim p : Nat) : Nat × Nat :=
  let e := tblPerPiece fmt dim
  (p * e, min dim ((p + 1) * e) - p * e)

/-- Bytes of piece p (R207). -/
def pieceBytes (fmt dim p : Nat) : Nat :=
  if fmt = 5 then dim + 4 else (pieceCols fmt dim p).2 * tblElemBytes fmt

/-- Accesses of piece p (R207). -/
def pieceAccs (fmt dim p : Nat) : Nat := (pieceBytes fmt dim p + 31) / 32

/-- RNE_FP32(s × q + o) for a Q8R element (R205). -/
def q8r (sc of : Fl) (q : Int) : Fl :=
  let prod : Fl := match sc with
    | .nan => .nan
    | .inf n => if q = 0 then .nan else .inf (n != decide (q < 0))
    | .fin n m => .fin (n != decide (q < 0)) (m * q.natAbs)
  (prod.add of).to32

/-- The n decoded elements of a piece's bytes (R205, R206). -/
def decodePiece (fmt : Nat) (bs : List Byte) (n : Nat) : List Fl :=
  if fmt = 5 then
    let sc := fp16.decode (leAt bs 0 2)
    let of := fp16.decode (leAt bs 2 2)
    (List.range n).map (fun i => q8r sc of (signedOf 8 (leAt bs (4 + i) 1)))
  else
    let f := tblFmt fmt
    (List.range n).map (fun i => f.decode (leAt bs (i * f.bytes) f.bytes))

/-! ## The exact accumulator (R429 to R433) -/

/-- An X320 value in units of 2^-149 with its non-finite code NF. -/
structure XAcc where
  x  : Int
  nf : Nat
  deriving DecidableEq, Repr

/-- The empty accumulator. -/
def XAcc.zero : XAcc := ⟨0, 0⟩

/-- Add a value (R430, R432). -/
def XAcc.add (a : XAcc) : Fl → XAcc
  | .fin n m => { a with x := a.x + signMag n m }
  | .inf n => { a with nf := a.nf ||| (if n then 2 else 1) }
  | .nan => { a with nf := a.nf ||| 3 }

/-- Add another accumulator: X exactly, codes by OR. -/
def XAcc.merge (a b : XAcc) : XAcc := ⟨a.x + b.x, a.nf ||| b.nf⟩

/-- Round an accumulator divided exactly by a count (R433, R437 to R439); X = 0 gives +0.0. -/
def XAcc.round (f : Fmt) (mode : RMode) (a : XAcc) (div : Nat) : Rounded :=
  if a.nf = 1 then ⟨f.infBits false, false⟩
  else if a.nf = 2 then ⟨f.infBits true, false⟩
  else if a.nf = 3 then ⟨f.qnan, false⟩
  else if a.x = 0 then ⟨0, false⟩
  else f.round mode (decide (a.x < 0)) a.x.natAbs (max 1 div) (-149)

/-! ## XP partials (R231 to R234) -/

/-- The ten 32-bit words of X, least significant first. -/
def xWords (x : Int) : List Nat :=
  let v := wrapInt 320 x
  (List.range 10).map (fun j => v / 2 ^ (32 * j) % 2 ^ 32)

/-- Every word above hi equals the sign extension of bit 31 of word hi (R232). -/
def xpHiOk (ws : List Nat) (hi : Nat) : Bool :=
  let ext := if (ws.getD hi 0).testBit 31 then 2 ^ 32 - 1 else 0
  (ws.drop (hi + 1)).all (fun w => w == ext)

/-- The canonical partial of an accumulator (R232, R233). -/
def XAcc.partial_ (a : XAcc) : List Byte :=
  if a.nf ≠ 0 then leBytes 4 (a.nf * 2 ^ 16)
  else
    let ws := xWords a.x
    let lo := if a.x = 0 then 0 else (findIdx (fun w => w != 0) ws).getD 0
    let hi := ((List.range 10).find? (fun j => decide (lo ≤ j) && xpHiOk ws j)).getD 9
    let wc := hi - lo + 1
    let weight := wrapInt 10 (-149 + 32 * (lo : Int))
    leBytes 4 (weight * 2 ^ 16 + wc) ++ ((ws.drop lo).take wc).flatMap (leBytes 4)

/-- Read one partial: its value if the receiver accepts the header (R234), and the bytes it spans. -/
def readPartial (bs : List Byte) : Option XAcc × Nat :=
  let h : Nat := leAt bs 0 4
  let wc : Nat := h % 2 ^ 10
  let weight := signedOf 10 (bitsOf h 25 16)
  let span : Nat := 4 + 4 * wc
  if bitsOf h 31 26 ≠ 0 ∨ bitsOf h 15 10 ≠ 0 then (none, span)
  else if wc = 0 then
    (if bitsOf h 25 18 = 0 ∧ bitsOf h 17 16 ≠ 0 then some ⟨0, bitsOf h 17 16⟩ else none, span)
  else if (-149 : Int) ≤ weight ∧ weight + ((32 * wc : Nat) : Int) ≤ 171 then
    (some ⟨signedOf (32 * wc) (leAt bs 4 (4 * wc)) * 2 ^ (weight + 149).toNat, 0⟩, span)
  else (none, span)

/-- Read n partials that follow one another; a rejected header ends the reading of the rest (R235). -/
def readPartials : Nat → List Byte → List (Option XAcc)
  | 0, _ => []
  | n + 1, bs =>
    match readPartial bs with
    | (some a, k) => some a :: readPartials n (bs.drop k)
    | (none, _) => List.replicate (n + 1) none

/-! ## Philox4x32-10 (R701 to R703) -/

/-- One round: key and counter words. -/
def philoxRound (k0 k1 : Nat) (c : Nat × Nat × Nat × Nat) : Nat × Nat × Nat × Nat :=
  let (c0, c1, c2, c3) := c
  let p0 := 0xD2511F53 * c0
  let p1 := 0xCD9E8D57 * c2
  ((p1 / 2 ^ 32) ^^^ c1 ^^^ k0, p1 % 2 ^ 32, (p0 / 2 ^ 32) ^^^ c3 ^^^ k1, p0 % 2 ^ 32)

/-- n further rounds, each after a key bump. -/
def philoxN : Nat → Nat → Nat → Nat × Nat × Nat × Nat → Nat × Nat × Nat × Nat
  | 0, _, _, c => c
  | n + 1, k0, k1, c =>
    let k0' := (k0 + 0x9E3779B9) % 2 ^ 32
    let k1' := (k1 + 0xBB67AE85) % 2 ^ 32
    philoxN n k0' k1' (philoxRound k0' k1' c)

/-- Output words 0 to 3 for a launch seed, stream, element index and step (R701 to R704). -/
def philox (seed stream elem step : Nat) : List Nat :=
  let k0 := seed % 2 ^ 32
  let k1 := seed / 2 ^ 32 % 2 ^ 32
  let c := philoxRound k0 k1 (elem % 2 ^ 32, elem / 2 ^ 32 % 2 ^ 32, step % 2 ^ 32, stream % 2 ^ 32)
  let (a, b, c, d) := philoxN 9 k0 k1 c
  [a, b, c, d]

/-- The 16 bits of a stochastic rounding: bits [31:16] of word 0 (R437). -/
def srBits (seed stream elem step : Nat) : Nat := (philox seed stream elem step).getD 0 0 / 2 ^ 16

/-- The rounding mode of a ROUND bit. -/
def rmode (sr : Bool) (seed stream elem step : Nat) : RMode :=
  if sr then .sr (srBits seed stream elem step) else .rne

/-! ## CRCs, most significant bit first, not reflected -/

/-- n steps of the register. -/
def crcBits (w poly : Nat) : Nat → Nat → Nat
  | 0, r => r
  | n + 1, r => crcBits w poly n (if r.testBit (w - 1) then ((r * 2) % 2 ^ w) ^^^ poly else (r * 2) % 2 ^ w)

/-- The CRC of a byte list (R116). -/
def crcOf (w poly init : Nat) (bs : List Byte) : Nat :=
  bs.foldl (fun r b => crcBits w poly 8 (r ^^^ (b.toNat * 2 ^ (w - 8)))) init

/-- CRC-8 (R116). -/
def crc8 (bs : List Byte) : Nat := crcOf 8 0x07 0 bs
/-- CRC-16 (R117). -/
def crc16 (bs : List Byte) : Nat := crcOf 16 0x1021 0xFFFF bs
/-- CRC-64 (R557). -/
def crc64 (bs : List Byte) : Nat := crcOf 64 0x42F0E1EBA9EA3693 0 bs

end Sys2Proof.Machine
end

