-- ==== Sys2Proof/Config.lean ====
section
/-! DEFINITION. What the spec leaves open: free values (opaque constants without a body, so that no proof can see
them), and the cryptographic primitives the spec takes from other standards. -/

namespace Sys2Proof.Config

/-- FREE VALUE. The n-th value drawn where the spec states no result (assumption 3). -/
opaque freeValue : Nat → Nat

/-- FREE VALUE. The set of a main TLB that takes the leaf of a level and page number: the spec gives the TLB 8 ways (R171) and
no index (assumption 92). -/
opaque tlbSet : Nat → Nat → Nat

/-- FREE VALUE. PA of the relocation table that the service gives a pseudo-channel, in units of 256 B (R861, assumption 99). -/
opaque relocTable : Nat → Nat

/-- FREE VALUE. SHA-384 of a byte list (FIPS 180-4), as a number of 384 bits (assumption 12). -/
opaque sha384 : List Byte → Nat

/-- FREE VALUE. The device secret the PUF yields (R908), as a number. -/
opaque pufKey : Nat

/-- FREE VALUE. HMAC-SHA-384 under the PUF-derived key (R900). -/
opaque hmac384 : List Byte → Nat

/-- FREE VALUE. The signature of the identity key over a byte list (R909, R910). -/
opaque sign : List Byte → List Byte

end Sys2Proof.Config
end

