-- ==== Sys2Proof/Machine/Registers.lean ====
section
/-! DEFINITION. The control window (R9, R775 to R787): block types and instance counts, and for each block the
registers of its page with their offsets, writable bits and reset values, from the register tables of the chapters
(R106, R157, R159, R198, R273, R312, R363, R471, R523, R525, R570, R615, R669, R672, R691, R770, R773, R818, R843,
R845, R847, R883, R886, R924, R926, R927, R928, R954, R956). -/

namespace Sys2Proof.Machine

/-- One row of a register table: offset, entries and their stride in bytes, writable bits of RW and RWL fields,
whether the writable bits are RWL, the one instance that may be written (none: every instance), the reset value, and
whether the map defines it as a count (R930). -/
structure RegRow where
  off    : Nat
  n      : Nat
  stride : Nat
  w      : Nat
  rwl    : Bool
  inst   : Option Nat
  reset  : Nat
  count  : Bool
  deriving DecidableEq, Repr

/-! Source numbers of pages (R10): (type << 10) | instance. -/

/-- Page of DEV (R787). -/
def pgDev : Nat := 0x01 * 1024
/-- Page of TIME (R787). -/
def pgTime : Nat := 0x02 * 1024
/-- Page of PWR (R787). -/
def pgPwr : Nat := 0x03 * 1024
/-- Page of PWRD instance i (R787). -/
def pgPwrd (i : Nat) : Nat := 0x04 * 1024 + i
/-- Page of THERM (R787). -/
def pgTherm : Nat := 0x05 * 1024
/-- Page of REGION instance i (R787). -/
def pgRegion (i : Nat) : Nat := 0x08 * 1024 + i
/-- Page of CLU instance i (R787). -/
def pgClu (i : Nat) : Nat := 0x09 * 1024 + i
/-- Page of WLK instance i (R787). -/
def pgWlk (i : Nat) : Nat := 0x0A * 1024 + i
/-- Page of MAT instance i (R787). -/
def pgMat (i : Nat) : Nat := 0x0B * 1024 + i
/-- Page of GMX instance i (R787). -/
def pgGmx (i : Nat) : Nat := 0x0C * 1024 + i
/-- Page of VEC instance i (R787). -/
def pgVec (i : Nat) : Nat := 0x0D * 1024 + i
/-- Page of COMET instance i (R787). -/
def pgComet (i : Nat) : Nat := 0x10 * 1024 + i
/-- Page of DISP instance i (R787). -/
def pgDisp (i : Nat) : Nat := 0x11 * 1024 + i
/-- Page of SYNC instance i (R787). -/
def pgSync (i : Nat) : Nat := 0x12 * 1024 + i
/-- Page of XLAT instance i (R787). -/
def pgXlat (i : Nat) : Nat := 0x13 * 1024 + i
/-- Page of STK instance i (R787). -/
def pgStk (i : Nat) : Nat := 0x18 * 1024 + i
/-- Page of PCH instance i (R787). -/
def pgPch (i : Nat) : Nat := 0x19 * 1024 + i
/-- Page of EMB instance i (R787). -/
def pgEmb (i : Nat) : Nat := 0x1A * 1024 + i
/-- Page of MIG instance i (R787). -/
def pgMig (i : Nat) : Nat := 0x1B * 1024 + i
/-- Page of ETH instance i (R787). -/
def pgEth (i : Nat) : Nat := 0x20 * 1024 + i
/-- Page of RDMA instance i (R787). -/
def pgRdma (i : Nat) : Nat := 0x21 * 1024 + i
/-- Page of HCMD (R787). -/
def pgHcmd : Nat := 0x22 * 1024
/-- Page of SVC instance i (R787). -/
def pgSvc (i : Nat) : Nat := 0x28 * 1024 + i
/-- Page of SEC (R787). -/
def pgSec : Nat := 0x29 * 1024
/-- Page of FWM (R787). -/
def pgFwm : Nat := 0x2A * 1024
/-- Page of TEL (R787). -/
def pgTel : Nat := 0x30 * 1024
/-- Page of LEDGER (R787). -/
def pgLedger : Nat := 0x31 * 1024
/-- Page of DBG (R787). -/
def pgDbg : Nat := 0x3F * 1024

/-- Instances of a block type (R787); 0 for a code the catalogue does not list. -/
def pageInstances : Nat → Nat
  | 0x01 => 1
  | 0x02 => 1
  | 0x03 => 1
  | 0x04 => 199
  | 0x05 => 1
  | 0x08 => 12
  | 0x09 => 156
  | 0x0A => 624
  | 0x0B => 156
  | 0x0C => 156
  | 0x0D => 156
  | 0x10 => 12
  | 0x11 => 12
  | 0x12 => 12
  | 0x13 => 13
  | 0x18 => 12
  | 0x19 => 768
  | 0x1A => 12
  | 0x1B => 12
  | 0x20 => 4
  | 0x21 => 4
  | 0x22 => 1
  | 0x28 => 8
  | 0x29 => 1
  | 0x2A => 1
  | 0x30 => 1
  | 0x31 => 1
  | 0x3F => 1
  | _ => 0

/-- Bits of EVT_STATUS a block defines (R779, the event map of its chapter). -/
def evtMask : Nat → Nat
  | 0x01 => 0xF
  | 0x02 => 0x1FF
  | 0x03 => 0xF
  | 0x04 => 0x7
  | 0x05 => 0xF
  | 0x08 => 0x3F
  | 0x09 => 0xF
  | 0x0A => 0x1F
  | 0x0B => 0x1F
  | 0x0C => 0x1F
  | 0x0D => 0x33F
  | 0x10 => 0x3F
  | 0x11 => 0xF
  | 0x12 => 0xF
  | 0x13 => 0x3F
  | 0x18 => 0x3F
  | 0x19 => 0x3F
  | 0x1A => 0x3F
  | 0x1B => 0x1F
  | 0x20 => 0x3F
  | 0x21 => 0x1F
  | 0x22 => 0x1F
  | 0x28 => 0x7
  | 0x29 => 0x7
  | 0x2A => 0xF
  | 0x30 => 0xF
  | 0x31 => 0xF
  | 0x3F => 0x7
  | _ => 0

/-! Register offsets. -/

/-- DEV.DEV_NUM (R924). -/
def oDevDevNum : Nat := 0x200
/-- DEV.CAUSE (R924). -/
def oDevCause : Nat := 0x208
/-- DEV.BOOT_STEP (R924). -/
def oDevBootStep : Nat := 0x210
/-- DEV.RELEASED (R924). -/
def oDevReleased : Nat := 0x218
/-- DEV.EARLY_ST (R924). -/
def oDevEarlySt : Nat := 0x220
/-- DEV.FULL_ST (R924). -/
def oDevFullSt : Nat := 0x228
/-- DEV.REPLACE (R924). -/
def oDevReplace : Nat := 0x230
/-- DEV.RESET_CAUSE (R924). -/
def oDevResetCause : Nat := 0x238
/-- TIME.ST_NS (R106). -/
def oTimeStNs : Nat := 0x200
/-- TIME.ST_FRAC (R106). -/
def oTimeStFrac : Nat := 0x208
/-- TIME.ST_SET (R106). -/
def oTimeStSet : Nat := 0x210
/-- TIME.SRC_CTL (R106). -/
def oTimeSrcCtl : Nat := 0x218
/-- TIME.STATUS (R106). -/
def oTimeStatus : Nat := 0x220
/-- TIME.UNC (R106). -/
def oTimeUnc : Nat := 0x228
/-- TIME.FREQ_OFS (R106). -/
def oTimeFreqOfs : Nat := 0x230
/-- TIME.SERVO (R106). -/
def oTimeServo : Nat := 0x238
/-- TIME.UNC_BASE (R106). -/
def oTimeUncBase : Nat := 0x240
/-- TIME.ASYM (R106). -/
def oTimeAsym : Nat := 0x248
/-- TIME.HOLD_RATE (R106). -/
def oTimeHoldRate : Nat := 0x250
/-- TIME.PPS_IN_TS (R106). -/
def oTimePpsInTs : Nat := 0x258
/-- TIME.PPS_OUT (R106). -/
def oTimePpsOut : Nat := 0x260
/-- TIME.SCHED_FREE (R106). -/
def oTimeSchedFree : Nat := 0x268
/-- TIME.SCHED_NEXT (R106). -/
def oTimeSchedNext : Nat := 0x270
/-- TIME.LATE_EVT (R106). -/
def oTimeLateEvt : Nat := 0x278
/-- TIME.DL_MISS (R106). -/
def oTimeDlMiss : Nat := 0x280
/-- TIME.LATE_DUE (R106). -/
def oTimeLateDue : Nat := 0x288
/-- TIME.LATE_INFO (R106). -/
def oTimeLateInfo : Nat := 0x290
/-- TIME.EVT_REFUSED (R106). -/
def oTimeEvtRefused : Nat := 0x298
/-- TIME.REFUSED_INFO (R106). -/
def oTimeRefusedInfo : Nat := 0x2A0
/-- PWR.BUDGET (R843). -/
def oPwrBudget : Nat := 0x200
/-- PWR.PEAK (R843). -/
def oPwrPeak : Nat := 0x208
/-- PWR.POWER (R843). -/
def oPwrPower : Nat := 0x210
/-- PWR.P_LEVEL (R843). -/
def oPwrPLevel : Nat := 0x218
/-- PWR.LEVEL (R843). -/
def oPwrLevel : Nat := 0x220
/-- PWR.CAUSE (R843). -/
def oPwrCause : Nat := 0x228
/-- PWR.EXC_COUNT (R843). -/
def oPwrExcCount : Nat := 0x230
/-- PWR.EXC_LONGEST (R843). -/
def oPwrExcLongest : Nat := 0x238
/-- PWR.THROTTLE_NS (R843). -/
def oPwrThrottleNs : Nat := 0x240
/-- PWR.ENERGY (R843). -/
def oPwrEnergy : Nat := 0x248
/-- PWRD.REQ (R845). -/
def oPwrdReq : Nat := 0x200
/-- PWRD.CTL (R845). -/
def oPwrdCtl : Nat := 0x208
/-- PWRD.REFUSED (R845). -/
def oPwrdRefused : Nat := 0x210
/-- PWRD.ABORTED (R845). -/
def oPwrdAborted : Nat := 0x218
/-- PWRD.LAST_REFUSER (R845). -/
def oPwrdLastRefuser : Nat := 0x220
/-- PWRD.LAST_ST (R845). -/
def oPwrdLastSt : Nat := 0x228
/-- PWRD.ENTRIES (R845). -/
def oPwrdEntries : Nat := 0x230
/-- PWRD.WAKES (R845). -/
def oPwrdWakes : Nat := 0x238
/-- THERM.DIE_TEMP (R847). -/
def oThermDieTemp : Nat := 0x200
/-- THERM.DIE_THR (R847). -/
def oThermDieThr : Nat := 0x208
/-- THERM.STK_THR (R847). -/
def oThermStkThr : Nat := 0x210
/-- THERM.JOINT (R847). -/
def oThermJoint : Nat := 0x218
/-- THERM.SHUTDOWN (R847). -/
def oThermShutdown : Nat := 0x220
/-- THERM.H_LEVEL (R847). -/
def oThermHLevel : Nat := 0x228
/-- THERM.TRIP (R847). -/
def oThermTrip : Nat := 0x230
/-- THERM.REGION_TEMP (R847). -/
def oThermRegionTemp : Nat := 0x240
/-- REGION.CLASS_WIN (R883). -/
def oRegionClassWin : Nat := 0x200
/-- REGION.SCRUB_PERIOD (R883). -/
def oRegionScrubPeriod : Nat := 0x208
/-- REGION.SCRUB_POS (R883). -/
def oRegionScrubPos : Nat := 0x210
/-- REGION.SCRUB_STATE (R883). -/
def oRegionScrubState : Nat := 0x218
/-- REGION.CLU_MAP (R883). -/
def oRegionCluMap : Nat := 0x220
/-- REGION.SUBST (R883). -/
def oRegionSubst : Nat := 0x228
/-- REGION.RELOC_DIR (R883). -/
def oRegionRelocDir : Nat := 0x230
/-- REGION.MOVE_CMD (R883). -/
def oRegionMoveCmd : Nat := 0x238
/-- REGION.MOVE_POS (R883). -/
def oRegionMovePos : Nat := 0x240
/-- REGION.MAP_EPOCH (R883). -/
def oRegionMapEpoch : Nat := 0x248
/-- REGION.RESERVE_LEFT (R883). -/
def oRegionReserveLeft : Nat := 0x250
/-- REGION.ROWS_REPAIRED (R883). -/
def oRegionRowsRepaired : Nat := 0x258
/-- REGION.BANKS_MARKED (R883). -/
def oRegionBanksMarked : Nat := 0x260
/-- REGION.RETIRED (R883). -/
def oRegionRetired : Nat := 0x268
/-- REGION.FORWARDED (R883). -/
def oRegionForwarded : Nat := 0x270
/-- REGION.RECUR_USED (R883). -/
def oRegionRecurUsed : Nat := 0x278
/-- REGION.ADDR_ERR (R883). -/
def oRegionAddrErr : Nat := 0x280
/-- CLU.SPAD_CE (R886). -/
def oCluSpadCe : Nat := 0x200
/-- CLU.SPAD_UE (R886). -/
def oCluSpadUe : Nat := 0x208
/-- CLU.UNIT_STATE (R886). -/
def oCluUnitState : Nat := 0x210
/-- CLU.UE_FIRST_ST (R886). -/
def oCluUeFirstSt : Nat := 0x218
/-- CLU.FAIL_UNIT (R886). -/
def oCluFailUnit : Nat := 0x220
/-- WLK.CTX_COUNT_A (R363). -/
def oWlkCtxCountA : Nat := 0x200
/-- WLK.CTX_COUNT_B (R363). -/
def oWlkCtxCountB : Nat := 0x208
/-- WLK.TASK (R363). -/
def oWlkTask : Nat := 0x210
/-- WLK.POS_LEFT (R363). -/
def oWlkPosLeft : Nat := 0x218
/-- WLK.ISSUED (R363). -/
def oWlkIssued : Nat := 0x220
/-- WLK.IDLE_CYC (R363). -/
def oWlkIdleCyc : Nat := 0x228
/-- WLK.GATED_CYC (R363). -/
def oWlkGatedCyc : Nat := 0x230
/-- WLK.REQ_OUT (R363). -/
def oWlkReqOut : Nat := 0x238
/-- WLK.REQ_FULL (R363). -/
def oWlkReqFull : Nat := 0x240
/-- WLK.LOADS (R363). -/
def oWlkLoads : Nat := 0x248
/-- WLK.GATHER_BYTES (R363). -/
def oWlkGatherBytes : Nat := 0x250
/-- WLK.GR_BAGS (R363). -/
def oWlkGrBags : Nat := 0x258
/-- WLK.GR_BACKP (R363). -/
def oWlkGrBackp : Nat := 0x260
/-- WLK.SAMPLES (R363). -/
def oWlkSamples : Nat := 0x268
/-- WLK.PHILOX_CALLS (R363). -/
def oWlkPhiloxCalls : Nat := 0x270
/-- WLK.HUB_SPLIT (R363). -/
def oWlkHubSplit : Nat := 0x278
/-- WLK.PF_DROP (R363). -/
def oWlkPfDrop : Nat := 0x280
/-- WLK.EXC_COUNT (R363). -/
def oWlkExcCount : Nat := 0x288
/-- WLK.EXC_NEXT (R363). -/
def oWlkExcNext : Nat := 0x290
/-- WLK.CANCELLED (R363). -/
def oWlkCancelled : Nat := 0x298
/-- WLK.TASKS_DONE (R363). -/
def oWlkTasksDone : Nat := 0x2A0
/-- MAT.TASKS_ACT (R523). -/
def oMatTasksAct : Nat := 0x200
/-- MAT.ACC_USED (R523). -/
def oMatAccUsed : Nat := 0x208
/-- MAT.PRODUCTS (R523). -/
def oMatProducts : Nat := 0x210
/-- MAT.GROUPS (R523). -/
def oMatGroups : Nat := 0x218
/-- MAT.TASKS_DONE (R523). -/
def oMatTasksDone : Nat := 0x220
/-- MAT.DESC_BAD (R523). -/
def oMatDescBad : Nat := 0x228
/-- MAT.ISSUE_CYC (R523). -/
def oMatIssueCyc : Nat := 0x230
/-- MAT.SR_STALL (R523). -/
def oMatSrStall : Nat := 0x238
/-- MAT.DRAINS (R523). -/
def oMatDrains : Nat := 0x240
/-- MAT.FENCE_CYC (R523). -/
def oMatFenceCyc : Nat := 0x248
/-- MAT.RUN_OVF (R523). -/
def oMatRunOvf : Nat := 0x250
/-- MAT.RUN_NAN (R523). -/
def oMatRunNan : Nat := 0x258
/-- MAT.RELAY_IN (R523). -/
def oMatRelayIn : Nat := 0x260
/-- MAT.RELAY_OUT (R523). -/
def oMatRelayOut : Nat := 0x268
/-- MAT.RELAY_WAIT (R523). -/
def oMatRelayWait : Nat := 0x270
/-- MAT.DBG_SEL (R523). -/
def oMatDbgSel : Nat := 0x278
/-- MAT.DBG_DATA (R523). -/
def oMatDbgData : Nat := 0x280
/-- MAT.DBG_DENIED (R523). -/
def oMatDbgDenied : Nat := 0x288
/-- GMX.TASKS_ACT (R570). -/
def oGmxTasksAct : Nat := 0x200
/-- GMX.TASKS_DONE (R570). -/
def oGmxTasksDone : Nat := 0x208
/-- GMX.DESC_BAD (R570). -/
def oGmxDescBad : Nat := 0x210
/-- GMX.TILES_OUT (R570). -/
def oGmxTilesOut : Nat := 0x218
/-- GMX.ESCAPES (R570). -/
def oGmxEscapes : Nat := 0x220
/-- GMX.TILES_IN (R570). -/
def oGmxTilesIn : Nat := 0x228
/-- GMX.TILE_BAD (R570). -/
def oGmxTileBad : Nat := 0x230
/-- GMX.BLOCKS_PRESENT (R570). -/
def oGmxBlocksPresent : Nat := 0x238
/-- GMX.BLOCKS_SKIPPED (R570). -/
def oGmxBlocksSkipped : Nat := 0x240
/-- GMX.STEPS_SPARSE (R570). -/
def oGmxStepsSparse : Nat := 0x248
/-- GMX.STEPS_DENSE (R570). -/
def oGmxStepsDense : Nat := 0x250
/-- GMX.BYTES_DENSE (R570). -/
def oGmxBytesDense : Nat := 0x258
/-- GMX.BYTES_COMP (R570). -/
def oGmxBytesComp : Nat := 0x260
/-- GMX.POISON_TILES (R570). -/
def oGmxPoisonTiles : Nat := 0x268
/-- GMX.DIG_FLUSHES (R570). -/
def oGmxDigFlushes : Nat := 0x270
/-- GMX.BAD_INFO (R570). -/
def oGmxBadInfo : Nat := 0x278
/-- GMX.DIG_CLR (R570). -/
def oGmxDigClr : Nat := 0x280
/-- GMX.DIG_POISON (R570). -/
def oGmxDigPoison : Nat := 0x288
/-- GMX.DIGEST (R570). -/
def oGmxDigest : Nat := 0x290
/-- VEC.ADDENDS (R471). -/
def oVecAddends : Nat := 0x200
/-- VEC.XP_IN (R471). -/
def oVecXpIn : Nat := 0x208
/-- VEC.XP_OUT (R471). -/
def oVecXpOut : Nat := 0x210
/-- VEC.XP_BAD (R471). -/
def oVecXpBad : Nat := 0x218
/-- VEC.ROUNDED (R471). -/
def oVecRounded : Nat := 0x220
/-- VEC.TRUNC (R471). -/
def oVecTrunc : Nat := 0x228
/-- VEC.NONFINITE (R471). -/
def oVecNonfinite : Nat := 0x230
/-- VEC.OVF (R471). -/
def oVecOvf : Nat := 0x238
/-- VEC.ACC_FREE (R471). -/
def oVecAccFree : Nat := 0x240
/-- VEC.ACC_WAIT (R471). -/
def oVecAccWait : Nat := 0x248
/-- VEC.LANE_BUSY (R471). -/
def oVecLaneBusy : Nat := 0x250
/-- VEC.FAST_BAGS (R471). -/
def oVecFastBags : Nat := 0x258
/-- VEC.MOMENTS (R471). -/
def oVecMoments : Nat := 0x260
/-- VEC.MOM_RANGE (R471). -/
def oVecMomRange : Nat := 0x268
/-- VEC.SWARM_ISSUED (R471). -/
def oVecSwarmIssued : Nat := 0x270
/-- VEC.SWARM_PIECES (R471). -/
def oVecSwarmPieces : Nat := 0x278
/-- VEC.SWARM_SHIPPED (R471). -/
def oVecSwarmShipped : Nat := 0x280
/-- VEC.SWARM_ACT (R471). -/
def oVecSwarmAct : Nat := 0x288
/-- VEC.SWARM_CANCEL (R471). -/
def oVecSwarmCancel : Nat := 0x290
/-- VEC.OUT_TILES (R525). -/
def oVecOutTiles : Nat := 0x300
/-- VEC.OUT_ELEMS (R525). -/
def oVecOutElems : Nat := 0x308
/-- VEC.ROWSTAT_ROWS (R525). -/
def oVecRowstatRows : Nat := 0x310
/-- VEC.OUT_OVF (R525). -/
def oVecOutOvf : Nat := 0x318
/-- VEC.OUT_NAN (R525). -/
def oVecOutNan : Nat := 0x320
/-- VEC.DRAINBUF_WAIT (R525). -/
def oVecDrainbufWait : Nat := 0x328
/-- COMET.BUF_BASE (R615). -/
def oCometBufBase : Nat := 0x200
/-- COMET.BUF_GRANULES (R615). -/
def oCometBufGranules : Nat := 0x208
/-- COMET.TX_CAP (R615). -/
def oCometTxCap : Nat := 0x210
/-- COMET.SLOTS_USED (R615). -/
def oCometSlotsUsed : Nat := 0x218
/-- COMET.INFLIGHT (R615). -/
def oCometInflight : Nat := 0x220
/-- COMET.POSTED (R615). -/
def oCometPosted : Nat := 0x228
/-- COMET.TX_DONE (R615). -/
def oCometTxDone : Nat := 0x230
/-- COMET.ROWS (R615). -/
def oCometRows : Nat := 0x238
/-- COMET.BYTES_RD (R615). -/
def oCometBytesRd : Nat := 0x240
/-- COMET.BYTES_WR (R615). -/
def oCometBytesWr : Nat := 0x248
/-- COMET.HALTS (R615). -/
def oCometHalts : Nat := 0x250
/-- COMET.CANCELLED (R615). -/
def oCometCancelled : Nat := 0x258
/-- COMET.CANCEL_RD (R615). -/
def oCometCancelRd : Nat := 0x260
/-- COMET.DESC_BAD (R615). -/
def oCometDescBad : Nat := 0x268
/-- COMET.TIMEOUTS (R615). -/
def oCometTimeouts : Nat := 0x270
/-- COMET.DL_DEMOTED (R615). -/
def oCometDlDemoted : Nat := 0x278
/-- COMET.WIN_FULL_CYC (R615). -/
def oCometWinFullCyc : Nat := 0x280
/-- COMET.SLOT_WAIT_CYC (R615). -/
def oCometSlotWaitCyc : Nat := 0x288
/-- COMET.POS_SEL (R615). -/
def oCometPosSel : Nat := 0x290
/-- COMET.POS_STATE (R615). -/
def oCometPosState : Nat := 0x298
/-- COMET.POS_LO (R615). -/
def oCometPosLo : Nat := 0x2A0
/-- COMET.POS_HI (R615). -/
def oCometPosHi : Nat := 0x2A8
/-- COMET.QCTL (R615). -/
def oCometQctl : Nat := 0x400
/-- COMET.QSTAT (R615). -/
def oCometQstat : Nat := 0x600
/-- DISP.WIN (R669). -/
def oDispWin : Nat := 0x200
/-- DISP.READY_A (R669). -/
def oDispReadyA : Nat := 0x208
/-- DISP.READY_B (R669). -/
def oDispReadyB : Nat := 0x210
/-- DISP.ASKS_HELD (R669). -/
def oDispAsksHeld : Nat := 0x218
/-- DISP.DELIVERED (R669). -/
def oDispDelivered : Nat := 0x220
/-- DISP.TASKS_DONE (R669). -/
def oDispTasksDone : Nat := 0x228
/-- DISP.TASK_FAIL (R669). -/
def oDispTaskFail : Nat := 0x230
/-- DISP.CANCELLED (R669). -/
def oDispCancelled : Nat := 0x238
/-- DISP.BARRIERS (R669). -/
def oDispBarriers : Nat := 0x240
/-- DISP.WIN_FULL_CYC (R669). -/
def oDispWinFullCyc : Nat := 0x248
/-- DISP.GATED_CYC (R669). -/
def oDispGatedCyc : Nat := 0x250
/-- DISP.TASK_SEL (R669). -/
def oDispTaskSel : Nat := 0x258
/-- DISP.TASK_INFO0 (R669). -/
def oDispTaskInfo0 : Nat := 0x260
/-- DISP.TASK_INFO1 (R669). -/
def oDispTaskInfo1 : Nat := 0x268
/-- DISP.RT_FIRST (R669). -/
def oDispRtFirst : Nat := 0x270
/-- SYNC.DEF_TIMEOUT (R672). -/
def oSyncDefTimeout : Nat := 0x200
/-- SYNC.CTR_SEL (R672). -/
def oSyncCtrSel : Nat := 0x208
/-- SYNC.CTR_VAL (R672). -/
def oSyncCtrVal : Nat := 0x210
/-- SYNC.CTR_BASE (R672). -/
def oSyncCtrBase : Nat := 0x218
/-- SYNC.CTR_INC (R672). -/
def oSyncCtrInc : Nat := 0x220
/-- SYNC.CTR_SET (R672). -/
def oSyncCtrSet : Nat := 0x228
/-- SYNC.WAITS (R672). -/
def oSyncWaits : Nat := 0x230
/-- SYNC.WAIT_FULL_CYC (R672). -/
def oSyncWaitFullCyc : Nat := 0x238
/-- SYNC.INCS (R672). -/
def oSyncIncs : Nat := 0x240
/-- SYNC.REMOTE_INCS (R672). -/
def oSyncRemoteIncs : Nat := 0x248
/-- SYNC.RELEASES (R672). -/
def oSyncReleases : Nat := 0x250
/-- SYNC.TIMEOUTS (R672). -/
def oSyncTimeouts : Nat := 0x258
/-- SYNC.CTR_OVF (R672). -/
def oSyncCtrOvf : Nat := 0x260
/-- SYNC.SET_REFUSED (R672). -/
def oSyncSetRefused : Nat := 0x268
/-- SYNC.TO_DETAIL (R672). -/
def oSyncToDetail : Nat := 0x270
/-- SYNC.WAIT_COUNT (R672). -/
def oSyncWaitCount : Nat := 0x278
/-- SYNC.WAIT_SEL (R672). -/
def oSyncWaitSel : Nat := 0x280
/-- SYNC.WAIT_INFO0 (R672). -/
def oSyncWaitInfo0 : Nat := 0x288
/-- SYNC.WAIT_INFO1 (R672). -/
def oSyncWaitInfo1 : Nat := 0x290
/-- SYNC.WAIT_INFO2 (R672). -/
def oSyncWaitInfo2 : Nat := 0x298
/-- SYNC.WAIT_INFO3 (R672). -/
def oSyncWaitInfo3 : Nat := 0x2A0
/-- XLAT.ROOT (R198). -/
def oXlatRoot : Nat := 0x200
/-- XLAT.CTL (R198). -/
def oXlatCtl : Nat := 0x208
/-- XLAT.INV_CMD (R198). -/
def oXlatInvCmd : Nat := 0x210
/-- XLAT.INV_ISSUED (R198). -/
def oXlatInvIssued : Nat := 0x218
/-- XLAT.INV_DONE (R198). -/
def oXlatInvDone : Nat := 0x220
/-- XLAT.RESUME (R198). -/
def oXlatResume : Nat := 0x228
/-- XLAT.TLB_HIT (R198). -/
def oXlatTlbHit : Nat := 0x230
/-- XLAT.TLB_MISS (R198). -/
def oXlatTlbMiss : Nat := 0x238
/-- XLAT.WALK_RD (R198). -/
def oXlatWalkRd : Nat := 0x240
/-- XLAT.FAULTS (R198). -/
def oXlatFaults : Nat := 0x248
/-- XLAT.FQ_STALL (R198). -/
def oXlatFqStall : Nat := 0x250
/-- XLAT.POISON_ACC (R198). -/
def oXlatPoisonAcc : Nat := 0x258
/-- XLAT.POOL_BASE (R198). -/
def oXlatPoolBase : Nat := 0x260
/-- XLAT.POOL_SIZE (R198). -/
def oXlatPoolSize : Nat := 0x268
/-- XLAT.BACK_BASE (R198). -/
def oXlatBackBase : Nat := 0x270
/-- XLAT.BACK_COUNT (R198). -/
def oXlatBackCount : Nat := 0x278
/-- XLAT.SLOTS_USED (R198). -/
def oXlatSlotsUsed : Nat := 0x280
/-- XLAT.WALKS_ACT (R198). -/
def oXlatWalksAct : Nat := 0x288
/-- STK.BAND_SPREAD (R157). -/
def oStkBandSpread : Nat := 0x200
/-- STK.BAND_DIELOC (R157). -/
def oStkBandDieloc : Nat := 0x208
/-- STK.BAND_NEAR (R157). -/
def oStkBandNear : Nat := 0x210
/-- STK.BAND_RSV (R157). -/
def oStkBandRsv : Nat := 0x218
/-- STK.RATE (R157). -/
def oStkRate : Nat := 0x220
/-- STK.TEMP (R157). -/
def oStkTemp : Nat := 0x228
/-- STK.REFRESH (R157). -/
def oStkRefresh : Nat := 0x230
/-- STK.SVC_CMD_LO (R157). -/
def oStkSvcCmdLo : Nat := 0x238
/-- STK.SVC_CMD_HI (R157). -/
def oStkSvcCmdHi : Nat := 0x240
/-- STK.SVC_RSP (R157). -/
def oStkSvcRsp : Nat := 0x248
/-- STK.PATCH_USED (R157). -/
def oStkPatchUsed : Nat := 0x250
/-- STK.LINK_RETRY (R157). -/
def oStkLinkRetry : Nat := 0x258
/-- STK.BAD_CMD (R157). -/
def oStkBadCmd : Nat := 0x260
/-- STK.CE (R157). -/
def oStkCe : Nat := 0x268
/-- STK.UE (R157). -/
def oStkUe : Nat := 0x270
/-- STK.POISON_RD (R157). -/
def oStkPoisonRd : Nat := 0x278
/-- STK.RETRAINS (R157). -/
def oStkRetrains : Nat := 0x280
/-- STK.SLOT_HWM (R157). -/
def oStkSlotHwm : Nat := 0x288
/-- STK.SVC_BUSY (R157). -/
def oStkSvcBusy : Nat := 0x290
/-- PCH.QOCC (R159). -/
def oPchQocc : Nat := 0x200
/-- PCH.RETRAIN_ST (R159). -/
def oPchRetrainSt : Nat := 0x208
/-- PCH.RETRAIN_DUR (R159). -/
def oPchRetrainDur : Nat := 0x210
/-- PCH.RETRAIN_MERGED (R159). -/
def oPchRetrainMerged : Nat := 0x218
/-- PCH.CONFLICTS (R159). -/
def oPchConflicts : Nat := 0x220
/-- PCH.CE (R159). -/
def oPchCe : Nat := 0x228
/-- PCH.UE (R159). -/
def oPchUe : Nat := 0x230
/-- PCH.PATCHED_ROWS (R159). -/
def oPchPatchedRows : Nat := 0x238
/-- PCH.MARGIN_T (R159). -/
def oPchMarginT : Nat := 0x240
/-- PCH.MARGIN_V (R159). -/
def oPchMarginV : Nat := 0x248
/-- PCH.BYTES_RD (R159). -/
def oPchBytesRd : Nat := 0x250
/-- PCH.BYTES_WR (R159). -/
def oPchBytesWr : Nat := 0x258
/-- EMB.TBL_BASE (R273). -/
def oEmbTblBase : Nat := 0x200
/-- EMB.TBL_COUNT (R273). -/
def oEmbTblCount : Nat := 0x208
/-- EMB.TBL_INV (R273). -/
def oEmbTblInv : Nat := 0x210
/-- EMB.BAGS (R273). -/
def oEmbBags : Nat := 0x218
/-- EMB.ROWS_POOLED (R273). -/
def oEmbRowsPooled : Nat := 0x220
/-- EMB.ROWS_RAW (R273). -/
def oEmbRowsRaw : Nat := 0x228
/-- EMB.XP_RECV (R273). -/
def oEmbXpRecv : Nat := 0x230
/-- EMB.XP_BAD (R273). -/
def oEmbXpBad : Nat := 0x238
/-- EMB.IDX_INVALID (R273). -/
def oEmbIdxInvalid : Nat := 0x240
/-- EMB.IDX_MISSING (R273). -/
def oEmbIdxMissing : Nat := 0x248
/-- EMB.BAG_EMPTY (R273). -/
def oEmbBagEmpty : Nat := 0x250
/-- EMB.POISON_BAGS (R273). -/
def oEmbPoisonBags : Nat := 0x258
/-- EMB.STAGE_HIT (R273). -/
def oEmbStageHit : Nat := 0x260
/-- EMB.STAGE_DROP (R273). -/
def oEmbStageDrop : Nat := 0x268
/-- EMB.UPD_ROWS (R273). -/
def oEmbUpdRows : Nat := 0x270
/-- EMB.UPD_MERGED (R273). -/
def oEmbUpdMerged : Nat := 0x278
/-- EMB.UPD_DUP (R273). -/
def oEmbUpdDup : Nat := 0x280
/-- EMB.SWITCHES (R273). -/
def oEmbSwitches : Nat := 0x288
/-- EMB.SWITCH_PAUSE_NS (R273). -/
def oEmbSwitchPauseNs : Nat := 0x290
/-- EMB.SLOT_CONFLICT (R273). -/
def oEmbSlotConflict : Nat := 0x298
/-- EMB.GPOOL_OUT (R273). -/
def oEmbGpoolOut : Nat := 0x2A0
/-- EMB.DESC_CACHE (R273). -/
def oEmbDescCache : Nat := 0x2A8
/-- EMB.TBL_BAD (R273). -/
def oEmbTblBad : Nat := 0x2B0
/-- MIG.CTL (R312). -/
def oMigCtl : Nat := 0x200
/-- MIG.WIN_NS (R312). -/
def oMigWinNs : Nat := 0x208
/-- MIG.THRESH (R312). -/
def oMigThresh : Nat := 0x210
/-- MIG.ROW_LIMITS (R312). -/
def oMigRowLimits : Nat := 0x218
/-- MIG.COPY_BUDGET (R312). -/
def oMigCopyBudget : Nat := 0x220
/-- MIG.POOL_BASE (R312). -/
def oMigPoolBase : Nat := 0x228
/-- MIG.POOL_GRANULES (R312). -/
def oMigPoolGranules : Nat := 0x230
/-- MIG.POOL_FREE (R312). -/
def oMigPoolFree : Nat := 0x238
/-- MIG.EPOCH (R312). -/
def oMigEpoch : Nat := 0x240
/-- MIG.LOAD (R312). -/
def oMigLoad : Nat := 0x248
/-- MIG.LOAD_MEAN (R312). -/
def oMigLoadMean : Nat := 0x250
/-- MIG.MOVES_STARTED (R312). -/
def oMigMovesStarted : Nat := 0x258
/-- MIG.MOVES_DONE (R312). -/
def oMigMovesDone : Nat := 0x260
/-- MIG.MOVES_ABORTED (R312). -/
def oMigMovesAborted : Nat := 0x268
/-- MIG.ACTIVE (R312). -/
def oMigActive : Nat := 0x270
/-- MIG.HELD (R312). -/
def oMigHeld : Nat := 0x278
/-- MIG.HOLD_FULL (R312). -/
def oMigHoldFull : Nat := 0x280
/-- MIG.SW_WAIT (R312). -/
def oMigSwWait : Nat := 0x288
/-- MIG.DIR_FULL (R312). -/
def oMigDirFull : Nat := 0x290
/-- MIG.POOL_FULL (R312). -/
def oMigPoolFull : Nat := 0x298
/-- MIG.OLD_READS (R312). -/
def oMigOldReads : Nat := 0x2A0
/-- MIG.HOT_TOP (R312). -/
def oMigHotTop : Nat := 0x2A8
/-- MIG.HOT_CNT (R312). -/
def oMigHotCnt : Nat := 0x2B0
/-- MIG.RPT_LATE (R312). -/
def oMigRptLate : Nat := 0x2B8
/-- ETH.CFG (R770). -/
def oEthCfg : Nat := 0x200
/-- ETH.LINK_STATE (R770). -/
def oEthLinkState : Nat := 0x208
/-- ETH.LINK_SEL (R770). -/
def oEthLinkSel : Nat := 0x210
/-- ETH.MAC (R770). -/
def oEthMac : Nat := 0x218
/-- ETH.IPV4 (R770). -/
def oEthIpv4 : Nat := 0x220
/-- ETH.IPV6_HI (R770). -/
def oEthIpv6Hi : Nat := 0x228
/-- ETH.IPV6_LO (R770). -/
def oEthIpv6Lo : Nat := 0x230
/-- ETH.IPV6_INFO (R770). -/
def oEthIpv6Info : Nat := 0x238
/-- ETH.FEC_CORR (R770). -/
def oEthFecCorr : Nat := 0x240
/-- ETH.FEC_UNCORR (R770). -/
def oEthFecUncorr : Nat := 0x248
/-- ETH.RX_FRAMES (R770). -/
def oEthRxFrames : Nat := 0x250
/-- ETH.TX_FRAMES (R770). -/
def oEthTxFrames : Nat := 0x258
/-- ETH.FCS_ERR (R770). -/
def oEthFcsErr : Nat := 0x260
/-- ETH.LINK_DOWNS (R770). -/
def oEthLinkDowns : Nat := 0x268
/-- ETH.DROP (R770). -/
def oEthDrop : Nat := 0x270
/-- ETH.PFC_THR (R770). -/
def oEthPfcThr : Nat := 0x278
/-- ETH.PFC_RX (R770). -/
def oEthPfcRx : Nat := 0x280
/-- ETH.PFC_TX (R770). -/
def oEthPfcTx : Nat := 0x288
/-- ETH.PFC_STORM (R770). -/
def oEthPfcStorm : Nat := 0x290
/-- ETH.ECN_CE_RX (R770). -/
def oEthEcnCeRx : Nat := 0x298
/-- ETH.DISC_CTL (R770). -/
def oEthDiscCtl : Nat := 0x2A0
/-- ETH.DISC_TX (R770). -/
def oEthDiscTx : Nat := 0x2A8
/-- ETH.DISC_RX (R770). -/
def oEthDiscRx : Nat := 0x2B0
/-- ETH.DISC_NEXT (R770). -/
def oEthDiscNext : Nat := 0x2B8
/-- ETH.RX_BYTES (R770). -/
def oEthRxBytes : Nat := 0x2C0
/-- RDMA.MR_BASE (R773). -/
def oRdmaMrBase : Nat := 0x200
/-- RDMA.QPC_BASE (R773). -/
def oRdmaQpcBase : Nat := 0x208
/-- RDMA.RC_PARAM (R773). -/
def oRdmaRcParam : Nat := 0x210
/-- RDMA.QP_CONN (R773). -/
def oRdmaQpConn : Nat := 0x218
/-- RDMA.PSIG (R773). -/
def oRdmaPsig : Nat := 0x220
/-- RDMA.TX_MSGS (R773). -/
def oRdmaTxMsgs : Nat := 0x228
/-- RDMA.RX_MSGS (R773). -/
def oRdmaRxMsgs : Nat := 0x230
/-- RDMA.TX_BYTES (R773). -/
def oRdmaTxBytes : Nat := 0x238
/-- RDMA.RX_BYTES (R773). -/
def oRdmaRxBytes : Nat := 0x240
/-- RDMA.RETX (R773). -/
def oRdmaRetx : Nat := 0x248
/-- RDMA.DUP_RX (R773). -/
def oRdmaDupRx : Nat := 0x250
/-- RDMA.NAK_TX (R773). -/
def oRdmaNakTx : Nat := 0x258
/-- RDMA.NAK_RX (R773). -/
def oRdmaNakRx : Nat := 0x260
/-- RDMA.CNP_TX (R773). -/
def oRdmaCnpTx : Nat := 0x268
/-- RDMA.CNP_RX (R773). -/
def oRdmaCnpRx : Nat := 0x270
/-- RDMA.SIG_RX (R773). -/
def oRdmaSigRx : Nat := 0x278
/-- RDMA.SIG_BAD (R773). -/
def oRdmaSigBad : Nat := 0x280
/-- RDMA.FRAME_BAD (R773). -/
def oRdmaFrameBad : Nat := 0x288
/-- RDMA.QP_ERR (R773). -/
def oRdmaQpErr : Nat := 0x290
/-- RDMA.SQ_OVF (R773). -/
def oRdmaSqOvf : Nat := 0x298
/-- RDMA.POISON (R773). -/
def oRdmaPoison : Nat := 0x2A0
/-- RDMA.QP_SEL (R773). -/
def oRdmaQpSel : Nat := 0x2A8
/-- RDMA.QP_INFO (R773). -/
def oRdmaQpInfo : Nat := 0x2B0
/-- RDMA.QP_WSN (R773). -/
def oRdmaQpWsn : Nat := 0x2B8
/-- RDMA.QP_CREDIT (R773). -/
def oRdmaQpCredit : Nat := 0x2C0
/-- HCMD.OWNER_ID (R818). -/
def oHcmdOwnerId : Nat := 0x200
/-- HCMD.RING_SEL (R818). -/
def oHcmdRingSel : Nat := 0x208
/-- HCMD.RING_CTL (R818). -/
def oHcmdRingCtl : Nat := 0x210
/-- HCMD.CMD_BASE (R818). -/
def oHcmdCmdBase : Nat := 0x218
/-- HCMD.CPL_VA (R818). -/
def oHcmdCplVa : Nat := 0x220
/-- HCMD.CPL_RKEY (R818). -/
def oHcmdCplRkey : Nat := 0x228
/-- HCMD.RING_POS (R818). -/
def oHcmdRingPos : Nat := 0x230
/-- HCMD.CPL_HEAD (R818). -/
def oHcmdCplHead : Nat := 0x238
/-- HCMD.NOTIFY (R818). -/
def oHcmdNotify : Nat := 0x240
/-- HCMD.ADMIT (R818). -/
def oHcmdAdmit : Nat := 0x248
/-- HCMD.CMDS (R818). -/
def oHcmdCmds : Nat := 0x250
/-- HCMD.CMD_CONFLICT (R818). -/
def oHcmdCmdConflict : Nat := 0x258
/-- HCMD.LAUNCHES (R818). -/
def oHcmdLaunches : Nat := 0x260
/-- HCMD.REQ_DONE (R818). -/
def oHcmdReqDone : Nat := 0x268
/-- HCMD.REQ_FAIL (R818). -/
def oHcmdReqFail : Nat := 0x270
/-- HCMD.CPL_FULL_CYC (R818). -/
def oHcmdCplFullCyc : Nat := 0x278
/-- HCMD.GRAPHS (R818). -/
def oHcmdGraphs : Nat := 0x280
/-- HCMD.STREAMS (R818). -/
def oHcmdStreams : Nat := 0x288
/-- HCMD.SVC_REQS (R818). -/
def oHcmdSvcReqs : Nat := 0x290
/-- HCMD.SVC_REJECT (R818). -/
def oHcmdSvcReject : Nat := 0x298
/-- HCMD.SLOT_SEL (R818). -/
def oHcmdSlotSel : Nat := 0x2A0
/-- HCMD.SLOT_INFO (R818). -/
def oHcmdSlotInfo : Nat := 0x2A8
/-- HCMD.DOORBELL (R818). -/
def oHcmdDoorbell : Nat := 0x400
/-- SVC.WDOG (R926). -/
def oSvcWdog : Nat := 0x200
/-- SVC.IMAGE (R926). -/
def oSvcImage : Nat := 0x208
/-- SVC.SERVICES (R926). -/
def oSvcServices : Nat := 0x210
/-- SVC.RESTARTS (R926). -/
def oSvcRestarts : Nat := 0x218
/-- SVC.ECC_CE (R926). -/
def oSvcEccCe : Nat := 0x220
/-- SVC.ECC_UE (R926). -/
def oSvcEccUe : Nat := 0x228
/-- SVC.HEARTBEAT (R926). -/
def oSvcHeartbeat : Nat := 0x230
/-- SEC.SESSIONS (R927). -/
def oSecSessions : Nat := 0x200
/-- SEC.SPDM_MSGS (R927). -/
def oSecSpdmMsgs : Nat := 0x208
/-- SEC.SPDM_ERR (R927). -/
def oSecSpdmErr : Nat := 0x210
/-- SEC.AUTH_FAIL (R927). -/
def oSecAuthFail : Nat := 0x218
/-- SEC.MEAS_CHG (R927). -/
def oSecMeasChg : Nat := 0x220
/-- SEC.ID_DIGEST (R927). -/
def oSecIdDigest : Nat := 0x240
/-- SEC.MEAS (R927). -/
def oSecMeas : Nat := 0x400
/-- FWM.ACTIVE (R928). -/
def oFwmActive : Nat := 0x200
/-- FWM.NEXT (R928). -/
def oFwmNext : Nat := 0x208
/-- FWM.PROGRESS (R928). -/
def oFwmProgress : Nat := 0x210
/-- FWM.COMPAT_INFO (R928). -/
def oFwmCompatInfo : Nat := 0x218
/-- FWM.WRITES (R928). -/
def oFwmWrites : Nat := 0x220
/-- FWM.ACTIVATIONS (R928). -/
def oFwmActivations : Nat := 0x228
/-- FWM.REFUSED (R928). -/
def oFwmRefused : Nat := 0x230
/-- FWM.ACT_FAIL (R928). -/
def oFwmActFail : Nat := 0x238
/-- FWM.LAST_REFUSE (R928). -/
def oFwmLastRefuse : Nat := 0x240
/-- FWM.SLOT_A (R928). -/
def oFwmSlotA : Nat := 0x310
/-- FWM.SLOT_B (R928). -/
def oFwmSlotB : Nat := 0x318
/-- TEL.CTL (R954). -/
def oTelCtl : Nat := 0x200
/-- TEL.PERIOD (R954). -/
def oTelPeriod : Nat := 0x208
/-- TEL.QP (R954). -/
def oTelQp : Nat := 0x210
/-- TEL.RVA (R954). -/
def oTelRva : Nat := 0x218
/-- TEL.RKEY (R954). -/
def oTelRkey : Nat := 0x220
/-- TEL.REC_BYTES (R954). -/
def oTelRecBytes : Nat := 0x228
/-- TEL.SEQ (R954). -/
def oTelSeq : Nat := 0x230
/-- TEL.SKIPPED (R954). -/
def oTelSkipped : Nat := 0x238
/-- TEL.LOG_BASE (R954). -/
def oTelLogBase : Nat := 0x240
/-- TEL.LOG_LOG (R954). -/
def oTelLogLog : Nat := 0x248
/-- TEL.LOG_TAIL (R954). -/
def oTelLogTail : Nat := 0x250
/-- TEL.LOG_HEAD (R954). -/
def oTelLogHead : Nat := 0x258
/-- TEL.LOG_LOST (R954). -/
def oTelLogLost : Nat := 0x260
/-- TEL.LOG_TYPES (R954). -/
def oTelLogTypes : Nat := 0x268
/-- TEL.MARGIN_CMD (R954). -/
def oTelMarginCmd : Nat := 0x270
/-- TEL.MARGIN_VA (R954). -/
def oTelMarginVa : Nat := 0x278
/-- TEL.MARGIN_MIN (R954). -/
def oTelMarginMin : Nat := 0x280
/-- TEL.MARGIN_STATE (R954). -/
def oTelMarginState : Nat := 0x288
/-- TEL.SEL_COUNT (R954). -/
def oTelSelCount : Nat := 0x290
/-- TEL.SEL (R954). -/
def oTelSel : Nat := 0x800
/-- LEDGER.SNAP_AT (R691). -/
def oLedgerSnapAt : Nat := 0x200
/-- LEDGER.SNAP_CMD (R691). -/
def oLedgerSnapCmd : Nat := 0x208
/-- LEDGER.SNAP_STATUS (R691). -/
def oLedgerSnapStatus : Nat := 0x210
/-- LEDGER.SNAP_ST (R691). -/
def oLedgerSnapSt : Nat := 0x218
/-- LEDGER.SNAP_COUNT (R691). -/
def oLedgerSnapCount : Nat := 0x220
/-- LEDGER.CAP (R691). -/
def oLedgerCap : Nat := 0x300
/-- LEDGER.FREE (R691). -/
def oLedgerFree : Nat := 0x308
/-- LEDGER.LENT (R691). -/
def oLedgerLent : Nat := 0x310
/-- LEDGER.HELD (R691). -/
def oLedgerHeld : Nat := 0x318
/-- LEDGER.TRANSIT (R691). -/
def oLedgerTransit : Nat := 0x320
/-- LEDGER.OWNED (R691). -/
def oLedgerOwned : Nat := 0x328
/-- LEDGER.STATUS (R691). -/
def oLedgerStatus : Nat := 0x330
/-- LEDGER.MISMATCH (R691). -/
def oLedgerMismatch : Nat := 0x338
/-- DBG.CLU_SEL (R956). -/
def oDbgCluSel : Nat := 0x200
/-- DBG.MODE (R956). -/
def oDbgMode : Nat := 0x208
/-- DBG.MODE_MAP0 (R956). -/
def oDbgModeMap0 : Nat := 0x210
/-- DBG.MODE_MAP1 (R956). -/
def oDbgModeMap1 : Nat := 0x218
/-- DBG.MODE_MAP2 (R956). -/
def oDbgModeMap2 : Nat := 0x220
/-- DBG.CTX_CMD (R956). -/
def oDbgCtxCmd : Nat := 0x228
/-- DBG.CTX_STATUS (R956). -/
def oDbgCtxStatus : Nat := 0x230
/-- DBG.REG_SEL (R956). -/
def oDbgRegSel : Nat := 0x238
/-- DBG.REG_DATA (R956). -/
def oDbgRegData : Nat := 0x240
/-- DBG.STEPS (R956). -/
def oDbgSteps : Nat := 0x248
/-- DBG.HALTS (R956). -/
def oDbgHalts : Nat := 0x250
/-- DBG.DENIED (R956). -/
def oDbgDenied : Nat := 0x258

/-- Registers of the DEV page. -/
def regsDev : List RegRow := [
  ⟨0x200, 1, 8, 0xFFF, true, none, 0x0, false⟩,
  ⟨0x208, 1, 8, 0x0, false, none, 0x0, false⟩,
  ⟨0x210, 1, 8, 0x0, false, none, 0x0, false⟩,
  ⟨0x218, 1, 8, 0x0, false, none, 0x0, false⟩,
  ⟨0x220, 1, 8, 0x0, false, none, 0x0, false⟩,
  ⟨0x228, 1, 8, 0x0, false, none, 0x0, false⟩,
  ⟨0x230, 1, 8, 0x0, false, none, 0x0, false⟩,
  ⟨0x238, 1, 8, 0x0, false, none, 0x0, false⟩]

/-- Registers of the TIME page. -/
def regsTime : List RegRow := [
  ⟨0x200, 1, 8, 0x0, false, none, 0x0, false⟩,
  ⟨0x208, 1, 8, 0x0, false, none, 0x0, false⟩,
  ⟨0x210, 1, 8, 0x0, false, none, 0x0, false⟩,
  ⟨0x218, 1, 8, 0xFF0F71FE, false, none, 0x2, false⟩,
  ⟨0x220, 1, 8, 0x0, false, none, 0x0, false⟩,
  ⟨0x228, 1, 8, 0x0, false, none, 0xFFFFFFFF, false⟩,
  ⟨0x230, 1, 8, 0x0, false, none, 0x0, false⟩,
  ⟨0x238, 1, 8, 0xFF, false, none, 0x41, false⟩,
  ⟨0x240, 1, 8, 0xFFFFFFFF, false, none, 0x0, false⟩,
  ⟨0x248, 1, 8, 0xFFFFFFFF, false, none, 0x0, false⟩,
  ⟨0x250, 1, 8, 0xFFFFFFFF, false, none, 0x32, false⟩,
  ⟨0x258, 1, 8, 0x0, false, none, 0x0, false⟩,
  ⟨0x260, 1, 8, 0xFFFFFFFF, false, none, 0x30D40, false⟩,
  ⟨0x268, 1, 8, 0x0, false, none, 0x200, false⟩,
  ⟨0x270, 1, 8, 0x0, false, none, 0xFFFFFFFFFFFFFFFF, false⟩,
  ⟨0x278, 1, 8, 0x0, false, none, 0x0, true⟩,
  ⟨0x280, 1, 8, 0x0, false, none, 0x0, true⟩,
  ⟨0x288, 1, 8, 0x0, false, none, 0x0, false⟩,
  ⟨0x290, 1, 8, 0x0, false, none, 0x0, false⟩,
  ⟨0x298, 1, 8, 0x0, false, none, 0x0, true⟩,
  ⟨0x2A0, 1, 8, 0x0, false, none, 0x0, false⟩]

/-- Registers of the PWR page. -/
def regsPwr : List RegRow := [
  ⟨0x200, 1, 8, 0xFFFF, false, none, 0x578, false⟩,
  ⟨0x208, 1, 8, 0xFFFF, false, none, 0x672, false⟩,
  ⟨0x210, 1, 8, 0x0, false, none, 0x0, false⟩,
  ⟨0x218, 1, 8, 0x0, false, none, 0x0, false⟩,
  ⟨0x220, 1, 8, 0x0, false, none, 0x0, false⟩,
  ⟨0x228, 1, 8, 0x0, false, none, 0x0, false⟩,
  ⟨0x230, 1, 8, 0x0, false, none, 0x0, true⟩,
  ⟨0x238, 1, 8, 0x0, false, none, 0x0, false⟩,
  ⟨0x240, 1, 8, 0x0, false, none, 0x0, true⟩,
  ⟨0x248, 1, 8, 0x0, false, none, 0x0, true⟩]

/-- Registers of the PWRD page. -/
def regsPwrd : List RegRow := [
  ⟨0x200, 1, 8, 0x0, false, none, 0x0, false⟩,
  ⟨0x208, 1, 8, 0x1, false, none, 0x1, false⟩,
  ⟨0x210, 1, 8, 0x0, false, none, 0x0, true⟩,
  ⟨0x218, 1, 8, 0x0, false, none, 0x0, true⟩,
  ⟨0x220, 1, 8, 0x0, false, none, 0x0, false⟩,
  ⟨0x228, 1, 8, 0x0, false, none, 0x0, false⟩,
  ⟨0x230, 1, 8, 0x0, false, none, 0x0, true⟩,
  ⟨0x238, 1, 8, 0x0, false, none, 0x0, true⟩]

/-- Registers of the THERM page. -/
def regsTherm : List RegRow := [
  ⟨0x200, 1, 8, 0x0, false, none, 0x0, false⟩,
  ⟨0x208, 1, 8, 0xFFFFFFFF, false, none, 0x56E6964, false⟩,
  ⟨0x210, 1, 8, 0x0, false, none, 0x5C695F55, false⟩,
  ⟨0x218, 1, 8, 0x0, false, none, 0x0, false⟩,
  ⟨0x220, 1, 8, 0x0, false, none, 0x0, false⟩,
  ⟨0x228, 1, 8, 0x0, false, none, 0x0, false⟩,
  ⟨0x230, 1, 8, 0x0, false, none, 0x7D, false⟩,
  ⟨0x240, 12, 8, 0x0, false, none, 0x0, false⟩]

/-- Registers of the REGION page. -/
def regsRegion : List RegRow := [
  ⟨0x200, 1, 8, 0xFFFFFFFF, false, none, 0x258, false⟩,
  ⟨0x208, 1, 8, 0xFFFFFFFF, false, none, 0x15180, false⟩,
  ⟨0x210, 1, 8, 0x0, false, none, 0x0, false⟩,
  ⟨0x218, 1, 8, 0x0, false, none, 0x1, false⟩,
  ⟨0x220, 1, 8, 0x0, false, none, 0x0, false⟩,
  ⟨0x228, 1, 8, 0x0, false, none, 0x0, false⟩,
  ⟨0x230, 1, 8, 0x3FFFFFFFF00, false, some 0, 0x0, false⟩,
  ⟨0x238, 1, 8, 0x0, false, none, 0x0, false⟩,
  ⟨0x240, 1, 8, 0x0, false, none, 0x0, false⟩,
  ⟨0x248, 1, 8, 0x0, false, none, 0x0, true⟩,
  ⟨0x250, 1, 8, 0x0, false, none, 0x0, false⟩,
  ⟨0x258, 1, 8, 0x0, false, none, 0x0, false⟩,
  ⟨0x260, 1, 8, 0x0, false, none, 0x0, true⟩,
  ⟨0x268, 1, 8, 0x0, false, none, 0x0, false⟩,
  ⟨0x270, 1, 8, 0x0, false, none, 0x0, true⟩,
  ⟨0x278, 1, 8, 0x0, false, none, 0x0, false⟩,
  ⟨0x280, 1, 8, 0x0, false, none, 0x0, true⟩]

/-- Registers of the CLU page. -/
def regsClu : List RegRow := [
  ⟨0x200, 1, 8, 0x0, false, none, 0x0, true⟩,
  ⟨0x208, 1, 8, 0x0, false, none, 0x0, true⟩,
  ⟨0x210, 1, 8, 0x0, false, none, 0x0, true⟩,
  ⟨0x218, 1, 8, 0x0, false, none, 0x0, false⟩,
  ⟨0x220, 1, 8, 0x0, false, none, 0x0, false⟩]

/-- Registers of the WLK page. -/
def regsWlk : List RegRow := [
  ⟨0x200, 1, 8, 0x0, false, none, 0x200, false⟩,
  ⟨0x208, 1, 8, 0x0, false, none, 0x0, false⟩,
  ⟨0x210, 1, 8, 0x0, false, none, 0x0, false⟩,
  ⟨0x218, 1, 8, 0x0, false, none, 0x0, false⟩,
  ⟨0x220, 1, 8, 0x0, false, none, 0x0, true⟩,
  ⟨0x228, 1, 8, 0x0, false, none, 0x0, true⟩,
  ⟨0x230, 1, 8, 0x0, false, none, 0x0, true⟩,
  ⟨0x238, 1, 8, 0x0, false, none, 0x0, false⟩,
  ⟨0x240, 1, 8, 0x0, false, none, 0x0, true⟩,
  ⟨0x248, 1, 8, 0x0, false, none, 0x0, true⟩,
  ⟨0x250, 1, 8, 0x0, false, none, 0x0, true⟩,
  ⟨0x258, 1, 8, 0x0, false, none, 0x0, true⟩,
  ⟨0x260, 1, 8, 0x0, false, none, 0x0, true⟩,
  ⟨0x268, 1, 8, 0x0, false, none, 0x0, true⟩,
  ⟨0x270, 1, 8, 0x0, false, none, 0x0, true⟩,
  ⟨0x278, 1, 8, 0x0, false, none, 0x0, true⟩,
  ⟨0x280, 1, 8, 0x0, false, none, 0x0, true⟩,
  ⟨0x288, 1, 8, 0x0, false, none, 0x0, true⟩,
  ⟨0x290, 1, 8, 0x0, false, none, 0x0, false⟩,
  ⟨0x298, 1, 8, 0x0, false, none, 0x0, true⟩,
  ⟨0x2A0, 1, 8, 0x0, false, none, 0x0, true⟩]

/-- Registers of the MAT page. -/
def regsMat : List RegRow := [
  ⟨0x200, 1, 8, 0x0, false, none, 0x0, false⟩,
  ⟨0x208, 1, 8, 0x0, false, none, 0x0, false⟩,
  ⟨0x210, 1, 8, 0x0, false, none, 0x0, true⟩,
  ⟨0x218, 1, 8, 0x0, false, none, 0x0, true⟩,
  ⟨0x220, 1, 8, 0x0, false, none, 0x0, true⟩,
  ⟨0x228, 1, 8, 0x0, false, none, 0x0, true⟩,
  ⟨0x230, 1, 8, 0x0, false, none, 0x0, true⟩,
  ⟨0x238, 1, 8, 0x0, false, none, 0x0, true⟩,
  ⟨0x240, 1, 8, 0x0, false, none, 0x0, true⟩,
  ⟨0x248, 1, 8, 0x0, false, none, 0x0, true⟩,
  ⟨0x250, 1, 8, 0x0, false, none, 0x0, true⟩,
  ⟨0x258, 1, 8, 0x0, false, none, 0x0, true⟩,
  ⟨0x260, 1, 8, 0x0, false, none, 0x0, true⟩,
  ⟨0x268, 1, 8, 0x0, false, none, 0x0, true⟩,
  ⟨0x270, 1, 8, 0x0, false, none, 0x0, true⟩,
  ⟨0x278, 1, 8, 0x1FF007FF, false, none, 0x0, false⟩,
  ⟨0x280, 1, 8, 0x0, false, none, 0x0, false⟩,
  ⟨0x288, 1, 8, 0x0, false, none, 0x0, true⟩]

/-- Registers of the GMX page. -/
def regsGmx : List RegRow := [
  ⟨0x200, 1, 8, 0x0, false, none, 0x0, false⟩,
  ⟨0x208, 1, 8, 0x0, false, none, 0x0, true⟩,
  ⟨0x210, 1, 8, 0x0, false, none, 0x0, true⟩,
  ⟨0x218, 1, 8, 0x0, false, none, 0x0, true⟩,
  ⟨0x220, 1, 8, 0x0, false, none, 0x0, true⟩,
  ⟨0x228, 1, 8, 0x0, false, none, 0x0, true⟩,
  ⟨0x230, 1, 8, 0x0, false, none, 0x0, true⟩,
  ⟨0x238, 1, 8, 0x0, false, none, 0x0, true⟩,
  ⟨0x240, 1, 8, 0x0, false, none, 0x0, true⟩,
  ⟨0x248, 1, 8, 0x0, false, none, 0x0, true⟩,
  ⟨0x250, 1, 8, 0x0, false, none, 0x0, true⟩,
  ⟨0x258, 1, 8, 0x0, false, none, 0x0, true⟩,
  ⟨0x260, 1, 8, 0x0, false, none, 0x0, true⟩,
  ⟨0x268, 1, 8, 0x0, false, none, 0x0, true⟩,
  ⟨0x270, 1, 8, 0x0, false, none, 0x0, true⟩,
  ⟨0x278, 1, 8, 0x0, false, none, 0x0, false⟩,
  ⟨0x280, 1, 8, 0x0, false, none, 0x0, false⟩,
  ⟨0x288, 1, 8, 0x0, false, none, 0x0, false⟩,
  ⟨0x290, 8, 8, 0x0, false, none, 0x0, false⟩]

/-- Registers of the VEC page. -/
def regsVec : List RegRow := [
  ⟨0x200, 1, 8, 0x0, false, none, 0x0, true⟩,
  ⟨0x208, 1, 8, 0x0, false, none, 0x0, true⟩,
  ⟨0x210, 1, 8, 0x0, false, none, 0x0, true⟩,
  ⟨0x218, 1, 8, 0x0, false, none, 0x0, true⟩,
  ⟨0x220, 1, 8, 0x0, false, none, 0x0, true⟩,
  ⟨0x228, 1, 8, 0x0, false, none, 0x0, true⟩,
  ⟨0x230, 1, 8, 0x0, false, none, 0x0, true⟩,
  ⟨0x238, 1, 8, 0x0, false, none, 0x0, true⟩,
  ⟨0x240, 1, 8, 0x0, false, none, 0x80, false⟩,
  ⟨0x248, 1, 8, 0x0, false, none, 0x0, true⟩,
  ⟨0x250, 1, 8, 0x0, false, none, 0x0, true⟩,
  ⟨0x258, 1, 8, 0x0, false, none, 0x0, true⟩,
  ⟨0x260, 1, 8, 0x0, false, none, 0x0, true⟩,
  ⟨0x268, 1, 8, 0x0, false, none, 0x0, true⟩,
  ⟨0x270, 1, 8, 0x0, false, none, 0x0, true⟩,
  ⟨0x278, 1, 8, 0x0, false, none, 0x0, true⟩,
  ⟨0x280, 1, 8, 0x0, false, none, 0x0, true⟩,
  ⟨0x288, 1, 8, 0x0, false, none, 0x0, false⟩,
  ⟨0x290, 1, 8, 0x0, false, none, 0x0, true⟩,
  ⟨0x300, 1, 8, 0x0, false, none, 0x0, true⟩,
  ⟨0x308, 1, 8, 0x0, false, none, 0x0, true⟩,
  ⟨0x310, 1, 8, 0x0, false, none, 0x0, true⟩,
  ⟨0x318, 1, 8, 0x0, false, none, 0x0, true⟩,
  ⟨0x320, 1, 8, 0x0, false, none, 0x0, true⟩,
  ⟨0x328, 1, 8, 0x0, false, none, 0x0, true⟩]

/-- Registers of the COMET page. -/
def regsComet : List RegRow := [
  ⟨0x200, 1, 8, 0x1FFFFFF, false, none, 0x0, false⟩,
  ⟨0x208, 1, 8, 0x7FFF, false, none, 0x4000, false⟩,
  ⟨0x210, 1, 8, 0x7FFF, false, none, 0x1000, false⟩,
  ⟨0x218, 1, 8, 0x0, false, none, 0x0, false⟩,
  ⟨0x220, 1, 8, 0x0, false, none, 0x0, false⟩,
  ⟨0x228, 1, 8, 0x0, false, none, 0x0, true⟩,
  ⟨0x230, 1, 8, 0x0, false, none, 0x0, true⟩,
  ⟨0x238, 1, 8, 0x0, false, none, 0x0, true⟩,
  ⟨0x240, 1, 8, 0x0, false, none, 0x0, true⟩,
  ⟨0x248, 1, 8, 0x0, false, none, 0x0, true⟩,
  ⟨0x250, 1, 8, 0x0, false, none, 0x0, true⟩,
  ⟨0x258, 1, 8, 0x0, false, none, 0x0, true⟩,
  ⟨0x260, 1, 8, 0x0, false, none, 0x0, true⟩,
  ⟨0x268, 1, 8, 0x0, false, none, 0x0, true⟩,
  ⟨0x270, 1, 8, 0x0, false, none, 0x0, true⟩,
  ⟨0x278, 1, 8, 0x0, false, none, 0x0, true⟩,
  ⟨0x280, 1, 8, 0x0, false, none, 0x0, true⟩,
  ⟨0x288, 1, 8, 0x0, false, none, 0x0, true⟩,
  ⟨0x290, 1, 8, 0x3FF, false, none, 0x0, false⟩,
  ⟨0x298, 1, 8, 0x0, false, none, 0x0, false⟩,
  ⟨0x2A0, 1, 8, 0x0, false, none, 0x0, false⟩,
  ⟨0x2A8, 1, 8, 0x0, false, none, 0x0, false⟩,
  ⟨0x400, 64, 8, 0x1001F, false, none, 0x10004, false⟩,
  ⟨0x600, 64, 8, 0x0, false, none, 0x0, false⟩]

/-- Registers of the DISP page. -/
def regsDisp : List RegRow := [
  ⟨0x200, 1, 8, 0x0, false, none, 0x0, false⟩,
  ⟨0x208, 1, 8, 0x0, false, none, 0x0, false⟩,
  ⟨0x210, 1, 8, 0x0, false, none, 0x0, false⟩,
  ⟨0x218, 1, 8, 0x0, false, none, 0x0, false⟩,
  ⟨0x220, 1, 8, 0x0, false, none, 0x0, true⟩,
  ⟨0x228, 1, 8, 0x0, false, none, 0x0, true⟩,
  ⟨0x230, 1, 8, 0x0, false, none, 0x0, true⟩,
  ⟨0x238, 1, 8, 0x0, false, none, 0x0, true⟩,
  ⟨0x240, 1, 8, 0x0, false, none, 0x0, true⟩,
  ⟨0x248, 1, 8, 0x0, false, none, 0x0, true⟩,
  ⟨0x250, 1, 8, 0x0, false, none, 0x0, true⟩,
  ⟨0x258, 1, 8, 0x7FF, false, none, 0x0, false⟩,
  ⟨0x260, 1, 8, 0x0, false, none, 0x0, false⟩,
  ⟨0x268, 1, 8, 0x0, false, none, 0x0, false⟩,
  ⟨0x270, 1, 8, 0x0, false, none, 0xFFFFFFFFFFFFFFFF, false⟩]

/-- Registers of the SYNC page. -/
def regsSync : List RegRow := [
  ⟨0x200, 1, 8, 0xFFFFFFFF, false, none, 0x186A0, false⟩,
  ⟨0x208, 1, 8, 0xFFF, false, none, 0x0, false⟩,
  ⟨0x210, 1, 8, 0x0, false, none, 0x0, false⟩,
  ⟨0x218, 1, 8, 0x0, false, none, 0x0, false⟩,
  ⟨0x220, 1, 8, 0x0, false, none, 0x0, false⟩,
  ⟨0x228, 1, 8, 0x0, false, none, 0x0, false⟩,
  ⟨0x230, 1, 8, 0x0, false, none, 0x0, false⟩,
  ⟨0x238, 1, 8, 0x0, false, none, 0x0, true⟩,
  ⟨0x240, 1, 8, 0x0, false, none, 0x0, true⟩,
  ⟨0x248, 1, 8, 0x0, false, none, 0x0, true⟩,
  ⟨0x250, 1, 8, 0x0, false, none, 0x0, true⟩,
  ⟨0x258, 1, 8, 0x0, false, none, 0x0, true⟩,
  ⟨0x260, 1, 8, 0x0, false, none, 0x0, true⟩,
  ⟨0x268, 1, 8, 0x0, false, none, 0x0, true⟩,
  ⟨0x270, 1, 8, 0x0, false, none, 0x0, false⟩,
  ⟨0x278, 1, 8, 0x0, false, none, 0x0, false⟩,
  ⟨0x280, 1, 8, 0xFFFF, false, none, 0x0, false⟩,
  ⟨0x288, 1, 8, 0x0, false, none, 0x0, false⟩,
  ⟨0x290, 1, 8, 0x0, false, none, 0x0, false⟩,
  ⟨0x298, 1, 8, 0x0, false, none, 0x0, false⟩,
  ⟨0x2A0, 1, 8, 0x0, false, none, 0x0, false⟩]

/-- Registers of the XLAT page. -/
def regsXlat : List RegRow := [
  ⟨0x200, 1, 8, 0x3FFFFFF0001, false, some 0, 0x0, false⟩,
  ⟨0x208, 1, 8, 0x1, false, none, 0x0, false⟩,
  ⟨0x210, 1, 8, 0x0, false, none, 0x0, false⟩,
  ⟨0x218, 1, 8, 0x0, false, none, 0x0, true⟩,
  ⟨0x220, 1, 8, 0x0, false, none, 0x0, true⟩,
  ⟨0x228, 1, 8, 0x0, false, none, 0x0, false⟩,
  ⟨0x230, 1, 8, 0x0, false, none, 0x0, true⟩,
  ⟨0x238, 1, 8, 0x0, false, none, 0x0, true⟩,
  ⟨0x240, 1, 8, 0x0, false, none, 0x0, true⟩,
  ⟨0x248, 1, 8, 0x0, false, none, 0x0, true⟩,
  ⟨0x250, 1, 8, 0x0, false, none, 0x0, true⟩,
  ⟨0x258, 1, 8, 0x0, false, none, 0x0, true⟩,
  ⟨0x260, 1, 8, 0x3FFFFFF0000, false, some 12, 0x0, false⟩,
  ⟨0x268, 1, 8, 0xFFFFFFFFFFFFFFFF, false, some 12, 0x0, false⟩,
  ⟨0x270, 1, 8, 0x3FFFFFFFFF0, false, some 12, 0x0, false⟩,
  ⟨0x278, 1, 8, 0xFFFFFFFF, false, some 12, 0x0, false⟩,
  ⟨0x280, 1, 8, 0x0, false, none, 0x0, false⟩,
  ⟨0x288, 1, 8, 0x0, false, none, 0x0, false⟩]

/-- Registers of the STK page. -/
def regsStk : List RegRow := [
  ⟨0x200, 1, 8, 0x0, false, none, 0x0, false⟩,
  ⟨0x208, 1, 8, 0x0, false, none, 0x0, false⟩,
  ⟨0x210, 1, 8, 0x0, false, none, 0x0, false⟩,
  ⟨0x218, 1, 8, 0x0, false, none, 0x0, false⟩,
  ⟨0x220, 1, 8, 0x0, false, none, 0x0, false⟩,
  ⟨0x228, 1, 8, 0x0, false, none, 0x0, false⟩,
  ⟨0x230, 1, 8, 0x0, false, none, 0x0, false⟩,
  ⟨0x238, 1, 8, 0xFFFFFFFFFFFFFFFF, false, none, 0x0, false⟩,
  ⟨0x240, 1, 8, 0xFFFFFFFFFFFF, false, none, 0x0, false⟩,
  ⟨0x248, 1, 8, 0x0, false, none, 0x0, false⟩,
  ⟨0x250, 1, 8, 0x0, false, none, 0x0, false⟩,
  ⟨0x258, 1, 8, 0x0, false, none, 0x0, true⟩,
  ⟨0x260, 1, 8, 0x0, false, none, 0x0, true⟩,
  ⟨0x268, 1, 8, 0x0, false, none, 0x0, true⟩,
  ⟨0x270, 1, 8, 0x0, false, none, 0x0, true⟩,
  ⟨0x278, 1, 8, 0x0, false, none, 0x0, true⟩,
  ⟨0x280, 1, 8, 0x0, false, none, 0x0, true⟩,
  ⟨0x288, 1, 8, 0x0, false, none, 0x0, false⟩,
  ⟨0x290, 1, 8, 0x0, false, none, 0x0, false⟩]

/-- Registers of the PCH page. -/
def regsPch : List RegRow := [
  ⟨0x200, 1, 8, 0x0, false, none, 0x0, false⟩,
  ⟨0x208, 1, 8, 0x0, false, none, 0x0, false⟩,
  ⟨0x210, 1, 8, 0x0, false, none, 0x0, false⟩,
  ⟨0x218, 1, 8, 0x0, false, none, 0x0, true⟩,
  ⟨0x220, 1, 8, 0x0, false, none, 0x0, true⟩,
  ⟨0x228, 1, 8, 0x0, false, none, 0x0, true⟩,
  ⟨0x230, 1, 8, 0x0, false, none, 0x0, true⟩,
  ⟨0x238, 1, 8, 0x0, false, none, 0x0, false⟩,
  ⟨0x240, 1, 8, 0x0, false, none, 0x0, false⟩,
  ⟨0x248, 1, 8, 0x0, false, none, 0x0, false⟩,
  ⟨0x250, 1, 8, 0x0, false, none, 0x0, true⟩,
  ⟨0x258, 1, 8, 0x0, false, none, 0x0, true⟩]

/-- Registers of the EMB page. -/
def regsEmb : List RegRow := [
  ⟨0x200, 1, 8, 0xFFFFFFFFFFF00, false, none, 0x0, false⟩,
  ⟨0x208, 1, 8, 0x7FF, false, none, 0x0, false⟩,
  ⟨0x210, 1, 8, 0x0, false, none, 0x0, false⟩,
  ⟨0x218, 1, 8, 0x0, false, none, 0x0, true⟩,
  ⟨0x220, 1, 8, 0x0, false, none, 0x0, true⟩,
  ⟨0x228, 1, 8, 0x0, false, none, 0x0, true⟩,
  ⟨0x230, 1, 8, 0x0, false, none, 0x0, true⟩,
  ⟨0x238, 1, 8, 0x0, false, none, 0x0, true⟩,
  ⟨0x240, 1, 8, 0x0, false, none, 0x0, true⟩,
  ⟨0x248, 1, 8, 0x0, false, none, 0x0, true⟩,
  ⟨0x250, 1, 8, 0x0, false, none, 0x0, true⟩,
  ⟨0x258, 1, 8, 0x0, false, none, 0x0, true⟩,
  ⟨0x260, 1, 8, 0x0, false, none, 0x0, true⟩,
  ⟨0x268, 1, 8, 0x0, false, none, 0x0, true⟩,
  ⟨0x270, 1, 8, 0x0, false, none, 0x0, true⟩,
  ⟨0x278, 1, 8, 0x0, false, none, 0x0, true⟩,
  ⟨0x280, 1, 8, 0x0, false, none, 0x0, true⟩,
  ⟨0x288, 1, 8, 0x0, false, none, 0x0, true⟩,
  ⟨0x290, 1, 8, 0x0, false, none, 0x0, false⟩,
  ⟨0x298, 1, 8, 0x0, false, none, 0x0, true⟩,
  ⟨0x2A0, 1, 8, 0x0, false, none, 0x0, false⟩,
  ⟨0x2A8, 1, 8, 0x0, false, none, 0x0, false⟩,
  ⟨0x2B0, 1, 8, 0x0, false, none, 0x0, true⟩]

/-- Registers of the MIG page. -/
def regsMig : List RegRow := [
  ⟨0x200, 1, 8, 0xF, false, none, 0x0, false⟩,
  ⟨0x208, 1, 8, 0xFFFFFFFF, false, none, 0xF4240, false⟩,
  ⟨0x210, 1, 8, 0xFFFFFFFF, false, none, 0x10080E14, false⟩,
  ⟨0x218, 1, 8, 0xFFFFFFFFFFFFFFFF, false, none, 0x10000001000, false⟩,
  ⟨0x220, 1, 8, 0xFFFFFFFF, false, none, 0x10000, false⟩,
  ⟨0x228, 1, 8, 0x3FFFFFFFF00, false, none, 0x0, false⟩,
  ⟨0x230, 1, 8, 0xFFFFFFFF, false, none, 0x0, false⟩,
  ⟨0x238, 1, 8, 0x0, false, none, 0x0, false⟩,
  ⟨0x240, 1, 8, 0x0, false, none, 0x0, false⟩,
  ⟨0x248, 1, 8, 0x0, false, none, 0x0, false⟩,
  ⟨0x250, 1, 8, 0x0, false, none, 0x0, false⟩,
  ⟨0x258, 1, 8, 0x0, false, none, 0x0, true⟩,
  ⟨0x260, 1, 8, 0x0, false, none, 0x0, true⟩,
  ⟨0x268, 1, 8, 0x0, false, none, 0x0, true⟩,
  ⟨0x270, 1, 8, 0x0, false, none, 0x0, false⟩,
  ⟨0x278, 1, 8, 0x0, false, none, 0x0, false⟩,
  ⟨0x280, 1, 8, 0x0, false, none, 0x0, true⟩,
  ⟨0x288, 1, 8, 0x0, false, none, 0x0, true⟩,
  ⟨0x290, 1, 8, 0x0, false, none, 0x0, true⟩,
  ⟨0x298, 1, 8, 0x0, false, none, 0x0, true⟩,
  ⟨0x2A0, 1, 8, 0x0, false, none, 0x0, false⟩,
  ⟨0x2A8, 1, 8, 0x0, false, none, 0x0, false⟩,
  ⟨0x2B0, 1, 8, 0x0, false, none, 0x0, false⟩,
  ⟨0x2B8, 1, 8, 0x0, false, none, 0x0, true⟩]

/-- Registers of the ETH page. -/
def regsEth : List RegRow := [
  ⟨0x200, 1, 8, 0x77FFF7, false, none, 0x4, false⟩,
  ⟨0x208, 1, 8, 0x0, false, none, 0x0, false⟩,
  ⟨0x210, 1, 8, 0x3, false, none, 0x0, false⟩,
  ⟨0x218, 1, 8, 0x0, false, none, 0x0, false⟩,
  ⟨0x220, 1, 8, 0x0, false, none, 0x0, false⟩,
  ⟨0x228, 1, 8, 0x0, false, none, 0x0, false⟩,
  ⟨0x230, 1, 8, 0x0, false, none, 0x0, false⟩,
  ⟨0x238, 1, 8, 0x0, false, none, 0x0, false⟩,
  ⟨0x240, 1, 8, 0x0, false, none, 0x0, true⟩,
  ⟨0x248, 1, 8, 0x0, false, none, 0x0, true⟩,
  ⟨0x250, 1, 8, 0x0, false, none, 0x0, true⟩,
  ⟨0x258, 1, 8, 0x0, false, none, 0x0, true⟩,
  ⟨0x260, 1, 8, 0x0, false, none, 0x0, true⟩,
  ⟨0x268, 1, 8, 0x0, false, none, 0x0, true⟩,
  ⟨0x270, 1, 8, 0x0, false, none, 0x0, true⟩,
  ⟨0x278, 1, 8, 0xFFFFFFFF, false, none, 0x3000400, false⟩,
  ⟨0x280, 1, 8, 0x0, false, none, 0x0, true⟩,
  ⟨0x288, 1, 8, 0x0, false, none, 0x0, true⟩,
  ⟨0x290, 1, 8, 0x0, false, none, 0x0, true⟩,
  ⟨0x298, 1, 8, 0x0, false, none, 0x0, true⟩,
  ⟨0x2A0, 1, 8, 0x3FFFF, false, none, 0x103E8, false⟩,
  ⟨0x2A8, 1, 8, 0x0, false, none, 0x0, true⟩,
  ⟨0x2B0, 1, 8, 0x0, false, none, 0x0, true⟩,
  ⟨0x2B8, 1, 8, 0x0, false, none, 0x0, false⟩,
  ⟨0x2C0, 1, 8, 0x0, false, none, 0x0, true⟩]

/-- Registers of the RDMA page. -/
def regsRdma : List RegRow := [
  ⟨0x200, 1, 8, 0xFFFFFFFFFF000, false, some 0, 0x0, false⟩,
  ⟨0x208, 1, 8, 0xFFFFFFFFFF000, false, some 0, 0x0, false⟩,
  ⟨0x210, 1, 8, 0xFFFFFFFFFFFFFF, false, none, 0x80405000A0064, false⟩,
  ⟨0x218, 1, 8, 0x0, false, none, 0x0, false⟩,
  ⟨0x220, 1, 8, 0x0, false, none, 0x0, false⟩,
  ⟨0x228, 1, 8, 0x0, false, none, 0x0, true⟩,
  ⟨0x230, 1, 8, 0x0, false, none, 0x0, true⟩,
  ⟨0x238, 1, 8, 0x0, false, none, 0x0, true⟩,
  ⟨0x240, 1, 8, 0x0, false, none, 0x0, true⟩,
  ⟨0x248, 1, 8, 0x0, false, none, 0x0, true⟩,
  ⟨0x250, 1, 8, 0x0, false, none, 0x0, true⟩,
  ⟨0x258, 1, 8, 0x0, false, none, 0x0, true⟩,
  ⟨0x260, 1, 8, 0x0, false, none, 0x0, true⟩,
  ⟨0x268, 1, 8, 0x0, false, none, 0x0, true⟩,
  ⟨0x270, 1, 8, 0x0, false, none, 0x0, true⟩,
  ⟨0x278, 1, 8, 0x0, false, none, 0x0, true⟩,
  ⟨0x280, 1, 8, 0x0, false, none, 0x0, true⟩,
  ⟨0x288, 1, 8, 0x0, false, none, 0x0, true⟩,
  ⟨0x290, 1, 8, 0x0, false, none, 0x0, true⟩,
  ⟨0x298, 1, 8, 0x0, false, none, 0x0, true⟩,
  ⟨0x2A0, 1, 8, 0x0, false, none, 0x0, true⟩,
  ⟨0x2A8, 1, 8, 0xFFF, false, none, 0x0, false⟩,
  ⟨0x2B0, 1, 8, 0x0, false, none, 0x0, false⟩,
  ⟨0x2B8, 1, 8, 0x0, false, none, 0x0, false⟩,
  ⟨0x2C0, 1, 8, 0x0, false, none, 0x0, false⟩]

/-- Registers of the HCMD page. -/
def regsHcmd : List RegRow := [
  ⟨0x200, 1, 8, 0x0, false, none, 0x0, false⟩,
  ⟨0x208, 1, 8, 0x3F, false, none, 0x0, false⟩,
  ⟨0x210, 1, 8, 0x3FFF0FF3, false, none, 0x0, false⟩,
  ⟨0x218, 1, 8, 0xFFFFFFFFFF000, false, none, 0x0, false⟩,
  ⟨0x220, 1, 8, 0xFFFFFFFFFFFFFFFF, false, none, 0x0, false⟩,
  ⟨0x228, 1, 8, 0xFFFFFFFF, false, none, 0x0, false⟩,
  ⟨0x230, 1, 8, 0x0, false, none, 0x0, false⟩,
  ⟨0x238, 1, 8, 0xFFFFFFFF, false, none, 0x0, false⟩,
  ⟨0x240, 1, 8, 0x7F, false, none, 0x0, false⟩,
  ⟨0x248, 1, 8, 0x0, false, none, 0x0, false⟩,
  ⟨0x250, 1, 8, 0x0, false, none, 0x0, true⟩,
  ⟨0x258, 1, 8, 0x0, false, none, 0x0, true⟩,
  ⟨0x260, 1, 8, 0x0, false, none, 0x0, true⟩,
  ⟨0x268, 1, 8, 0x0, false, none, 0x0, true⟩,
  ⟨0x270, 1, 8, 0x0, false, none, 0x0, true⟩,
  ⟨0x278, 1, 8, 0x0, false, none, 0x0, true⟩,
  ⟨0x280, 1, 8, 0x0, false, none, 0x0, false⟩,
  ⟨0x288, 1, 8, 0x0, false, none, 0x0, false⟩,
  ⟨0x290, 1, 8, 0x0, false, none, 0x0, true⟩,
  ⟨0x298, 1, 8, 0x0, false, none, 0x0, true⟩,
  ⟨0x2A0, 1, 8, 0xFFF, false, none, 0x0, false⟩,
  ⟨0x2A8, 1, 8, 0x0, false, none, 0x0, false⟩,
  ⟨0x400, 63, 8, 0x0, false, none, 0x0, false⟩]

/-- Registers of the SVC page. -/
def regsSvc : List RegRow := [
  ⟨0x200, 1, 8, 0xFFFFFFFF, false, none, 0x186A0, false⟩,
  ⟨0x208, 1, 8, 0x0, false, none, 0x0, false⟩,
  ⟨0x210, 1, 8, 0x0, false, none, 0x0, false⟩,
  ⟨0x218, 1, 8, 0x0, false, none, 0x0, true⟩,
  ⟨0x220, 1, 8, 0x0, false, none, 0x0, true⟩,
  ⟨0x228, 1, 8, 0x0, false, none, 0x0, true⟩,
  ⟨0x230, 1, 8, 0x0, false, none, 0x0, false⟩]

/-- Registers of the SEC page. -/
def regsSec : List RegRow := [
  ⟨0x200, 1, 8, 0x0, false, none, 0x0, false⟩,
  ⟨0x208, 1, 8, 0x0, false, none, 0x0, true⟩,
  ⟨0x210, 1, 8, 0x0, false, none, 0x0, true⟩,
  ⟨0x218, 1, 8, 0x0, false, none, 0x0, true⟩,
  ⟨0x220, 1, 8, 0x0, false, none, 0x0, true⟩,
  ⟨0x240, 6, 8, 0x0, false, none, 0x0, false⟩,
  ⟨0x400, 232, 8, 0x0, false, none, 0x0, false⟩]

/-- Registers of the FWM page. -/
def regsFwm : List RegRow := [
  ⟨0x200, 1, 8, 0x0, false, none, 0x0, false⟩,
  ⟨0x208, 1, 8, 0x0, false, none, 0x0, false⟩,
  ⟨0x210, 1, 8, 0x0, false, none, 0x0, false⟩,
  ⟨0x218, 1, 8, 0x0, false, none, 0x0, false⟩,
  ⟨0x220, 1, 8, 0x0, false, none, 0x0, true⟩,
  ⟨0x228, 1, 8, 0x0, false, none, 0x0, true⟩,
  ⟨0x230, 1, 8, 0x0, false, none, 0x0, true⟩,
  ⟨0x238, 1, 8, 0x0, false, none, 0x0, true⟩,
  ⟨0x240, 1, 8, 0x0, false, none, 0x0, false⟩,
  ⟨0x310, 9, 16, 0x0, false, none, 0x0, false⟩,
  ⟨0x318, 9, 16, 0x0, false, none, 0x0, false⟩]

/-- Registers of the TEL page. -/
def regsTel : List RegRow := [
  ⟨0x200, 1, 8, 0x3, false, none, 0x0, false⟩,
  ⟨0x208, 1, 8, 0xFFFFFFFF, false, none, 0x186A0, false⟩,
  ⟨0x210, 1, 8, 0x3FFF, false, none, 0x0, false⟩,
  ⟨0x218, 1, 8, 0xFFFFFFFFFFFFFFFF, false, none, 0x0, false⟩,
  ⟨0x220, 1, 8, 0xFFFFFFFFF, false, none, 0x0, false⟩,
  ⟨0x228, 1, 8, 0x0, false, none, 0x40, false⟩,
  ⟨0x230, 1, 8, 0x0, false, none, 0x0, false⟩,
  ⟨0x238, 1, 8, 0x0, false, none, 0x0, true⟩,
  ⟨0x240, 1, 8, 0xFFFFFFFFFFFE0, false, none, 0x0, false⟩,
  ⟨0x248, 1, 8, 0x1F, false, none, 0xC, false⟩,
  ⟨0x250, 1, 8, 0x0, false, none, 0x0, true⟩,
  ⟨0x258, 1, 8, 0xFFFFFFFFFFFFFFFF, false, none, 0x0, false⟩,
  ⟨0x260, 1, 8, 0x0, false, none, 0x0, true⟩,
  ⟨0x268, 1, 8, 0xFFFFFFFFFFFFFFFF, false, none, 0x0, false⟩,
  ⟨0x270, 1, 8, 0x0, false, none, 0x0, false⟩,
  ⟨0x278, 1, 8, 0xFFFFFFFFFFFFFFFF, false, none, 0x0, false⟩,
  ⟨0x280, 1, 8, 0xFF, false, none, 0x8, false⟩,
  ⟨0x288, 1, 8, 0x0, false, none, 0x0, false⟩,
  ⟨0x290, 1, 8, 0x1FF, false, none, 0x0, false⟩,
  ⟨0x800, 256, 8, 0xFFFF0007, false, none, 0x0, false⟩]

/-- Registers of the LEDGER page. -/
def regsLedger : List RegRow := [
  ⟨0x200, 1, 8, 0xFFFFFFFFFFFFFFFF, false, none, 0x0, false⟩,
  ⟨0x208, 1, 8, 0x0, false, none, 0x0, false⟩,
  ⟨0x210, 1, 8, 0x0, false, none, 0x0, false⟩,
  ⟨0x218, 1, 8, 0x0, false, none, 0x0, false⟩,
  ⟨0x220, 1, 8, 0x0, false, none, 0x0, true⟩,
  ⟨0x300, 10, 64, 0x0, false, none, 0x0, false⟩,
  ⟨0x308, 10, 64, 0x0, false, none, 0x0, false⟩,
  ⟨0x310, 10, 64, 0x0, false, none, 0x0, false⟩,
  ⟨0x318, 10, 64, 0x0, false, none, 0x0, false⟩,
  ⟨0x320, 10, 64, 0x0, false, none, 0x0, false⟩,
  ⟨0x328, 10, 64, 0x0, false, none, 0x0, false⟩,
  ⟨0x330, 10, 64, 0x0, false, none, 0x0, false⟩,
  ⟨0x338, 10, 64, 0x0, false, none, 0x0, true⟩]

/-- Registers of the DBG page. -/
def regsDbg : List RegRow := [
  ⟨0x200, 1, 8, 0xFF, false, none, 0x0, false⟩,
  ⟨0x208, 1, 8, 0x1, false, none, 0x0, false⟩,
  ⟨0x210, 1, 8, 0x0, false, none, 0x0, false⟩,
  ⟨0x218, 1, 8, 0x0, false, none, 0x0, false⟩,
  ⟨0x220, 1, 8, 0x0, false, none, 0x0, false⟩,
  ⟨0x228, 1, 8, 0x0, false, none, 0x0, false⟩,
  ⟨0x230, 1, 8, 0x0, false, none, 0x0, false⟩,
  ⟨0x238, 1, 8, 0x3F, false, none, 0x0, false⟩,
  ⟨0x240, 1, 8, 0x0, false, none, 0x0, false⟩,
  ⟨0x248, 1, 8, 0x0, false, none, 0x0, true⟩,
  ⟨0x250, 1, 8, 0x0, false, none, 0x0, true⟩,
  ⟨0x258, 1, 8, 0x0, false, none, 0x0, true⟩]

/-- The register table of a block type. -/
def regRows : Nat → List RegRow
  | 0x01 => regsDev
  | 0x02 => regsTime
  | 0x03 => regsPwr
  | 0x04 => regsPwrd
  | 0x05 => regsTherm
  | 0x08 => regsRegion
  | 0x09 => regsClu
  | 0x0A => regsWlk
  | 0x0B => regsMat
  | 0x0C => regsGmx
  | 0x0D => regsVec
  | 0x10 => regsComet
  | 0x11 => regsDisp
  | 0x12 => regsSync
  | 0x13 => regsXlat
  | 0x18 => regsStk
  | 0x19 => regsPch
  | 0x1A => regsEmb
  | 0x1B => regsMig
  | 0x20 => regsEth
  | 0x21 => regsRdma
  | 0x22 => regsHcmd
  | 0x28 => regsSvc
  | 0x29 => regsSec
  | 0x2A => regsFwm
  | 0x30 => regsTel
  | 0x31 => regsLedger
  | 0x3F => regsDbg
  | _ => []

/-- A row covers an offset: one of its entries starts there. -/
def RegRow.covers (r : RegRow) (off : Nat) : Bool :=
  decide (r.off ≤ off) && decide ((off - r.off) % r.stride = 0) && decide ((off - r.off) / r.stride < r.n)

/-- The row of an offset in a block's page, if the map gives one (R776). -/
def regRow (ty off : Nat) : Option RegRow := (regRows ty).find? (fun r => r.covers off)

/-- Reset value of the words of the common header (R779, R782, R783): counter 7 counts STATE_CONFLICT from reset. -/
def headerReset (off : Nat) : Nat := if off = 0x170 then 2 ^ 63 + 1 else 0

/-- Reset value of a register of a page (R779 and the block tables); 0 where nothing is mapped. -/
def regResetAt (pg off : Nat) : Word :=
  if off < 0x200 then word (headerReset off)
  else match regRow (pg / 1024) off with
    | some r => word r.reset
    | none => 0

/-- Reset value by register key: the aligned word of the control window, page × 512 + offset / 8 (R9, R775). -/
def regReset (k : Nat) : Word := regResetAt (k / 512) (k % 512 * 8)

end Sys2Proof.Machine
end

