-- ==== Sys2Proof/Machine/State.lean ====
section
/-! DEFINITION. The state of the block as plain data: every register, queue, buffer, table and pin the spec gives it,
and the queue of commands that wait. Sparse tables are SMap lists in canonical form, so that equal states are equal
data; the default of every entry is its reset value. -/

namespace Sys2Proof.Machine

/-- Why a step stops with a fault. -/
inductive Fault where
  /-- Raised by a command whose operands contradict each other (WellFormed): data of another length than its COUNT
  says, an error list of another length than its accesses. Safe: no sender can form such a command. -/
  | illFormed (mnemonic : String)
  deriving DecidableEq, Repr

/-- Why a step is refused. -/
inductive Refusal where
  /-- Raised by a dispatch arm whose command has no meaning yet. Safe: nothing can be proved of it. -/
  | notModelled (mnemonic : String)
  deriving DecidableEq, Repr

/-- The outcome of a command of this block. -/
abbrev Out (σ : Type) := Host.Outcome σ Fault Refusal

/-! ## What the block sends out -/

/-- A PMBus command the device uses (R972). -/
inductive PmbCmd where
  | operation
  | voutCommand
  | clearFaults
  | statusWord
  | readPin
  deriving DecidableEq, Repr

/-- A message a queue pair sends as requester (R734). -/
inductive TxOp where
  | write    (va : Word) (rkey : Nat) (data : List Byte) (imm : Option Nat)
  | send     (data : List Byte) (imm : Option Nat)
  | read     (va : Word) (rkey len : Nat)
  | fetchAdd (va : Word) (rkey : Nat) (add : Word)
  | cmpSwap  (va : Word) (rkey : Nat) (cmp swap : Word)
  deriving DecidableEq, Repr

/-- A PTP message the device sends, timestamps in units of 2^-16 ns (R64, R66, R69). -/
inductive PtpOut where
  | delayReq
  | pdelayReq
  | pdelayResp (t2 t3 : Nat)
  | sync (origin : Nat)
  deriving DecidableEq, Repr

/-- Fields of the IP and UDP headers of a RoCEv2 packet: DSCP, the ECN code point, the UDP source port (R719, R725, R735, R738). -/
structure IpHdr where
  dscp    : Nat
  ecn     : Nat
  srcPort : Nat
  deriving DecidableEq, Repr

/-- What a frame carries around its message: its link, its VLAN tag (VLAN ID and priority) and, of a RoCEv2 packet, the header
fields above (R719). -/
structure FrameHdr where
  link : Nat
  tag  : Option (Nat × Nat)
  ip   : Option IpHdr
  deriving DecidableEq, Repr

/-- What leaves the block: packets, frames, bus transfers. The list of them is the model's record of its outputs. -/
inductive Emit where
  /-- A request message from a first PSN (R734, R748). -/
  | msg (qp psn : Nat) (op : TxOp)
  /-- An acknowledgement with its AETH credit field (R759). -/
  | ack (qp psn credits : Nat)
  /-- A negative acknowledgement (R748). -/
  | nak (qp psn : Nat) (kind : NakKind)
  /-- A READ response or atomic result (R744, R745). -/
  | resp (qp psn : Nat) (data : List Byte)
  /-- A congestion notification packet (R764). -/
  | cnp (qp : Nat)
  /-- A connection-management message: 0 REQ, 1 REP, 2 RTU, 3 REJ, 4 DREQ, 5 DREP (R737). -/
  | cm (port qp kind : Nat)
  /-- A PFC frame of a port: 1 pauses the RoCE priority, 0 resumes it (R723). -/
  | pfc (port : Nat) (xoff : Bool)
  /-- An answer of the neighbour responder: 0 ARP, 1 neighbour discovery, 2 echo v4, 3 echo v6 (R727). -/
  | neighbor (link kind : Nat)
  /-- A discovery message or answer on a link (R730, R731). -/
  | discovery (link : Nat) (reply : Bool) (ipv6 : Bool) (data : List Byte)
  /-- An SPDM response on a port in the clear, or in a session (R910 to R913). -/
  | spdm (session : Option Nat) (code : Nat) (data : List Byte)
  /-- The completion of a management command, carried in its session (R915). -/
  | mgmtCpl (session : Nat) (words : List Word)
  /-- A completion of ring 63, handed to the service cores (R793). -/
  | svcCpl (words : List Word)
  /-- Data of a port command handed to a requester that no engine of the model waits for (R123). -/
  | portData (stk : Nat) (tag : Nat) (data : List Byte) (poison : Nat)
  /-- A message in its frames on a link (R719). -/
  | frame (h : FrameHdr) (e : Emit)
  /-- A PTP message on a port (R64, R69). -/
  | ptp (port : Nat) (m : PtpOut)
  /-- A pulse of the PPS_OUT pin, its width in ns (R109, R971). -/
  | ppsPulse (width : Nat)
  /-- A PMBus transfer: device address, command, value written (R972). -/
  | pmbus (addr : Nat) (cmd : PmbCmd) (value : Nat)
  /-- The boot ROM reads the flash: the SFDP table in single I/O at 25 MHz, or in quad I/O DTR at 100 MHz (R974). -/
  | spi (quad : Bool)
  /-- A value a test port instruction shifts out (R976). -/
  | jtag (code : Nat)
  deriving DecidableEq, Repr

/-! ## Memory -/

/-- Bytes and poison marks of an addressed store. Unlisted bytes read as zero; poison marks are by 32 B access. -/
structure Mem where
  cells  : List Host.Cell
  poison : SMap Bool
  deriving DecidableEq, Repr

/-- A store with nothing listed. -/
def Mem.reset : Mem := ⟨[], []⟩

/-! ## The time unit (R54 to R110) -/

/-- Synchronisation state, codes 0 to 3 (R75). -/
inductive SyncState where
  | free
  | acquiring
  | locked
  | holdover
  deriving DecidableEq, Repr

/-- The code of a synchronisation state (R75). -/
def SyncState.code : SyncState → Nat
  | .free => 0
  | .acquiring => 1
  | .locked => 2
  | .holdover => 3

/-- An entry of the scheduled-event queue. `due` is in units of 2^-16 ns (R8); `seq` is the order of entry (R84). -/
structure SchedEnt where
  due    : Nat
  kind   : Nat
  target : Nat
  arg    : Nat
  late   : Bool
  tag    : Nat
  seq    : Nat
  deriving DecidableEq, Repr

/-- A master heard on a port (R64): its rank, the ST of its last Announce, the interval between them, and how many came within
the standard's window, counted to two. -/
structure PtpMaster where
  port     : Nat
  source   : Nat
  rank     : Nat
  heardAt  : Nat
  interval : Nat
  heard    : Nat
  deriving DecidableEq, Repr

/-- The time unit. `st` is ST in units of 2^-40 ns and `rate` the advance per hub cycle in the same unit (R55, R56). -/
structure TimeSt where
  st        : Nat
  rate      : Nat
  sync      : SyncState
  integ     : Rat
  thetas    : List Int            -- last 16 measurements, newest first, units of 2^-40 ns (R77)
  good      : Nat                 -- consecutive measurements within 4 ns (R75)
  source    : Nat                 -- STATUS.SOURCE (R108)
  srcPort   : Nat
  ppsSeen   : Bool                -- an edge arrived within the last expected window (R108)
  ppsQual   : Bool                -- the pulse counts as present (R68)
  ppsLast   : Option Nat          -- ST of the last edge inside its window
  lastMeas  : Nat                 -- ST of the last measurement
  interval  : Nat                 -- its interval, ns
  uncEntry  : Nat                 -- UNC on entry to HOLDOVER (R78)
  holdEntry : Nat                 -- ST of that entry
  twoStep   : List (Nat × Nat × Int × Nat)  -- port, arrival ST, correction, interval of a Sync awaiting its Follow_Up
  pathDelay : List (Nat × Int)    -- mean path delay by port, units of 2^-16 ns
  syncTs    : List (Nat × Int × Int)        -- port, t1 and t2 of the last Sync (R64)
  reqTs     : List (Nat × Nat)    -- port and ST, in units of 2^-16 ns, of its last Delay_Req or Pdelay_Req (R64, R65)
  masters   : List PtpMaster      -- what the best master clock algorithm chooses from (R64)
  cadDelays : List Nat            -- last 64 link delays, symbol periods (R71)
  ptpAt     : Option (Nat × Nat)  -- ST of the last PTP measurement, and its interval in ns
  cadAt     : Option (Nat × Nat)  -- ST of the last cadence exchange, and its interval in ns
  ptpTheta  : Int                 -- offset of the last PTP measurement, units of 2^-40 ns
  frac      : Nat                 -- ST_FRAC latch (R62)
  queue     : List SchedEnt       -- pending entries, in order of entry
  delivered : List SchedEnt       -- entries delivered to their targets and not yet acted
  seq       : Nat
  acted     : SMap Nat            -- by target page: ST, in units of 2^-16 ns, at which its last event acted (R90)
  ppsOut    : Nat                 -- pulses sent (R971)
  ppsOutAt  : Nat                 -- ST of the last pulse, ns
  deriving DecidableEq, Repr

/-- Nominal rate (R55). -/
def nominalRate : Nat := 0x92_4924_9249

/-- Entries the queue holds (R81). -/
def schedCap : Nat := 512

/-- The time unit after reset (R55, R61, R106). -/
def TimeSt.reset : TimeSt where
  st := 0
  rate := nominalRate
  sync := .free
  integ := 0
  thetas := []
  good := 0
  source := 0
  srcPort := 0
  ppsSeen := false
  ppsQual := false
  ppsLast := none
  lastMeas := 0
  interval := 0
  uncEntry := 0
  holdEntry := 0
  twoStep := []
  pathDelay := []
  syncTs := []
  reqTs := []
  masters := []
  cadDelays := []
  ptpAt := none
  cadAt := none
  ptpTheta := 0
  frac := 0
  queue := []
  delivered := []
  seq := 0
  acted := []
  ppsOut := 0
  ppsOutAt := 0

/-! ## Stacks and pseudo-channels (R111 to R160, R852 to R869) -/

/-- Pseudo-channel state, codes 0 to 6 (R152). -/
inductive PchState where
  | untrained
  | base
  | full
  | retrain
  | margin
  | failed
  | retired
  deriving DecidableEq, Repr

/-- The code of a pseudo-channel state (R152). -/
def PchState.code : PchState → Nat
  | .untrained => 0
  | .base => 1
  | .full => 2
  | .retrain => 3
  | .margin => 4
  | .failed => 5
  | .retired => 6

/-- Stack state, codes 0 to 4 (R156). -/
inductive StackState where
  | down
  | training
  | base
  | full
  | shutdown
  deriving DecidableEq, Repr

/-- The code of a stack state (R156). -/
def StackState.code : StackState → Nat
  | .down => 0
  | .training => 1
  | .base => 2
  | .full => 3
  | .shutdown => 4

/-- A command at a stack port: opcode (R120), flit fields, error patterns of its reads, and whether it is the service
command of STK.SVC_CMD. -/
structure SlotCmd where
  opc  : Nat
  f    : PortCmd
  errs : List AccErr
  deriving DecidableEq, Repr

/-- A response flit on its way to the region with the data that follow it (R123). `poison` is its POISON field. -/
structure Resp where
  rsp    : Nat
  pch    : Nat
  tag    : Nat
  src    : PortSrc
  state  : Nat
  poison : Nat
  data   : List Byte
  slot   : Bool
  deriving DecidableEq, Repr

/-- Trigger of a retrain or margin step waiting under R148. `kind`: 0 retrain, 1 MARGIN_T, 2 MARGIN_V. -/
structure OutTrig where
  pch  : Nat
  kind : Nat
  svc  : Bool
  deriving DecidableEq, Repr

/-- One row a GPOOL read: its place, the accesses of the piece and their poison marks (R121). -/
structure GRow where
  pch  : Nat
  addr : Nat
  accs : List (List Byte × Bool)
  deriving DecidableEq, Repr

/-- A GPOOL taken from the command path: its header, the GPOOL_ROW flits received in order, the rows read so far
(R121, R225). -/
structure GpoolJob where
  f    : PortCmd
  want : List PortCmd
  rows : List GRow
  deriving DecidableEq, Repr

/-- A failing DRAM row awaiting the stack-repair service (R854): pseudo-channel, bank, row, ST of the failure. -/
structure FailRow where
  pch  : Nat
  bank : Nat
  row  : Nat
  st   : Nat
  deriving DecidableEq, Repr

/-- Lanes of a base die: 64 pool lanes take the GPOOLs (R122). -/
def poolLanes : Nat := 64

/-- One stack: base die, port and the repair service's view of it. -/
structure StkSt where
  st       : StackState
  svc      : Option (Nat × PortCmd)   -- outstanding service command: opcode and flit (R158)
  resp     : List Resp                -- responses on their way, oldest first (R123)
  waitQ    : List OutTrig             -- triggers waiting under R148
  margin   : Option (Nat × Bool)      -- sweep in progress: kind, whether a SVC_CMD asked for it (R151)
  gp       : Option (Nat × Nat)       -- TAG of the GPOOL whose rows are arriving, and rows still to follow (R121)
  pools    : List GpoolJob            -- GPOOLs in the pool lanes (R122)
  patch    : SMap (Nat × Nat × Nat)   -- row patch table: entry to pseudo-channel, bank, row (R859)
  recur    : List (Nat × Nat)         -- recurrence table: access key and ST ns (R852)
  failing  : List FailRow             -- failing rows in the order of R85 (R854)
  rowFails : SMap Nat                 -- failures of each row, from the repair records (R857)
  repair   : Option FailRow           -- the row the service repairs now
  marked   : List (Nat × Nat)         -- marked banks: pseudo-channel, bank (R858)
  window16 : Bool                     -- the 16 ms refresh window is in force (R142)
  lost     : Bool                     -- lost per R868, until it reaches FULL again
  returning : Bool                    -- on its way back from loss: clearing poisons (R869)
  scrubPos : Nat                      -- next slot of the patrol scrub, pseudo-channel × 2^22 + slot (R855)
  scrubFrom : Nat            -- ST ns at which the scrub period began
  coreTemp : Int                      -- hottest core die, 1/16 °C
  poisonAll : Bool                    -- every data access not written since its return from loss is poisoned (R869)
  deriving DecidableEq, Repr

/-- A stack after reset: DOWN, port untrained (R156). -/
def StkSt.reset : StkSt where
  st := .down
  svc := none
  resp := []
  waitQ := []
  margin := none
  gp := none
  pools := []
  patch := []
  recur := []
  failing := []
  rowFails := []
  repair := none
  marked := []
  window16 := false
  lost := false
  returning := false
  scrubPos := 0
  scrubFrom := 0
  coreTemp := 0
  poisonAll := false

/-- One pseudo-channel. -/
structure PchSt where
  st       : PchState
  prior    : PchState          -- state before RETRAIN or MARGIN (R152)
  fails    : Nat               -- training or retraining failures in succession (R152)
  rate     : Nat               -- rate of the TRAIN in progress, 0.1 Gb/s (R120)
  training : Bool              -- a TRAIN is in progress
  waiting  : List SlotCmd      -- commands in slots, waiting for the pseudo-channel (R149)
  parked   : List SlotCmd      -- requests parked for want of a slot (R126)
  replays  : List Nat          -- ST ns of replays on its slice (R146)
  temp     : Int               -- core-die temperature at its last training, 1/16 °C (R146)
  tempNow  : Int               -- core-die temperature last read
  postponed : List Nat         -- banks whose refresh waits for the end of a retrain (R150)
  refreshed : SMap Nat         -- ST ns of the last refresh of each bank (R141)
  window16 : Bool              -- refresh window the pseudo-channel uses (R154)
  deriving DecidableEq, Repr

/-- A pseudo-channel after reset: UNTRAINED (R152). -/
def PchSt.reset : PchSt where
  st := .untrained
  prior := .untrained
  fails := 0
  rate := 0
  training := false
  waiting := []
  parked := []
  replays := []
  temp := 0
  tempNow := 0
  postponed := []
  refreshed := []
  window16 := false

/-- A retirement in progress in a region (R863): the pseudo-channel, the granules moved so far, the granule now
moving, commands parked for it. -/
structure MoveSt where
  d      : Nat
  rate   : Nat
  moved  : Nat
  parked : List SlotCmd
  deriving DecidableEq, Repr

/-- Repair state of a region (R872, R873); RELOCATING is read from the retirement in progress (R882). -/
inductive RegionState where
  | serving
  | paused
  | lost
  deriving DecidableEq, Repr

/-- The code of a region state (R882). -/
def RegionState.code : RegionState → Nat
  | .serving => 0
  | .paused => 1
  | .lost => 3

/-- Repair state of a cluster (R885). -/
inductive CluState where
  | service
  | spare
  | permanent
  | retired
  deriving DecidableEq, Repr

/-- The code of a cluster state (R885). -/
def CluState.code : CluState → Nat
  | .service => 0
  | .spare => 1
  | .permanent => 2
  | .retired => 3

/-- A region: released at boot, repair state, logical-to-physical cluster map (R24; 15 means unmapped), retirement in
progress, and whether its requesters have taken up the new map epoch of each retired pseudo-channel (R865). -/
structure RegionSt where
  released : Bool
  st       : RegionState
  map      : List Nat
  move     : Option MoveSt
  adopted  : List Nat
  subst    : Option (Nat × Nat)
  waiting  : List Nat          -- physical clusters permanent and not yet substituted (R872, R874)
  deriving DecidableEq, Repr

/-- A region before the repair records are read: no cluster mapped (R24). -/
def RegionSt.reset : RegionSt where
  released := false
  st := .serving
  map := List.replicate 12 15
  move := none
  adopted := []
  subst := none
  waiting := []

/-! ## Power (R819 to R848) -/

/-- State of a power domain, codes 0 to 6 (R824). -/
inductive DomState where
  | on
  | ret
  | off
  | toRet
  | toOff
  | waking
  | locked
  deriving DecidableEq, Repr

/-- The code of a domain state (R824). -/
def DomState.code : DomState → Nat
  | .on => 0
  | .ret => 1
  | .off => 2
  | .toRet => 3
  | .toOff => 4
  | .waking => 5
  | .locked => 6

/-- One power domain. -/
structure DomSt where
  st : DomState
  deriving DecidableEq, Repr

/-- A domain after reset: ON. -/
def DomSt.reset : DomSt := ⟨.on⟩

/-- The power controller (R831 to R842). -/
structure PwrSt where
  p        : Nat
  h        : List Nat          -- H_r of the 12 regions (R838)
  j        : List Nat          -- J_r of the 12 regions (R840)
  levels   : List Nat          -- level of each region in force (R831)
  poolHalf : Bool              -- R835
  est      : List Nat          -- estimates of the last 1,000 µs, W, newest first (R833)
  above    : Nat               -- µs for which the 1 ms mean has been above BUDGET
  below    : Nat               -- µs for which it has been at or below BUDGET × 15/16
  corr     : Int               -- correction from the regulators' input power, W (R833)
  energy   : Nat               -- energy since reset, µJ
  halfPend : List Nat          -- stacks whose pool block takes the half rate when it next reaches ON (R842)
  deriving DecidableEq, Repr

/-- The power controller after reset. -/
def PwrSt.reset : PwrSt where
  p := 0
  h := List.replicate 12 0
  j := List.replicate 12 0
  levels := List.replicate 12 0
  poolHalf := false
  est := []
  above := 0
  below := 0
  corr := 0
  energy := 0
  halfPend := []

/-! ## The command unit (R788 to R819) -/

/-- One command ring (R793 to R799). -/
structure RingSt where
  ctl      : Word      -- RING_CTL
  cmdBase  : Word
  cplVa    : Word
  cplRkey  : Word
  prod     : Nat       -- producer count of the last doorbell, modulo 2^32
  taken    : Nat       -- taken count, modulo 2^32
  written  : Nat       -- completions written
  head     : Nat       -- completions consumed by the owner
  reserved : Nat       -- completion entries reserved for requests in progress
  deriving DecidableEq, Repr

/-- A ring after reset (R818). -/
def RingSt.reset : RingSt := ⟨0, 0, 0, 0, 0, 0, 0, 0, 0⟩

/-- Admission slot state, codes 0 to 3 (R809). -/
inductive AdmState where
  | free
  | held
  | running
  | ending
  deriving DecidableEq, Repr

/-- The code of an admission slot state (R809). -/
def AdmState.code : AdmState → Nat
  | .free => 0
  | .held => 1
  | .running => 2
  | .ending => 3

/-- One region's entry of a launch block (R808): task list, counters owned, scratchpad buffers of the 12 clusters. -/
structure LaunchEnt where
  region   : Nat
  listVa   : Nat
  listLen  : Nat
  ctrFirst : Nat
  ctrCount : Nat
  bufs     : List Nat
  deriving DecidableEq, Repr

/-- One admission slot (R809). `status` is the failure that ends the request (R652), `cplRing` and `cmdId` name the
command that launched it (64 + k for management session k), `stream` the standing-service slot it serves (R813). -/
structure AdmSt where
  st       : AdmState
  graph    : Nat
  rt       : Bool
  abort    : Bool
  seed     : Word
  admitSt  : Word
  deadline : Word
  ents     : List LaunchEnt
  reqSeq   : Nat
  cplRing  : Nat
  cmdId    : Nat
  admitted : Nat               -- ST ns of admission
  missed   : Bool              -- missed per R101 or R100
  aborted  : Bool              -- ended by the miss under ABORT
  poisoned : Bool              -- some output access poisoned
  status   : Nat
  obj      : Nat               -- OBJ_STATE of the failure
  detail   : Nat
  source   : Nat
  pins     : List (Nat × Nat)  -- table and version slot pinned at admission (R247)
  stream   : Option (Nat × Nat)
  deriving DecidableEq, Repr

/-- A free admission slot. -/
def AdmSt.reset : AdmSt where
  st := .free
  graph := 0
  rt := false
  abort := false
  seed := 0
  admitSt := 0
  deadline := 0
  ents := []
  reqSeq := 0
  cplRing := 0
  cmdId := 0
  admitted := 0
  missed := false
  aborted := false
  poisoned := false
  status := 0
  obj := 0
  detail := 0
  source := 0
  pins := []
  stream := none

/-- Compiled-graph handle state, codes 0 to 2 (R807). -/
inductive GraphState where
  | empty
  | ready
  | retiring
  deriving DecidableEq, Repr

/-- The code of a graph state (R807). -/
def GraphState.code : GraphState → Nat
  | .empty => 0
  | .ready => 1
  | .retiring => 2

/-- A compiled-graph handle: state and the tables pinned at admission (R806). -/
structure GraphSt where
  st     : GraphState
  tables : List Nat
  deriving DecidableEq, Repr

/-- An empty handle. -/
def GraphSt.reset : GraphSt := ⟨.empty, []⟩

/-- Stream state, codes 0 to 2 (R816). -/
inductive StreamState where
  | closed
  | open_
  | draining
  deriving DecidableEq, Repr

/-- The code of a stream state (R816). -/
def StreamState.code : StreamState → Nat
  | .closed => 0
  | .open_ => 1
  | .draining => 2

/-- State of one request slot of a stream: not posted, posted as a receive entry of the stream's queue pairs, landed and
waiting for its LAUNCH, or in use (R813, R814, R816). -/
inductive SvcSlot where
  | idle
  | posted
  | landed (qp len arrival : Nat)
  | busy (qp : Nat)
  deriving DecidableEq, Repr

/-- A stream of the standing service: state, its 128 B block (R812), its request slots. -/
structure StreamSt where
  st    : StreamState
  block : List Byte
  slots : List SvcSlot
  deriving DecidableEq, Repr

/-- A closed stream. -/
def StreamSt.reset : StreamSt := ⟨.closed, [], []⟩

/-- The command unit. `notes` are the pages whose notification waits for a completion entry (R799), `inPause` is the pause
of a device-wide switch (R255), `hwm` the high-water mark of occupied slots (R818). -/
structure HostSt where
  bound      : Bool
  owner      : List Byte
  lastRing   : Nat
  notes      : List Nat
  inPause    : Bool
  hwm        : Nat
  deriving DecidableEq, Repr

/-- The command unit after reset: UNBOUND unless the device record binds it (R900). -/
def HostSt.reset : HostSt := ⟨false, [], 63, [], false, 0⟩

/-! ## Queue pairs (R733 to R767) -/

/-- Queue pair state, codes 0 to 4 (R739). -/
inductive QpState where
  | reset
  | init
  | rtr
  | rts
  | error
  deriving DecidableEq, Repr

/-- The code of a queue pair state (R739). -/
def QpState.code : QpState → Nat
  | .reset => 0
  | .init => 1
  | .rtr => 2
  | .rts => 3
  | .error => 4

/-- A message sent or waiting to be sent: first PSN, packets, operation, counter operand of its completion, local
address of a READ or atomic result, and whether a WQE posted it. -/
structure TxMsg where
  psn    : Nat
  npkt   : Nat
  op     : TxOp
  cmpl   : Option Nat
  dest   : Option Word
  wqe    : Bool
  signal : Bool
  fence  : Bool
  pages  : Bool          -- a telemetry record (R940)
  deriving DecidableEq, Repr

/-- One queue pair: state, its 128 B context as read at INIT (R738, R811), and the connection's counts. -/
structure QpSt where
  st       : QpState
  ctx      : List Byte
  owner    : Bool              -- established by the owner (R791)
  sqPsn    : Nat               -- next send PSN
  rqPsn    : Nat               -- next expected PSN
  unacked  : List TxMsg        -- sent, not acknowledged, oldest first
  acked    : List TxMsg        -- WQEs acknowledged or answered, not yet complete, oldest first (R752)
  rdHeld   : List (List Byte)  -- responses that wait behind a translation fault of their destination
  txWait   : List TxMsg        -- waiting for a send credit (R754) or a signal credit (R760)
  wsnTx    : Nat               -- WRITEs posted since connection (R753)
  landed   : Nat               -- LANDED: every WSN up to it has landed (R661)
  avail    : Nat               -- WQEs made available (R749)
  taken    : Nat               -- WQEs taken
  done     : Nat               -- WQEs completed
  rqPosted : Nat               -- receive entries posted
  rqNext   : Nat               -- receive entries consumed
  atomics  : List (Nat × List Byte)  -- last 16 atomic results by PSN (R747)
  retries  : Nat
  rnr      : Nat
  rate     : Nat               -- R, units of 10 MB/s (R765)
  cnps     : Nat               -- CNPs received in the period
  quiet    : Nat
  cnpAt    : Option Nat        -- ST ns of the last CNP sent (R764)
  sigTx    : Nat               -- signal credits held as requester (R760)
  sigOwed  : Nat               -- signal credits to return to the peer (R759)
  sigLent  : Nat               -- signal credits lent to the peer (R664)
  lastAck  : Nat               -- PSN of the last acknowledgement sent
  connected : Bool             -- a CM REQ was accepted and waits for RTU
  deriving DecidableEq, Repr

/-- A queue pair after reset: RESET (R739). -/
def QpSt.reset : QpSt where
  st := .reset
  ctx := []
  owner := false
  sqPsn := 0
  rqPsn := 0
  unacked := []
  acked := []
  rdHeld := []
  txWait := []
  wsnTx := 0
  landed := 0
  avail := 0
  taken := 0
  done := 0
  rqPosted := 0
  rqNext := 0
  atomics := []
  retries := 0
  rnr := 0
  rate := 0
  cnps := 0
  quiet := 0
  cnpAt := none
  sigTx := 0
  sigOwed := 0
  sigLent := 0
  lastAck := 0
  connected := false

/-! ## Event log, telemetry, debug (R929 to R957) -/

/-- An event-log entry waiting for the log unit: ST in units of the time unit's ST (R85), source number, and words 1 to 3 of R937. -/
structure LogEnt where
  time : Nat
  src : Nat
  w1  : Word
  w2  : Word
  w3  : Word
  deriving DecidableEq, Repr

/-- The telemetry unit. `dropped` holds the count, first and last ST of the entries dropped since the last LOST entry. -/
structure TelSt where
  logQ     : List LogEnt
  dropped  : Nat
  dropA    : Nat
  dropB    : Nat
  flight   : Bool            -- the previous record's WRITE has not completed (R940)
  lastB    : Nat             -- last sampling boundary served, ns
  margin   : Option (Nat × Nat × Nat)  -- report in progress: stack, sweep kind, next local pseudo-channel (R942)
  deriving DecidableEq, Repr

/-- The telemetry unit after reset. -/
def TelSt.reset : TelSt := ⟨[], 0, 0, 0, false, 0, none⟩

/-- Debug state: clusters in debug mode, the context last named by CTX_CMD (Weevil, context), the contexts whose step is in
progress, the result of the last command (R945 to R953). -/
structure DbgSt where
  mode : List Nat
  last : Option (Nat × Nat)
  step : List (Nat × Nat)
  result : Nat
  units  : List Nat          -- clusters whose Mantis and GMX block are held (R949)
  deriving DecidableEq, Repr

/-- Debug state after reset. -/
def DbgSt.reset : DbgSt := ⟨[], none, [], 0, []⟩

/-! ## Service state, firmware, identity (R888 to R928) -/

/-- Service state of the device, codes 0 to 5 (R888). -/
inductive DevState where
  | boot
  | early
  | full
  | degraded
  | safe
  | stopped
  deriving DecidableEq, Repr

/-- The code of a service state (R888). -/
def DevState.code : DevState → Nat
  | .boot => 0
  | .early => 1
  | .full => 2
  | .degraded => 3
  | .safe => 4
  | .stopped => 5

/-- SEC.ID_STATE, codes 0 to 3 (R927). -/
inductive IdState where
  | none
  | deriving_
  | ready
  | mismatch
  deriving DecidableEq, Repr

/-- The code of an identity state (R927). -/
def IdState.code : IdState → Nat
  | .none => 0
  | .deriving_ => 1
  | .ready => 2
  | .mismatch => 3

/-- State of a firmware slot, codes 0 to 4 (R928). -/
inductive FwSlot where
  | empty
  | staged
  | untested
  | active
  | bad
  deriving DecidableEq, Repr

/-- The code of a firmware slot state (R928). -/
def FwSlot.code : FwSlot → Nat
  | .empty => 0
  | .staged => 1
  | .untested => 2
  | .active => 3
  | .bad => 4

/-- A device record copy (R900): sequence number, active and next-boot slot of each kind (bit k), owner identity, and of
the repair records the cluster maps of the regions and the clusters retired. `ok` is whether its HMAC is intact. -/
structure RecSt where
  seq    : Nat
  active : Nat
  next   : Nat
  owner  : List Byte
  maps   : List (List Nat)
  gone   : List Nat
  ok     : Bool
  deriving DecidableEq, Repr

/-- An empty record copy. -/
def RecSt.reset : RecSt := ⟨0, 0, 0, [], [], [], false⟩

/-- The flash (R898): the items by half × 16 + kind, and the two record copies. -/
structure FlashSt where
  items : SMap (List Byte)
  recs  : List RecSt
  deriving DecidableEq, Repr

/-- A blank flash. -/
def FlashSt.reset : FlashSt := ⟨[], [RecSt.reset, RecSt.reset]⟩

/-- A rollout in progress (R918): kind, parts done, parts in total, watchdog failures of the new image, the record's
old active slots. -/
structure Rollout where
  kind  : Nat
  done  : Nat
  total : Nat
  old   : Nat
  deriving DecidableEq, Repr

/-- The device and its firmware image manager. `pendW` is the FW_WRITE in progress: kind, item, session, CMD_ID. -/
structure DevSt where
  st      : DevState
  step    : Nat                 -- boot steps completed (R905)
  started : Bool                -- the LOADER runs
  id      : IdState
  digest  : Nat                 -- identity key digest (R909)
  leafOk  : Option Bool         -- what the loader found in CERTS (R909)
  slots   : SMap FwSlot         -- slot states by half × 16 + kind
  active  : Nat                 -- slot in use of each kind, bit k
  image   : SMap Nat            -- slot each part runs: SVC cores 0–7, BASE 16–27, ETH 32–35 (R923)
  pendW   : Option (Nat × List Byte × Nat × Nat)
  rollout : Option Rollout
  untested : Bool               -- the boot set verified but is untested
  deriving DecidableEq, Repr

/-- The device after reset: BOOT (R888). -/
def DevSt.reset : DevSt where
  st := .boot
  step := 0
  started := false
  id := .none
  digest := 0
  leafOk := none
  slots := []
  active := 0
  image := []
  pendW := none
  rollout := none
  untested := false

/-- Service core state, codes 0 to 3 (R926). -/
inductive CoreState where
  | off
  | running
  | restarting
  | retired
  deriving DecidableEq, Repr

/-- The code of a service core state (R926). -/
def CoreState.code : CoreState → Nat
  | .off => 0
  | .running => 1
  | .restarting => 2
  | .retired => 3

/-- A service core: state, services it hosts (bits of SVC.SERVICES), watchdog failures on the running image (R920), and the VA and kind
of the last precise access fault it took (R187). -/
structure CoreSt where
  st       : CoreState
  services : Nat
  fails    : Nat
  fault    : Option (Nat × Nat)
  deriving DecidableEq, Repr

/-- A service core after reset: OFF (R926). -/
def CoreSt.reset : CoreSt := ⟨.off, 0, 0, none⟩

/-- An SPDM session (R912, R914). -/
structure SessSt where
  open_    : Bool
  auth     : Bool              -- KEY_EXCHANGE requested mutual authentication
  finished : Bool
  verified : Bool              -- the requester's chain verified
  chain    : List Byte
  keys     : Nat               -- key updates so far
  beat     : Nat               -- ST ns of the last HEARTBEAT
  held     : List Word         -- a management command that waits on a fault (R180)
  deriving DecidableEq, Repr

/-- No session. -/
def SessSt.reset : SessSt := ⟨false, false, false, false, [], 0, 0, []⟩

/-- The plain SPDM connection on a port: 0 nothing, 1 version, 2 capabilities, 3 algorithms negotiated (R910). -/
structure SpdmConn where
  phase : Nat
  deriving DecidableEq, Repr

/-- No connection. -/
def SpdmConn.reset : SpdmConn := ⟨0⟩

/-! ## Clusters as parts (R870 to R874) -/

/-- Repair view of a physical cluster: state, recurrence table of its scratchpad, uncorrectable errors in the window. -/
structure CluSt where
  st    : CluState
  recur : List (Nat × Nat)     -- 64 entries: access and ST ns (R852)
  firstUe : Option Nat         -- ST ns of the first SPAD_UE or UNIT_STATE in the window (R871)
  deriving DecidableEq, Repr

/-- A cluster before the maps are loaded: SERVICE (R885). -/
def CluSt.reset : CluSt := ⟨.service, [], none⟩

/-! ## Pins, resets and the board (R958 to R979) -/

/-- Pins and reset. `held`: the device is held in reset. `cause`: RESET_CAUSE of the reset in progress (R924). -/
structure PinSt where
  pwrOk    : Bool
  resetN   : Bool
  held     : Bool
  cause    : Nat
  clk100   : List Bool        -- REFCLK_CD0, REFCLK_CD1, REFCLK_HUB detected (R968)
  clkEth   : List Bool        -- REFCLK_ETH0–3 detected
  therm    : Bool             -- THERM_TRIP_N asserted (R978)
  hubTrip  : Bool             -- HUB_TRIP_N asserted
  spiQuad  : Bool             -- the flash interface is in quad I/O DTR at 100 MHz, else in single I/O at 25 MHz (R974)
  spiWp    : Bool             -- SPI_WP_N high: a write is in progress (R975)
  jtag     : JtagInstr        -- instruction in force at the test port (R976, R977)
  avs      : List Nat         -- AVS setpoints of VDD_CD0, VDD_CD1, VDD_HUB, VDD_BASE, mV (R958, R960)
  avsAt    : List Nat         -- ST ns of the last AVS change of each
  deriving DecidableEq, Repr

/-- Pins right after reset is released (R966): power good, RESET_N high, every clock detected, AVS at boot value. -/
def PinSt.reset : PinSt where
  pwrOk := true
  resetN := true
  held := false
  cause := 0
  clk100 := [true, true, true]
  clkEth := [true, true, true, true]
  therm := false
  hubTrip := false
  spiQuad := false
  spiWp := false
  jtag := .bypass
  avs := [750, 750, 750, 750]
  avsAt := [0, 0, 0, 0]

/-! ## Translation units (R161 to R200) -/

/-- A cached leaf: first VA of its page, its level (0 64 KiB, 1 2 MiB, 2 1 GiB), the entry, and the entry's PA (R171). -/
structure TlbEnt where
  va    : Nat
  lvl   : Nat
  entry : Word
  epa   : Nat
  deriving DecidableEq, Repr

/-- A cached pointer: the level it was read at (3 or 2), the first VA it covers, the PA of the next table (R171). -/
structure WcEnt where
  lvl : Nat
  va  : Nat
  tbl : Nat
  deriving DecidableEq, Repr

/-- A walk in progress: the requests that share it, the level and table of its next read, the leaf whose D bit is being
set (R172, R175). `restart`: an invalidation or a root write met the walk, so that it starts again (R179, R992), once `after`
more invalidations are complete. -/
structure WalkSt where
  id      : Nat
  reqs    : List XReq
  lvl     : Nat
  tbl     : Nat
  dset    : Option TlbEnt
  restart : Bool
  after   : Nat
  deriving DecidableEq, Repr

/-- A fault record slot (R183) with the requests it parks. -/
structure FaultRec where
  valid   : Bool
  lvl     : Nat
  acc     : Acc
  kind    : Nat
  va      : Nat
  waiters : Nat
  source  : Nat
  detail  : Nat
  st      : Nat
  entry   : Word
  parked  : List XReq
  deriving DecidableEq, Repr

/-- A record slot nothing has used. -/
def FaultRec.reset : FaultRec := ⟨false, 0, .read, 0, 0, 0, 0, 0, 0, 0, []⟩

/-- An eviction of the paging service under way (R197): VA and level of the page, its frame, whether the leaf it replaced had
D set, TAG, the INV_DONE count it waits for, and the queue pair of its write-back with the number of that WRITE there. -/
structure EvictSt where
  va     : Nat
  lvl    : Nat
  frame  : Nat
  dirty  : Bool
  tag    : Nat
  ticket : Word
  wb     : Option (Nat × Nat)
  deriving DecidableEq, Repr

/-- The paging service: the frames of the pool in use with their sizes in bits (R195), the place of its clock (R197), the
evictions under way. -/
structure PagerSt where
  used  : List (Nat × Nat)
  hand  : Nat
  outs  : List EvictSt
  deriving DecidableEq, Repr

/-- The paging service before any page is resident in its pool. -/
def PagerSt.reset : PagerSt := ⟨[], 0, []⟩

/-- One translation unit. `micro` holds the micro-TLBs by logical cluster. `granted` holds what TRANSLATE delivered to
each requester: the request, its PA, and whether the page is poisoned. -/
structure XlatSt where
  tlb     : List TlbEnt
  micro   : List (Nat × TlbEnt)
  wc      : List WcEnt
  walks   : List WalkSt
  nextWalk : Nat
  recs    : SMap FaultRec
  stalled : List XReq
  granted : List (XReq × Nat × Bool)
  deriving DecidableEq, Repr

/-- A translation unit after reset: nothing cached (R162). -/
def XlatSt.reset : XlatSt := ⟨[], [], [], [], 0, [], [], []⟩

/-- An invalidation in the device-wide queue (R176, R199): ALL, SIZE, VA, and the engine traffic, by stack and flit, that was
translated through the entries it removed and had not taken its slots (R177). -/
structure InvEnt where
  all  : Bool
  size : Nat
  va   : Nat
  hold : List (Nat × PortCmd)
  deriving DecidableEq, Repr

/-! ## Counters, waits, tasks (R617 to R673) -/

/-- Who waits on a counter (R627): a walker context, a Comet transfer slot, or wait i of a task window entry. -/
inductive Waiter where
  | walker   (c : CtxRef)
  | transfer (r : Region) (slot : Nat)
  | task     (r : Region) (entry : Nat) (i : Nat)
  deriving DecidableEq, Repr

/-- A wait: waiter, counter, absolute expected value, deadline and registration in ST ns, order of registration, and the
ST at which an increment made it due (R627, R628, R631). -/
structure WaitEnt where
  waiter : Waiter
  ctr    : Nat
  expect : Nat
  dead   : Nat
  reg    : Nat
  seq    : Nat
  due    : Option Nat
  deriving DecidableEq, Repr

/-- An increment on its way to a bank: counter and amount, and the CINC that completes when it is applied (R387, R621,
R622). -/
structure IncEnt where
  ctr    : Nat
  amount : Nat
  by_    : Option (CtxRef × Nat)
  deriving DecidableEq, Repr

/-- A region's counter bank and wait table (R617, R627). `held` are the waits held back by R629; `fullAt` is the ST at
which WAIT_FULL_CYC last counted. -/
structure SyncSt where
  ctr    : SMap Nat
  base   : SMap Nat
  waits  : List WaitEnt
  held   : List WaitEnt
  incQ   : List IncEnt
  seq    : Nat
  hwm    : Nat
  fullAt : Option Nat
  deriving DecidableEq, Repr

/-- A bank after reset: every counter 0, no wait (R672). -/
def SyncSt.reset : SyncSt := ⟨[], [], [], [], [], 0, 0, none⟩

/-- Wait table entries (R627). -/
def waitCap : Nat := 32768

/-- State of a task window entry, codes 0 to 4 (R647). -/
inductive TaskState where
  | free
  | pending
  | ready
  | running
  | ending
  deriving DecidableEq, Repr

/-- The code of a task state (R647). -/
def TaskState.code : TaskState → Nat
  | .free => 0
  | .pending => 1
  | .ready => 2
  | .running => 3
  | .ending => 4

/-- A task window entry: admission slot, header and payload (R638, R639), flags set, position in its list, ST ns at which
it entered its state, full ST at which it became READY (R648). -/
structure TaskSt where
  st      : TaskState
  slot    : Nat
  kind    : Nat
  hdr     : List Byte
  payload : List Byte
  flags   : Nat
  pos     : Nat
  since   : Nat
  readyAt : Nat
  deriving DecidableEq, Repr

/-- A FREE window entry. -/
def TaskSt.reset : TaskSt := ⟨.free, 0, 0, [], [], 0, 0, 0, 0⟩

/-- A swarm piece task on the LOOKUP list (R650): the swarm bag's issuing region and number, the piece, the cluster that
finishes it, the admission slot it takes its class from, and the ST at which it joined. -/
structure PieceTask where
  from_   : Nat
  bag     : Nat
  piece   : Nat
  clu     : Nat
  slot    : Nat
  readyAt : Nat
  deriving DecidableEq, Repr

/-- A dispatcher: task window, next list entry by admission slot, the slot read last, held asks in order, the logical
cluster that last received a task by kind, swarm piece tasks, high-water mark (R644 to R655). -/
structure DispSt where
  window  : SMap TaskSt
  next    : SMap Nat
  last    : Nat
  asks    : List (Nat × UnitKind)
  lastClu : List Nat
  pieces  : List PieceTask
  hwm     : Nat
  deriving DecidableEq, Repr

/-- A dispatcher after reset: empty window (R669). -/
def DispSt.reset : DispSt := ⟨[], [], 4095, [], [11, 11, 11, 11], [], 0⟩

/-- Task window entries (R644). -/
def windowCap : Nat := 2048

/-! ## Comet (R572 to R616) -/

/-- Transfer slot state, codes 0 to 4 (R592). -/
inductive XferState where
  | free
  | queued
  | active
  | halted
  | draining
  deriving DecidableEq, Repr

/-- The code of a transfer slot state (R592). -/
def XferState.code : XferState → Nat
  | .free => 0
  | .queued => 1
  | .active => 2
  | .halted => 3
  | .draining => 4

/-- A row Comet has issued and not delivered: its number, the buffer granules its source granules lie in, in address order, and
the marks of its accesses (R582, R591). A STORE row has neither. -/
structure RowBuf where
  row   : Nat
  grans : List Nat
  marks : List Bool
  deriving DecidableEq, Repr

/-- A transfer slot: descriptor, order of posting, admission slot and window entry of its task, rows delivered and
signalled in a prefix, further rows delivered out of order, saved row after a fault (R594), whether its wait is met,
whether it is served as real-time (R610, R611), granules in flight while it drains, ST of activation, order of activation, rows issued so far and those of them that wait for
their delivery (R583). -/
structure XferSt where
  st      : XferState
  desc    : List Byte
  queue   : Nat
  seq     : Nat
  slot    : Nat
  task    : Nat
  prefix_ : Nat
  rows    : List Nat
  saved   : Option Nat
  waitMet : Bool
  rt      : Bool
  flight  : Nat
  ended   : Nat        -- failure status of the transfer while it drains, 0 for a cancel
  actSeq  : Nat
  next    : Nat
  bufs    : List RowBuf
  deriving DecidableEq, Repr

/-- A FREE transfer slot. -/
def XferSt.reset : XferSt := ⟨.free, [], 0, 0, 0, 0, 0, [], none, false, false, 0, 0, 0, 0, []⟩

/-- A region's Comet: slots by number and the counts of posts and activations (R579 to R581). -/
structure CometSt where
  slots : SMap XferSt
  seq   : Nat
  acts  : Nat
  deriving DecidableEq, Repr

/-- A Comet after reset. -/
def CometSt.reset : CometSt := ⟨[], 0, 0⟩

/-! ## Weevils (R315 to R364) -/

/-- State of a walker context, codes 0 to 7 (R316). -/
inductive CtxState where
  | free
  | ready
  | waitMem
  | waitCtr
  | parked
  | halted
  | except
  | drain
  deriving DecidableEq, Repr

/-- The code of a context state (R316). -/
def CtxState.code : CtxState → Nat
  | .free => 0
  | .ready => 1
  | .waitMem => 2
  | .waitCtr => 3
  | .parked => 4
  | .halted => 5
  | .except => 6
  | .drain => 7

/-- An outstanding request of a context (R319, R346, R379). `done` counts the accesses already delivered (R356). -/
inductive WReqOp where
  | ld     (va size : Nat) (sext : Bool) (d : Nat)
  | st     (va : Nat) (data : List Byte)
  | gather (va spad n done : Nat)
  | put    (va : Nat) (data : List Byte) (poison : List Bool)
  | deg    (gva v d : Nat)
  | sample (gva v f mode stream elem dst : Nat) (edst : Option Nat) (d : Nat)
  | grl    (word : Word) (ops : List Word) (sent : Bool)
  | grn    (word : Word) (ops : List Word) (sent : Bool)
  | sadd   (desc row src : Nat) (fast : Bool)
  | sclose (desc : Nat)
  | cinc   (r c amount : Nat) (sent : Bool)
  deriving DecidableEq, Repr

/-- An outstanding request with its number, the PC of its instruction (R426) and, of a request that reads structure, the 32 B
accesses it has read, by VA (R344, R356). -/
structure WReq where
  id  : Nat
  pc  : Nat
  op  : WReqOp
  got : List (Nat × List Byte)
  deriving DecidableEq, Repr

/-- A walker context (R28, R316). `prior` is the state saved by a debug halt, `held` an exception waiting to be taken:
code, address, PC (R426). -/
structure CtxSt where
  st    : CtxState
  prior : CtxState
  entry : Nat             -- window entry of its walk task
  pos   : Nat
  pc    : Nat
  g     : SMap Word
  p     : Nat
  reqs  : List WReq
  next  : Nat
  held  : Option (Nat × Nat × Nat)
  deriving DecidableEq, Repr

/-- A FREE context. -/
def CtxSt.reset : CtxSt := ⟨.free, .free, 0, 0, 0, [], 0, [], 0, none⟩

/-- A walk task held by a Weevil (R325): its window entry, admission slot, program with the marks of poisoned words,
task arguments, launch seed, next unassigned position, the failure it completes with. -/
structure WalkTask where
  entry   : Nat
  slot    : Nat
  progVa  : Nat
  len     : Nat
  prog    : List Word
  poison  : List Bool
  loaded  : Bool
  arg     : Word
  p0      : Nat
  n       : Nat
  done    : Nat
  seed    : Word
  given   : Nat            -- positions assigned so far
  fail    : Option (Nat × Nat)
  cancel  : Bool
  deriving DecidableEq, Repr

/-- A Weevil: current and next walk task, contexts, clock gate (R322, R325), the contexts it issued from last, at most three,
the latest first (R29, R317). -/
structure WvSt where
  cur   : Option WalkTask
  nxt   : Option WalkTask
  ctxs  : SMap CtxSt
  gated : Bool
  last  : List Nat
  deriving DecidableEq, Repr

/-- A Weevil after reset: no task, every context FREE (R363). -/
def WvSt.reset : WvSt := ⟨none, none, [], false, []⟩

/-! ## Embedding engines (R201 to R274, R347 to R354, R459 to R470) -/

/-- Who a bag belongs to: a look-up task of the bag's region, a walker's request, a piece of a swarm. -/
inductive BagOwner where
  | task   (entry : Nat)
  | walker (c : CtxRef) (req : Nat)
  | piece  (swarm : Nat) (piece : Nat)
  deriving DecidableEq, Repr

/-- A bag at an embedding engine (R213, R347, R462). For GATHER a bag is one index. `clu` is the physical finishing
cluster; `list` says that indices and weights lie in its scratchpad; `started` that its rows are requested. `acc` are
the exact sums of its columns, `run` the FP32 sums of a fast form, `got` the pieces of a gathered row. -/
structure BagSt where
  id      : Nat
  owner   : BagOwner
  slot    : Nat
  table   : Nat
  ver     : Nat
  op      : Nat
  fmt     : Nat
  sr      : Bool
  stream  : Nat
  b       : Nat
  fast    : Bool
  clu     : Nat
  idx64   : Bool
  list    : Bool
  idxVa   : Nat
  wgtVa   : Nat
  n       : Nat
  pad     : Option Nat
  out     : Nat
  offBad  : Bool
  started : Bool
  count   : Nat
  acc     : List XAcc
  run     : List Fl
  got     : List (Nat × List Byte × List Bool)
  poison  : Bool
  deriving DecidableEq, Repr

/-- Who an outstanding part of stack traffic belongs to: a bag of a region, an update batch, or a row move (its FENCEs). -/
inductive PartOwner where
  | bag   (r id : Nat)
  | batch (id : Nat)
  | move  (id : Nat)
  deriving DecidableEq, Repr

/-- A GPOOL, RD or RUPD of an embedding engine that is not yet answered (R222, R266): its stack, opcode and flit, the
GPOOL_ROW flits still to follow, the engine that issued it, its piece, the rows it reads with their weights, what has
arrived, the read epoch it is tagged with (R293), whether the base die has taken it, the move whose acknowledgements its
completion waits for (R304), the SADD that is accepted when it has taken its slot (R411), the columns its piece holds (R207),
whether the base die pools it (R225, R829), and the VAs its addresses were translated from. -/
structure PartSt where
  stk    : Nat
  opc    : Nat
  flit   : PortCmd
  rows   : List PortCmd
  region : Nat
  owner  : PartOwner
  piece  : Nat
  wts    : List Nat
  k      : Nat
  seen   : Nat
  got    : List Byte
  bad    : Bool
  epoch  : Nat
  sent   : Bool
  gate   : Option Nat
  done   : Bool
  sadd   : Option (CtxRef × Nat)
  ncols  : Nat
  pooled : Bool
  vas    : List Nat
  deriving DecidableEq, Repr

/-- A LOOKUP or UPDATE task held by an engine (R655): window entry, admission slot, whether it is an update, whether its
row has run, and whether an output of it is poisoned. -/
structure EmbTask where
  entry   : Nat
  slot    : Nat
  update  : Bool
  started : Bool
  done    : Nat
  deriving DecidableEq, Repr

/-- A row staged ahead (R243), with its four tags, its pieces' bytes and their marks. -/
structure Staged where
  table : Nat
  ver   : Nat
  row   : Nat
  epoch : Nat
  upd   : Word
  data  : List (List Byte × List Bool)
  deriving DecidableEq, Repr

/-- An embedding engine. `cache` holds table descriptors by TABLE_ID (R204). -/
structure EmbSt where
  cache   : List (Nat × List Byte)
  tasks   : List EmbTask
  bags    : List BagSt
  nextBag : Nat
  staged  : List Staged
  deriving DecidableEq, Repr

/-- An embedding engine after reset. -/
def EmbSt.reset : EmbSt := ⟨[], [], [], 0, []⟩

/-- Tasks an engine holds (R655). -/
def embTasks : Nat := 16
/-- Walker bags an engine queues (R351). -/
def walkerBags : Nat := 4096

/-- A row of an update batch in its merge (R263 to R265): exact sums of an ADD or the bytes of a WRITE, and which pieces
took a poisoned value (R997). `m` is the region that merges it. -/
structure MergeRow where
  row  : Nat
  m    : Nat
  acc  : List XAcc
  data : List Byte
  bad  : List Bool
  deriving DecidableEq, Repr

/-- A RUPD that waits: for a tag, in a full hold queue's stall, which is counted once, or in the hold queue of a moving row
(R303). -/
structure RupdWait where
  stk   : Nat
  flit  : PortCmd
  m     : Nat
  table : Nat
  ver   : Nat
  row   : Nat
  piece : Nat
  batch : Nat
  sadd  : Option (CtxRef × Nat)
  stalled : Bool
  deriving DecidableEq, Repr

/-- An update or scatter-add batch (R260, R409): engine, admission slot, window entry of its task or the VA of its SADD
descriptor, the descriptor's fields, merged rows, whether it is closed, RUPDs not yet issued, whether any was issued,
whether it was cancelled. -/
structure BatchSt where
  id     : Nat
  region : Nat
  slot   : Nat
  task   : Option Nat
  desc   : Nat
  body   : List Byte
  ver    : Nat
  rows   : List MergeRow
  closed : Bool
  todo   : List RupdWait
  issued : Bool
  cancel : Bool
  deriving DecidableEq, Repr

/-- A set of sums of a swarm (R463): cluster, sums, count of rows, poison, pieces entered. -/
structure SwarmSet where
  clu    : Nat
  acc    : List XAcc
  run    : List Fl
  n      : Nat
  poison : Bool
  pieces : Nat
  deriving DecidableEq, Repr

/-- A swarm bag (R459 to R467): issuing context and request, its bag with the columns of its table, graph lists, degree,
number of pieces and of pieces created, pieces each cluster has still to finish, sets open at piece clusters, sets on
their way to the issuing cluster, the issuing cluster's own set, and the pieces it holds. -/
structure SwarmSt where
  id     : Nat
  ctx    : CtxRef
  req    : Nat
  region : Nat
  bag    : BagSt
  home   : Nat
  idxVa  : Nat
  wgtVa  : Nat
  deg    : Nat
  dim    : Nat
  k      : Nat
  next   : Nat
  left   : List (Nat × Nat)
  sets   : List SwarmSet
  ship   : List SwarmSet
  total  : Option SwarmSet
  recv   : Nat
  deriving DecidableEq, Repr

/-- Accumulators of a Firefly lane (R441). -/
def accPerLane : Nat := 128
/-- Swarm bags a region issues (R467). -/
def swarmCap : Nat := 64
/-! ## Row migration (R275 to R314) -/

/-- A hot-row tracker entry (R277). -/
structure TrackEnt where
  table : Nat
  ver   : Nat
  row   : Nat
  stk   : Nat
  count : Nat
  deriving DecidableEq, Repr

/-- A load report from one engine to another (R279): the boundary, the pieces counted, the candidate rows; or the load of
its shard that an engine forwards (R280). -/
structure LoadRpt where
  from_ : Nat
  fwd   : Bool
  bound : Nat
  load  : Nat
  cands : List TrackEnt
  deriving DecidableEq, Repr

/-- A copy in a stack's pool: the row it places, its frame, the VA of its directory entry, and the successive boundaries
for which its candidate count stayed below RETURN_MIN (R286, R290). `gone` that its slot became FREE and its entry is still to be
released (R307). -/
structure RowCopy where
  table : Nat
  ver   : Nat
  row   : Nat
  frame : Nat
  entVa : Nat
  cool  : Nat
  gone  : Bool
  deriving DecidableEq, Repr

/-- An engine's part of migration: tracker, piece counts of the current slot and the slots before it by stack, the last
boundary, reports and forwarded loads on their way to this engine, the reports received, the loads known by stack, whether it
has decided, the copies in its stack's pool, read epoch, copy granules issued in the slot, hold queue, and the directory cache:
buckets by VA (R291). -/
structure MigSt where
  track  : List TrackEnt
  slots  : List (List Nat)
  bound  : Nat
  inbox  : List LoadRpt
  rpts   : List LoadRpt
  loads  : List (Nat × Nat)
  decided : Bool
  epoch  : Nat
  copies : List RowCopy
  copied : Nat
  hold   : List RupdWait
  dirs   : List (Nat × List Byte)
  deriving DecidableEq, Repr

/-- Migration after reset. -/
def MigSt.reset : MigSt := ⟨[], [], 0, [], [], [], false, 0, [], 0, [], []⟩

/-- Buckets of a directory cache (R291). -/
def dirCap : Nat := 2048

/-- Tracker entries (R277). -/
def trackCap : Nat := 4096
/-- Hold queue entries (R303). -/
def holdCap : Nat := 256

/-- Where a move stands (R296): its present broadcast or step. `last` is the broadcast of the entry's last write, after
which nothing is left of the move (R291). -/
inductive MovePhase where
  | start
  | fence
  | copy
  | switch
  | drain
  | freed
  | last
  deriving DecidableEq, Repr

/-- A move in progress (R296): engine, row, pieces, VA of its directory entry and the entry's words, whether it goes
home, its frame, phase, engines whose acknowledgement is due, read epochs reported with the switch, granules copied so far
(R299), engines whose delay of the switch is counted (R295), and whether its slot became FREE meanwhile (R307). -/
structure RowMove where
  id     : Nat
  n      : Nat
  table  : Nat
  ver    : Nat
  row    : Nat
  pieces : Nat
  homeVa : Nat
  entVa  : Nat
  ent    : List Word
  home   : Bool
  frame  : Option Nat
  old    : Option Nat
  phase  : MovePhase
  acks   : List Nat
  epochs : List (Nat × Nat)
  copied : Nat
  delayed : List Nat
  stale  : Bool
  deriving DecidableEq, Repr
/-! ## Mantis, GMX and Firefly tasks (R446 to R454, R473 to R571) -/

/-- A matrix task accepted by a Mantis (R480, R481): window entry, admission slot, descriptor, running sums row by row as
bits of the accumulator format (empty until it is accepted), elements that depend on poisoned data, whether its groups are folded, relay chunks
complete in its scratchpad, and relay chunks it still has to send. -/
structure MatTask where
  entry  : Nat
  slot   : Nat
  body   : List Byte
  sums   : List Nat
  bad    : List Bool
  issued : Bool
  chunks : List Nat
  toSend : List Nat
  deriving DecidableEq, Repr

/-- A Mantis: accepted tasks in order, the tasks in its two drain buffers, tasks written whose last relay chunk the next
cluster has not taken (R518), clock gate (R636). -/
structure MatSt where
  tasks : List MatTask
  bufs  : List MatTask
  relay : List MatTask
  gated : Bool
  deriving DecidableEq, Repr

/-- A Mantis after reset. -/
def MatSt.reset : MatSt := ⟨[], [], [], false⟩

/-- A relay chunk in a link buffer (R514, R516): relay tag, chunk number, bytes, poison marks, admission slot. -/
structure Chunk where
  id   : Nat
  n    : Nat
  data : List Byte
  bad  : List Bool
  slot : Nat
  deriving DecidableEq, Repr

/-- A task of a GMX block or a Firefly: window entry, admission slot, descriptor, and the digest sum with its poison of a
task that waits for its flush alone. -/
structure UnitTask where
  entry : Nat
  slot  : Nat
  body  : List Byte
  part  : Option (Nat × Bool)
  deriving DecidableEq, Repr

/-- The tasks a GMX block or a Firefly has accepted, and its clock gate (R551, R636). -/
structure UnitSt where
  tasks : List UnitTask
  gated : Bool
  deriving DecidableEq, Repr

/-- A unit after reset. -/
def UnitSt.reset : UnitSt := ⟨[], false⟩
/-! ## Links, discovery, signals, snapshots (R659 to R693, R715 to R768) -/

/-- Link state, codes 0 to 2 (R721). -/
inductive LinkPhase where
  | down
  | training
  | up
  deriving DecidableEq, Repr

/-- The code of a link state (R721). -/
def LinkPhase.code : LinkPhase → Nat
  | .down => 0
  | .training => 1
  | .up => 2

/-- A link: state, ST ns at which it went down, its registers of the window 0x218 to 0x2C0 by offset (R770), training
failures in succession, uncorrectable codewords in the last second (R875), lanes retired, whether the port is retired,
discovery messages sent (R729), resolved next hops (R727). -/
structure LinkSt where
  st     : LinkPhase
  downAt : Option Nat
  regs   : SMap Word
  fails  : Nat
  fec    : List Nat
  dead   : Bool
  seq    : Nat
  annAt  : Nat
  hops   : List (Nat × Nat)
  deriving DecidableEq, Repr

/-- A link after reset: DOWN. -/
def LinkSt.reset : LinkSt := ⟨.down, none, [], 0, [], false, 0, 0, []⟩

/-- A pending remote increment (R663): engine, number, queue pair, counter, amount, covered writes, and the number of
WRITEs that had arrived on the queue pair before it. -/
structure PSig where
  eng    : Nat
  id     : Nat
  qp     : Nat
  region : Nat
  ctr    : Nat
  amount : Nat
  cov    : List (Nat × Nat)
  bar    : Nat
  deriving DecidableEq, Repr

/-- Pending-signal entries of an engine (R664). -/
def psigCap : Nat := 1024

/-- A received request that waits behind a translation fault of its queue pair (R746, R186). -/
structure RxMsg where
  qp  : Nat
  psn : Nat
  ce  : Bool
  op  : TxOp
  deriving DecidableEq, Repr

/-- A pause of a priority of a port: since when it is unbroken, its end, ST ns, and whether its storm has been counted
(R722, R724). -/
structure Pause where
  port  : Nat
  prio  : Nat
  since : Nat
  until_ : Nat
  storm : Bool
  deriving DecidableEq, Repr

/-- Ports, discovery and the receive side. `queries` are links with the ST ns at which their answer is due (R731);
`xoff` are the ports whose PFC frame is in force (R722), `vlans` the VLAN ID plus 1 of each link configured with one
(R719), `dhcp` the DHCP enables of each link: bit 0 DHCPv4, bit 1 DHCPv6 (R726). -/
structure EthSt where
  links   : SMap LinkSt
  psig    : List PSig
  nextSig : Nat
  rxHeld  : List RxMsg
  queries : List (Nat × Nat)
  pauses  : List Pause
  xoff    : List Nat
  vlans   : SMap Nat
  dhcp    : SMap Nat
  deriving DecidableEq, Repr

/-- Ports after reset. -/
def EthSt.reset : EthSt := ⟨[], [], 0, [], [], [], [], [], []⟩

/-- A snapshot of the books (R679, R680): T, and the counts once they are latched, by book: CAP, FREE, LENT, HELD,
TRANSIT, OWNED and QUIET. -/
structure SnapSt where
  t     : Nat
  books : Option (List (List Nat))
  deriving DecidableEq, Repr
/-! ## The state -/

/-- The state of the block. -/
structure State where
  /-- Commands that wait, first in first out. -/
  pending : List Instr
  /-- Registers of the control window by key page × 512 + offset / 8 (R775). -/
  regs : SMap Word
  /-- ST and source of the records in ERR_FIRST and ERR_LAST, by page × 2 (R85). -/
  errKeys : SMap (Nat × Nat)
  /-- Time unit. -/
  time : TimeSt
  /-- Stack memory: key (pseudo-channel × 2^22 + slot) × 256 + byte; poison by access. -/
  dram : Mem
  /-- Symbols that are wrong in the cells of stack memory, by access (R138). -/
  cell : SMap (List Byte)
  /-- Scratchpads: key cluster × 2^22 + byte (R30). -/
  spad : Mem
  /-- Region stores: key region × 2^25 + byte (R38). -/
  store : Mem
  /-- Stacks. -/
  stk : SMap StkSt
  /-- Device pseudo-channels. -/
  pch : SMap PchSt
  /-- Regions. -/
  region : SMap RegionSt
  /-- Power domains. -/
  dom : SMap DomSt
  /-- Power controller. -/
  pwr : PwrSt
  /-- Command unit. -/
  host : HostSt
  /-- Command rings. -/
  rings : SMap RingSt
  /-- Admission slots. -/
  slots : SMap AdmSt
  /-- Compiled-graph handles. -/
  graphs : SMap GraphSt
  /-- Streams. -/
  streams : SMap StreamSt
  /-- Queue pairs. -/
  qps : SMap QpSt
  /-- Service state and firmware image manager. -/
  dev : DevSt
  /-- Flash: items and device records. -/
  flash : FlashSt
  /-- Service cores. -/
  cores : SMap CoreSt
  /-- SPDM sessions. -/
  sess : SMap SessSt
  /-- SPDM connections by port. -/
  conns : SMap SpdmConn
  /-- Physical clusters as repairable parts. -/
  clu : SMap CluSt
  /-- Event log and telemetry. -/
  tel : TelSt
  /-- Debug state. -/
  dbg : DbgSt
  /-- Pins and reset. -/
  pins : PinSt
  /-- Translation units. -/
  xlat : SMap XlatSt
  /-- Device-wide invalidation queue (R176). -/
  invQ : List InvEnt
  /-- Paging service. -/
  pager : PagerSt
  /-- Counter banks. -/
  sync : SMap SyncSt
  /-- Dispatchers. -/
  disp : SMap DispSt
  /-- Comets. -/
  comet : SMap CometSt
  /-- Weevils by physical cluster × 4 + number. -/
  wv : SMap WvSt
  /-- Graph descriptors each physical cluster caches, by VA (R333). -/
  gdesc : SMap (List (Nat × List Byte))
  /-- Embedding engines. -/
  emb : SMap EmbSt
  /-- Stack traffic of the embedding engines not yet answered, oldest first. -/
  parts : List PartSt
  /-- Update and scatter-add batches. -/
  batches : List BatchSt
  /-- Swarm bags. -/
  swarms : List SwarmSt
  /-- Numbers given to batches, swarms and moves so far. -/
  ids : Nat
  /-- Row migration by engine. -/
  mig : SMap MigSt
  /-- Row moves in progress. -/
  moves : List RowMove
  /-- Mantis units by physical cluster. -/
  mat : SMap MatSt
  /-- Relay link buffers by region × 12 + receiving logical cluster. -/
  relay : SMap (List Chunk)
  /-- GMX blocks by physical cluster. -/
  gmx : SMap UnitSt
  /-- Fireflies by physical cluster. -/
  vec : SMap UnitSt
  /-- Ports, links and the receive side. -/
  eth : EthSt
  /-- Queue pair plus 1 that each link served last (R766). -/
  served : SMap Nat
  /-- Frames each link has sent (R770). -/
  frames : SMap Nat
  /-- Snapshot of the books in progress. -/
  snap : Option SnapSt
  /-- What the block has sent out, oldest first. -/
  out : List Emit
  /-- Free values drawn so far: the model's own counter. -/
  free : Nat
  deriving DecidableEq, Repr

/-- The block right after reset is released (R966): every table at its reset value, no command waiting. -/
def State.reset : State where
  pending := []
  regs := []
  errKeys := []
  time := TimeSt.reset
  dram := Mem.reset
  cell := []
  spad := Mem.reset
  store := Mem.reset
  stk := []
  pch := []
  region := []
  dom := []
  pwr := PwrSt.reset
  host := HostSt.reset
  rings := []
  slots := []
  graphs := []
  streams := []
  qps := []
  dev := DevSt.reset
  flash := FlashSt.reset
  cores := []
  sess := []
  conns := []
  clu := []
  tel := TelSt.reset
  dbg := DbgSt.reset
  pins := PinSt.reset
  xlat := []
  invQ := []
  pager := PagerSt.reset
  sync := []
  disp := []
  comet := []
  wv := []
  gdesc := []
  emb := []
  parts := []
  batches := []
  swarms := []
  ids := 0
  mig := []
  moves := []
  mat := []
  relay := []
  gmx := []
  vec := []
  eth := EthSt.reset
  served := []
  frames := []
  snap := none
  out := []
  free := 0

/-- The state with its pending replaced. -/
def State.setPending (s : State) (v : List Instr) : State := { s with pending := v }
/-- The state with its regs replaced. -/
def State.setRegs (s : State) (v : SMap Word) : State := { s with regs := v }
/-- The state with its errKeys replaced. -/
def State.setErrKeys (s : State) (v : SMap (Nat × Nat)) : State := { s with errKeys := v }
/-- The state with its time replaced. -/
def State.setTime (s : State) (v : TimeSt) : State := { s with time := v }
/-- The state with its dram replaced. -/
def State.setDram (s : State) (v : Mem) : State := { s with dram := v }
/-- The state with its cell replaced. -/
def State.setCell (s : State) (v : SMap (List Byte)) : State := { s with cell := v }
/-- The state with its spad replaced. -/
def State.setSpad (s : State) (v : Mem) : State := { s with spad := v }
/-- The state with its store replaced. -/
def State.setStore (s : State) (v : Mem) : State := { s with store := v }
/-- The state with its stk replaced. -/
def State.setStk (s : State) (v : SMap StkSt) : State := { s with stk := v }
/-- The state with its pch replaced. -/
def State.setPch (s : State) (v : SMap PchSt) : State := { s with pch := v }
/-- The state with its region replaced. -/
def State.setRegion (s : State) (v : SMap RegionSt) : State := { s with region := v }
/-- The state with its dom replaced. -/
def State.setDom (s : State) (v : SMap DomSt) : State := { s with dom := v }
/-- The state with its pwr replaced. -/
def State.setPwr (s : State) (v : PwrSt) : State := { s with pwr := v }
/-- The state with its host replaced. -/
def State.setHost (s : State) (v : HostSt) : State := { s with host := v }
/-- The state with its rings replaced. -/
def State.setRings (s : State) (v : SMap RingSt) : State := { s with rings := v }
/-- The state with its slots replaced. -/
def State.setSlots (s : State) (v : SMap AdmSt) : State := { s with slots := v }
/-- The state with its graphs replaced. -/
def State.setGraphs (s : State) (v : SMap GraphSt) : State := { s with graphs := v }
/-- The state with its streams replaced. -/
def State.setStreams (s : State) (v : SMap StreamSt) : State := { s with streams := v }
/-- The state with its qps replaced. -/
def State.setQps (s : State) (v : SMap QpSt) : State := { s with qps := v }
/-- The state with its dev replaced. -/
def State.setDev (s : State) (v : DevSt) : State := { s with dev := v }
/-- The state with its flash replaced. -/
def State.setFlash (s : State) (v : FlashSt) : State := { s with flash := v }
/-- The state with its cores replaced. -/
def State.setCores (s : State) (v : SMap CoreSt) : State := { s with cores := v }
/-- The state with its sess replaced. -/
def State.setSess (s : State) (v : SMap SessSt) : State := { s with sess := v }
/-- The state with its conns replaced. -/
def State.setConns (s : State) (v : SMap SpdmConn) : State := { s with conns := v }
/-- The state with its clu replaced. -/
def State.setClu (s : State) (v : SMap CluSt) : State := { s with clu := v }
/-- The state with its tel replaced. -/
def State.setTel (s : State) (v : TelSt) : State := { s with tel := v }
/-- The state with its dbg replaced. -/
def State.setDbg (s : State) (v : DbgSt) : State := { s with dbg := v }
/-- The state with its pins replaced. -/
def State.setPins (s : State) (v : PinSt) : State := { s with pins := v }
/-- The state with its xlat replaced. -/
def State.setXlat (s : State) (v : SMap XlatSt) : State := { s with xlat := v }
/-- The state with its invQ replaced. -/
def State.setInvQ (s : State) (v : List InvEnt) : State := { s with invQ := v }
/-- The state with its pager replaced. -/
def State.setPager (s : State) (v : PagerSt) : State := { s with pager := v }
/-- The state with its sync replaced. -/
def State.setSync (s : State) (v : SMap SyncSt) : State := { s with sync := v }
/-- The state with its disp replaced. -/
def State.setDisp (s : State) (v : SMap DispSt) : State := { s with disp := v }
/-- The state with its comet replaced. -/
def State.setComet (s : State) (v : SMap CometSt) : State := { s with comet := v }
/-- The state with its wv replaced. -/
def State.setWv (s : State) (v : SMap WvSt) : State := { s with wv := v }
/-- The state with its gdesc replaced. -/
def State.setGdesc (s : State) (v : SMap (List (Nat × List Byte))) : State := { s with gdesc := v }
/-- The state with its emb replaced. -/
def State.setEmb (s : State) (v : SMap EmbSt) : State := { s with emb := v }
/-- The state with its parts replaced. -/
def State.setParts (s : State) (v : List PartSt) : State := { s with parts := v }
/-- The state with its batches replaced. -/
def State.setBatches (s : State) (v : List BatchSt) : State := { s with batches := v }
/-- The state with its swarms replaced. -/
def State.setSwarms (s : State) (v : List SwarmSt) : State := { s with swarms := v }
/-- The state with its ids replaced. -/
def State.setIds (s : State) (v : Nat) : State := { s with ids := v }
/-- The state with its mig replaced. -/
def State.setMig (s : State) (v : SMap MigSt) : State := { s with mig := v }
/-- The state with its moves replaced. -/
def State.setMoves (s : State) (v : List RowMove) : State := { s with moves := v }
/-- The state with its mat replaced. -/
def State.setMat (s : State) (v : SMap MatSt) : State := { s with mat := v }
/-- The state with its relay replaced. -/
def State.setRelay (s : State) (v : SMap (List Chunk)) : State := { s with relay := v }
/-- The state with its gmx replaced. -/
def State.setGmx (s : State) (v : SMap UnitSt) : State := { s with gmx := v }
/-- The state with its vec replaced. -/
def State.setVec (s : State) (v : SMap UnitSt) : State := { s with vec := v }
/-- The state with its eth replaced. -/
def State.setEth (s : State) (v : EthSt) : State := { s with eth := v }
/-- The state with its served replaced. -/
def State.setServed (s : State) (v : SMap Nat) : State := { s with served := v }
/-- The state with its frames replaced. -/
def State.setFrames (s : State) (v : SMap Nat) : State := { s with frames := v }
/-- The state with its snap replaced. -/
def State.setSnap (s : State) (v : Option SnapSt) : State := { s with snap := v }
/-- The state with its out replaced. -/
def State.setOut (s : State) (v : List Emit) : State := { s with out := v }
/-- The state with its free replaced. -/
def State.setFree (s : State) (v : Nat) : State := { s with free := v }

end Sys2Proof.Machine
end

