-- ==== Sys2Proof/Machine/Flags.lean ====
section
/-! DEFINITION. Registers, status flags and records of the page header: register access by page and offset, event
counters (R929 to R932), sets of EVT_STATUS bits with their notifications and log entries (R785, R786, R1000, R934),
error records (R781), completions and notifications on command rings (R799 to R803), and messages posted on a queue
pair (R748, R753, R754). -/

namespace Sys2Proof.Machine

/-! ## Time and free values -/

/-- ST in whole nanoseconds (R8). -/
def State.ns (s : State) : Nat := s.time.st / 2 ^ 40

/-- ST with its 16-bit fraction, in units of 2^-16 ns (R8, R56). -/
def State.st16 (s : State) : Nat := s.time.st / 2 ^ 24

/-- A free value: the next of the opaque sequence, and the state with the counter advanced (assumption 3). -/
def State.draw (s : State) : Nat × State := (Config.freeValue s.free, s.setFree (s.free + 1))

/-- Send something out of the block. -/
def State.emit (s : State) (e : Emit) : State := s.setOut (s.out ++ [e])

/-! ## Registers -/

/-- Key of a register: the aligned word of the control window (R9, R775). -/
def regKey (pg off : Nat) : Nat := pg * 512 + off / 8

/-- The stored value of a register. -/
def State.rg (s : State) (pg off : Nat) : Word := smapGet regReset s.regs (regKey pg off)

/-- The state with a register's stored value replaced. -/
def State.setRg (s : State) (pg off : Nat) (v : Word) : State :=
  s.setRegs (smapSet regReset s.regs (regKey pg off) v)

/-- Field [hi:lo] of a register. -/
def State.rf (s : State) (pg off hi lo : Nat) : Nat := fld (s.rg pg off) hi lo

/-- The state with field [hi:lo] of a register replaced. -/
def State.setRf (s : State) (pg off hi lo v : Nat) : State := s.setRg pg off (setFld (s.rg pg off) hi lo v)

/-- PAGE_CTL (R779). -/
def oPageCtl : Nat := 0x010
/-- PAGE_STATE (R779). -/
def oPageState : Nat := 0x018
/-- EVT_STATUS (R779). -/
def oEvtStatus : Nat := 0x020
/-- EVT_ENABLE (R779). -/
def oEvtEnable : Nat := 0x028
/-- EVT_SET (R779). -/
def oEvtSet : Nat := 0x030
/-- EVT_COLLIDE (R779). -/
def oEvtCollide : Nat := 0x038
/-- ERR_FIRST (R779). -/
def oErrFirst : Nat := 0x040
/-- ERR_LAST (R779). -/
def oErrLast : Nat := 0x080
/-- CNT_SEL i (R779). -/
def oCntSel (i : Nat) : Nat := 0x100 + 16 * i
/-- CNT_VAL i (R779). -/
def oCntVal (i : Nat) : Nat := 0x108 + 16 * i

/-! ## Tables -/

/-- Power domain. -/
def State.domAt (s : State) (d : Nat) : DomSt := smapGet (fun _ => DomSt.reset) s.dom d
/-- Power domain replaced. -/
def State.putDom (s : State) (d : Nat) (v : DomSt) : State := s.setDom (smapSet (fun _ => DomSt.reset) s.dom d v)
/-- Stack. -/
def State.stkAt (s : State) (n : Nat) : StkSt := smapGet (fun _ => StkSt.reset) s.stk n
/-- Stack replaced. -/
def State.putStk (s : State) (n : Nat) (v : StkSt) : State := s.setStk (smapSet (fun _ => StkSt.reset) s.stk n v)
/-- Pseudo-channel by device number. -/
def State.pchAt (s : State) (d : Nat) : PchSt := smapGet (fun _ => PchSt.reset) s.pch d
/-- Pseudo-channel replaced. -/
def State.putPch (s : State) (d : Nat) (v : PchSt) : State := s.setPch (smapSet (fun _ => PchSt.reset) s.pch d v)
/-- Region. -/
def State.regionAt (s : State) (r : Nat) : RegionSt := smapGet (fun _ => RegionSt.reset) s.region r
/-- Region replaced. -/
def State.putRegion (s : State) (r : Nat) (v : RegionSt) : State :=
  s.setRegion (smapSet (fun _ => RegionSt.reset) s.region r v)
/-- Command ring. -/
def State.ringAt (s : State) (r : Nat) : RingSt := smapGet (fun _ => RingSt.reset) s.rings r
/-- Command ring replaced. -/
def State.putRing (s : State) (r : Nat) (v : RingSt) : State := s.setRings (smapSet (fun _ => RingSt.reset) s.rings r v)
/-- Admission slot. -/
def State.slotAt (s : State) (i : Nat) : AdmSt := smapGet (fun _ => AdmSt.reset) s.slots i
/-- Admission slot replaced. -/
def State.putSlot (s : State) (i : Nat) (v : AdmSt) : State := s.setSlots (smapSet (fun _ => AdmSt.reset) s.slots i v)
/-- Compiled-graph handle. -/
def State.graphAt (s : State) (g : Nat) : GraphSt := smapGet (fun _ => GraphSt.reset) s.graphs g
/-- Compiled-graph handle replaced. -/
def State.putGraph (s : State) (g : Nat) (v : GraphSt) : State :=
  s.setGraphs (smapSet (fun _ => GraphSt.reset) s.graphs g v)
/-- Stream. -/
def State.streamAt (s : State) (i : Nat) : StreamSt := smapGet (fun _ => StreamSt.reset) s.streams i
/-- Stream replaced. -/
def State.putStream (s : State) (i : Nat) (v : StreamSt) : State :=
  s.setStreams (smapSet (fun _ => StreamSt.reset) s.streams i v)
/-- Queue pair. -/
def State.qpAt (s : State) (q : Nat) : QpSt := smapGet (fun _ => QpSt.reset) s.qps q
/-- Queue pair replaced. -/
def State.putQp (s : State) (q : Nat) (v : QpSt) : State := s.setQps (smapSet (fun _ => QpSt.reset) s.qps q v)

/-- Service core. -/
def State.coreAt (s : State) (c : Nat) : CoreSt := smapGet (fun _ => CoreSt.reset) s.cores c
/-- Service core replaced. -/
def State.putCore (s : State) (c : Nat) (v : CoreSt) : State := s.setCores (smapSet (fun _ => CoreSt.reset) s.cores c v)

/-! ## Event counters -/

/-- The power domain a page's block lies in (R820, R821); none for blocks in no domain. -/
def pageDomain (pg : Nat) : Option Nat :=
  let i := pg % 1024
  match pg / 1024 with
  | 0x09 => some i
  | 0x0A => some (i / 4)
  | 0x0B => some i
  | 0x0C => some i
  | 0x0D => some i
  | 0x10 => some (156 + i)
  | 0x11 => some (156 + i)
  | 0x12 => some (156 + i)
  | 0x13 => if i < 12 then some (156 + i) else none
  | 0x1A => some (156 + i)
  | 0x20 => some (180 + i)
  | 0x21 => some (184 + i)
  | 0x28 => some (188 + i)
  | _ => none

/-- A page counts unless its domain is in RET (R932). -/
def State.pageCounts (s : State) (pg : Nat) : Bool :=
  match pageDomain pg with
  | some d => decide ((s.domAt d).st ≠ .ret)
  | none => true

/-- Counter i of a page adds n if it counts the source (R929). -/
def State.cntOne (s : State) (pg src n i : Nat) : State :=
  let sel := s.rg pg (oCntSel i)
  if bit sel 63 && decide (fld sel 15 0 = src) then
    s.setRg pg (oCntVal i) (s.rg pg (oCntVal i) + word n)
  else s

/-- n events of a counter source on a page (R929, R930). -/
def State.cntSrc (s : State) (pg src n : Nat) : State :=
  if s.pageCounts pg then (List.range 8).foldl (fun t i => t.cntOne pg src n i) s else s

/-- A refusal with STATE_CONFLICT of an object of a page (R783, R810). -/
def State.conflict (s : State) (pg : Nat) : State := s.cntSrc pg 0x0001 1

/-- A block register that its map defines as a count rises by n, and with it source 0x0200 + k (R930). -/
def State.count (s : State) (pg off n : Nat) : State :=
  (s.setRg pg off (s.rg pg off + word n)).cntSrc pg (0x0200 + (off - 0x200) / 8) n

/-! ## Log entries -/

/-- An entry for the event log; none is produced while LOG_EN is 0 (R933, R1001). -/
def State.logPush (s : State) (e : LogEnt) : State :=
  if bit (s.rg pgTel oTelCtl) 1 then s.setTel { s.tel with logQ := s.tel.logQ ++ [e] } else s

/-! ## Messages on a queue pair -/

/-- Path MTU of a queue pair's context (R738). -/
def qpMtu (ctx : List Byte) : Nat := 1024 * 2 ^ (fld (wordAt ctx 0) 5 4)

/-- Bytes a message carries. -/
def TxOp.bytes : TxOp → Nat
  | .write _ _ d _ => d.length
  | .send d _ => d.length
  | .read _ _ n => n
  | .fetchAdd _ _ _ => 8
  | .cmpSwap _ _ _ _ => 8

/-- A message that takes a write sequence number (R753). -/
def TxOp.isWrite : TxOp → Bool
  | .write _ _ _ _ => true
  | _ => false

/-- Packets of a message: one per path MTU, at least one; a READ takes the PSNs of its responses (R733). -/
def txPackets (mtu : Nat) (op : TxOp) : Nat := max 1 ((op.bytes + mtu - 1) / mtu)

/-- Frames a link has sent (R770). -/
def State.framesOut (s : State) (l : Nat) : Nat := smapGet (fun _ => 0) s.frames l

/-- Send a message in n frames, which TX_FRAMES and its counter source count (R770, R930). -/
def State.sendFrames (s : State) (n : Nat) (h : FrameHdr) (e : Emit) : State :=
  let s := s.setFrames (smapSet (fun _ => 0) s.frames h.link (s.framesOut h.link + n))
  (s.cntSrc (pgEth (h.link / 4)) (0x0200 + (oEthTxFrames - 0x200) / 8) n).emit (.frame h e)

/-- The tag of a frame of a priority on a link: only a link configured with a VLAN sends one (R719). -/
def State.tagOf (s : State) (l prio : Nat) : Option (Nat × Nat) :=
  match smapGet (fun _ => 0) s.eth.vlans l with
  | 0 => none
  | v + 1 => some (v, prio)

/-- Send something that is no RoCEv2 packet on a link in n frames. It goes at priority 0, and PFC frames carry no tag (PRESUMED, log
entry 101). -/
def State.sendOn (s : State) (l n : Nat) (e : Emit) : State :=
  let tag := match e with
    | .pfc _ _ => none
    | _ => s.tagOf l 0
  s.sendFrames n ⟨l, tag, none⟩ e

/-- The link of a queue pair: link k of its engine's port (R716, R736, R738). -/
def State.qpLink (s : State) (q : Nat) : Nat := q / 4096 * 4 + fld (wordAt (s.qpAt q).ctx 0) 7 6

/-- Send a RoCEv2 packet of a queue pair on its link, in n frames: at the port's priority for such packets or for notifications
(R764, R770), with ECT(0), the queue pair's DSCP and its UDP source port (R719, R725, R735). Connection management has the engine's
second queue pair (R736). -/
def State.sendQp (s : State) (q n : Nat) (e : Emit) : State :=
  let l := s.qpLink q
  let cfg := s.rg (pgEth (q / 4096)) oEthCfg
  let prio := match e with
    | .cnp _ => fld cfg 22 20
    | _ => fld cfg 18 16
  let from_ := match e with
    | .cm _ _ _ => q / 4096 * 4096 + 1
    | _ => q
  s.sendFrames n ⟨l, s.tagOf l prio, some ⟨fld (wordAt (s.qpAt q).ctx 0) 29 24, 2, 0xC000 + from_ % 2 ^ 14⟩⟩ e

/-- Frames of a request message: a READ is one request packet (R733). -/
def TxMsg.frames (m : TxMsg) : Nat :=
  match m.op with
  | .read _ _ _ => 1
  | _ => m.npkt

/-- Send a message now: it takes the next PSNs and waits for its acknowledgement (R748, R754). -/
def State.txNow (s : State) (q : Nat) (m : TxMsg) : State :=
  let v := s.qpAt q
  let n := txPackets (qpMtu v.ctx) m.op
  let m' := { m with psn := v.sqPsn, npkt := n }
  let s := s.putQp q { v with sqPsn := (v.sqPsn + n) % 2 ^ 24, unacked := v.unacked ++ [m'] }
  let pg := pgRdma (q / 4096)
  let s := s.count pg oRdmaTxMsgs 1
  let s := s.count pg oRdmaTxBytes (match m.op with | .read _ _ _ => 0 | o => o.bytes)
  let s := s.sendQp q m'.frames (.msg q v.sqPsn m.op)
  s.setServed (smapSet (fun _ => 0) s.served (s.qpLink q) (q + 1))

/-- Whether a waiting message may go: a send credit (R754), a signal credit for a SIGNAL (R760), and no earlier READ
or atomic outstanding for RD_FENCE (R751). -/
def QpSt.mayTx (v : QpSt) (m : TxMsg) : Bool :=
  decide (v.st = .rts) && decide (v.unacked.length ≤ fld (wordAt v.ctx 0x10) 31 24) &&
    (!m.signal || decide (0 < v.sigTx)) &&
    (!m.fence || !(v.unacked.any (fun u => match u.op with
      | .read _ _ _ => true
      | .fetchAdd _ _ _ => true
      | .cmpSwap _ _ _ _ => true
      | _ => false)))

/-- The link of a queue pair can send RoCEv2 packets: it is UP, and no PFC frame pauses the RoCE priority of its port
(R721, R722). -/
def State.qpLinkUp (s : State) (q : Nat) : Bool :=
  let p := q / 4096
  let prio := fld (s.rg (pgEth p) oEthCfg) 18 16
  decide ((smapGet (fun _ => LinkSt.reset) s.eth.links (s.qpLink q)).st = .up) &&
    !s.eth.pauses.any (fun x => decide (x.port = p) && decide (x.prio = prio) && decide (s.ns < x.until_))

/-- Send every waiting message that may go, in order; n bounds the messages tried. -/
def State.txDrain (s : State) (q : Nat) : Nat → State
  | 0 => s
  | n + 1 =>
    let v := s.qpAt q
    match v.txWait with
    | [] => s
    | m :: ms =>
      if v.mayTx m && s.qpLinkUp q then
        let v' := { v with txWait := ms, sigTx := if m.signal then v.sigTx - 1 else v.sigTx }
        ((s.putQp q v').txNow q m).txDrain q n
      else s

/-- Post a message: it is sent in order once its credits allow (R753, R754). A queue pair that is not in RTS sends
nothing. -/
def State.txPost (s : State) (q : Nat) (m : TxMsg) : State :=
  let v := s.qpAt q
  if v.st = .rts then
    let s := s.putQp q { v with txWait := v.txWait ++ [m], wsnTx := if m.op.isWrite then v.wsnTx + 1 else v.wsnTx }
    s.txDrain q (v.txWait.length + 1)
  else s

/-- A message of the block's own units: no WQE, no completion. -/
def plainTx (op : TxOp) : TxMsg :=
  { psn := 0, npkt := 0, op := op, cmpl := none, dest := none, wqe := false, signal := false, fence := false, pages := false }

/-! ## Completions -/

/-- Completion entries of a ring that are neither written and unconsumed nor reserved (R799). -/
def RingSt.cplFree (r : RingSt) : Nat :=
  2 ^ (fld r.ctl 11 8) - ((r.written % 2 ^ 32 + 2 ^ 32 - r.head) % 2 ^ 32 + r.reserved)

/-- The four words of a completion (R802). -/
def cplWords (ring phase kind status cmdId st result detail source objState : Nat) : List Word :=
  [word (cmdId % 2 ^ 32 * 2 ^ 32 + phase * 2 ^ 31 + ring % 256 * 2 ^ 16 + kind % 256 * 2 ^ 8 + status % 256),
   word st, word result,
   word (detail % 2 ^ 32 * 2 ^ 32 + source % 2 ^ 16 * 2 ^ 16 + objState % 256)]

/-- Write a completion to the next entry of a ring, by RDMA WRITE on CPL_QP, or to the service cores for ring 63
(R793, R794, R802, R803). -/
def State.writeCpl (s : State) (r kind status cmdId result detail source objState : Nat) : State :=
  let g := s.ringAt r
  let log := fld g.ctl 11 8
  let phase := 1 - g.written / 2 ^ log % 2
  let ws := cplWords r phase kind status cmdId s.ns result detail source objState
  let s' := s.putRing r { g with written := g.written + 1 }
  if r = 63 then s'.emit (.svcCpl ws)
  else
    let imm := if bit g.ctl 1 then some (r * 2 ^ 24 + g.written % 2 ^ 24) else none
    s'.txPost (fld g.ctl 29 16)
      (plainTx (.write (g.cplVa + word (32 * (g.written % 2 ^ log))) g.cplRkey.toNat (wordsBytes ws) imm))

/-- Write the waiting notifications that find an entry on the ring of HCMD.NOTIFY; pages after the first that finds
none go on waiting (R799). RESULT holds the page's EVT_STATUS (R802). -/
def State.noteOut (s : State) : List Nat → State
  | [] => s.setHost { s.host with notes := [] }
  | pg :: pgs =>
    let r := s.rf pgHcmd oHcmdNotify 5 0
    if (s.ringAt r).cplFree = 0 then s.setHost { s.host with notes := pg :: pgs }
    else (s.writeCpl r 2 0 0 (s.rg pg oEvtStatus).toNat 0 pg 0).noteOut pgs

/-- Offer every waiting notification (R799). -/
def State.flushNotes (s : State) : State := s.noteOut s.host.notes

/-- Post a notification of a page: at most one waits per page; none while NOTIFY.EN is 0 (R786, R799). -/
def State.notify (s : State) (pg : Nat) : State :=
  if bit (s.rg pgHcmd oHcmdNotify) 6 then
    let s := if s.host.notes.contains pg then s else s.setHost { s.host with notes := s.host.notes ++ [pg] }
    s.flushNotes
  else s

/-! ## Status bits -/

/-- A set of an EVT_STATUS bit (R1000): the bit is 1 afterwards, counters count it (R930), the log takes it when its
block type is selected (R934), and a rise of an enabled bit posts a notification (R786). -/
def State.setEvt (s : State) (pg b : Nat) : State :=
  let old := s.rg pg oEvtStatus
  let new := old ||| bitW b
  let s := s.setRg pg oEvtStatus new
  let s := s.cntSrc pg (0x0100 + b) 1
  let s := if bit (s.rg pgTel oTelLogTypes) (pg / 1024) then
      s.logPush { time := s.time.st, src := pg, w1 := word (2 * 2 ^ 60 + pg * 2 ^ 32 + b), w2 := new, w3 := 0 }
    else s
  if !bit old b && bit (s.rg pg oEvtEnable) b then s.notify pg else s

/-- Sets of several bits, ascending. -/
def State.setEvts (s : State) (pg : Nat) (bs : List Nat) : State := bs.foldl (fun t b => t.setEvt pg b) s

/-! ## Error records -/

/-- What an error record holds (R781): class, persistence, code, SOURCE, ADDR, DETAIL. -/
structure ErrInfo where
  cls    : Nat
  perm   : Bool
  code   : Nat
  source : Nat
  addr   : Word
  detail : Word
  deriving DecidableEq, Repr

/-- Word 0 of the record (R781). -/
def ErrInfo.w0 (e : ErrInfo) : Word :=
  word (2 ^ 63 + e.cls % 4 * 2 ^ 61 + b2n e.perm * 2 ^ 60 + e.source % 2 ^ 16 * 2 ^ 16 + e.code % 2 ^ 16)

/-- Write the record at an offset of a page. -/
def State.putErr (s : State) (pg off : Nat) (e : ErrInfo) (count : Nat) : State :=
  let s := s.setRg pg off e.w0
  let s := s.setRg pg (off + 8) (word s.ns)
  let s := s.setRg pg (off + 16) e.addr
  let s := s.setRg pg (off + 24) e.detail
  s.setRg pg (off + 32) (word count)

/-- ST and source of the record in ERR_FIRST (w = 0) or ERR_LAST (w = 1) of a page. -/
def State.errKey (s : State) (pg w : Nat) : Nat × Nat := smapGet (fun _ => (0, 0)) s.errKeys (pg * 2 + w)

/-- The order of R85: ST, then source number. -/
def before85 (a b : Nat × Nat) : Bool := decide (a.1 < b.1) || (decide (a.1 = b.1) && decide (a.2 < b.2))

/-- Enter an error record on a page (R781): ERR_FIRST takes the first error since its VALID was cleared and ERR_LAST
every error, both in the order of R85; counter sources 3 to 6 count it (R930) and the log takes it (R934). -/
def State.error (s : State) (pg : Nat) (e : ErrInfo) : State :=
  let key := (s.time.st, e.source)
  let put (s : State) (w : Nat) : State :=
    s.setErrKeys (smapSet (fun _ => (0, 0)) s.errKeys (pg * 2 + w) key)
  let s := if !bit (s.rg pg oErrFirst) 63 || before85 key (s.errKey pg 0) then put (s.putErr pg oErrFirst e 0) 0 else s
  let valid := bit (s.rg pg oErrLast) 63
  let n := min ((if valid then s.rf pg (oErrLast + 32) 31 0 else 0) + 1) (2 ^ 32 - 1)
  let s := if valid && before85 key (s.errKey pg 1) then s.setRg pg (oErrLast + 32) (word n)
    else put (s.putErr pg oErrLast e n) 1
  let s := s.cntSrc pg 0x0003 1
  let s := s.cntSrc pg (0x0004 + e.cls) 1
  s.logPush { time := s.time.st, src := e.source,
              w1 := word (1 * 2 ^ 60 + e.cls % 4 * 2 ^ 58 + b2n e.perm * 2 ^ 57 + e.source % 2 ^ 16 * 2 ^ 32 + e.code % 2 ^ 16),
              w2 := e.addr, w3 := e.detail }

/-- A contained transient error. -/
def contained (code source : Nat) (addr detail : Word) : ErrInfo := ⟨1, false, code, source, addr, detail⟩

end Sys2Proof.Machine
end

