-- ==== Sys2Proof/Machine/Ops.lean ====
section
/-! DEFINITION. Shared operations over memory: bytes and poison marks of the stores, the check code of an access
(R136 to R140), error counting and recurrence (R852 to R854), the interleave (R131 to R134), relocation of retired
pseudo-channels (R861 to R866), and single accesses by physical address. -/

namespace Sys2Proof.Machine

/-- The effect of a command on a device that is not held in reset; one that is held takes nothing but its pins (R966). -/
def State.live (s : State) (o : Out State) : Out State := if s.pins.held then .next s else o

/-! ## Stores -/

/-- One byte of a store: zero where nothing is listed (R823, R991). -/
def Mem.byte (m : Mem) (a : Nat) : Byte := smapGet (fun _ => (0 : Byte)) m.cells a

/-- A store with one byte written. -/
def Mem.setByte (m : Mem) (a : Nat) (b : Byte) : Mem := { m with cells := smapSet (fun _ => (0 : Byte)) m.cells a b }

/-- Poison mark of a 32 B access. -/
def Mem.poisoned (m : Mem) (k : Nat) : Bool := smapGet (fun _ => false) m.poison k

/-- A store with one poison mark written. -/
def Mem.setPoison (m : Mem) (k : Nat) (p : Bool) : Mem := { m with poison := smapSet (fun _ => false) m.poison k p }

/-- n bytes of a store from an address. -/
def Mem.bytes (m : Mem) (a n : Nat) : List Byte := (List.range n).map (fun i => m.byte (a + i))

/-- A store with bytes written from an address, in ascending order. -/
def Mem.setBytes (m : Mem) : Nat → List Byte → Mem
  | _, [] => m
  | a, b :: bs => (m.setByte a b).setBytes (a + 1) bs

/-- The canonical form of a store: rising keys, no listed byte equal to the unlisted reading, no listed mark false. -/
def Mem.wf (m : Mem) : Bool := smapWf (fun _ => (0 : Byte)) m.cells && smapWf (fun _ => false) m.poison

/-! ## The check code RS(36,32) over GF(2^8) (R136, R137) -/

/-- Multiply by α = 0x02 modulo x^8 + x^4 + x^3 + x^2 + 1 (R136). -/
def gfX (a : Nat) : Nat := if a < 128 then a * 2 else (a * 2) % 256 ^^^ 0x1D

/-- Multiply in GF(2^8): n bits of b are used, from the lowest. -/
def gfMulN : Nat → Nat → Nat → Nat
  | 0, _, _ => 0
  | n + 1, a, b => (if b % 2 = 1 then a else 0) ^^^ gfMulN n (gfX a) (b / 2)

/-- Multiply in GF(2^8) (R136). -/
def gfMul (a b : Nat) : Nat := gfMulN 8 a b

/-- α^n (R136). -/
def gfPow : Nat → Nat
  | 0 => 1
  | n + 1 => gfX (gfPow n)

/-- Syndrome j of an error pattern: symbol i stands at x^i (DESIGN CHOICE, assumption 20). -/
def rsSyn (e : List Byte) (j : Nat) : Nat :=
  ((List.range 36).map (fun i => gfMul (e.getD i 0).toNat (gfPow (i * j)))).foldl (· ^^^ ·) 0

/-- The four syndromes. -/
def rsSyns (e : List Byte) : List Nat := (List.range 4).map (rsSyn e)

/-- The pattern of a stored poisoned access: the four check symbols XOR 0x5A (R139). -/
def poisonPattern : List Byte := List.replicate 32 0 ++ List.replicate 4 0x5A

/-- What the decoder finds in one read of an access (R138, R139): a corrected symbol is named with its magnitude. -/
inductive Decoded where
  | clean
  | poison
  | fixed (sym : Nat) (mag : Nat)
  | bad
  deriving DecidableEq, Repr

/-- The one symbol whose error explains the syndromes, if there is one (R138). -/
def rsFind (s : List Nat) : Option Nat :=
  (List.range 36).find? (fun p =>
    (List.range 4).all (fun j => decide (s.getD j 0 = gfMul (s.getD 0 0) (gfPow (p * j)))))

/-- XOR of two byte lists of 36 symbols. -/
def xor36 (a b : List Byte) : List Byte := (List.range 36).map (fun i => a.getD i 0 ^^^ b.getD i 0)

/-- Decode one read: the poison syndrome is compared before correction is attempted (R139). -/
def rsDecode (stored : Bool) (e : List Byte) : Decoded :=
  let s := rsSyns (if stored then xor36 e poisonPattern else e)
  if s = rsSyns poisonPattern then .poison
  else if s = [0, 0, 0, 0] then .clean
  else if s.getD 0 0 = 0 then .bad
  else match rsFind s with
    | some p => .fixed p (s.getD 0 0)
    | none => .bad

/-- Decode one read: an access whose symbols arrive as they were stored is clean or carries its mark (R139). -/
def accDecode (stored : Bool) (e : List Byte) : Decoded :=
  if e.isEmpty then (if stored then .poison else .clean) else rsDecode stored e

/-- The symbols as bytes of the access: beat b of pin i is bit i mod 8 of byte 4b + i div 8 (R137; assumption 20). -/
def symBytes (e : List Byte) : List Byte :=
  (List.range 32).map (fun k =>
    BitVec.ofNat 8 (((List.range 8).map (fun x =>
      if (e.getD (8 * (k % 4) + x) 0).toNat.testBit (k / 4) then 2 ^ x else 0)).foldl (· + ·) 0))

/-- The data delivered: the stored bytes with what the decoder left of the error. -/
def rsData (data : List Byte) (e : List Byte) : Decoded → List Byte
  | .fixed p m =>
    if allZero e then data
    else List.zipWith (· ^^^ ·) data (symBytes (xor36 e ((List.replicate p 0) ++ [BitVec.ofNat 8 m])))
  | _ => if allZero e then data else List.zipWith (· ^^^ ·) data (symBytes e)

/-! ## Errors of an access -/

/-- Bank and DRAM row of a port ADDR (R114). -/
def bankOf (addr : Nat) : Nat := addr / 8 % 64
/-- DRAM row of a port ADDR (R114). -/
def rowOf (addr : Nat) : Nat := addr / 8 / 64 / 4

/-- Word 2 of a memory error record (R850). -/
def memErrAddr (d addr : Nat) : Word := word (d * 2 ^ 32 + addr)
/-- Word 3 of a memory error record (R850). -/
def memErrDetail (addr : Nat) : Word := word (rowOf addr * 2 ^ 8 + bankOf addr)

/-- A permanent access makes its row failing, once (R854). -/
def State.failRow (s : State) (d addr : Nat) : State :=
  let n := d / 64
  let k := s.stkAt n
  let f : FailRow := ⟨d % 64, bankOf addr, rowOf addr, s.ns⟩
  if k.failing.any (fun g => g.pch = f.pch && g.bank = f.bank && g.row = f.row) then s
  else s.putStk n { k with failing := k.failing ++ [f] }

/-- The table without its entry of the oldest ST. -/
def dropOldest (t : List (Nat × Nat)) : List (Nat × Nat) :=
  match t with
  | [] => []
  | e :: es =>
    let old := es.foldl (fun m x => if x.2 < m.2 then x else m) e
    t.erase old

/-- The recurrence rule of R852 on a table of the given size and window in ns: whether the access is permanent, and
the table afterwards. -/
def recurStep (t : List (Nat × Nat)) (cap win key now : Nat) : Bool × List (Nat × Nat) :=
  match t.find? (fun e => e.1 = key) with
  | some e =>
    let t' := t.erase e
    if now - e.2 ≤ win then (true, t') else (false, t' ++ [(key, now)])
  | none => (false, (if t.length < cap then t else dropOldest t) ++ [(key, now)])

/-- Classification window of a region, ns (R851; a written 0 acts as at least 1 s). -/
def State.classWin (s : State) (r : Nat) : Nat := max 1 (s.rf (pgRegion r) oRegionClassWin 31 0) * 10 ^ 9

/-- A corrected access: counted, recorded, entered in the recurrence table (R140, R852). -/
def State.memCe (s : State) (d addr : Nat) : State :=
  let n := d / 64
  let s := s.count (pgPch d) oPchCe 1
  let s := s.count (pgStk n) oStkCe 1
  let s := s.setEvt (pgPch d) 3
  let k := s.stkAt n
  let (perm, t) := recurStep k.recur 512 (s.classWin n) (d % 64 * 2 ^ 25 + addr) s.ns
  let s := s.putStk n { k with recur := t }
  let s := s.error (pgPch d) ⟨0, perm, 0x0101, pgPch d, memErrAddr d addr, memErrDetail addr⟩
  if perm then s.failRow d addr else s

/-- An uncorrectable access: counted, recorded, permanent at once (R853). -/
def State.memUe (s : State) (d addr : Nat) : State :=
  let n := d / 64
  let s := s.count (pgPch d) oPchUe 1
  let s := s.count (pgStk n) oStkUe 1
  let s := s.setEvt (pgPch d) 4
  let s := s.error (pgPch d) ⟨1, true, 0x0102, pgPch d, memErrAddr d addr, memErrDetail addr⟩
  s.failRow d addr

/-- A read that matches the stored poison pattern (R139). -/
def State.memPoisonRd (s : State) (d : Nat) : State :=
  (s.count (pgStk (d / 64)) oStkPoisonRd 1).setEvt (pgPch d) 4

/-! ## One access of a pseudo-channel -/

/-- Byte key of a port ADDR of a device pseudo-channel. -/
def accByte (d addr : Nat) : Nat := (d * 2 ^ 25 + addr) * 32
/-- Access key of a port ADDR. -/
def accKey (d addr : Nat) : Nat := d * 2 ^ 25 + addr

/-- Stored bytes of an access. -/
def State.accData (s : State) (d addr : Nat) : List Byte := s.dram.bytes (accByte d addr) 32
/-- Data granule slots of a pseudo-channel; the rest is the private area (R114, R132). -/
def dataSlots : Nat := 3906250

/-- Poison mark of an access that lists none: set throughout the data of a stack that returned from loss (R869). -/
def State.poisonDef (s : State) (k : Nat) : Bool :=
  (s.stkAt (k / 2 ^ 31)).poisonAll && decide (k % 2 ^ 25 / 8 < dataSlots)
/-- Stored poison mark of an access. -/
def State.accPoison (s : State) (d addr : Nat) : Bool := smapGet s.poisonDef s.dram.poison (accKey d addr)

/-- XOR of two error patterns; an empty one has no wrong symbol. -/
def xorErr (a b : List Byte) : List Byte := if a.isEmpty then b else if b.isEmpty then a else xor36 a b

/-- Symbols that are wrong in the cells of an access. -/
def State.cellErr (s : State) (d addr : Nat) : List Byte := smapGet (fun _ => []) s.cell (accKey d addr)
/-- The symbols that are wrong in the cells of an access replaced. -/
def State.putCell (s : State) (d addr : Nat) (e : List Byte) : State :=
  s.setCell (smapSet (fun _ => []) s.cell (accKey d addr) (if allZero e then [] else e))

/-- Store 32 bytes and a mark in an access: new data with new check symbols, which make good what read wrongly (R130). -/
def State.storeAcc (s : State) (d addr : Nat) (data : List Byte) (p : Bool) : State :=
  (s.putCell d addr []).setDram { s.dram.setBytes (accByte d addr) (sliceB data 0 32) with
    poison := smapSet s.poisonDef s.dram.poison (accKey d addr) p }

/-- The error patterns of the two reads of an access and the symbols that fail in its cells at this read taken in: the
decoder sees every symbol that is wrong in the cells on both reads (R138). -/
def State.accErr (s : State) (d addr : Nat) (e : AccErr) : AccErr × State :=
  if e.cell.isEmpty && (s.cellErr d addr).isEmpty then (e, s)
  else
    let c := xorErr (s.cellErr d addr) e.cell
    (⟨xorErr e.first c, xorErr e.second c, []⟩, s.putCell d addr c)

/-- Read one access through the decoder, with the re-read of R853: data, poison mark, and the state with its errors
counted. -/
def State.readAccE (s : State) (d addr : Nat) (e : AccErr) : (List Byte × Bool) × State :=
  let data := s.accData d addr
  let p := s.accPoison d addr
  let (e, s) := s.accErr d addr e
  match accDecode p e.first with
  | .clean => ((rsData data e.first .clean, false), s)
  | .poison => ((data, true), s.memPoisonRd d)
  | .fixed i m => ((rsData data e.first (.fixed i m), false), s.memCe d addr)
  | .bad =>
    match accDecode p e.second with
    | .clean => ((rsData data e.second .clean, false), s.memCe d addr)
    | .fixed i m => ((rsData data e.second (.fixed i m), false), s.memCe d addr)
    | .poison => ((data, true), s.memPoisonRd d)
    | .bad => ((rsData data e.second .bad, true), s.memUe d addr)

/-- No error on either read. -/
def AccErr.none : AccErr := ⟨[], [], []⟩

/-- Read one access without an error of the DRAM interface at this read: what is wrong in its cells is decoded. -/
def State.readAcc (s : State) (d addr : Nat) : (List Byte × Bool) × State := s.readAccE d addr AccErr.none

/-! ## Interleave (R131 to R134) -/

/-- Band sizes S, D, N of every pseudo-channel (R132). -/
def State.bandS (s : State) : Nat := s.rf (pgStk 0) oStkBandSpread 21 0
/-- Band size D. -/
def State.bandD (s : State) : Nat := s.rf (pgStk 0) oStkBandDieloc 21 0
/-- Band size N. -/
def State.bandN (s : State) : Nat := s.rf (pgStk 0) oStkBandNear 21 0

/-- The mapping of R133 with the range check of R134: device pseudo-channel and local granule of a granule address
(the PA without its low 8 bits). -/
def paMap (bS bD bN pa : Nat) : Option (Nat × Nat) :=
  let mode := bitsOf pa 41 40
  let x := bitsOf pa 39 8
  if mode = 0 then
    let q := x / 768
    let r := x % 768
    if x < 768 * bS then some ((r % 12 + q) % 12 * 64 + (r / 12 + q / 12) % 64, q) else none
  else if mode = 1 then
    let e := x / 2 ^ 31
    let g := x % 2 ^ 31
    let q := g / 384
    let r := g % 384
    if g < 384 * bD then some ((6 * e + (r % 6 + q) % 6) * 64 + (r / 6 + q / 6) % 64, bS + q) else none
  else if mode = 2 then
    let n := x / 2 ^ 28
    let g := x % 2 ^ 28
    let q := g / 64
    let r := g % 64
    if n < 12 ∧ g < 64 * bN then some (n * 64 + (r + q) % 64, bS + bD + q) else none
  else none

/-- Device pseudo-channel and port ADDR of the access a PA names (R133). -/
def State.paAcc (s : State) (pa : Nat) : Option (Nat × Nat) :=
  (paMap s.bandS s.bandD s.bandN pa).map (fun e => (e.1, e.2 * 8 + bitsOf pa 7 5))

/-- The record and count of an access out of range (R134), for translation unit u. -/
def State.addrErr (s : State) (u src pa : Nat) (write : Bool) : State :=
  let e := contained 0x0109 src (word pa) (word (b2n write))
  if u < 12 then (s.count (pgRegion u) oRegionAddrErr 1).error (pgRegion u) e else s.error (pgXlat 12) e

/-! ## Relocation (R861 to R866) -/

/-- The word of memory at a PA as its access stores it. -/
def State.memWord (s : State) (pa : Nat) : Word :=
  match s.paAcc pa with
  | some (d, a) => wordAt (s.accData d a) (pa % 32)
  | none => 0

/-- PA of relocation-directory entry i (R861). -/
def State.relocEntPa (s : State) (i : Nat) : Nat := s.rf (pgRegion 0) oRegionRelocDir 41 8 * 256 + 16 * i

/-- Directory entry i is VALID. -/
def State.relocUsed (s : State) (i : Nat) : Bool := bit (s.memWord (s.relocEntPa i)) 63

/-- The directory entry of pseudo-channel d (R861). -/
def State.relocEnt (s : State) (d : Nat) : Option Nat :=
  (List.range 12).find? (fun i => s.relocUsed i && decide (fld (s.memWord (s.relocEntPa i)) 9 0 = d))

/-- PA of the entry of granule L in the relocation table that directory entry i names. -/
def State.relocPa (s : State) (i l : Nat) : Nat := (s.memWord (s.relocEntPa i + 8)).toNat + 8 * l

/-- The entry of granule L in that table: target pseudo-channel and granule. -/
def State.relocAt (s : State) (i l : Nat) : Option (Nat × Nat) :=
  let t := s.memWord (s.relocPa i l)
  if bit t 63 then some (fld t 41 32, fld t 21 0) else none

/-- Relocation-table entry of granule L of pseudo-channel d, read from memory: target pseudo-channel and granule. The
directory and tables are read at their physical addresses (R861). -/
def State.relocOf (s : State) (d l : Nat) : Option (Nat × Nat) := (s.relocEnt d).bind (fun i => s.relocAt i l)

/-- Where a command for granule L of pseudo-channel d is served: at its target once the granule has moved (R864, R866),
at d otherwise. -/
def State.serveAt (s : State) (d l : Nat) : Nat × Nat :=
  let moved := match (s.regionAt (d / 64)).move with
    | some m => decide (m.d = d) && decide (l < m.moved)
    | none => false
  if (s.pchAt d).st = .retired ∨ moved = true then (s.relocOf d l).getD (d, l) else (d, l)

/-- A stack that answers every command as dead: SHUTDOWN, or lost and not yet returning (R156, R868). -/
def State.stkDead (s : State) (n : Nat) : Bool :=
  let k := s.stkAt n
  decide (k.st = .shutdown) || (k.lost && !k.returning)

/-- Whether an access of a pseudo-channel finds its data: not FAILED, UNTRAINED or RETIRED, not in a stack that answers as
dead (R152, R156, R868). -/
def State.alive (s : State) (d : Nat) : Bool :=
  decide ((s.pchAt d).st ≠ .failed) && decide ((s.pchAt d).st ≠ .retired) && decide ((s.pchAt d).st ≠ .untrained) &&
    !s.stkDead (d / 64)

/-- A pseudo-channel that is training, retraining or margining serves no data command (R144). -/
def PchSt.busy (v : PchSt) : Bool := decide (v.st = .retrain) || decide (v.st = .margin) || v.training

/-- Granule L of pseudo-channel d is the one a retirement moves now (R864). -/
def State.movingNow (s : State) (d l : Nat) : Bool :=
  match (s.regionAt (d / 64)).move with
  | some m => decide (m.d = d) && decide (l = m.moved)
  | none => false

/-! ## Queue slots (R125 to R128) -/

/-- Slots of a pseudo-channel (R125). -/
def slotCap : Nat := 128

/-- Accesses a port command takes from its ADDR: those of COUNT, or of a row of its GPOOL. -/
def State.cmdAccs (s : State) (n : Nat) (c : SlotCmd) : Nat :=
  if c.opc = 0x11 then
    match (s.stkAt n).pools.find? (fun j => j.f.tag = c.f.tag) with
    | some j => bitsOf j.f.arg.toNat 21 16 + 1
    | none => 1
  else c.f.count.toNat

/-- A port command at stack n takes an access of granule L of its pseudo-channel. -/
def State.cmdMeets (s : State) (n : Nat) (c : SlotCmd) (l : Nat) : Bool :=
  decide (c.opc ≠ 0x08) && decide (c.f.addr.toNat / 8 ≤ l) && decide (l ≤ (c.f.addr.toNat + (s.cmdAccs n c - 1)) / 8)

/-- Commands that hold a slot of a pseudo-channel and wait: for the pseudo-channel, or for the granule a retirement moves. -/
def State.slotWaiters (s : State) (d : Nat) : List SlotCmd :=
  (s.pchAt d).waiting ++ (match (s.regionAt (d / 64)).move with
    | some m => if m.d = d then m.parked else []
    | none => [])

/-- Slots in use of a pseudo-channel (R125): commands that hold one and wait, a GPOOL once whatever rows of it wait, and
responses that have not left. -/
def State.slotsUsed (s : State) (d : Nat) : Nat :=
  let w := s.slotWaiters d
  w.countP (fun c => decide (c.opc ≠ 0x11)) +
    (((w.filter (fun c => decide (c.opc = 0x11))).map (fun c => c.f.tag)).eraseDups).length +
    (s.stkAt (d / 64)).resp.countP (fun r => r.slot && decide (r.pch = d % 64))

/-- The requester of R126 an access comes from at stack n: die-fabric ingress for another region's or the hub die's, and at
home the engine the source page names. -/
def State.portSrc (s : State) (n u src : Nat) : PortSrc :=
  let port (c : Nat) : PortSrc := match findIdx (fun k => k = c % 13) (s.regionAt n).map with
    | some l => .cluster (Fin.ofNat 12 l)
    | none => .fabric
  if u ≠ n then .fabric
  else match src / 1024 with
    | 0x0A => port (src % 1024 / 4)
    | 0x0B => port (src % 1024)
    | 0x0C => port (src % 1024)
    | 0x0D => port (src % 1024)
    | 0x10 => .comet
    | 0x1A => .emb
    | 0x1B => .emb
    | _ => .fabric

/-- Requests a requester parks at most (R127). -/
def parkCap : Nat := 256

/-- Requests a requester has parked at a stack. -/
def State.parkedBy (s : State) (n : Nat) (src : PortSrc) : Nat :=
  ((s.pch.filter (fun e => decide (e.1 / 64 = n))).map (fun e => e.2.parked.countP (fun c => c.f.src = src))).foldl (· + ·) 0

/-- A stack whose port serves: BASE or FULL, or answering as dead (R156, R868, R896). -/
def State.stkServes (s : State) (n : Nat) : Bool :=
  decide ((s.stkAt n).st = .base) || decide ((s.stkAt n).st = .full) || s.stkDead n

/-- What holds granule L of pseudo-channel d can act on a command for it: a dead stack, or one that serves and a
pseudo-channel that is not busy (R144, R149). -/
def State.granuleServes (s : State) (d l : Nat) : Bool :=
  let t := s.serveAt d l
  s.stkDead (t.1 / 64) || (s.stkServes (t.1 / 64) && !(s.pchAt t.1).busy)

/-- Whether an access of an engine to access `a` of pseudo-channel d gets its answer now. It is issued at port d / 64 by the
rules of every command there: the stack serves (R156, R896), no GPOOL's rows are arriving (R121), its requester has no
earlier request parked for the pseudo-channel and no full parking space (R127), a slot is free (R125), the granule is not on the move and no earlier
command to it waits (R128, R864), and the pseudo-channel that holds it is not busy (R144, R149). -/
def State.portServes (s : State) (u src d a : Nat) : Bool :=
  let n := d / 64
  let l := a / 8
  let q := s.portSrc n u src
  s.stkDead n ||
    (s.stkServes n && (s.stkAt n).gp.isNone && decide (s.parkedBy n q < parkCap) &&
      !(s.pchAt d).parked.any (fun c => decide (c.f.src = q) || (decide (c.opc = 0x11) && s.cmdMeets n c l)) &&
      decide (s.slotsUsed d < slotCap) && !s.movingNow d l && !(s.slotWaiters d).any (fun c => s.cmdMeets n c l) &&
      s.granuleServes d l)

/-- Whether the access a PA names gets its answer now; one out of range is answered at once (R134). -/
def State.paServes (s : State) (u src pa : Nat) : Bool :=
  match s.paAcc pa with
  | none => true
  | some (d, a) => s.portServes u src d a

/-- The requester side of forwarding: a command for a moved granule that reaches port n is counted there (R864, R866)
until its region has taken up the new epoch (R865). -/
def State.fwdCount (s : State) (u d : Nat) (t : Nat × Nat) (l : Nat) : State :=
  if t = (d, l) then s
  else if u < 12 ∧ (s.regionAt u).adopted.contains d = true then s
  else s.count (pgRegion (d / 64)) oRegionForwarded 1

/-! ## Single accesses by physical address -/

/-- An access of an engine that its pseudo-channel does not serve: a FAILED one or a dead stack answers it; UNTRAINED and
RETIRED answer CONFLICT, which counts (R124, R152). -/
def State.deadAcc (s : State) (d : Nat) : State :=
  if s.stkDead (d / 64) || decide ((s.pchAt d).st = .failed) then s
  else (s.count (pgPch d) oPchConflicts 1).conflict (pgPch d)

/-- Where access a of pseudo-channel d is served (R864, R866). -/
def State.accAt (s : State) (d a : Nat) : Nat × Nat :=
  let t := s.serveAt d (a / 8)
  (t.1, t.2 * 8 + a % 8)

/-- Read the 32 B access of a PA for translation unit u (R134, R140): bytes and poison mark. -/
def State.readPa (s : State) (u src pa : Nat) : (List Byte × Bool) × State :=
  match s.paAcc pa with
  | none => ((List.replicate 32 0, true), s.addrErr u src pa false)
  | some (d, a) =>
    let t := s.serveAt d (a / 8)
    let s := s.fwdCount u d t (a / 8)
    let a' := t.2 * 8 + a % 8
    if s.alive t.1 then
      let s := s.count (pgPch t.1) oPchBytesRd 32
      s.readAcc t.1 a'
    else ((s.accData t.1 a', true), s.deadAcc t.1)

/-- Write bytes inside the 32 B access of a PA. All 32 bytes make a WR, fewer a WRM under a byte mask (R130); the mark
of a WR is p; a WRM reads the access through the decoder and keeps poison it finds, or takes p (R130, R139). -/
def State.writePa (s : State) (u src pa : Nat) (data : List Byte) (p : Bool) : State :=
  match s.paAcc pa with
  | none => s.addrErr u src pa true
  | some (d, a) =>
    let t := s.serveAt d (a / 8)
    let s := s.fwdCount u d t (a / 8)
    let a' := t.2 * 8 + a % 8
    if s.alive t.1 then
      let s := s.count (pgPch t.1) oPchBytesWr data.length
      if data.length = 32 then s.storeAcc t.1 a' data p
      else
        let ((old, bad), s) := s.readAcc t.1 a'
        s.storeAcc t.1 a' (patchB old (pa % 32) data) (bad || p)
    else s.deadAcc t.1

/-- An access that a read-modify-write found uncorrectable stays stored as poisoned, with its old data (R990). -/
def State.poisonKeep (s : State) (pa : Nat) (old : List Byte) : State :=
  match s.paAcc pa with
  | none => s
  | some (d, a) =>
    let t := s.serveAt d (a / 8)
    let a' := t.2 * 8 + a % 8
    if s.alive t.1 && !s.accPoison t.1 a' then s.storeAcc t.1 a' old true else s

/-- Read-modify-write of 8 bytes at the stack port (R990): old value, whether it read poisoned, and the state with the
new value stored unless the access was uncorrectable or poisoned. -/
def State.rmwPa (s : State) (u src pa : Nat) (f : Word → Word) : (Word × Bool) × State :=
  let ((bs, p), s') := s.readPa u src (pa / 32 * 32)
  let old := wordAt bs (pa % 32)
  if p then ((old, true), s'.poisonKeep pa bs)
  else ((old, false), s'.writePa u src pa (leBytes 8 (f old).toNat) false)

/-! ## Scratchpads (R30, R870, R998) -/

/-- Bytes a scratchpad holds (R30). -/
def spadBytes : Nat := 4 * 2 ^ 20

/-- Bytes of a scratchpad. -/
def State.spadRd (s : State) (c a n : Nat) : List Byte := s.spad.bytes (c * 2 ^ 22 + a) n

/-- Whether any 32 B access that bytes [a, a + n) touch is poisoned (R998). -/
def State.spadPoison (s : State) (c a n : Nat) : Bool :=
  (List.range ((a + n + 31) / 32 - a / 32)).any (fun i => s.spad.poisoned (c * 2 ^ 17 + a / 32 + i))

/-- Write bytes of one 32 B access of a scratchpad: a write of all 32 B sets the mark, a shorter one keeps a stored
mark or takes the new one (R998). -/
def State.spadWr1 (s : State) (c a : Nat) (data : List Byte) (p : Bool) : State :=
  let k := c * 2 ^ 17 + a / 32
  let q := if data.length = 32 then p else s.spad.poisoned k || p
  s.setSpad ((s.spad.setBytes (c * 2 ^ 22 + a) data).setPoison k q)

/-- Write bytes of a scratchpad, access by access with one mark for all; n bounds the accesses. -/
def State.spadWrN (s : State) (c : Nat) : Nat → Nat → List Byte → Bool → State
  | 0, _, _, _ => s
  | n + 1, a, data, p =>
    let k := 32 - a % 32
    match data with
    | [] => s
    | _ => ((s.spadWr1 c a (data.take k) p).spadWrN c n (a + k) (data.drop k) p)

/-- Write bytes of a scratchpad (R998). -/
def State.spadWr (s : State) (c a : Nat) (data : List Byte) (p : Bool) : State :=
  s.spadWrN c (data.length / 32 + 2) a data p

end Sys2Proof.Machine
end

