-- ==== Sys2Proof/Machine/Service.lean ====
section
/-! DEFINITION. The service state of the device and its causes of DEGRADED (R888, R890), board replacement (R881), lost
regions (R873). -/

namespace Sys2Proof.Machine

/-- The service state is entered: PAGE_STATE, its ST, STATE_CHG (R888, R924, R925). -/
def State.devMark (s : State) (st : DevState) : State :=
  let s := (s.setDev { s.dev with st := st }).setEvt pgDev 0
  match st with
  | .early => s.setRg pgDev oDevEarlySt (word s.ns)
  | .full => s.setRg pgDev oDevFullSt (word s.ns)
  | _ => s

/-- Causes of DEGRADED: bits 0 to 4 of DEV.CAUSE (R890). -/
def State.degrading (s : State) : Bool := decide (s.rf pgDev oDevCause 4 0 ≠ 0)

/-- Write a bit of DEV.CAUSE; the service state follows between FULL and DEGRADED (R888, R890, R924). -/
def State.setCause (s : State) (b : Nat) (v : Bool) : State :=
  if bit (s.rg pgDev oDevCause) b = v then s
  else
    let s := (s.setRf pgDev oDevCause b b (b2n v)).setEvt pgDev 3
    if s.dev.st = .full ∧ s.degrading = true then s.devMark .degraded
    else if s.dev.st = .degraded ∧ s.degrading = false then s.devMark .full
    else s

/-- Report that the board must be replaced: each reason once (R881). -/
def State.replaceBoard (s : State) (r : Nat) : State :=
  if bit (s.rg pgDev oDevReplace) r then s
  else
    let s := (s.setRf pgDev oDevReplace r r 1).error pgDev ⟨2, true, 0x0502, pgDev, 0, word r⟩
    (s.setEvt pgDev 2).setCause 4 true

/-- A region is LOST (R873): the spare is in use, the failed logical cluster stays unmapped. -/
def State.regionLost (s : State) (r : Nat) : State :=
  let g := s.regionAt r
  if g.st = .lost then s
  else (((s.putRegion r { g with st := .lost }).setEvt (pgRegion r) 5).setCause 1 true).replaceBoard 2

/-- A retirement is needed: board replacement where the reserve has no room for it (R867, R881). -/
def State.retireNeed (s : State) : State :=
  if s.rf (pgRegion 0) oRegionReserveLeft 25 0 < 3906250 then s.replaceBoard 1 else s

end Sys2Proof.Machine
end

