-- ==== Sys2Proof/WellFormed.lean ====
section
/-! DEFINITION. Well-formed commands: the operands of a command that carries data beside a length agree with that
length. A command that is not well formed describes no transfer, and its meaning faults by the name of its row. -/

namespace Sys2Proof

/-- Error symbols of an access: at most 36 on each read (R136). -/
def AccErr.wf (e : AccErr) : Bool := decide (e.first.length ≤ 36) && decide (e.second.length ≤ 36) && decide (e.cell.length ≤ 36)

/-- Error lists name at most n accesses, each well formed. -/
def errsWf (n : Nat) (es : List AccErr) : Bool := decide (es.length ≤ n) && es.all AccErr.wf

/-- A command flit that carries n bytes of data on the slice. -/
def PortCmd.carries (f : PortCmd) (n : Nat) : Bool := decide (f.data.length = n)

/-- Well-formed commands. -/
def Instr.wf : Instr → Bool
  | .rd _ f errs => f.carries 0 && errsWf f.count.toNat errs
  | .wr _ f => f.carries (32 * f.count.toNat)
  | .wrm _ f => f.carries (32 * f.count.toNat)
  | .flitFence _ f => f.carries 0
  | .gpool _ f => f.carries 0
  | .gpoolRow _ f => f.carries 0
  | .rupd _ f => f.carries (32 * (f.arg.toNat / 2 ^ 8 % 2 ^ 8))
  | .scrub _ errs => errsWf 8 errs
  | .patch _ errs => errsWf 32 errs
  | .ppr _ errs => errsWf 32 errs
  | .stackTempReading _ core _ pt => decide (core.length = 16) && decide (pt.length = 64)
  | .pageIn _ _ data => decide (data.length = 2 ^ 16) || decide (data.length = 2 ^ 21)
  | .hotspotReading rs ds => decide (rs.length = 12) && decide (ds.length = 3)
  | .pfcFrameRx _ _ q => decide (q.length = 8)
  | _ => true

end Sys2Proof
end

