-- ==== Sys2Proof/Machine/Stack.lean ====
section
/-! DEFINITION. Stacks and pseudo-channels (R111 to R160): the commands of a stack port, queue slots and parking,
responses, service commands, training, retraining, margining, refresh. -/

namespace Sys2Proof.Machine

/-! ## Slots (R125 to R127) -/

/-- High-water marks of a pseudo-channel and its stack after a slot was taken (R157, R159). -/
def State.slotMarks (s : State) (d : Nat) : State :=
  let n := d / 64
  let u := s.slotsUsed d
  let s := if s.rf (pgPch d) oPchQocc 15 8 < u then s.setRf (pgPch d) oPchQocc 15 8 u else s
  let t := ((List.range 64).map (fun j => s.slotsUsed (n * 64 + j))).foldl (· + ·) 0
  if s.rf (pgStk n) oStkSlotHwm 13 0 < t then s.setRf (pgStk n) oStkSlotHwm 13 0 t else s

/-! ## Responses (R123) -/

/-- The POISON field of a list of accesses: bit i for access i. -/
def poisonMask : List Bool → Nat
  | [] => 0
  | p :: ps => b2n p + 2 * poisonMask ps

/-- Send a response. -/
def State.respond (s : State) (n : Nat) (r : Resp) : State :=
  let k := s.stkAt n
  s.putStk n { k with resp := k.resp ++ [r] }

/-- A response without data. -/
def plainResp (f : PortCmd) (rsp state : Nat) (slot : Bool) : Resp :=
  { rsp := rsp, pch := f.pch.toNat, tag := f.tag.toNat, src := f.src, state := state, poison := 0, data := [], slot := slot }

/-- A DATA response with at most 8 accesses. -/
def dataResp (f : PortCmd) (accs : List (List Byte × Bool)) (slot : Bool) : Resp :=
  { rsp := 1, pch := f.pch.toNat, tag := f.tag.toNat, src := f.src, state := 0,
    poison := poisonMask (accs.map (·.2)), data := accs.flatMap (·.1), slot := slot }

/-- Refuse a command: REFUSED, BAD_CMD counted (R120). -/
def State.portRefuse (s : State) (n : Nat) (f : PortCmd) : State :=
  let s := s.count (pgStk n) oStkBadCmd 1
  let s := s.setEvt (pgStk n) 4
  s.respond n (plainResp f 2 0 false)

/-- Answer a command with CONFLICT and the state of the pseudo-channel (R124); the answer holds the command's slot until it
leaves (R125). -/
def State.portConflict (s : State) (n : Nat) (f : PortCmd) : State :=
  let d := n * 64 + f.pch.toNat
  let s := s.count (pgPch d) oPchConflicts 1
  let s := s.conflict (pgPch d)
  s.respond n (plainResp f 3 (s.pchAt d).st.code true)

/-! ## Reading and updating -/

/-- Read count accesses from ADDR through the decoder with their error patterns (R138 to R140). -/
def State.readRun (s : State) (d addr : Nat) : Nat → List AccErr → List (List Byte × Bool) × State
  | 0, _ => ([], s)
  | k + 1, es =>
    let e := es.headD AccErr.none
    let (a, s1) := s.readAccE d addr e
    let (rest, s2) := s1.readRun d (addr + 1) k es.tail
    (a :: rest, s2)

/-- Write accesses of 32 B in order with one mark. -/
def State.writeRun (s : State) (d : Nat) : Nat → Nat → List Byte → Bool → State
  | 0, _, _, _ => s
  | k + 1, addr, data, p => (s.storeAcc d addr (data.take 32) p).writeRun d k (addr + 1) (data.drop 32) p

/-- Bytes of a write under a byte mask (R120, WRM). -/
def maskMerge (old new : List Byte) (mask : Nat) : List Byte :=
  (List.range 32).map (fun i => if mask.testBit i then new.getD i 0 else old.getD i 0)

/-- Elements of one access updated by ADD_RNE or ADD_SR (R267, R268): old bytes, operands u of the columns the access holds,
random halfwords. An element that is no column stays. -/
def updAcc (fmt : Nat) (sr : Bool) (old : List Byte) (us rs : List Nat) : List Byte :=
  let f := tblFmt fmt
  let n := 32 / f.bytes
  (List.range n).flatMap (fun i =>
    let x := f.decode (leAt old (i * f.bytes) f.bytes)
    let u := fp32.decode (us.getD i 0)
    if i < us.length then leBytes f.bytes (f.encode (if sr then .sr (rs.getD i 0) else .rne) (x.add u)).bits
    else sliceB old (i * f.bytes) f.bytes)

/-- The row update of R267 over count accesses: an access that reads poisoned or uncorrectable is not modified by ADD
(R990) and stays stored as poisoned; WRITE stores new data and clears the poison; POISON = 1 stores every access poisoned
(R119). -/
def State.rupdRun (s : State) (d fmt uop cols : Nat) (opnd : List Byte) (p : Bool) : Nat → Nat → Nat → State
  | 0, _, _ => s
  | k + 1, i, addr =>
    let s' :=
      if uop = 1 then s.storeAcc d addr (sliceB opnd (32 * i) 32) p
      else
        let ((old, bad), s1) := s.readAcc d addr
        if bad then (if p || !s.accPoison d addr then s1.storeAcc d addr old true else s1)
        else
          let n := 32 / (tblFmt fmt).bytes
          let us := (List.range (min n (cols - i * n))).map (fun j => leAt opnd (4 * (i * n + j)) 4)
          let rs := (List.range n).map (fun j => leAt opnd (4 * cols + 2 * (i * n + j)) 2)
          s1.storeAcc d addr (updAcc fmt (uop = 3) old us rs) p
    s'.rupdRun d fmt uop cols opnd p k (i + 1) (addr + 1)

/-- Columns a RUPD updates: those of the piece an engine's RUPD names (R207, R267); of any other RUPD the elements of its
COUNT accesses (assumption 22). -/
def State.rupdCols (s : State) (n : Nat) (f : PortCmd) : Nat :=
  match s.parts.find? (fun p => decide (p.stk = n) && decide (p.opc = 0x18) && decide (p.flit = f)) with
  | some p => p.ncols
  | none =>
    let fmt := bitsOf f.arg.toNat 18 16
    if fmt = 5 then 0 else f.count.toNat * 32 / (tblFmt fmt).bytes

/-! ## Data commands -/

/-- Range check of a command's fields (R120): true if the base die accepts them. -/
def portFieldsOk (opc : Nat) (f : PortCmd) : Bool :=
  let c := f.count.toNat
  let idx := f.addr.toNat % 8
  let arg := f.arg.toNat
  match opc with
  | 0x01 => decide (1 ≤ c) && decide (c ≤ 8) && decide (idx + c ≤ 8) && !f.poison
  | 0x02 => decide (1 ≤ c) && decide (c ≤ 8) && decide (idx + c ≤ 8)
  | 0x03 => decide (c = 1)
  | 0x08 => decide (c = 0) && !f.poison
  | 0x10 => decide (1 ≤ c) && decide (f.pch.toNat = 0) && !f.poison && decide (bitsOf arg 31 22 = 0) &&
      decide (bitsOf arg 21 16 ≤ 7) && decide (bitsOf arg 15 14 ≤ 1) && decide (bitsOf arg 13 11 ≤ 5) &&
      decide (bitsOf arg 10 8 = 0)
  | 0x11 => decide (c = 0) && !f.poison
  | 0x18 => decide (1 ≤ c) && decide (bitsOf arg 31 19 = 0) && decide (bitsOf arg 18 16 ≤ 5) &&
      decide (1 ≤ bitsOf arg 15 8) && decide (1 ≤ bitsOf arg 7 0) && decide (bitsOf arg 7 0 ≤ 3) &&
      (decide (bitsOf arg 7 0 = 1) || decide (bitsOf arg 18 16 ≤ 4))
  | _ => false

/-- First and last slot a data command names are data granules (R114). -/
def portAddrOk (opc : Nat) (f : PortCmd) : Bool :=
  opc = 0x08 || opc = 0x10 ||
    decide ((f.addr.toNat + (if opc = 0x11 then 0 else f.count.toNat - 1)) / 8 < 3906250)

/-- A pooled answer cut into DATA flits of at most 8 beats (R228), all with the same mark. -/
def poolFlits (f : PortCmd) (p : Bool) : Nat → List Byte → List Resp
  | 0, _ => []
  | n + 1, bs =>
    match bs with
    | [] => []
    | _ =>
      let t := bs.take 256
      dataResp f ((List.range (t.length / 32)).map (fun i => (sliceB t (32 * i) 32, p))) false ::
        poolFlits f p n (bs.drop 256)

/-- GPOOL ARG fields (R224): accesses per piece. -/
def gpAccs (f : PortCmd) : Nat := bitsOf f.arg.toNat 21 16 + 1

/-- A row of a GPOOL at stack n was read (R121): it joins the job with its TAG. -/
def State.poolRow (s : State) (n : Nat) (f : PortCmd) (accs : List (List Byte × Bool)) : State :=
  let k := s.stkAt n
  s.putStk n { k with pools := k.pools.map (fun j =>
    if j.f.tag = f.tag then { j with rows := j.rows ++ [⟨f.pch.toNat, f.addr.toNat, accs⟩] } else j) }

/-- Accesses per row of the GPOOL with a TAG at a stack. -/
def State.poolAccs (s : State) (n : Nat) (tag : BitVec 16) : Nat :=
  match (s.stkAt n).pools.find? (fun j => j.f.tag = tag) with
  | some j => gpAccs j.f
  | none => 0

/-- What the base die does with a data command that arrived at port n and is served at access a of pseudo-channel d
(R120, R128): its effect and its response, which keeps the command's slot until it leaves (R125). -/
def State.serveData (s : State) (n : Nat) (c : SlotCmd) (d a : Nat) : State :=
  let f := c.f
  let k := f.count.toNat
  match c.opc with
  | 0x01 =>
    let (accs, s) := s.readRun d a k c.errs
    let s := s.count (pgPch d) oPchBytesRd (32 * k)
    s.respond n (dataResp f accs true)
  | 0x02 =>
    let s := s.writeRun d k a f.data f.poison
    let s := s.count (pgPch d) oPchBytesWr (32 * k)
    s.respond n (plainResp f 0 0 true)
  | 0x03 =>
    let ((old, bad), s) := s.readAcc d a
    let s := s.storeAcc d a (maskMerge old f.data f.arg.toNat) (bad || f.poison)
    let s := s.count (pgPch d) oPchBytesWr 32
    s.respond n (plainResp f 0 0 true)
  | 0x11 =>
    let m := s.poolAccs n f.tag
    let (accs, s) := s.readRun d a m []
    let s := s.count (pgPch d) oPchBytesRd (32 * m)
    s.poolRow n f accs
  | 0x18 =>
    let arg := f.arg.toNat
    let fmt := bitsOf arg 18 16
    let s := s.rupdRun d fmt (bitsOf arg 7 0) (s.rupdCols n f) f.data f.poison k 0 a
    let s := s.count (pgPch d) oPchBytesWr (32 * k)
    s.respond n (plainResp f 0 0 true)
  | _ => s.respond n (plainResp f 0 0 true)

/-- The answer of a pseudo-channel that has failed, or of a stack that is shut down: poisoned data, discarded writes
(R134, R152, R156). -/
def State.deadData (s : State) (n : Nat) (c : SlotCmd) (d a : Nat) : State :=
  let f := c.f
  match c.opc with
  | 0x01 => s.respond n (dataResp f ((List.range f.count.toNat).map (fun i => (s.accData d (a + i), true))) true)
  | 0x11 => s.poolRow n f ((List.range (s.poolAccs n f.tag)).map (fun i => (s.accData d (a + i), true)))
  | _ => s.respond n (plainResp f 0 0 true)

/-- Read count accesses of a pseudo-channel each at the place that serves it; what is dead there reads poisoned. -/
def State.readMoved (s : State) (d addr : Nat) : Nat → List (List Byte × Bool) × State
  | 0 => ([], s)
  | k + 1 =>
    let (d', a) := s.accAt d addr
    let (x, s1) := if s.alive d' then (s.count (pgPch d') oPchBytesRd 32).readAcc d' a else ((s.accData d' a, true), s)
    let (rest, s2) := s1.readMoved d (addr + 1) k
    (x :: rest, s2)

/-- A command of which a granule has moved is served granule by granule at the targets (R864, R866). A command of one granule
is served there as it would be at home. -/
def State.serveMoved (s : State) (n : Nat) (c : SlotCmd) (d a : Nat) : State :=
  let f := c.f
  match c.opc with
  | 0x11 =>
    let (accs, s) := s.readMoved d a (s.poolAccs n f.tag)
    s.poolRow n f accs
  | 0x18 =>
    let arg := f.arg.toNat
    let cols := s.rupdCols n f
    let s := (List.range f.count.toNat).foldl (fun t i =>
      let (d', a') := t.accAt d (a + i)
      if t.alive d' then (t.rupdRun d' (bitsOf arg 18 16) (bitsOf arg 7 0) cols f.data f.poison 1 i a').count (pgPch d') oPchBytesWr 32
      else t) s
    s.respond n (plainResp f 0 0 true)
  | _ =>
    let (d', a') := s.accAt d a
    if s.alive d' then s.serveData n c d' a' else s.deadData n c d' a'

/-- Granules of its pseudo-channel a data command takes accesses from. -/
def State.cmdGranules (s : State) (n : Nat) (c : SlotCmd) : List Nat :=
  if c.opc = 0x08 then []
  else
    let a := c.f.addr.toNat
    (List.range ((a + (s.cmdAccs n c - 1)) / 8 + 1 - a / 8)).map (· + a / 8)

/-- A command taken up stays in its slot. -/
def State.takeWait (s : State) (d : Nat) (c : SlotCmd) : State :=
  let v := s.pchAt d
  s.putPch d { v with waiting := v.waiting ++ [c] }

/-- An earlier command that waits in its slot stands before a command: any for a FENCE (R120), one to a granule of it for any
other (R128). -/
def State.takeBehind (s : State) (n d : Nat) (c : SlotCmd) : Bool :=
  if c.opc = 0x08 then !(s.pchAt d).waiting.isEmpty
  else (s.pchAt d).waiting.any (fun e => (s.cmdGranules n c).any (fun l => s.cmdMeets n e l))

/-- Commands for pseudo-channel d are parked with a granule move. -/
def State.granuleHeld (s : State) (n d : Nat) : Bool :=
  match (s.regionAt n).move with
  | some m => decide (m.d = d) && !m.parked.isEmpty
  | none => false

/-- A command taken up for its pseudo-channel: served, answered as dead, refused with CONFLICT, or left in its slot
while the pseudo-channel is out of service or an earlier command stands before it (R128, R144, R149, R152). A command for a
granule that has moved is served at its target (R864, R866); one for the granule now moving, and a FENCE behind it, is parked
with the move. -/
def State.takeUp (s : State) (n : Nat) (c : SlotCmd) : State :=
  let d := n * 64 + c.f.pch.toNat
  let v := s.pchAt d
  let a := c.f.addr.toNat
  let gs := s.cmdGranules n c
  if s.stkDead n then s.deadData n c d a
  else if gs.any (s.movingNow d) || (decide (c.opc = 0x08) && s.granuleHeld n d) then
    let g := s.regionAt n
    s.putRegion n { g with move := g.move.map (fun m => { m with parked := m.parked ++ [c] }) }
  else if s.takeBehind n d c then s.takeWait d c
  else if gs.any (fun l => decide (s.serveAt d l ≠ (d, l))) then
    if gs.all (s.granuleServes d) then (s.count (pgRegion n) oRegionForwarded 1).serveMoved n c d a else s.takeWait d c
  else match v.st with
    | .failed => s.deadData n c d a
    | .retired => s.portConflict n c.f
    | .untrained => s.portConflict n c.f
    | _ => if v.busy then s.takeWait d c else s.serveData n c d a

/-- A flit that claims the TAG of an engine's outstanding traffic is that traffic's flit (R119): TAGs of one requester
are not used twice. The FENCE of a move goes behind what the engines had to send to its pseudo-channel before (R305). -/
def State.portOwn (s : State) (n opc : Nat) (f : PortCmd) : Bool :=
  match s.parts.find? (fun p => decide (p.stk = n) && decide (p.flit.tag = f.tag) && decide (p.flit.src = f.src)) with
  | none => true
  | some p => decide (p.opc = opc) && decide (p.flit = f) && !p.sent &&
    (decide (opc ≠ 0x08) || !(s.parts.takeWhile (fun q => q ≠ p)).any (fun q =>
      decide (q.stk = n) && decide (q.opc ≠ 0x10) && decide (q.flit.pch = f.pch) && !q.sent))

/-- The engine's traffic with this flit has been taken by the base die. -/
def State.portSent (s : State) (n : Nat) (f : PortCmd) : State :=
  s.setParts (s.parts.map (fun p => if p.stk = n ∧ p.flit = f then { p with sent := true } else p))

/-- A command takes a slot of its own: a row of a GPOOL that already holds one there takes none (R125). -/
def State.takesSlot (s : State) (d : Nat) (c : SlotCmd) : Bool :=
  !(decide (c.opc = 0x11) && (s.slotWaiters d).any (fun e => decide (e.opc = 0x11) && decide (e.f.tag = c.f.tag)))

/-- A command is parked: the stack does not yet serve (R896), no slot is free, an earlier request of its requester is parked
for the pseudo-channel (R126, R127), or a parked row of a GPOOL reads a granule of it (R129). -/
def State.mustPark (s : State) (n : Nat) (c : SlotCmd) : Bool :=
  let d := n * 64 + c.f.pch.toNat
  !s.stkServes n || (s.takesSlot d c && decide (slotCap ≤ s.slotsUsed d)) ||
    (s.pchAt d).parked.any (fun p => decide (p.f.src = c.f.src) ||
      (decide (p.opc = 0x11) && (s.cmdGranules n c).any (fun l => s.cmdMeets n p l)))

/-- A requester whose parking space at a stack is full stalls until a parked request leaves it (R127). -/
def State.parkFull (s : State) (n : Nat) (src : PortSrc) : Bool := decide (parkCap ≤ s.parkedBy n src)

/-- A data command accepted by its fields: it is parked, or taken up. -/
def State.portTake (s : State) (n : Nat) (c : SlotCmd) : State :=
  let d := n * 64 + c.f.pch.toNat
  let v := s.pchAt d
  if s.mustPark n c then s.putPch d { v with parked := v.parked ++ [c] } else (s.takeUp n c).slotMarks d

/-- A data command offered at a stack port: no flit comes between a GPOOL and its rows (R121), and none from a requester that
stalls (R127); a command whose fields or address the base die does not accept is refused (R120). -/
def State.portCmd (s : State) (n : Nat) (c : SlotCmd) : State :=
  if (s.stkAt n).gp.isSome || !s.portOwn n c.opc c.f || s.parkFull n c.f.src then s
  else
    let s := s.portSent n c.f
    if !portFieldsOk c.opc c.f then s.portRefuse n c.f
    else if !portAddrOk c.opc c.f then (s.setEvt (pgStk n) 5).portRefuse n c.f
    else s.portTake n c

/-! ## Meanings: data commands -/

/-- RD (R120, R138 to R140). -/
def execRd (n : Region) (f : PortCmd) (errs : List AccErr) (s : State) : Out State := s.live <|
  if f.carries 0 && errsWf f.count.toNat errs then .next (s.portCmd n.val ⟨0x01, f, errs⟩) else .fault (.illFormed "RD")

/-- WR (R120, R130). -/
def execWr (n : Region) (f : PortCmd) (s : State) : Out State := s.live <|
  if f.carries (32 * f.count.toNat) then .next (s.portCmd n.val ⟨0x02, f, []⟩) else .fault (.illFormed "WR")

/-- WRM (R120, R130). -/
def execWrm (n : Region) (f : PortCmd) (s : State) : Out State := s.live <|
  if f.carries (32 * f.count.toNat) then .next (s.portCmd n.val ⟨0x03, f, []⟩) else .fault (.illFormed "WRM")

/-- FENCE at the stack port (R120): DONE once every earlier command to PCH has completed; a command that waits in a
slot holds it behind itself. -/
def execFlitFence (n : Region) (f : PortCmd) (s : State) : Out State := s.live <|
  if f.carries 0 then .next (s.portCmd n.val ⟨0x08, f, []⟩) else .fault (.illFormed "FLIT_FENCE")

/-- SLOT_GRANT (R127): the oldest parked request of a pseudo-channel whose stack serves takes a freed slot. -/
def execSlotGrant (d : Pch) (s : State) : Out State := s.live <|
  let n := d.val / 64
  let v := s.pchAt d.val
  match v.parked with
  | [] => .next s
  | c :: cs =>
    if s.stkServes n && (decide (s.slotsUsed d.val < slotCap) || !s.takesSlot d.val c) then
      .next (((s.putPch d.val { v with parked := cs }).takeUp n c).slotMarks d.val)
    else .next s

/-! ## Service commands (R120, R158) -/

/-- The service flit the two registers spell; hardware supplies TAG and CRC (R119, R157). -/
def svcFlit (lo hi : Word) (tag : Nat) : PortCmd :=
  { src := .fabric, pch := BitVec.ofNat 6 (fld lo 13 8), addr := BitVec.ofNat 25 (fld lo 63 48 + 2 ^ 16 * fld hi 8 0),
    count := BitVec.ofNat 8 (fld lo 39 32), tag := BitVec.ofNat 16 tag, poison := bit lo 40,
    arg := BitVec.ofNat 32 (fld hi 47 16), data := [] }

/-- SVC_RSP of a response code (R123, R157): CRC reads 0. -/
def svcRspWord (rsp state pch tag : Nat) : Word := word (state * 2 ^ 48 + tag * 2 ^ 16 + pch * 2 ^ 4 + rsp)

/-- Answer the outstanding service command: SVC_RSP, SVC_BUSY cleared, SVC_DONE (R157, R160). -/
def State.svcAnswer (s : State) (n rsp state : Nat) : State :=
  let k := s.stkAt n
  match k.svc with
  | none => s
  | some (_, f) =>
    let s := s.putStk n { k with svc := none }
    let s := s.setRg (pgStk n) oStkSvcRsp (svcRspWord rsp state f.pch.toNat f.tag.toNat)
    s.setEvt (pgStk n) 3

/-- Answer it with CONFLICT (R124). -/
def State.svcConflict (s : State) (n : Nat) : State :=
  match (s.stkAt n).svc with
  | none => s
  | some (_, f) =>
    let d := n * 64 + f.pch.toNat
    let s := s.count (pgPch d) oPchConflicts 1
    let s := s.conflict (pgPch d)
    s.svcAnswer n 3 (s.pchAt d).st.code

/-- Service opcodes and their field ranges (R120): COUNT 0, POISON 0, no reserved bit; TRAIN names rate 32 or 100;
PATCH names a table entry. -/
def svcFieldsOk (opc : Nat) (lo hi : Word) : Bool :=
  let arg := fld hi 47 16
  decide (fld lo 39 32 = 0) && decide (fld lo 47 40 = 0) && decide (fld lo 15 14 = 0) && decide (fld hi 15 9 = 0) &&
    (match opc with
    | 0x20 => true
    | 0x30 => decide (arg % 256 = 32) || decide (arg % 256 = 100)
    | 0x31 => true
    | 0x32 => true
    | 0x33 => true
    | 0x38 => true
    | 0x39 => true
    | 0x3A => true
    | _ => false)

/-- Opcode under which a service flit that the base die will refuse is outstanding. -/
def svcBad : Nat := 0x100

/-- Refuse the outstanding service command (R120). -/
def State.svcRefuse (s : State) (n : Nat) : State :=
  let s := s.count (pgStk n) oStkBadCmd 1
  let s := s.setEvt (pgStk n) 4
  s.svcAnswer n 2 0

/-- Issue the flit of SVC_CMD (R157, R158): nothing while a service command is outstanding; otherwise the command is
outstanding until its own row acts, and a flit the base die refuses is answered at once. A flit does not come between a GPOOL
and its rows (R121): it is issued after the last of them. TAG is the hardware's, a free value (assumption 103). -/
def State.svcIssue (s : State) (n : Nat) (hi : Word) : State :=
  let s := s.setRg (pgStk n) oStkSvcCmdHi (word (fld hi 47 0))
  let k := s.stkAt n
  let lo := s.rg (pgStk n) oStkSvcCmdLo
  let (t, s) := s.draw
  let tag := t % 2 ^ 16
  if k.svc.isSome then
    let s := s.conflict (pgStk n)
    s.setRg (pgStk n) oStkSvcRsp (svcRspWord 3 0xFF (fld lo 13 8) tag)
  else
    let opc := fld lo 7 0
    let ok := svcFieldsOk opc lo hi
    let s := s.putStk n { k with svc := some (if ok then opc else svcBad, svcFlit lo hi tag) }
    if ok || k.gp.isSome then s else s.svcRefuse n

/-- The rows of a GPOOL are complete: a service flit that waited for them is issued (R121). -/
def State.svcAfter (s : State) (n : Nat) : State :=
  match (s.stkAt n).svc with
  | some (o, _) => if o = svcBad then s.svcRefuse n else s
  | none => s

/-- SVC_CMD_HI_WRITE (R158). -/
def execSvcCmdHiWrite (n : Region) (v : Word) (s : State) : Out State := s.live <| .next (s.svcIssue n.val v)

/-- The outstanding service command of a stack if it has this opcode and its flit is issued. -/
def State.svcIs (s : State) (n opc : Nat) : Option PortCmd :=
  match (s.stkAt n).svc with
  | some (o, f) => if o = opc ∧ (s.stkAt n).gp = none then some f else none
  | none => none

/-- Read the 8 accesses of a granule slot, correct it, and write back what was corrected (R120, SCRUB): an access that is
poisoned or uncorrectable stays as it is. -/
def State.scrubSlot (s : State) (d slot : Nat) (errs : List AccErr) : State :=
  let addr := slot * 8
  let (accs, s) := s.readRun d addr 8 errs
  (accs.zip (List.range 8)).foldl (fun t x =>
    let ((data, p), i) := x
    if p then t else t.storeAcc d (addr + i) data false) s

/-- SCRUB (R120, R852, R853): the outstanding SCRUB reads its granule, corrects it and writes it back. One to a FAILED or
UNTRAINED pseudo-channel is answered DONE without effect (DESIGN CHOICE, assumption 89). -/
def execScrub (n : Region) (errs : List AccErr) (s : State) : Out State := s.live <|
  if errsWf 8 errs then
    match s.svcIs n.val 0x20 with
    | none => .next s
    | some f =>
      let d := n.val * 64 + f.pch.toNat
      let v := s.pchAt d
      if v.st = .retired then .next (s.svcConflict n.val)
      else if v.st = .failed ∨ v.st = .untrained then .next (s.svcAnswer n.val 0 0)
      else if v.busy then .next s
      else .next ((s.scrubSlot d (f.addr.toNat / 8) errs).svcAnswer n.val 0 0)
  else .fault (.illFormed "SCRUB")

/-! ## Training (R144 to R153) -/

/-- TRAIN (R152, R153): a TRAIN to a pseudo-channel in RETRAIN, MARGIN, FAILED, RETIRED or FULL is answered CONFLICT,
as is one whose rate does not fit the state; otherwise training begins. -/
def execTrain (n : Region) (s : State) : Out State := s.live <|
  match s.svcIs n.val 0x30 with
  | none => .next s
  | some f =>
    let d := n.val * 64 + f.pch.toNat
    let v := s.pchAt d
    let rate := f.arg.toNat % 256
    if (v.st = .untrained ∧ rate = 32) ∨ (v.st = .base ∧ rate = 100) then
      (if v.training then .next s else .next (s.putPch d { v with training := true, rate := rate }))
    else .next (s.svcConflict n.val)

/-- Every pseudo-channel of a stack that is not RETIRED is in one of the given states. -/
def State.stackAll (s : State) (n : Nat) (p : PchState → Bool) : Bool :=
  (List.range 64).all (fun j =>
    let v := (s.pchAt (n * 64 + j))
    decide (v.st = .retired) || p v.st)

/-- Pseudo-channels that have passed full training, seen through RETRAIN and MARGIN. -/
def PchSt.passedFull (v : PchSt) : Bool :=
  decide (v.st = .full) || ((decide (v.st = .retrain) || decide (v.st = .margin)) && decide (v.prior = .full))

/-- Pseudo-channels that have passed base training. -/
def PchSt.passedBase (v : PchSt) : Bool :=
  v.passedFull || decide (v.st = .base) || decide (v.st = .retrain) || decide (v.st = .margin)

/-- Take up again the commands that waited in a pseudo-channel's slots, in the order of R128 (R149, R150). -/
def State.serveOwn (s : State) (d : Nat) : State :=
  let v := s.pchAt d
  v.waiting.foldl (fun t c => t.takeUp (d / 64) c) (s.putPch d { v with waiting := [] })

/-- A pseudo-channel serves again: what waited in its slots, then what waits in the slots of others, of which a granule may
have moved to it (R864, R866). -/
def State.serveWaiting (s : State) (d : Nat) : State :=
  let s := s.serveOwn d
  (s.pch.filter (fun e => decide (e.1 ≠ d) && !e.2.waiting.isEmpty)).foldl (fun t e => t.serveOwn e.1) s

/-- A pseudo-channel leaves RETRAIN or MARGIN: the refreshes postponed are issued and the stack's refresh window is adopted
(R150, R154). -/
def State.outEnd (s : State) (d : Nat) : State :=
  let v := s.pchAt d
  let now := s.ns
  s.putPch d { v with postponed := [], refreshed := v.postponed.foldl (fun m b => smapSet (fun _ => 0) m b now) v.refreshed,
                      window16 := (s.stkAt (d / 64)).window16 }

/-- A margin sweep ends with its pseudo-channel: its command is answered CONFLICT. -/
def State.marginEnd (s : State) (n : Nat) (svc : Bool) : State :=
  let s := s.putStk n { s.stkAt n with margin := none }
  if svc then s.svcConflict n else s

/-- Entry into FAILED (R152): TRAIN_FAIL, the PCH_FAILED record, queued commands answered as dead. -/
def State.pchFail (s : State) (d : Nat) : State :=
  let s := s.outEnd d
  let v := s.pchAt d
  let s := s.putPch d { v with st := .failed, training := false, fails := 3 }
  let s := s.setEvt (pgPch d) 2
  let s := s.error (pgPch d) ⟨1, true, 0x0104, pgPch d, memErrAddr d 0, 0⟩
  (s.serveWaiting d).retireNeed

/-- Whether a pseudo-channel of a stack is out of service under R148. -/
def State.outBusy (s : State) (n : Nat) : Bool :=
  (List.range 64).any (fun j =>
    let v := s.pchAt (n * 64 + j)
    decide (v.st = .retrain) || decide (v.st = .margin))

/-- Enter RETRAIN or MARGIN (R152). -/
def State.outEnter (s : State) (n : Nat) (t : OutTrig) : State :=
  let d := n * 64 + t.pch
  let v := s.pchAt d
  if t.kind = 0 then
    let s := s.putPch d { v with st := .retrain, prior := v.st, fails := 0 }
    let s := s.setRg (pgPch d) oPchRetrainSt (word s.ns)
    s.setEvt (pgPch d) 0
  else
    let k := s.stkAt n
    let s := s.putStk n { k with margin := some (t.kind, t.svc) }
    s.putPch d { v with st := .margin, prior := v.st }

/-- Start the first waiting trigger that R148 permits: triggers for pseudo-channels that left BASE and FULL lapse, and with a
margin step its sweep. A pseudo-channel in training ends that first (DESIGN CHOICE, assumption 90). -/
def State.outNext (s : State) (n : Nat) : Nat → State
  | 0 => s
  | k + 1 =>
    if s.outBusy n then s
    else
      let q := s.stkAt n
      match q.waitQ with
      | [] => s
      | t :: ts =>
        let v := s.pchAt (n * 64 + t.pch)
        if v.training then s
        else
          let s := s.putStk n { q with waitQ := ts }
          if v.st = .base ∨ v.st = .full then s.outEnter n t
          else if t.kind = 0 then (if t.svc then s.svcConflict n else s).outNext n k
          else (s.marginEnd n t.svc).outNext n k

/-- A trigger: it starts now if R148 permits, and waits in arrival order otherwise (R148). -/
def State.outTrigger (s : State) (n : Nat) (t : OutTrig) : State :=
  let q := s.stkAt n
  (s.putStk n { q with waitQ := q.waitQ ++ [t] }).outNext n (q.waitQ.length + 1)

/-- A retrain trigger for a pseudo-channel (R146, R155): merged with a pending one and counted. -/
def State.retrainTrigger (s : State) (d : Nat) (svc : Bool) : State :=
  let n := d / 64
  let v := s.pchAt d
  let pend := decide (v.st = .retrain) || (s.stkAt n).waitQ.any (fun t => decide (t.pch = d % 64) && decide (t.kind = 0))
  if pend then
    let s := s.count (pgPch d) oPchRetrainMerged 1
    if svc then s.svcConflict n else s
  else if v.st = .base ∨ v.st = .full ∨ v.st = .margin then s.outTrigger n ⟨d % 64, 0, svc⟩
  else if svc then s.svcConflict n else s

/-- RETRAIN (R146, R153, R155). -/
def execRetrain (n : Region) (s : State) : Out State := s.live <|
  match s.svcIs n.val 0x31 with
  | none => .next s
  | some f =>
    let d := n.val * 64 + f.pch.toNat
    let v := s.pchAt d
    if v.st = .base ∨ v.st = .full ∨ v.st = .retrain then .next (s.retrainTrigger d true)
    else .next (s.svcConflict n.val)

/-- A margin command of kind k (R151, R153). -/
def State.marginCmdOp (s : State) (n k : Nat) (f : PortCmd) : State :=
  let d := n * 64 + f.pch.toNat
  let v := s.pchAt d
  if v.st = .base ∨ v.st = .full then
    (if (s.stkAt n).waitQ.any (fun t => t.svc) then s else s.outTrigger n ⟨d % 64, k, true⟩)
  else s.svcConflict n

/-- MARGIN_T (R151, R153). -/
def execMarginT (n : Region) (s : State) : Out State := s.live <|
  match s.svcIs n.val 0x32 with
  | none => .next s
  | some f => if (s.stkAt n.val).margin.isSome then .next s else .next (s.marginCmdOp n.val 1 f)

/-- MARGIN_V (R151, R153). -/
def execMarginV (n : Region) (s : State) : Out State := s.live <|
  match s.svcIs n.val 0x33 with
  | none => .next s
  | some f => if (s.stkAt n.val).margin.isSome then .next s else .next (s.marginCmdOp n.val 2 f)

/-- Leave RETRAIN or MARGIN (R150, R154): the prior state returns, the refresh window is adopted, postponed refreshes
are issued, then queued commands are served, then the next trigger may start. -/
def State.outLeave (s : State) (d : Nat) : State :=
  let n := d / 64
  let s := s.outEnd d
  let v := s.pchAt d
  let s := s.putPch d { v with st := v.prior, fails := 0 }
  let s := s.serveWaiting d
  s.outNext n ((s.stkAt n).waitQ.length + 1)

/-- STACK_PORT_TRAINED (R156): DOWN to TRAINING. -/
def execStackPortTrained (n : Region) (s : State) : Out State := s.live <|
  let k := s.stkAt n.val
  if k.st = .down then .next (s.putStk n.val { k with st := .training }) else .next s

/-- REFRESH (R141, R143, R150): a bank is refreshed; during a retrain or margin step the refresh is postponed. -/
def execRefresh (d : Pch) (bank : Fin 64) (s : State) : Out State := s.live <|
  let v := s.pchAt d.val
  let k := s.stkAt (d.val / 64)
  if k.st = .down ∨ k.st = .shutdown then .next s
  else if v.st = .retrain ∨ v.st = .margin then
    .next (s.putPch d.val { v with postponed := if v.postponed.contains bank.val then v.postponed else v.postponed ++ [bank.val] })
  else .next (s.putPch d.val { v with refreshed := smapSet (fun _ => 0) v.refreshed bank.val s.ns })

/-- REPLAY (R118, R146): counted; more than 16 replays of a slice within 1 ms trigger a retrain and its record. -/
def execReplay (n : Region) (p : ReplayPath) (s : State) : Out State := s.live <|
  let s := s.count (pgStk n.val) oStkLinkRetry 1
  match p with
  | .slice j =>
    let d := n.val * 64 + j.val
    let v := s.pchAt d
    let now := s.ns
    let rs := now :: v.replays.filter (fun t => decide (now - t ≤ 10 ^ 6))
    let s := s.putPch d { v with replays := rs }
    if 16 < rs.length then
      let s := s.putPch d { v with replays := [] }
      let s := s.error (pgStk n.val) ⟨0, false, 0x0103, pgStk n.val, memErrAddr d 0, 0⟩
      .next (s.retrainTrigger d false)
    else .next s
  | _ => .next s

/-! ## Row repair (R859, R860) -/

/-- The four granule slots of a DRAM row: bank, row (R114). -/
def rowSlots (bank row : Nat) : List Nat := (List.range 4).map (fun i => (row * 4 + i) * 64 + bank)

/-- Read the row's 4 granules through the decoder and write them back: what could not be corrected is written poisoned
(R859). The error patterns are those of the 32 accesses in order. -/
def State.rewriteRow (s : State) (d bank row : Nat) (errs : List AccErr) : State :=
  ((rowSlots bank row).zip (List.range 4)).foldl (fun t x =>
    let (accs, t) := t.readRun d (x.1 * 8) 8 (errs.drop (8 * x.2))
    (accs.zip (List.range 8)).foldl (fun u y => u.storeAcc d (x.1 * 8 + y.2) y.1.1 y.1.2) t) s

end Sys2Proof.Machine
end

