-- ==== Sys2Proof/Machine/Xlat.lean ====
section
/-! DEFINITION. Translation units (R161 to R200, R992, R993): caches, walks, permission and residence checks, fault
records, invalidation, resumption, and the paging service's two steps. -/

namespace Sys2Proof.Machine

/-- Translation unit. -/
def State.xlatAt (s : State) (u : Nat) : XlatSt := smapGet (fun _ => XlatSt.reset) s.xlat u
/-- Translation unit replaced. -/
def State.putXlat (s : State) (u : Nat) (v : XlatSt) : State := s.setXlat (smapSet (fun _ => XlatSt.reset) s.xlat u v)
/-- Fault record slot. -/
def XlatSt.recAt (x : XlatSt) (i : Nat) : FaultRec := smapGet (fun _ => FaultRec.reset) x.recs i
/-- Fault record slot replaced. -/
def XlatSt.putRec (x : XlatSt) (i : Nat) (r : FaultRec) : XlatSt :=
  { x with recs := smapSet (fun _ => FaultRec.reset) x.recs i r }

/-! ## Requesters -/

/-- Region of a physical cluster (R16). -/
def cluRegion (c : Nat) : Nat := c / 13
/-- Physical number of logical cluster l of region r; none when unmapped (R24). -/
def State.physClu (s : State) (r l : Nat) : Option Nat :=
  let k := (s.regionAt r).map.getD l 15
  if k < 13 then some (r * 13 + k) else none
/-- Logical number of a physical cluster; none for the spare (R24). -/
def State.logClu (s : State) (c : Nat) : Option Nat :=
  findIdx (fun k => k = c % 13) (s.regionAt (cluRegion c)).map

/-- SOURCE of a requester's page (R183). -/
def whoSource : Who → Nat
  | .walker c _ => pgWlk (c.clu.val * 4 + c.wv.val)
  | .program c w => pgWlk (c.val * 4 + w.val)
  | .comet r _ _ => pgComet r.val
  | .bag r _ => pgEmb r.val
  | .engine r _ => pgEmb r.val
  | .matrix c => pgGmx c.val
  | .rdma q _ => pgRdma (q / 4096)
  | .svc c => pgSvc c.val
  | .list _ r => pgDisp r.val
  | .ring _ => pgHcmd
  | .log => pgTel

/-- DETAIL of a record for the requesters R183 names, and how many of its low bits it leaves open: none of a requester the
table names, the context of a program load, which is its Weevil's and no context's, all 32 of the others. -/
def whoDetail : Who → Nat × Nat
  | .walker c _ => (c.wv.val * 2 ^ 10 + c.ctx.val, 0)
  | .program _ w => (w.val * 2 ^ 10, 10)
  | .comet _ slot _ => (slot % 1024, 0)
  | .bag _ b => (b % 2 ^ 16, 0)
  | .rdma q _ => (q, 0)
  | _ => (0, 32)

/-- DETAIL of a new record: what the rule leaves open is a free value (assumption 80). -/
def State.detailOf (s : State) (w : Who) : Nat × State :=
  let (d, n) := whoDetail w
  if n = 0 then (d, s)
  else
    let (x, s) := s.draw
    (d + x % 2 ^ n, s)

/-- The translation unit of a requester: the region's, or unit 12 for the RDMA engines, the service cores and what the hub die
asks (R171). A VERSION switch is looked up in the region whose engine runs it, any of them. -/
def whoUnit : Who → Option Nat
  | .walker c _ => some (c.clu.val / 13)
  | .program c _ => some (c.val / 13)
  | .comet r _ _ => some r.val
  | .bag r _ => some r.val
  | .engine r _ => some r.val
  | .matrix c => some (c.val / 13)
  | .list _ r => some r.val
  | .rdma _ _ => some 12
  | .svc _ => some 12
  | .log => some 12
  | .ring k => if k < 128 then some 12 else none

/-- The cluster request port a request comes through, as the physical cluster (R171). -/
def whoPort : Who → Option Nat
  | .walker c _ => some c.clu.val
  | .program c _ => some c.val
  | .matrix c => some c.val
  | _ => none

/-! ## Entries (R165 to R170) -/

/-- Bytes a leaf of a level covers, as a power of two; for pointers the range under the entry. -/
def lvlBits : Nat → Nat
  | 0 => 16
  | 1 => 21
  | 2 => 30
  | _ => 39

/-- Index of a VA at a level (R165). -/
def lvlIndex (va l : Nat) : Nat :=
  match l with
  | 0 => bitsOf va 20 16
  | 1 => bitsOf va 29 21
  | 2 => bitsOf va 38 30
  | _ => bitsOf va 51 39

/-- First VA of the range of a level around a VA. -/
def lvlBase (va l : Nat) : Nat := va / 2 ^ lvlBits l * 2 ^ lvlBits l

/-- Low PA bits that must be zero in a pointer read at a level: the alignment of the next table (R165). -/
def ptrAlign : Nat → Nat
  | 3 => 12
  | 2 => 12
  | _ => 8

/-- What an entry read at a level is (R168, R169). -/
inductive Pte where
  | invalid
  | malformed
  | pointer (tbl : Nat)
  | leaf
  deriving DecidableEq, Repr

/-- PA of a leaf's page. -/
def ptePa (e : Word) : Nat := fld e 41 16 * 2 ^ 16

/-- Classify an entry (R167 to R169). In a pointer to an L0 table, ADDR gives bits [41:16], so the table's alignment of
256 B holds of itself. -/
def pteKind (e : Word) (l : Nat) : Pte :=
  if !bit e 0 then .invalid
  else
    let leaf := bit e 1
    let remote := bit e 6
    let resv := decide (fld e 15 10 ≠ 0) || bit e 2 ||
      (if leaf && remote then decide (fld e 55 48 ≠ 0) else decide (fld e 55 42 ≠ 0))
    if resv || (leaf && decide (l = 3)) || (!leaf && decide (l = 0)) then .malformed
    else if leaf then
      if remote then (if l = 2 then .malformed else .leaf)
      else if ptePa e % 2 ^ lvlBits l ≠ 0 then .malformed else .leaf
    else if remote then .malformed
    else .pointer (ptePa e)

/-- The leaf permits a class of access (R174). -/
def ptePermits (e : Word) (q : XReq) : Bool :=
  (match q.acc with
  | .read => bit e 3
  | .write => bit e 4
  | .update => bit e 5) && (!q.rdma || bit e 9)

/-- What a translation delivers: a PA, poison (R190), a fault, or nothing yet, since a table read or a D compare waits at its
stack port. -/
inductive XRes where
  | pa (pa : Nat)
  | poison
  | wait
  | fault (kind lvl : Nat) (entry : Word)
  deriving DecidableEq, Repr

/-- Fault kinds (R183). -/
def fNotMapped : Nat := 1
/-- PERM. -/
def fPerm : Nat := 2
/-- NONRES. -/
def fNonres : Nat := 3
/-- MALFORMED. -/
def fMalformed : Nat := 4
/-- NONCANON. -/
def fNoncanon : Nat := 5
/-- WALK_UE. -/
def fWalkUe : Nat := 6

/-! ## Caches (R171, R173) -/

/-- A cached leaf maps a VA. -/
def TlbEnt.hits (t : TlbEnt) (va : Nat) : Bool := decide (lvlBase va t.lvl = t.va)

/-- Put a leaf into a list of at most cap entries: when it is full, a free value picks the entry that leaves (the
replacement is not stated). -/
def State.cachePut {α : Type} (s : State) (cap : Nat) (l : List α) (e : α) : List α × State :=
  if l.length < cap then (l ++ [e], s)
  else
    let (v, s) := s.draw
    (l.eraseIdx (v % l.length) ++ [e], s)

/-- Ways of a set of the main TLB; it has 512 sets (R171). -/
def tlbWays : Nat := 8

/-- The set of the main TLB an entry lies in: which VA bits select it is not stated (assumption 92). -/
def TlbEnt.set (t : TlbEnt) : Nat := Config.tlbSet t.va t.lvl % 512

/-- Put a leaf into the main TLB, 8-way by sets: in a full set one entry leaves. -/
def State.tlbPut (s : State) (l : List TlbEnt) (t : TlbEnt) : List TlbEnt × State :=
  if l.length < tlbWays then (l ++ [t], s)
  else
    let (mine, others) := l.partition (fun e => decide (e.set = t.set))
    let (mine, s) := s.cachePut tlbWays mine t
    (others ++ mine, s)

/-- Fill the main TLB, and the micro-TLB of the requester's port (R171). -/
def State.tlbFill (s : State) (u : Nat) (q : XReq) (t : TlbEnt) : State :=
  let x := s.xlatAt u
  let (tlb, s) := if x.tlb.any (fun e => e.hits t.va) then (x.tlb.map (fun e => if e.hits t.va then t else e), s)
    else s.tlbPut x.tlb t
  match whoPort q.who with
  | none => s.putXlat u { x with tlb := tlb }
  | some c =>
    let (mine, others) := x.micro.partition (fun e => e.1 = c)
    let mine := mine.filter (fun e => !e.2.hits t.va)
    let (mine, s) := s.cachePut 64 mine (c, t)
    s.putXlat u { x with tlb := tlb, micro := others ++ mine }

/-- Remove the leaf of a VA from the caches of a unit (R173, R175). -/
def State.tlbDrop (s : State) (u va : Nat) : State :=
  let x := s.xlatAt u
  s.putXlat u { x with tlb := x.tlb.filter (fun e => !e.hits va), micro := x.micro.filter (fun e => !e.2.hits va) }

/-- The cached leaf a request hits, the micro-TLB first; hits and misses of the main TLB are counted (R198). -/
def State.tlbLook (s : State) (u : Nat) (q : XReq) : Option TlbEnt × State :=
  let x := s.xlatAt u
  let va := q.va.toNat
  let m : Option TlbEnt := match whoPort q.who with
    | none => none
    | some c => (x.micro.find? (fun (e : Nat × TlbEnt) => decide (e.1 = c) && e.2.hits va)).map (fun (e : Nat × TlbEnt) => e.2)
  match m with
  | some t => (some t, s)
  | none =>
    match x.tlb.find? (fun (t : TlbEnt) => t.hits va) with
    | some t => (some t, (s.count (pgXlat u) oXlatTlbHit 1).tlbFill u q t)
    | none => (none, s.count (pgXlat u) oXlatTlbMiss 1)

/-- Where a walk starts: the level and table of its first read, from the walk cache or the root (R162, R172). -/
def State.walkStart (s : State) (u va : Nat) : Nat × Nat :=
  let x := s.xlatAt u
  match x.wc.find? (fun w => w.lvl = 2 && decide (lvlBase va 2 = w.va)) with
  | some w => (1, w.tbl)
  | none =>
    match x.wc.find? (fun w => w.lvl = 3 && decide (lvlBase va 3 = w.va)) with
    | some w => (2, w.tbl)
    | none => (3, s.rf (pgXlat 0) oXlatRoot 41 16 * 2 ^ 16)

/-- Remember a pointer read at level 3 or 2 (R171). -/
def State.wcFill (s : State) (u va lvl tbl : Nat) : State :=
  if lvl < 2 then s
  else
    let x := s.xlatAt u
    let e : WcEnt := ⟨lvl, lvlBase va lvl, tbl⟩
    if x.wc.contains e then s
    else
      let (l, s) := s.cachePut 128 x.wc e
      s.putXlat u { x with wc := l }

/-! ## Walks (R165 to R175) -/

/-- Read one table entry (R166, R169): the entry and whether its access is poisoned. -/
def State.pteRead (s : State) (u src tbl va lvl : Nat) : (Word × Bool × Nat) × State :=
  let epa := tbl + lvlIndex va lvl * 8
  let s := s.count (pgXlat u) oXlatWalkRd 1
  let ((bs, p), s) := s.readPa u src (epa / 32 * 32)
  ((wordAt bs (epa % 32), p, epa), s)

/-- What one table read answers: the walk goes on, ends at a leaf, faults, or the read waits at its stack port. -/
inductive WalkRes where
  | wait
  | next (lvl tbl : Nat)
  | leaf (t : TlbEnt)
  | fault (kind lvl : Nat) (entry : Word)
  deriving DecidableEq, Repr

/-- One step of a walk: read the entry at a level and judge it (R168 to R170). -/
def State.walkStep (s : State) (u src va lvl tbl : Nat) : WalkRes × State :=
  if !s.paServes u src ((tbl + lvlIndex va lvl * 8) / 32 * 32) then (.wait, s)
  else
    let ((e, p, epa), s) := s.pteRead u src tbl va lvl
    if p then (.fault fWalkUe lvl e, s)
    else match pteKind e lvl with
      | .invalid => (.fault fNotMapped lvl e, s)
      | .malformed => (.fault fMalformed lvl e, s)
      | .leaf => (.leaf ⟨lvlBase va lvl, lvl, e, epa⟩, s)
      | .pointer t => (.next (lvl - 1) t, s.wcFill u va lvl t)

/-- A walk to its end: at most the levels left. -/
def State.walkAll (s : State) (u src va : Nat) : Nat → Nat → Nat → WalkRes × State
  | 0, lvl, _ => (.fault fMalformed lvl 0, s)
  | n + 1, lvl, tbl =>
    match s.walkStep u src va lvl tbl with
    | (.next l t, s') => s'.walkAll u src va n l t
    | r => r

/-- Checks of a leaf before it is used: permission first, then residence, then poison (R174, R184, R192). -/
def leafCheck (t : TlbEnt) (q : XReq) : XRes :=
  if !ptePermits t.entry q then .fault fPerm t.lvl t.entry
  else if bit t.entry 6 then .fault fNonres t.lvl t.entry
  else if bit t.entry 7 then .poison
  else .pa (ptePa t.entry + q.va.toNat % 2 ^ lvlBits t.lvl)

/-- A write-class access through a leaf with D = 0 sets D first (R175), but not where its PA is out of range: that access is
discarded before it reaches memory (R134). -/
def State.needsD (s : State) (t : TlbEnt) (q : XReq) (pa : Nat) : Bool :=
  decide (q.acc ≠ .read) && !bit t.entry 8 && (s.paAcc pa).isSome

/-- What the D compare finds: the entry it knew, another, or an access that reads poisoned or uncorrectable. -/
inductive DRes where
  | set
  | changed
  | bad
  deriving DecidableEq, Repr

/-- The atomic compare that sets D on the whole entry at its stack port (R175, R990). -/
def State.setD (s : State) (u src : Nat) (t : TlbEnt) : DRes × State :=
  let ((old, p), s) := s.rmwPa u src t.epa (fun w => if w = t.entry then w ||| bitW 8 else w)
  (if p then .bad else if old = t.entry then .set else .changed, s)

/-- Use a leaf for a request: its checks, the D bit, the caches. none asks for a new walk, since the entry had changed; a
compare that reads poison is a table read that does (R169). -/
def State.useLeaf (s : State) (u src : Nat) (t : TlbEnt) (q : XReq) : Option XRes × State :=
  match leafCheck t q with
  | .fault k l e => (some (.fault k l e), s.tlbDrop u q.va.toNat)
  | .wait => (some .wait, s)
  | .poison => (some .poison, s.tlbFill u q t)
  | .pa a =>
    if s.needsD t q a then
      if !s.paServes u src t.epa then (some .wait, s)
      else match s.setD u src t with
        | (.set, s) => (some (.pa a), s.tlbFill u q { t with entry := t.entry ||| bitW 8 })
        | (.changed, s) => (none, s.tlbDrop u q.va.toNat)
        | (.bad, s) => (some (.fault fWalkUe t.lvl t.entry), s.tlbDrop u q.va.toNat)
    else (some (.pa a), s.tlbFill u q t)

/-- Translate by walking, n times at most: a D compare that fails discards the copy and walks again (R175). -/
def State.walkUse (s : State) (u : Nat) (q : XReq) : Nat → XRes × State
  | 0 => (.fault fWalkUe 0 0, s)
  | n + 1 =>
    let va := q.va.toNat
    let src := whoSource q.who
    let (l, tbl) := s.walkStart u va
    match s.walkAll u src va 4 l tbl with
    | (.leaf t, s) =>
      (match s.useLeaf u src t q with
      | (some r, s) => (r, s)
      | (none, s) => s.walkUse u q n)
    | (.fault k l e, s) => (.fault k l e, s)
    | (.wait, s) => (.wait, s)
    | (.next l _, s) => (.fault fMalformed l 0, s)

/-- Translate one request at unit u (R161, R171 to R175, R190 to R193, R993), without opening a record. -/
def State.xlate (s : State) (u : Nat) (q : XReq) : XRes × State :=
  let va := q.va.toNat
  if 2 ^ 52 ≤ va then (.fault fNoncanon 3 0, s)
  else if !bit (s.rg (pgXlat 0) oXlatRoot) 0 then (.fault fNotMapped 3 0, s)
  else
    match s.tlbLook u q with
    | (some t, s) =>
      (match s.useLeaf u (whoSource q.who) t q with
      | (some r, s) => (r, s)
      | (none, s) => s.walkUse u q 3)
    | (none, s) => s.walkUse u q 3

/-! ## Fault records (R180 to R188) -/

/-- ACCESS code (R183). -/
def accCode : Acc → Nat
  | .read => 0
  | .write => 1
  | .update => 2

/-- The page a fault belongs to for merging: its leaf page, or 64 KiB where the walk found no leaf (R181). -/
def faultPage (kind lvl va : Nat) : Nat × Nat :=
  if kind = fPerm ∨ kind = fNonres then (lvl, lvlBase va lvl) else (0, lvlBase va 0)

/-- Two faults lie in the same page for R181. -/
def FaultRec.merges (r : FaultRec) (kind lvl va : Nat) (a : Acc) : Bool :=
  r.valid && decide (r.kind = kind) && decide (r.acc = a) &&
    decide (faultPage r.kind r.lvl r.va = faultPage kind lvl va)

/-- Words 0 to 3 of a record slot (R183). -/
def FaultRec.words (r : FaultRec) : List Word :=
  [word (b2n r.valid * 2 ^ 63 + r.lvl * 2 ^ 60 + accCode r.acc * 2 ^ 58 + r.kind * 2 ^ 54 + r.va % 2 ^ 52),
   word (r.waiters * 2 ^ 48 + r.source * 2 ^ 32 + r.detail % 2 ^ 32), word r.st, r.entry]

/-- The service core a request comes from (R187). -/
def whoSvc : Who → Option Nat
  | .svc c => some c.val
  | _ => none

/-- Fault a request (R180 to R185, R187): merge, open a record, stall while every slot is in use, or end a service
core's access, which takes a precise access fault. -/
def State.xfault (s : State) (u : Nat) (q : XReq) (kind lvl : Nat) (entry : Word) : State :=
  let pg := pgXlat u
  match whoSvc q.who with
  | some c =>
    let s := s.count (pgXlat 12) oXlatFaults 1
    let s := s.putCore c { s.coreAt c with fault := some (q.va.toNat, kind) }
    s.error (pgXlat 12) (contained 0x0301 (pgSvc c) q.va (word c))
  | none =>
    let x := s.xlatAt u
    let va := q.va.toNat % 2 ^ 52
    match (List.range 64).find? (fun i => (x.recAt i).merges kind lvl va q.acc) with
    | some i =>
      let r := x.recAt i
      s.putXlat u (x.putRec i { r with waiters := min 65535 (r.waiters + 1), parked := r.parked ++ [q] })
    | none =>
      match (List.range 64).find? (fun i => !(x.recAt i).valid) with
      | none =>
        let s := s.count pg oXlatFqStall 1
        let x := s.xlatAt u
        s.putXlat u { x with stalled := x.stalled ++ [q] }
      | some i =>
        let (d, s) := s.detailOf q.who
        let x := s.xlatAt u
        let r : FaultRec :=
          { valid := true, lvl := lvl, acc := q.acc, kind := kind, va := va, waiters := 0, source := whoSource q.who,
            detail := d % 2 ^ 32, st := s.ns, entry := if kind = fNoncanon then 0 else entry, parked := [q] }
        let x := x.putRec i r
        let s := s.putXlat u x
        let s := s.count pg oXlatFaults 1
        let s := if (List.range 64).all (fun j => (x.recAt j).valid) then s.setEvt pg 2 else s
        if kind = fNonres ∧ bit (s.rg pg oXlatCtl) 0 = true then s.setEvt pg 0
        else
          let s := s.setEvt pg 1
          s.error pg (contained 0x0301 r.source (word va)
            (word (r.detail + i * 2 ^ 32 + kind * 2 ^ 40 + accCode q.acc * 2 ^ 44 + lvl * 2 ^ 48)))

/-- A request is parked in a record or stalled at a unit (R180, R182). -/
def XlatSt.holds (x : XlatSt) (w : Who) : Bool :=
  x.stalled.any (fun q => q.who = w) || x.recs.any (fun e => e.2.valid && e.2.parked.any (fun q => q.who = w))

/-- A request of this requester is parked at unit u. -/
def State.parkedAt (s : State) (u : Nat) (w : Who) : Bool := (s.xlatAt u).holds w

/-- Forget every parked and stalled request that satisfies a test: its requester ended it otherwise. -/
def State.unpark (s : State) (u : Nat) (p : XReq → Bool) : State :=
  let x := s.xlatAt u
  s.putXlat u { x with stalled := x.stalled.filter (fun q => !p q),
                       recs := x.recs.map (fun e => (e.1, { e.2 with parked := e.2.parked.filter (fun q => !p q) })) }

/-- Translate the request of an access and open its fault: its PA, poison (R190 to R192), or nothing because it now waits, for
a record or at a stack port (R171, R180). A service core does not wait for a record: its access ends as a poisoned one does,
its load reads poison and its store is discarded (R187). -/
def State.xlateF (s : State) (u : Nat) (q : XReq) : Option (Option Nat) × State :=
  match s.xlate u q with
  | (.pa a, s) => (some (some a), s)
  | (.poison, s) => (some none, s.count (pgXlat u) oXlatPoisonAcc 1)
  | (.wait, s) => (none, s)
  | (.fault k l e, s) => (if (whoSvc q.who).isSome then some none else none, s.xfault u q k l e)

/-- Where an access goes that is translated and whose stack port serves it now; none while it waits. -/
def State.xlateP (s : State) (u : Nat) (q : XReq) : Option (Option Nat) × State :=
  match s.xlateF u q with
  | (some (some a), s) => (if s.paServes u (whoSource q.who) a then some (some a) else none, s)
  | r => r

/-! ## Accesses by VA -/

/-- Read the bytes of a VA range that lies in one 32 B access (R140, R190). none: the request waits. -/
def State.readVa1 (s : State) (u : Nat) (q : XReq) (n : Nat) : Option (List Byte × Bool) × State :=
  match s.xlateP u q with
  | (none, s) => (none, s)
  | (some none, s) => (some (List.replicate n 0, true), s)
  | (some (some a), s) =>
    let ((bs, p), s) := s.readPa u (whoSource q.who) (a / 32 * 32)
    (some (sliceB bs (a % 32) n, p), s)

/-- Read a VA range access by access; k bounds the accesses. Bytes and whether any access was poisoned. -/
def State.readVaN (s : State) (u : Nat) (who : Who) (rdma : Bool) : Nat → Nat → Nat → Option (List Byte × List Bool) × State
  | 0, _, _ => (some ([], []), s)
  | k + 1, va, n =>
    if n = 0 then (some ([], []), s)
    else
      let m := min n (32 - va % 32)
      match s.readVa1 u ⟨word va, .read, rdma, who⟩ m with
      | (none, s) => (none, s)
      | (some (bs, p), s) =>
        match s.readVaN u who rdma k (va + m) (n - m) with
        | (none, s) => (none, s)
        | (some (cs, ps), s) => (some (bs ++ cs, p :: ps), s)

/-- Read n bytes at a VA: the bytes and the poison marks of the accesses, or none while the request waits. -/
def State.readVa (s : State) (u : Nat) (who : Who) (rdma : Bool) (va n : Nat) : Option (List Byte × List Bool) × State :=
  s.readVaN u who rdma (n / 32 + 2) va n

/-- Write bytes inside one access at a VA (R130, R191). false: the request waits. -/
def State.writeVa1 (s : State) (u : Nat) (q : XReq) (data : List Byte) (p : Bool) : Bool × State :=
  match s.xlateP u q with
  | (none, s) => (false, s)
  | (some none, s) => (true, s)
  | (some (some a), s) => (true, s.writePa u (whoSource q.who) a data p)

/-- Write a VA range access by access; k bounds the accesses. -/
def State.writeVaN (s : State) (u : Nat) (who : Who) (rdma : Bool) : Nat → Nat → List Byte → Bool → Bool × State
  | 0, _, _, _ => (true, s)
  | k + 1, va, data, p =>
    match data with
    | [] => (true, s)
    | _ =>
      let m := 32 - va % 32
      match s.writeVa1 u ⟨word va, .write, rdma, who⟩ (data.take m) p with
      | (false, s) => (false, s)
      | (true, s) => s.writeVaN u who rdma k (va + m) (data.drop m) p

/-- Write bytes at a VA with one poison mark. false while a part of it waits. -/
def State.writeVa (s : State) (u : Nat) (who : Who) (rdma : Bool) (va : Nat) (data : List Byte) (p : Bool) : Bool × State :=
  s.writeVaN u who rdma (data.length / 32 + 2) va data p

/-- An 8-byte atomic at a VA (R990): the old value and whether it was poisoned; none while it waits. -/
def State.rmwVa (s : State) (u : Nat) (who : Who) (rdma : Bool) (va : Nat) (f : Word → Word) :
    Option (Word × Bool) × State :=
  match s.xlateP u ⟨word va, .update, rdma, who⟩ with
  | (none, s) => (none, s)
  | (some none, s) => (some (0, true), s)
  | (some (some a), s) => let (r, s) := s.rmwPa u (whoSource who) a f; (some r, s)

/-! ## The stepwise translation rows (R171, R172, R175) -/

/-- A translation delivered to its requester. -/
def State.granting (s : State) (u : Nat) (q : XReq) (a : Nat) (p : Bool) : State :=
  let x := s.xlatAt u
  s.putXlat u { x with granted := x.granted.filter (fun g => g.1.who ≠ q.who) ++ [(q, a, p)] }

/-- Deliver a translation to its requester, or open its fault; one that waits stands at the unit. -/
def State.grant (s : State) (u : Nat) (q : XReq) (r : XRes) : State :=
  match r with
  | .fault k l e => s.xfault u q k l e
  | .pa a => s.granting u q a false
  | .poison => s.granting u q 0 true
  | .wait => let x := s.xlatAt u; s.putXlat u { x with stalled := x.stalled ++ [q] }

/-- Walks in progress as WALKS_ACT shows them (R198): a D compare is none. -/
def XlatSt.walksAct (x : XlatSt) : Nat := x.walks.countP (fun w => decide (w.dset = none))

/-- Walks a unit performs at most (R172). -/
def walkCap : Nat := 32

/-- Walk to the leaf of a VA from a table, without caches: level, entry and its PA. -/
def State.leafOf (s : State) (va : Nat) : Nat → Nat → Nat → Option (Nat × Word × Nat)
  | 0, _, _ => none
  | n + 1, lvl, tbl =>
    let epa := tbl + lvlIndex va lvl * 8
    match s.paAcc epa with
    | none => none
    | some (d, a) =>
      let e := wordAt (s.accData d a) (epa % 32)
      match pteKind e lvl with
      | .leaf => some (lvl, e, epa)
      | .pointer t => s.leafOf va n (lvl - 1) t
      | _ => none

/-- The leaf of a VA under XLAT.ROOT. -/
def State.leafAt (s : State) (va : Nat) : Option (Nat × Word × Nat) :=
  s.leafOf va 4 3 (s.rf (pgXlat 0) oXlatRoot 41 16 * 2 ^ 16)

/-- Two VAs lie in one page, of whatever size the tables give it; 64 KiB where they map none (assumption 105). -/
def State.samePage (s : State) (a b : Nat) : Bool :=
  decide (a / 2 ^ 16 = b / 2 ^ 16) || (match s.leafAt a with
    | some (l, _, _) => decide (lvlBase a l = lvlBase b l)
    | none => false)

/-- Start a walk for a request, or join the walk of its page; while 32 walks are in progress it waits at the unit (R172). -/
def State.walkBegin (s : State) (u : Nat) (q : XReq) : State :=
  let x := s.xlatAt u
  let va := q.va.toNat
  match findIdx (fun w => w.dset = none && w.reqs.any (fun r => s.samePage r.va.toNat va)) x.walks with
  | some i => s.putXlat u { x with walks := x.walks.modify i (fun w => { w with reqs := w.reqs ++ [q] }) }
  | none =>
    if walkCap ≤ x.walksAct then s.putXlat u { x with stalled := x.stalled ++ [q] }
    else
      let (l, tbl) := s.walkStart u va
      s.putXlat u { x with nextWalk := x.nextWalk + 1,
                           walks := x.walks ++ [⟨x.nextWalk, [q], l, tbl, none, false, 0⟩] }

/-- Serve a request from a leaf, one D compare apart (R175): a leaf whose D must be set starts the compare. -/
def State.serveLeaf (s : State) (u : Nat) (t : TlbEnt) (q : XReq) : State :=
  match leafCheck t q with
  | .fault k l e => (s.tlbDrop u q.va.toNat).xfault u q k l e
  | .poison => ((s.count (pgXlat u) oXlatPoisonAcc 1).tlbFill u q t).grant u q .poison
  | .wait => s
  | .pa a =>
    if s.needsD t q a then
      let x := s.xlatAt u
      s.putXlat u { x with nextWalk := x.nextWalk + 1, walks := x.walks ++ [⟨x.nextWalk, [q], t.lvl, 0, some t, false, 0⟩] }
    else (s.tlbFill u q t).grant u q (.pa a)

/-- Translate or start the walk of a request (R161, R171, R172, R993). -/
def State.translateReq (s : State) (u : Nat) (q : XReq) : State :=
  if 2 ^ 52 ≤ q.va.toNat then s.xfault u q fNoncanon 3 0
  else if !bit (s.rg (pgXlat 0) oXlatRoot) 0 then s.xfault u q fNotMapped 3 0
  else match s.tlbLook u q with
    | (some t, s) => s.serveLeaf u t q
    | (none, s) => s.walkBegin u q

/-- TRANSLATE (R171, R172): a request reaches its own unit, the region's or unit 12; at any other nothing arrives. -/
def execTranslate (u : Fin 13) (q : XReq) (s : State) : Out State := s.live <|
  if (whoUnit q.who).getD u.val = u.val then .next (s.translateReq u.val q) else .next s

/-- A walk of a unit ends. -/
def State.walkDrop (s : State) (u walk : Nat) : State :=
  let x := s.xlatAt u
  s.putXlat u { x with walks := x.walks.filter (fun v => v.id ≠ walk) }

/-- A walk of a unit goes on from a table. -/
def State.walkTo (s : State) (u walk lvl tbl : Nat) : State :=
  let x := s.xlatAt u
  s.putXlat u { x with walks := x.walks.map (fun v => if v.id = walk then { v with lvl := lvl, tbl := tbl, restart := false } else v) }

/-- WALK_READ_RETURN (R169): the entry of a walk's level returns; the walk goes on, ends at a leaf for every request it
serves, or faults them; nothing returns while the read waits at its stack port. A walk an invalidation or a root write met
delivers nothing: it starts again once the invalidation is complete (R179, R992), and faults its requests while translation
is disabled (R993). -/
def execWalkReadReturn (u : Fin 13) (walk : Nat) (s : State) : Out State := s.live <|
  match (s.xlatAt u.val).walks.find? (fun w => w.id = walk && w.dset = none) with
  | none => .next s
  | some w =>
    match w.reqs.head? with
    | none => .next (s.walkDrop u.val walk)
    | some q0 =>
      let va := q0.va.toNat
      if w.restart && decide (0 < w.after) then .next s
      else if !bit (s.rg (pgXlat 0) oXlatRoot) 0 then
        .next (w.reqs.foldl (fun s q => s.xfault u.val q fNotMapped 3 0) (s.walkDrop u.val walk))
      else if w.restart then
        let (l, tbl) := s.walkStart u.val va
        .next (s.walkTo u.val walk l tbl)
      else
        match s.walkStep u.val (whoSource q0.who) va w.lvl w.tbl with
        | (.wait, s) => .next s
        | (.next l t, s) => .next (s.walkTo u.val walk l t)
        | (.leaf t, s) => .next (w.reqs.foldl (fun s q => s.serveLeaf u.val t q) (s.walkDrop u.val walk))
        | (.fault k l e, s) => .next (w.reqs.foldl (fun s q => s.xfault u.val q k l e) (s.walkDrop u.val walk))

/-- D_BIT_COMPARE_DONE (R175): the compare set D and the request goes, or the entry had changed and the unit translates
again, or the access read poisoned and the request faults (R169, R990). A compare that an invalidation or a root write met
delivers nothing: its request is translated anew once the invalidation is complete (R179, R992). -/
def execDBitCompareDone (u : Fin 13) (walk : Nat) (s : State) : Out State := s.live <|
  match (s.xlatAt u.val).walks.find? (fun w => w.id = walk) with
  | none => .next s
  | some w =>
    match w.dset, w.reqs with
    | some t, q :: _ =>
      let va := q.va.toNat
      if w.restart then
        if 0 < w.after then .next s else .next (((s.walkDrop u.val walk).tlbDrop u.val va).translateReq u.val q)
      else if !s.paServes u.val (whoSource q.who) t.epa then .next s
      else
        let s := s.walkDrop u.val walk
        match s.setD u.val (whoSource q.who) t with
        | (.set, s) =>
          let t' := { t with entry := t.entry ||| bitW 8 }
          .next ((s.tlbFill u.val q t').grant u.val q (.pa (ptePa t.entry + va % 2 ^ lvlBits t.lvl)))
        | (.changed, s) => .next ((s.tlbDrop u.val va).translateReq u.val q)
        | (.bad, s) => .next ((s.tlbDrop u.val va).xfault u.val q fWalkUe t.lvl t.entry)
    | _, _ => .next s

/-! ## Root and invalidation (R162, R176 to R179, R992, R199) -/

/-- Every unit changed alike. -/
def State.allXlat (s : State) (f : XlatSt → XlatSt) : State :=
  (List.range 13).foldl (fun t u => t.putXlat u (f (t.xlatAt u))) s

/-- XLAT_ROOT_WRITE (R992): caches empty, walks start again under the written value. -/
def execXlatRootWrite (v : Word) (s : State) : Out State := s.live <|
  let s := s.allXlat (fun x => { x with tlb := [], micro := [], wc := [], walks := x.walks.map (fun w => { w with restart := true }) })
  let v := v &&& word (2 ^ 42 - 2 ^ 16 + 1)
  .next ((List.range 13).foldl (fun t u => t.setRg (pgXlat u) oXlatRoot v) s)

/-- Invalidations accepted and not complete. -/
def invCap : Nat := 8

/-- Two VA ranges, given as first address and size in bits, overlap. -/
def rangesMeet (a n b m : Nat) : Bool := decide (a < b + 2 ^ m) && decide (b < a + 2 ^ n)

/-- An invalidation covers a range (R177). -/
def InvEnt.covers (i : InvEnt) (va bits : Nat) : Bool := i.all || rangesMeet i.va (lvlBits i.size) va bits

/-- An invalidation meets a walk: the page of one of its requests, the range of the pointer it read last, or the leaf whose D
it sets (R177, R179). -/
def InvEnt.meets (i : InvEnt) (w : WalkSt) : Bool :=
  match w.dset with
  | some t => i.covers t.va (lvlBits t.lvl)
  | none => w.reqs.any (fun q => i.covers (lvlBase q.va.toNat 0) 16 ||
      (decide (w.lvl < 3) && i.covers (lvlBase q.va.toNat (w.lvl + 1)) (lvlBits (w.lvl + 1))))

/-- Remove the entries an invalidation matches and mark the walks it meets: they start again when it, the k-th in the queue,
is complete (R177, R179). -/
def XlatSt.invalidate (i : InvEnt) (k : Nat) (x : XlatSt) : XlatSt :=
  { x with tlb := x.tlb.filter (fun t => !i.covers t.va (lvlBits t.lvl)),
           micro := x.micro.filter (fun e => !i.covers e.2.va (lvlBits e.2.lvl)),
           wc := x.wc.filter (fun w => !i.covers w.va (lvlBits w.lvl)),
           walks := x.walks.map (fun w => if i.meets w then { w with restart := true, after := k } else w) }

/-- Set the two shared counters of invalidation on every page (R176). -/
def State.invCount (s : State) (off : Nat) : State := (List.range 13).foldl (fun t u => t.count (pgXlat u) off 1) s

/-- A flit of engine traffic waits in the parking space of its requester (R127). -/
def State.flitParked (s : State) (n : Nat) (f : PortCmd) : Bool :=
  (List.range 64).any (fun j => (s.pchAt (n * 64 + j)).parked.any (fun c => decide (c.f = f)))

/-- Engine traffic that has its PA and not its queue slot: it has not reached its stack, or is parked there (R126). -/
def State.slotless (s : State) (n : Nat) (f : PortCmd) : Bool :=
  s.parts.any (fun p => decide (p.stk = n) && decide (p.flit = f) && !p.sent) || s.flitParked n f

/-- The engine traffic an invalidation waits for: translated through an entry it removes, and without a slot (R177). -/
def State.invHold (s : State) (i : InvEnt) : List (Nat × PortCmd) :=
  (s.parts.filter (fun p => p.vas.any (fun va => i.covers (lvlBase va 0) 16) && s.slotless p.stk p.flit)).map (fun p => (p.stk, p.flit))

/-- An invalidation is accepted: it enters the queue, INV_ISSUED rises, and the matching entries go (R176, R177). -/
def State.invAccept (s : State) (all : Bool) (size va : Nat) : State :=
  let i : InvEnt := ⟨all, size, va, []⟩
  let i := { i with hold := s.invHold i }
  let s := s.setInvQ (s.invQ ++ [i])
  (s.allXlat (XlatSt.invalidate i s.invQ.length)).invCount oXlatInvIssued

/-- INV_CMD (R176, R178, R199): the invalidation enters the queue and removes the matching entries, or is discarded; a write
with the reserved SIZE while the queue is full breaks both rules. -/
def execInvCmd (u : Fin 13) (v : Word) (s : State) : Out State := s.live <|
  let size := fld v 55 54
  let all := bit v 56
  let bad := size = 3 ∧ all = false
  let full := invCap ≤ s.invQ.length
  if bad ∨ full then .next (s.setEvts (pgXlat u.val) ((if bad then [5] else []) ++ (if full then [3] else [])))
  else .next (s.invAccept all size (lvlBase (fld v 51 16 * 2 ^ 16) size))

/-- INV_DONE (R177): the oldest invalidation is complete once every request translated through an entry it removed holds its
slot; walks that waited for it may start again (R179). -/
def execInvDone (s : State) : Out State := s.live <|
  match s.invQ with
  | [] => .next s
  | i :: q =>
    if i.hold.any (fun h => s.slotless h.1 h.2) then .next s
    else
      let s := s.setInvQ q
      .next ((s.allXlat (fun x => { x with walks := x.walks.map (fun w => { w with after := w.after - 1 }) })).invCount oXlatInvDone)

/-! ## The paging service (R193 to R197) -/

/-- The running core that hosts a service (R926), the paging service by default of the loader on core 2. -/
def State.serviceCore (s : State) (b : Nat) : Option (Fin 8) :=
  (List.finRange 8).find? (fun c => decide ((s.coreAt c.val).st = .running) && (s.coreAt c.val).services.testBit b)

/-- Source of the paging service's accesses: the page of its core. -/
def State.pagerSrc (s : State) : Nat := pgSvc ((s.serviceCore 1).getD 2).val

/-- PA of backing entry of a TAG, if the table holds it (R194). -/
def State.backPa (s : State) (tag : Nat) : Option Nat :=
  if tag < s.rf (pgXlat 12) oXlatBackCount 31 0 then some (s.rf (pgXlat 12) oXlatBackBase 41 4 * 16 + 16 * tag) else none

/-- A backing entry (R194): where the page's copy lies, and whether it is valid. -/
structure BackEnt where
  raddr : Word
  rkey  : Nat
  qp    : Nat
  valid : Bool
  deriving DecidableEq, Repr

/-- Read the backing entry of a PA; none where its access reads poisoned. -/
def State.backRead (s : State) (pa : Nat) : Option BackEnt × State :=
  let ((bs, p), s) := s.readPa 12 s.pagerSrc (pa / 32 * 32)
  let b := sliceB bs (pa % 32) 16
  (if p then none else some ⟨wordAt b 8, leAt b 4 4, leAt b 2 2 % 2 ^ 14, bit (wordAt b 0) 0⟩, s)

/-- Write "copy valid" of a backing entry (R194). -/
def State.backMark (s : State) (pa : Nat) (v : Bool) : State :=
  (s.rmwPa 12 s.pagerSrc (pa / 8 * 8) (fun w => if v then w ||| bitW 0 else w &&& ~~~(bitW 0))).2

/-- A frame of the pool, aligned to the page (R195). -/
def State.inPool (s : State) (frame bits : Nat) : Bool :=
  let base := s.rf (pgXlat 12) oXlatPoolBase 41 16 * 2 ^ 16
  decide (base ≤ frame) && decide (frame + 2 ^ bits ≤ base + (s.rg (pgXlat 12) oXlatPoolSize).toNat) &&
    decide (frame % 2 ^ bits = 0)

/-- A frame is free: no resident copy lies in a frame that meets it (R196, R197). -/
def State.frameFree (s : State) (frame bits : Nat) : Bool := !s.pager.used.any (fun f => rangesMeet f.1 f.2 frame bits)

/-- A frame the service has given to a page, or takes back. -/
def State.setFrame (s : State) (frame bits : Nat) (given : Bool) : State :=
  let u := s.pager.used.filter (fun f => f.1 ≠ frame)
  s.setPager { s.pager with used := if given then u ++ [(frame, bits)] else u }

/-- Every access of a PA range is served now; n accesses. -/
def State.rangeServes (s : State) (pa n : Nat) : Bool := (List.range n).all (fun i => s.paServes 12 s.pagerSrc (pa + 32 * i))

/-- Write a page's bytes at a PA, 32 B at a time; n accesses. -/
def State.writePage (s : State) : Nat → Nat → List Byte → State
  | 0, _, _ => s
  | n + 1, pa, data => (s.writePa 12 s.pagerSrc pa (data.take 32) false).writePage n (pa + 32) (data.drop 32)

/-- Read a page's bytes at a PA, 32 B at a time; n accesses: the bytes and whether any was poisoned. -/
def State.readPage (s : State) : Nat → Nat → (List Byte × Bool) × State
  | 0, _ => (([], false), s)
  | n + 1, pa =>
    let ((bs, p), s) := s.readPa 12 s.pagerSrc pa
    let ((rest, q), s) := s.readPage n (pa + 32)
    ((bs ++ rest, p || q), s)

/-- Slots of unit u whose record lies in a page (R196). -/
def State.recsOf (s : State) (u va bits : Nat) : List Nat :=
  let x := s.xlatAt u
  (List.range 64).filter (fun i => (x.recAt i).valid && decide ((x.recAt i).va / 2 ^ bits = va / 2 ^ bits))

/-- The exchange of a leaf in memory by the paging service (R196, R197). -/
def State.putLeaf (s : State) (epa : Nat) (e : Word) : State :=
  (s.rmwPa 12 s.pagerSrc epa (fun _ => e)).2

end Sys2Proof.Machine
end

