-- ==== Sys2Proof/Machine/QpOps.lean ====
section
/-! DEFINITION. Queue pairs (R736 to R768): connection, loss of a connection, signal credits and pending-signal entries,
doorbells, acknowledgements, and the retransmission of a requester. -/

namespace Sys2Proof.Machine

/-- A queue pair is connected (R660, R739). -/
def QpSt.up (v : QpSt) : Bool := decide (v.st = .rtr) || decide (v.st = .rts)

/-- Send credits of a queue pair: SEND_CREDIT + 1 (R754). -/
def QpSt.credits (v : QpSt) : Nat := fld (wordAt v.ctx 0x10) 31 24 + 1

/-- SIG_EN of a queue pair's context (R738). -/
def QpSt.sigEn (v : QpSt) : Bool := bit (wordAt v.ctx 0) 3

/-- The management queue pair of a port (R736). -/
def mgmtQp (q : Nat) : Bool := decide (q % 4096 = 2)

/-- A number is behind or at another, modulo 2^n: the difference is below half the range (R662). -/
def reached (n a b : Nat) : Bool := decide ((a % 2 ^ n + 2 ^ n - b % 2 ^ n) % 2 ^ n < 2 ^ (n - 1))

/-! ## Links as the engines see them -/

/-- A link (R716). -/
def State.linkAt (s : State) (l : Nat) : LinkSt := smapGet (fun _ => LinkSt.reset) s.eth.links l
/-- A link replaced. -/
def State.putLink (s : State) (l : Nat) (v : LinkSt) : State :=
  s.setEth { s.eth with links := smapSet (fun _ => LinkSt.reset) s.eth.links l v }

/-- A register of a link (R770). -/
def State.linkRg (s : State) (l off : Nat) : Word := smapGet (fun o => regResetAt (pgEth 0) o) (s.linkAt l).regs off
/-- A register of a link replaced. -/
def State.setLinkRg (s : State) (l off : Nat) (v : Word) : State :=
  let k := s.linkAt l
  s.putLink l { k with regs := smapSet (fun o => regResetAt (pgEth 0) o) k.regs off v }

/-- A count of a link rises by n, and with it its counter source on the port's page (R770, R930). -/
def State.linkCount (s : State) (l off n : Nat) : State :=
  (s.setLinkRg l off (s.linkRg l off + word n)).cntSrc (pgEth (l / 4)) (0x0200 + (off - 0x200) / 8) n

/-- Frames arrive on a link that is UP (R770); payload bytes as far as a command shows them (assumption 60). -/
def State.heard (s : State) (l n bytes : Nat) : State :=
  if (s.linkAt l).st = .up then (s.linkCount l oEthRxFrames n).linkCount l oEthRxBytes bytes else s

/-- Links of a port in its MODE (R715, R716); the reserved code has none. -/
def State.portLinks (s : State) (p : Nat) : Nat :=
  match s.rf (pgEth p) oEthCfg 1 0 with
  | 0 => 1
  | 1 => 2
  | 2 => 4
  | _ => 0

/-- Line rate of a port's links in units of 10 MB/s (R715, R765). -/
def State.lineRate (s : State) (p : Nat) : Nat :=
  match s.rf (pgEth p) oEthCfg 1 0 with
  | 0 => 10000
  | 1 => 5000
  | 2 => 2500
  | _ => 0

/-! ## Signal credits and pending signals (R659 to R666, R757 to R760) -/

/-- Queue pairs of an engine that hold some state. -/
def State.engQps (s : State) (e : Nat) : List (Nat × QpSt) := s.qps.filter (fun x => x.1 / 4096 = e)

/-- Entries of an engine that are neither occupied nor lent nor waiting for the return of their credit (R664). -/
def State.psigFree (s : State) (e : Nat) : Nat :=
  psigCap - (s.eth.psig.countP (fun x => x.eng = e) +
    ((s.engQps e).map (fun x => x.2.sigLent + x.2.sigOwed)).foldl (· + ·) 0)

/-- A covered entry is met (R662). -/
def State.covMet (s : State) (c : Nat × Nat) : Bool := reached 32 (s.qpAt c.1).landed c.2

/-- A pending signal may be applied: every covered entry is met and every WRITE before it has landed (R663). -/
def State.sigMet (s : State) (x : PSig) : Bool := x.cov.all s.covMet && reached 32 (s.qpAt x.qp).landed x.bar

/-- Free a pending-signal entry: its credit returns to the peer with a later acknowledgement (R664, R759). -/
def State.psigDrop (s : State) (x : PSig) : State :=
  let s := s.setEth { s.eth with psig := s.eth.psig.filter (fun y => y.id ≠ x.id) }
  let v := s.qpAt x.qp
  if v.up && v.sigEn then s.putQp x.qp { v with sigOwed := v.sigOwed + 1 } else s

/-- A queue pair has left the connected state: entries that still wait on it are freed without being applied, each with a
contained error that names it (R666). -/
def State.psigFail (s : State) (q : Nat) : State :=
  let hit := s.eth.psig.filter (fun x => x.cov.any (fun c => decide (c.1 = q) && !s.covMet c) ||
    (decide (x.qp = q) && !reached 32 (s.qpAt q).landed x.bar))
  hit.foldl (fun t x => (t.psigDrop x).error (pgRdma x.eng) (contained 0x0401 (pgRdma x.eng) (word q) 0)) s

/-! ## The states of a queue pair (R739) -/

/-- A queue pair leaves the connected state: what it had not sent or not seen acknowledged is flushed without a completion,
its credits leave their books, requests it held are gone, write-backs of the paging service are to be sent again (R666, R687,
R739). -/
def State.qpLeave (s : State) (q : Nat) (st : QpState) : State :=
  let v := s.qpAt q
  let s := s.putQp q { v with st := st, unacked := [], acked := [], rdHeld := [], txWait := [], sigTx := 0, sigOwed := 0,
                              sigLent := 0, connected := false }
  let s := s.setEth { s.eth with rxHeld := s.eth.rxHeld.filter (fun m => m.qp ≠ q) }
  let s := s.unpark 12 (fun x => match x.who with | .rdma k _ => decide (k = q) | _ => false)
  let s := if (v.unacked ++ v.txWait).any (·.pages) then s.setTel { s.tel with flight := false } else s
  let s := s.setPager { s.pager with outs := s.pager.outs.map (fun o =>
    { o with wb := o.wb.filter (fun w => decide (w.1 ≠ q)) }) }
  s.psigFail q

/-- A connected queue pair enters ERROR (R739): counted, recorded under its number. -/
def State.qpErr (s : State) (q : Nat) : State :=
  if (s.qpAt q).up then
    let pg := pgRdma (q / 4096)
    let s := ((s.qpLeave q .error).count pg oRdmaQpErr 1).setEvt pg 0
    s.error pg (contained 0x0401 pg (word q) 0)
  else s

/-- Every connected queue pair that satisfies a test enters ERROR. -/
def State.qpErrAll (s : State) (p : Nat → Bool) : State :=
  (s.qps.filter (fun x => p x.1)).foldl (fun t x => t.qpErr x.1) s

/-- INIT: the context is read; the counts of the queues start (R739, R749, R811). -/
def State.qpInit (s : State) (q : Nat) (ctx : List Byte) : State :=
  s.putQp q { QpSt.reset with st := .init, ctx := ctx, owner := s.host.bound,
                              sqPsn := fld (wordAt ctx 8) 55 32, rqPsn := fld (wordAt ctx 0x10) 23 0 }

/-- RTR: the queue pair receives, WSN numbering starts, SIG_GRANT credits are lent as far as entries are free (R660, R664,
R739). The credits the peer grants are known to the peer's context alone: a free value (R760, assumption 40). -/
def State.qpRtr (s : State) (q : Nat) : State :=
  let v := s.qpAt q
  let s := s.putQp q { v with st := .rtr, landed := 0, wsnTx := 0 }
  if v.sigEn then
    let lent := min (fld (wordAt v.ctx 0x10) 41 32) (s.psigFree (q / 4096))
    let (x, s) := s.draw
    s.putQp q { s.qpAt q with sigLent := lent, sigTx := x % 1024 }
  else s

/-- RTS: the queue pair sends, at the line rate of its link (R739, R765). -/
def State.qpRts (s : State) (q : Nat) : State :=
  s.putQp q { s.qpAt q with st := .rts, rate := s.lineRate (q / 4096), cnps := 0, quiet := 0 }

/-! ## Doorbells (R749, R750, R811) -/

/-- A counter increment of a makes WQEs and receive entries available on the queue pairs whose doorbell it is; more
available WQEs than the send queue holds put a connected queue pair into ERROR (R749, R750, R811). -/
def State.qpDoorbell (s : State) (op amount : Nat) : State :=
  s.qps.foldl (fun t x =>
    let v := t.qpAt x.1
    if v.up || decide (v.st = .init) then
      let t := if fld (wordAt v.ctx 0x40) 15 0 = op ∧ fld (wordAt v.ctx 0x38) 55 52 ≠ 0 then
          t.putQp x.1 { v with rqPosted := v.rqPosted + amount } else t
      let v := t.qpAt x.1
      if fld (wordAt v.ctx 0x30) 15 0 = op ∧ fld (wordAt v.ctx 0x28) 55 52 ≠ 0 then
        let v := { v with avail := v.avail + amount }
        let t := t.putQp x.1 v
        let pg := pgRdma (x.1 / 4096)
        if v.up && decide (2 ^ fld (wordAt v.ctx 0x28) 55 52 < v.avail - v.done) then
          ((t.count pg oRdmaSqOvf 1).setEvt pg 3).qpErr x.1
        else t
      else t
    else t) s

/-! ## Acknowledgements (R748, R752, R759) -/

/-- Send an acknowledgement of a PSN. With SIG_EN its credit field returns signal credits, 0 to 30 (R759); without, the
field says that no credits are counted (IBTA, assumption 41). -/
def State.sendAck (s : State) (q psn : Nat) : State :=
  let v := s.qpAt q
  if v.sigEn then
    let k := min 30 v.sigOwed
    let s := s.putQp q { v with lastAck := psn, sigOwed := v.sigOwed - k, sigLent := v.sigLent + k }
    s.sendQp q 1 (.ack q psn k)
  else (s.putQp q { v with lastAck := psn }).sendQp q 1 (.ack q psn 31)

/-- Send a NAK (R734, R742, R748). -/
def State.sendNak (s : State) (q psn : Nat) (kind : NakKind) : State := (s.count (pgRdma (q / 4096)) oRdmaNakTx 1).sendQp q 1 (.nak q psn kind)

/-- A message that asks for a response: READ or atomic. -/
def TxOp.asks : TxOp → Bool
  | .read _ _ _ => true
  | .fetchAdd _ _ _ => true
  | .cmpSwap _ _ _ _ => true
  | _ => false

/-- Messages acknowledged: WQEs wait for their completion, a telemetry record is on its way no more (R752, R940). -/
def State.acked (s : State) (q : Nat) (ms : List TxMsg) : State :=
  let v := s.qpAt q
  let s := s.putQp q { v with acked := v.acked ++ ms.filter (·.wqe), retries := if ms.isEmpty then v.retries else 0,
                              rnr := if ms.isEmpty then v.rnr else 0 }
  if ms.any (·.pages) then s.setTel { s.tel with flight := false } else s

/-- Take the messages an acknowledgement of a PSN covers off the front, up to the first that waits for a response. -/
def ackSplit (psn : Nat) : List TxMsg → List TxMsg × List TxMsg
  | [] => ([], [])
  | m :: ms =>
    if !m.op.asks && reached 24 psn (m.psn + m.npkt - 1) then
      let (a, b) := ackSplit psn ms
      (m :: a, b)
    else ([], m :: ms)

/-- Every message up to a PSN is acknowledged; waiting messages may go (R752, R754). -/
def State.ackTo (s : State) (q psn : Nat) : State :=
  let v := s.qpAt q
  let (a, b) := ackSplit psn v.unacked
  let s := (s.putQp q { v with unacked := b }).acked q a
  s.txDrain q (v.txWait.length + 1)

/-- Send every unacknowledged message again from a PSN on (R748). -/
def State.resend (s : State) (q : Nat) : State :=
  let v := s.qpAt q
  let s := s.count (pgRdma (q / 4096)) oRdmaRetx ((v.unacked.map (·.npkt)).foldl (· + ·) 0)
  if s.qpLinkUp q then v.unacked.foldl (fun t m => t.sendQp q m.frames (.msg q m.psn m.op)) s else s

/-- One more retry: the queue pair enters ERROR when RETRY_CNT is exhausted, and resends otherwise (R739, R748). -/
def State.retry (s : State) (q : Nat) : State :=
  let v := s.qpAt q
  if fld (wordAt v.ctx 0) 39 37 ≤ v.retries then s.qpErr q
  else (s.putQp q { v with retries := v.retries + 1 }).resend q

/-- One more retry after an RNR NAK; RNR_RETRY 7 never ends (IBTA, R738). -/
def State.rnrRetry (s : State) (q : Nat) : State :=
  let v := s.qpAt q
  let n := fld (wordAt v.ctx 0) 42 40
  if n ≠ 7 ∧ n ≤ v.rnr then s.qpErr q
  else (s.putQp q { v with rnr := v.rnr + 1 }).resend q

end Sys2Proof.Machine
end

