-- ==== Sys2Proof/Machine/Sync.lean ====
section
/-! DEFINITION. Counters and waits (R617 to R637): increments on their way and applied, registration of waits, bases,
software access. What a release or a timeout does to its waiter stands in Waits. -/

namespace Sys2Proof.Machine

/-- Counter bank. -/
def State.syncAt (s : State) (r : Nat) : SyncSt := smapGet (fun _ => SyncSt.reset) s.sync r
/-- Counter bank replaced. -/
def State.putSync (s : State) (r : Nat) (v : SyncSt) : State := s.setSync (smapSet (fun _ => SyncSt.reset) s.sync r v)
/-- Dispatcher. -/
def State.dispAt (s : State) (r : Nat) : DispSt := smapGet (fun _ => DispSt.reset) s.disp r
/-- Dispatcher replaced. -/
def State.putDisp (s : State) (r : Nat) (v : DispSt) : State := s.setDisp (smapSet (fun _ => DispSt.reset) s.disp r v)
/-- Comet. -/
def State.cometAt (s : State) (r : Nat) : CometSt := smapGet (fun _ => CometSt.reset) s.comet r
/-- Comet replaced. -/
def State.putComet (s : State) (r : Nat) (v : CometSt) : State :=
  s.setComet (smapSet (fun _ => CometSt.reset) s.comet r v)
/-- Task window entry. -/
def State.taskAt (s : State) (r e : Nat) : TaskSt := smapGet (fun _ => TaskSt.reset) (s.dispAt r).window e
/-- Task window entry replaced. -/
def State.putTask (s : State) (r e : Nat) (t : TaskSt) : State :=
  let d := s.dispAt r
  s.putDisp r { d with window := smapSet (fun _ => TaskSt.reset) d.window e t }
/-- Transfer slot. -/
def State.xferAt (s : State) (r i : Nat) : XferSt := smapGet (fun _ => XferSt.reset) (s.cometAt r).slots i
/-- Transfer slot replaced. -/
def State.putXfer (s : State) (r i : Nat) (x : XferSt) : State :=
  let c := s.cometAt r
  s.putComet r { c with slots := smapSet (fun _ => XferSt.reset) c.slots i x }

/-- Embedding engine. -/
def State.embAt (s : State) (r : Nat) : EmbSt := smapGet (fun _ => EmbSt.reset) s.emb r
/-- Embedding engine replaced. -/
def State.putEmb (s : State) (r : Nat) (v : EmbSt) : State := s.setEmb (smapSet (fun _ => EmbSt.reset) s.emb r v)
/-- Migration of an engine. -/
def State.migAt (s : State) (r : Nat) : MigSt := smapGet (fun _ => MigSt.reset) s.mig r
/-- Migration of an engine replaced. -/
def State.putMig (s : State) (r : Nat) (v : MigSt) : State := s.setMig (smapSet (fun _ => MigSt.reset) s.mig r v)
/-- Mantis. -/
def State.matAt (s : State) (k : Nat) : MatSt := smapGet (fun _ => MatSt.reset) s.mat k
/-- Mantis replaced. -/
def State.putMat (s : State) (k : Nat) (v : MatSt) : State := s.setMat (smapSet (fun _ => MatSt.reset) s.mat k v)
/-- GMX block. -/
def State.gmxAt (s : State) (k : Nat) : UnitSt := smapGet (fun _ => UnitSt.reset) s.gmx k
/-- GMX block replaced. -/
def State.putGmx (s : State) (k : Nat) (v : UnitSt) : State := s.setGmx (smapSet (fun _ => UnitSt.reset) s.gmx k v)
/-- Firefly. -/
def State.vecAt (s : State) (k : Nat) : UnitSt := smapGet (fun _ => UnitSt.reset) s.vec k
/-- Firefly replaced. -/
def State.putVec (s : State) (k : Nat) (v : UnitSt) : State := s.setVec (smapSet (fun _ => UnitSt.reset) s.vec k v)

/-! ## Counters (R617 to R626) -/

/-- Greatest counter value (R619). -/
def ctrMax : Nat := 2 ^ 64 - 1

/-- Value of a counter. -/
def State.ctrAt (s : State) (r c : Nat) : Nat := smapGet (fun _ => 0) (s.syncAt r).ctr c
/-- Base of a counter (R625). -/
def State.baseAt (s : State) (r c : Nat) : Nat := smapGet (fun _ => 0) (s.syncAt r).base c
/-- Counter replaced. -/
def State.putCtr (s : State) (r c v : Nat) : State :=
  let b := s.syncAt r
  s.putSync r { b with ctr := smapSet (fun _ => 0) b.ctr c v }

/-- Region and number of a counter operand (R620). -/
def ctrOp (op : Nat) : Nat × Nat := (bitsOf op 15 12, bitsOf op 11 0)

/-- Issue an increment towards a bank (R621, R623): it is on its way until COUNTER_INCREMENT applies it. An amount of 0
does nothing. -/
def State.issueInc (s : State) (r c amount : Nat) : State :=
  if amount = 0 ∨ 11 < r then s
  else
    let b := s.syncAt r
    s.putSync r { b with incQ := b.incQ ++ [⟨c, amount, none⟩] }

/-- Mark the waits on a counter that its new value makes due (R631). -/
def SyncSt.markDue (b : SyncSt) (c v now : Nat) : SyncSt :=
  { b with waits := b.waits.map (fun w => if w.ctr = c ∧ w.expect ≤ v ∧ w.due = none then { w with due := some now } else w) }

/-- Apply a summed amount to a counter with n increments behind it (R619, R622, R631); the engines see the increment of a
doorbell counter (R749). -/
def State.applyInc (s : State) (r c amount n : Nat) : State :=
  let pg := pgSync r
  let s := s.count pg oSyncIncs n
  let v := s.ctrAt r c + amount
  let s := if ctrMax < v then
      let s := s.count pg oSyncCtrOvf 1
      let s := s.setEvt pg 2
      s.error pg (contained 0x0303 pg (word (r * 2 ^ 12 + c)) (word (min amount ctrMax)))
    else s
  let s := s.putCtr r c (min v ctrMax)
  let s := s.putSync r ((s.syncAt r).markDue c (min v ctrMax) s.time.st)
  s.qpDoorbell (r * 4096 + c) amount

/-- COUNTER_INCREMENT (R622): the increments on their way to one counter arrive, are summed and applied. -/
def execCounterIncrement (r : Region) (ctr : Fin 4096) (s : State) : Out State := s.live <|
  let b := s.syncAt r.val
  let (mine, rest) := b.incQ.partition (fun i => i.ctr = ctr.val)
  if mine.isEmpty then .next s
  else
    let s := s.putSync r.val { b with incQ := rest }
    .next (s.applyInc r.val ctr.val ((mine.map (·.amount)).foldl (· + ·) 0) mine.length)

/-! ## Waits (R627 to R630) -/

/-- Timeout of a wait in µs: 0 selects DEF_TIMEOUT of the counter's region, where a written 0 acts as 1 (R628, R672). -/
def State.waitTimeoutUs (s : State) (r t : Nat) : Nat :=
  if t = 0 then max 1 (s.rf (pgSync r) oSyncDefTimeout 31 0) else t

/-- Count a cycle in which a wait is held back, once per ST (R629). -/
def State.waitFull (s : State) (r : Nat) : State :=
  let s := s.setEvt (pgSync r) 1
  let b := s.syncAt r
  if b.fullAt = some s.time.st then s
  else (s.putSync r { b with fullAt := some s.time.st }).count (pgSync r) oSyncWaitFullCyc 1

/-- Put a wait into the table, keeping the high-water mark (R627, R672). -/
def State.waitEnter (s : State) (r : Nat) (w : WaitEnt) : State :=
  let b := s.syncAt r
  s.putSync r { b with waits := b.waits ++ [w], hwm := max b.hwm (b.waits.length + 1) }

/-- Offer a wait (R628 to R630): true when the counter already meets it. -/
def State.waitOffer (s : State) (r : Nat) (w : Waiter) (c expect timeoutUs : Nat) : Bool × State :=
  let b := s.syncAt r
  let e : WaitEnt :=
    { waiter := w, ctr := c, expect := expect, dead := s.ns + s.waitTimeoutUs r timeoutUs * 1000, reg := s.ns,
      seq := b.seq, due := none }
  let s := s.putSync r { b with seq := b.seq + 1 }
  if waitCap ≤ b.waits.length then
    let b := s.syncAt r
    (false, (s.putSync r { b with held := b.held ++ [e] }).waitFull r)
  else if expect ≤ s.ctrAt r c then (true, s.count (pgSync r) oSyncReleases 1)
  else (false, s.waitEnter r e)

/-- Remove every wait of a waiter from a bank, without timeout (R647). -/
def State.waitDrop (s : State) (r : Nat) (p : Waiter → Bool) : State :=
  let b := s.syncAt r
  s.putSync r { b with waits := b.waits.filter (fun w => !p w.waiter), held := b.held.filter (fun w => !p w.waiter) }

/-- Remove the waits of a waiter from every bank. -/
def State.waitDropAll (s : State) (p : Waiter → Bool) : State :=
  (List.range 12).foldl (fun t r => t.waitDrop r p) s

/-! ## Software access (R624, R665) -/

/-- An admitted request owns a counter (R625). -/
def State.ctrOwned (s : State) (r c : Nat) : Bool :=
  s.slots.any (fun e => (decide (e.2.st = .running) || decide (e.2.st = .ending)) &&
    e.2.ents.any (fun n => decide (n.region = r) && decide (n.ctrFirst ≤ c) && decide (c < n.ctrFirst + n.ctrCount)))

/-- CTR_SET_WRITE (R624): refused while a wait is registered on the counter or an admitted request owns it. -/
def execCtrSetWrite (r : Region) (v : Word) (s : State) : Out State := s.live <|
  let r := r.val
  let c := s.rf (pgSync r) oSyncCtrSel 11 0
  let b := s.syncAt r
  if (b.waits ++ b.held).any (fun w => w.ctr = c) || s.ctrOwned r c then
    .next ((s.count (pgSync r) oSyncSetRefused 1).setEvt (pgSync r) 3)
  else .next (s.putCtr r c v.toNat)

/-- CTR_INC_WRITE (R665): the increment leaves for the bank; the queue pair's earlier WRITEs have landed when the
command takes effect, since WRITEs of the model land in the order in which they arrive. -/
def execCtrIncWrite (r : Region) (v : Word) (s : State) : Out State := s.live <|
  .next (s.issueInc r.val (fld v 11 0) (fld v 63 32))

end Sys2Proof.Machine
end

