-- ==== Sys2Proof/Machine/WalkWord.lean ====
section
/-! DEFINITION. Words of the walk-program instruction set (R373 to R379): decoding, encoding, and the static checks of
an instruction. -/

namespace Sys2Proof.Machine

/-- The format-specific bits of an instruction word (R374). -/
inductive WBody where
  | r (rd ra rb rc re rf rg : BitVec 5) (sub : BitVec 16)
  | i (rd ra : BitVec 5) (sub9 : BitVec 9) (imm : BitVec 32)
  | b (resv : BitVec 41) (target : BitVec 10)
  deriving DecidableEq, Repr

/-- An instruction word by its fields (R373). -/
structure WInstr where
  mv   : BitVec 1
  opc  : BitVec 7
  ge   : BitVec 1
  gn   : BitVec 1
  gp   : BitVec 3
  body : WBody
  deriving DecidableEq, Repr

/-- The three formats. -/
inductive WFmt where
  | r
  | i
  | b
  deriving DecidableEq, Repr

/-- Opcodes of format I (R379). -/
def wOpcI : List Nat :=
  [0x10, 0x11, 0x12, 0x13, 0x14, 0x15, 0x16, 0x17, 0x18, 0x19, 0x1B, 0x1D, 0x20, 0x21, 0x28, 0x29, 0x2A, 0x2B, 0x40, 0x52]

/-- Opcodes of format R (R379). -/
def wOpcR : List Nat :=
  [0x00, 0x01, 0x02, 0x03, 0x04, 0x05, 0x06, 0x07, 0x08, 0x09, 0x0A, 0x0B, 0x0C, 0x0D, 0x1A, 0x1C, 0x2C, 0x2D, 0x2E,
   0x30, 0x31, 0x32, 0x38, 0x39, 0x3A, 0x3B, 0x41, 0x48, 0x51]

/-- An opcode of the table (R379). -/
def wDefined (o : Nat) : Bool := wOpcI.contains o || wOpcR.contains o || o == 0x50

/-- The format of an opcode; an opcode outside the table is read in format R. -/
def wFmt (o : BitVec 7) : WFmt := if wOpcI.contains o.toNat then .i else if o.toNat = 0x50 then .b else .r

/-- Decode a word (R373, R374). -/
def wDecode (w : BitVec 64) : WInstr :=
  let o := w.extractLsb' 56 7
  { mv := w.extractLsb' 63 1, opc := o, ge := w.extractLsb' 55 1, gn := w.extractLsb' 54 1, gp := w.extractLsb' 51 3,
    body := match wFmt o with
      | .r => .r (w.extractLsb' 46 5) (w.extractLsb' 41 5) (w.extractLsb' 36 5) (w.extractLsb' 31 5)
          (w.extractLsb' 26 5) (w.extractLsb' 21 5) (w.extractLsb' 16 5) (w.extractLsb' 0 16)
      | .i => .i (w.extractLsb' 46 5) (w.extractLsb' 41 5) (w.extractLsb' 32 9) (w.extractLsb' 0 32)
      | .b => .b (w.extractLsb' 10 41) (w.extractLsb' 0 10) }

/-- The format-specific bits as one number of 51 bits (R374). -/
def WBody.bits : WBody → BitVec 51
  | .r rd ra rb rc re rf rg sub => rd ++ ra ++ rb ++ rc ++ re ++ rf ++ rg ++ sub
  | .i rd ra sub9 imm => rd ++ ra ++ sub9 ++ imm
  | .b resv target => resv ++ target

/-- The format of a body. -/
def WBody.fmt : WBody → WFmt
  | .r _ _ _ _ _ _ _ _ => .r
  | .i _ _ _ _ => .i
  | .b _ _ => .b

/-- Encode an instruction (R373, R374). -/
def wEncode (i : WInstr) : BitVec 64 := i.mv ++ i.opc ++ i.ge ++ i.gn ++ i.gp ++ i.body.bits

/-- An instruction whose body has its opcode's format. -/
def WInstr.wf (i : WInstr) : Bool := decide (i.body.fmt = wFmt i.opc)

/-! ## Fields by name -/

/-- Register D. -/
def wD (w : Word) : Nat := fld w 50 46
/-- Register A. -/
def wA (w : Word) : Nat := fld w 45 41
/-- Register B of format R. -/
def wB (w : Word) : Nat := fld w 40 36
/-- Register C. -/
def wC (w : Word) : Nat := fld w 35 31
/-- Register E. -/
def wE (w : Word) : Nat := fld w 30 26
/-- Register F. -/
def wF (w : Word) : Nat := fld w 25 21
/-- Register G. -/
def wG (w : Word) : Nat := fld w 20 16
/-- SUB of format R. -/
def wSub (w : Word) : Nat := fld w 15 0
/-- SUB9 of format I. -/
def wSub9 (w : Word) : Nat := fld w 40 32
/-- IMM of format I. -/
def wImm (w : Word) : Nat := fld w 31 0
/-- IMM sign-extended to 64 bits. -/
def wSext (w : Word) : Word := (w.extractLsb' 0 32).signExtend 64
/-- TARGET of format B. -/
def wTarget (w : Word) : Nat := fld w 9 0
/-- Register B of LEA and IDX, in SUB9[8:4]. -/
def wB9 (w : Word) : Nat := fld w 40 36
/-- Opcode. -/
def wOpc (w : Word) : Nat := fld w 62 56
/-- May-vary mark (R378). -/
def wMv (w : Word) : Bool := bit w 63

/-! ## Static checks (R375 to R385, R393, R397, R400) -/

/-- A field of bits [hi:lo] as a mask. -/
def wMaskOf (hi lo : Nat) : Nat := 2 ^ (hi + 1) - 2 ^ lo
/-- Mask of D. -/
def mD : Nat := wMaskOf 50 46
/-- Mask of A. -/
def mA : Nat := wMaskOf 45 41
/-- Mask of B. -/
def mB : Nat := wMaskOf 40 36
/-- Mask of C. -/
def mC : Nat := wMaskOf 35 31
/-- Mask of E. -/
def mE : Nat := wMaskOf 30 26
/-- Mask of F. -/
def mF : Nat := wMaskOf 25 21
/-- Mask of G. -/
def mG : Nat := wMaskOf 20 16
/-- Mask of the low n bits of SUB. -/
def mSub (n : Nat) : Nat := 2 ^ n - 1
/-- Mask of IMM. -/
def mImm : Nat := 2 ^ 32 - 1
/-- Mask of bits [hi:lo] of SUB9. -/
def mSub9 (hi lo : Nat) : Nat := wMaskOf (32 + hi) (32 + lo)

/-- Bits of [50:0] an opcode uses: every other one must be 0 (R375, R379). The shift immediates use IMM[5:0]; the bits
above are taken as part of the used field IMM. Predicate fields use three bits. -/
def wUsed (o : Nat) : Nat :=
  if 0x01 ≤ o ∧ o ≤ 0x0C then mD + mA + mB
  else if o = 0x0D then mD + mA + mB + mSub 3
  else if (0x10 ≤ o ∧ o ≤ 0x16) ∨ o = 0x19 then mD + mA + mImm
  else if o = 0x17 ∨ o = 0x18 then mD + mImm
  else if o = 0x1A then wMaskOf 48 46 + mA + mB + mSub 3
  else if o = 0x1B then wMaskOf 48 46 + mA + mSub9 2 0 + mImm
  else if o = 0x1C then wMaskOf 48 46 + wMaskOf 43 41 + wMaskOf 38 36 + mSub 2
  else if o = 0x1D then mD + mSub9 3 0
  else if o = 0x20 then mD + mA + mSub9 8 0 + mImm
  else if o = 0x21 then mD + mA + mSub9 8 4 + mImm
  else if o = 0x28 ∨ o = 0x2A then mD + mA + mSub9 2 0 + mImm
  else if o = 0x29 ∨ o = 0x2B then mD + mA + mSub9 1 0 + mImm
  else if o = 0x2C ∨ o = 0x2D then mA + mB + mSub 6
  else if o = 0x30 then mD + mA + mB
  else if o = 0x31 then mD + mA + mB + mC + mE + mF + mG + mSub 9
  else if o = 0x32 then mA + mB
  else if o = 0x38 then mD + mA + mB + mC + mE + mF + mG + mSub 16
  else if o = 0x39 then mD + mA + mB + mE + mF + mG + mSub 15
  else if o = 0x3A then mA + mB + mC
  else if o = 0x3B then mA
  else if o = 0x40 then mA + mImm
  else if o = 0x41 then mA + mB + mSub 16
  else if o = 0x48 then mD + mA + mB + mC
  else if o = 0x50 then mSub 10
  else if o = 0x52 then mSub 7
  else 0

/-- Selector checks (R381, R382, R393, R397, R400). -/
def wSelOk (w : Word) : Bool :=
  let o := wOpc w
  let sub := wSub w
  if o = 0x1A then decide (sub % 8 ≤ 5)
  else if o = 0x1B then decide (wSub9 w % 8 ≤ 5)
  else if o = 0x1D then decide (wSub9 w ≤ 5)
  else if o = 0x31 then decide (bitsOf sub 7 6 ≠ 3) && (bit w 8 || decide (wG w = 0))
  else if o = 0x38 then decide (bitsOf sub 11 10 ≠ 0) && decide (bitsOf sub 13 12 ≠ 3) &&
    (decide (bitsOf sub 11 10 = 3) || decide (wC w = 0))
  else if o = 0x39 then decide (bitsOf sub 11 10 ≠ 0) && decide (bitsOf sub 13 12 ≠ 3)
  else if o = 0x48 then decide (wD w % 2 = 0)
  else true

/-- A word that raises ILLEGAL (R375 to R379). -/
def wIllegal (w : Word) : Bool :=
  let o := wOpc w
  !wDefined o || (wMv w && !(o == 0x38 || o == 0x39 || o == 0x3A)) ||
    (!bit w 55 && decide (fld w 54 51 ≠ 0)) ||
    decide ((w.toNat % 2 ^ 51) &&& wUsed o ≠ w.toNat % 2 ^ 51) || !wSelOk w

/-- Registers an instruction reads or writes: it waits while one of them is pending (R316, R377). -/
def wRegs (w : Word) : List Nat :=
  let o := wOpc w
  let u := wUsed o
  let sel (m n : Nat) : List Nat := if u &&& m = m then [n] else []
  if o = 0x1C then []
  else
    (sel mD (wD w) ++ sel mA (wA w) ++
      (if o = 0x20 ∨ o = 0x21 then [wB9 w]
       else if wOpcI.contains o || o == 0x50 then []
       else sel mB (wB w) ++ (if o = 0x38 ∧ bitsOf (wSub w) 11 10 ≠ 3 then [] else sel mC (wC w)) ++ sel mE (wE w) ++
         sel mF (wF w) ++ (if o = 0x31 ∧ bit w 8 = false then [] else sel mG (wG w)))) ++
      (if o = 0x48 then [wD w + 1] else [])

/-- Opcodes that take a miss-table entry (R379). -/
def wIsRequest (o : Nat) : Bool := [0x28, 0x29, 0x2C, 0x2D, 0x30, 0x31, 0x38, 0x39, 0x3A, 0x3B, 0x40].contains o

end Sys2Proof.Machine
end

