-- ==== Sys2Proof/Machine/WalkCore.lean ====
section
/-! DEFINITION. Weevils (R315 to R329): contexts, registers, assignment of positions, outstanding requests, waking. -/

namespace Sys2Proof.Machine

/-- Number of a Weevil: physical cluster × 4 + Weevil (R17). -/
def ctxWv (c : CtxRef) : Nat := c.clu.val * 4 + c.wv.val

/-- Weevil. -/
def State.wvAt (s : State) (w : Nat) : WvSt := smapGet (fun _ => WvSt.reset) s.wv w
/-- Weevil replaced. -/
def State.putWv (s : State) (w : Nat) (v : WvSt) : State := s.setWv (smapSet (fun _ => WvSt.reset) s.wv w v)
/-- Context of a Weevil. -/
def WvSt.ctxAt (v : WvSt) (i : Nat) : CtxSt := smapGet (fun _ => CtxSt.reset) v.ctxs i
/-- Context of a Weevil replaced. -/
def WvSt.putCtx (v : WvSt) (i : Nat) (x : CtxSt) : WvSt :=
  { v with ctxs := smapSet (fun _ => CtxSt.reset) v.ctxs i x }
/-- Walker context. -/
def State.ctxAt (s : State) (c : CtxRef) : CtxSt := (s.wvAt (ctxWv c)).ctxAt c.ctx.val
/-- Walker context replaced. -/
def State.putCtx (s : State) (c : CtxRef) (x : CtxSt) : State :=
  s.putWv (ctxWv c) ((s.wvAt (ctxWv c)).putCtx c.ctx.val x)

/-- Register of a context (R367). -/
def CtxSt.reg (x : CtxSt) (i : Nat) : Word := smapGet (fun _ => 0) x.g i
/-- Register of a context replaced. -/
def CtxSt.setReg (x : CtxSt) (i : Nat) (v : Word) : CtxSt := { x with g := smapSet (fun _ => 0) x.g i v }
/-- Predicate of a context (R367). -/
def CtxSt.pred (x : CtxSt) (i : Nat) : Bool := x.p.testBit (i % 8)
/-- Predicate of a context replaced. -/
def CtxSt.setPred (x : CtxSt) (i : Nat) (v : Bool) : CtxSt :=
  let m := 2 ^ (i % 8)
  { x with p := x.p - (if x.pred i then m else 0) + (if v then m else 0) }

/-- The walk task a context works on. -/
def WvSt.taskOf (v : WvSt) (x : CtxSt) : Option WalkTask :=
  match v.cur with
  | some t => if t.entry = x.entry then some t else v.nxt
  | none => v.nxt

/-- Destination register of a request (R320). -/
def WReqOp.dest : WReqOp → Option Nat
  | .ld _ _ _ d => some d
  | .deg _ _ d => some d
  | .sample _ _ _ _ _ _ _ _ d => some d
  | .grl w _ _ => some (wD w)
  | .grn w _ _ => some (wD w)
  | _ => none

/-- Pending registers of a context (R320). -/
def CtxSt.pending (x : CtxSt) : List Nat := x.reqs.filterMap (fun r => r.op.dest)

/-- Miss-table entries in use in a Weevil (R319). -/
def WvSt.used (v : WvSt) : Nat := (v.ctxs.map (fun e => e.2.reqs.length)).foldl (· + ·) 0

/-- Miss-table entries of a Weevil (R315). -/
def missCap : Nat := 2048
/-- Requests a context has outstanding at most (R319). -/
def ctxReqCap : Nat := 8

/-- The guard of a word on the predicates of a context (R376). -/
def wGuard (x : CtxSt) (w : Word) : Bool := !bit w 55 || (x.pred (fld w 53 51) != bit w 54)

/-- The word at a context's program counter and its poison mark. -/
def WvSt.wordOf (v : WvSt) (x : CtxSt) : Option (Word × Bool) :=
  match v.taskOf x with
  | none => none
  | some t => if x.pc < t.len then some (t.prog.getD x.pc 0, t.poison.getD x.pc false) else none

/-- Hold an exception of a response until the context is next READY; the first one held stands (R426, R427). -/
def CtxSt.hold (x : CtxSt) (code addr pc : Nat) : CtxSt :=
  match x.held with
  | none => { x with held := some (code, addr, pc) }
  | some (k, _, _) => if k = 2 then { x with held := some (code, addr, pc) } else x

/-- A context whose program counter moves to pc: one that reaches the program's length raises PC_RANGE at the next issue (R368). -/
def WvSt.past (v : WvSt) (x : CtxSt) (pc : Nat) : CtxSt :=
  let len := match v.taskOf x with | some t => t.len | none => 0
  let x := { x with pc := pc }
  if len ≤ pc then x.hold 2 0 pc else x

/-- The context cannot issue its next instruction yet (R316, R319, R422): a register it names is pending, FENCE or END
waits for its requests, or it needs an entry and none is free. -/
def WvSt.blocked (v : WvSt) (x : CtxSt) : Bool :=
  match v.wordOf x with
  | none => false
  | some (w, p) =>
    if p || wIllegal w then false
    else
      let o := wOpc w
      let on := wGuard x w
      x.pending.any (fun r => (wRegs w).contains r) ||
        (on && (o == 0x2E || o == 0x51) && !x.reqs.isEmpty) ||
        (on && wIsRequest o && (decide (ctxReqCap ≤ x.reqs.length) || decide (missCap ≤ v.used)))

/-- How far behind the context a Weevil last issued from a context stands, in context-number order with wrap-around (R29). Before
its first issue the order starts at context 0. -/
def WvSt.dist (v : WvSt) (i : Nat) : Nat := (i + 511 - v.last.headD 511 % 512) % 512

/-- It is the turn of a context to issue (R29): every context that stands before it in the rotation is not ready, or issued
among the last three and may lie in their cycles (R317; assumption 104). -/
def WvSt.turn (v : WvSt) (i : Nat) : Bool :=
  v.ctxs.all (fun e => !(decide (e.2.st = .ready) && (e.2.held.isSome || !v.blocked e.2)) || decide (v.dist i ≤ v.dist e.1) ||
    v.last.contains e.1)

/-- A Weevil issued from a context. -/
def State.wTurn (s : State) (c : CtxRef) : State :=
  let v := s.wvAt (ctxWv c)
  s.putWv (ctxWv c) { v with last := (c.ctx.val :: v.last).take 3 }

/-- Wake every context of a Weevil that waits for memory and is no longer blocked (R316, R318); an arrival ungates the
Weevil (R322). A halted context returns to READY on resume (R323). -/
def WvSt.wake (v : WvSt) : WvSt :=
  { v with gated := false,
           ctxs := v.ctxs.map (fun e =>
             let x := e.2
             if x.st = .waitMem ∧ (x.held.isSome = true ∨ v.blocked x = false) then (e.1, { x with st := .ready })
             else if x.st = .halted ∧ x.prior = .waitMem ∧ (x.held.isSome = true ∨ v.blocked x = false) then
               (e.1, { x with prior := .ready })
             else e) }

/-- Wake a Weevil. -/
def State.wWake (s : State) (w : Nat) : State := s.putWv w (s.wvAt w).wake

/-- The start of a position (R328). -/
def ctxStart (t : WalkTask) (pos : Nat) : CtxSt :=
  { CtxSt.reset with
    st := .ready, entry := t.entry, pos := pos,
    g := smapSet (fun _ => 0) (smapSet (fun _ => 0) (smapSet (fun _ => (0 : Word)) [] 0 (word pos)) 1 t.arg) 2
      (word (fld t.seed 31 0)) }

/-- A task has positions left to assign. -/
def WalkTask.left (t : WalkTask) : Bool := t.loaded && !t.cancel && decide (t.given < t.n)

/-- Give the next position to a FREE context (R327): of the current task, then of the next. -/
def WvSt.assign1 (v : WvSt) (i : Nat) : WvSt :=
  if (v.ctxAt i).st = .free then
    match v.cur, v.nxt with
    | some t, n =>
      if t.left then { v.putCtx i (ctxStart t (t.p0 + t.given)) with cur := some { t with given := t.given + 1 } }
      else match n with
        | some u =>
          if u.left ∧ (t.loaded = true) ∧ (t.n ≤ t.given ∨ t.cancel = true) then
            { v.putCtx i (ctxStart u (u.p0 + u.given)) with nxt := some { u with given := u.given + 1 } }
          else v
        | none => v
    | none, _ => v
  else v

/-- Assign positions to every FREE context in context-number order (R327). -/
def WvSt.assign (v : WvSt) : WvSt := (List.range 512).foldl (fun u i => u.assign1 i) v

/-- A context holds a position of a task. -/
def WvSt.holds (v : WvSt) (entry : Nat) : Bool :=
  v.ctxs.any (fun e => decide (e.2.st ≠ .free) && decide (e.2.entry = entry))

/-- Every position of a task has ended and every context that held one is FREE (R329). -/
def WvSt.finished (v : WvSt) (t : WalkTask) : Bool :=
  t.loaded && (t.cancel || decide (t.n ≤ t.given)) && !v.holds t.entry

/-- Remove a finished task; the next becomes the current (R327). -/
def WvSt.retire (v : WvSt) (entry : Nat) : WvSt :=
  match v.cur with
  | some t => if t.entry = entry then { v with cur := v.nxt, nxt := none } else { v with nxt := none }
  | none => v

/-- Forget what translation holds of a context's requests. -/
def State.wUnpark (s : State) (c : CtxRef) : State :=
  s.unpark (cluRegion c.clu.val) (fun q => match q.who with | .walker d _ => decide (d = c) | _ => false)

/-- Graph descriptors a cluster caches (R333). -/
def graphCap : Nat := 16

/-- The graph descriptors a cluster caches. -/
def State.gCache (s : State) (clu : Nat) : List (Nat × List Byte) := smapGet (fun _ => []) s.gdesc clu
/-- The cache of a cluster replaced. -/
def State.putGCache (s : State) (clu : Nat) (l : List (Nat × List Byte)) : State :=
  s.setGdesc (smapSet (fun _ => []) s.gdesc clu l)

/-- A request of a context is parked or stalled at its region's unit. -/
def State.wHeldBy (s : State) (c : CtxRef) : Bool :=
  let x := s.xlatAt (cluRegion c.clu.val)
  let mine (q : XReq) : Bool := match q.who with
    | .walker d _ => decide (d = c)
    | _ => false
  x.stalled.any mine || x.recs.any (fun e => e.2.valid && e.2.parked.any mine)

/-- State of a context that no longer waits for a counter: READY, or PARKED while one of its requests is (R180, R316). -/
def State.wBack (s : State) (c : CtxRef) : CtxState := if s.wHeldBy c then .parked else .ready

/-- A context reference from numbers. -/
def ctxRef (w i : Nat) : CtxRef :=
  ⟨⟨w / 4 % 156, Nat.mod_lt _ (by decide)⟩, ⟨w % 4, Nat.mod_lt _ (by decide)⟩, ⟨i % 512, Nat.mod_lt _ (by decide)⟩⟩

/-- Put a context into DRAIN, or free it at once if nothing is outstanding (R316, R324, R361). -/
def State.ctxDrain (s : State) (w i : Nat) : State :=
  let x := (s.wvAt w).ctxAt i
  if x.st = .free ∨ x.st = .drain then s
  else
    let c := ctxRef w i
    let s := s.wUnpark c
    let s := s.waitDropAll (fun v => decide (v = .walker c))
    if x.reqs.isEmpty then (s.putCtx c CtxSt.reset).count (pgWlk w) oWlkCancelled 1
    else s.putCtx c { x with st := .drain, held := none }

/-- Cancel the contexts of a task on a Weevil (R316). -/
def State.walkDrain (s : State) (w entry : Nat) : State :=
  let v := s.wvAt w
  let mark (t : Option WalkTask) : Option WalkTask :=
    t.map (fun (u : WalkTask) => if u.entry = entry then { u with cancel := true, loaded := true } else u)
  let s := s.putWv w { v with cur := mark v.cur, nxt := mark v.nxt }
  v.ctxs.foldl (fun t e => if e.2.entry = entry ∧ e.2.st ≠ .free then t.ctxDrain w e.1 else t) s

end Sys2Proof.Machine
end

