-- ==== Sys2Proof/Machine/Cancel.lean ====
section
/-! DEFINITION. The end of tasks and requests: done, failed and refused tasks (R640, R647, R652), cancellation of a
request's tasks, transfers and walker contexts (R600 to R607, R316, R647). -/

namespace Sys2Proof.Machine

/-- Completion status codes (R805). -/
def stOk : Nat := 0x00
/-- POISONED. -/
def stPoisoned : Nat := 0x01
/-- DEADLINE_MISSED. -/
def stMissed : Nat := 0x02
/-- STATE_CONFLICT. -/
def stConflict : Nat := 0x10
/-- INVALID_CMD. -/
def stInvalidCmd : Nat := 0x11
/-- INVALID_DESC. -/
def stInvalidDesc : Nat := 0x12
/-- XLAT_FAULT. -/
def stXlatFault : Nat := 0x20
/-- WALKER_EXC. -/
def stWalkerExc : Nat := 0x21
/-- WAIT_TIMEOUT. -/
def stWaitTimeout : Nat := 0x22
/-- TILE_CHECK. -/
def stTileCheck : Nat := 0x23
/-- CANCELLED. -/
def stCancelled : Nat := 0x24
/-- DEVICE_ERROR. -/
def stDeviceError : Nat := 0x25

/-! ## Task window entries -/

/-- Put a window entry into a state, noting when (R669). -/
def State.taskGo (s : State) (r e : Nat) (st : TaskState) : State :=
  s.putTask r e { s.taskAt r e with st := st, since := s.ns }

/-- Window entries of a region that hold tasks of an admission slot. -/
def State.tasksOf (s : State) (r slot : Nat) : List Nat :=
  ((s.dispAt r).window.filter (fun e => decide (e.2.st ≠ .free) && decide (e.2.slot = slot))).map (·.1)

/-- Free a window entry; the last one of a cancelled request sets CANCEL_DONE (R647, R670). -/
def State.taskFree (s : State) (r e : Nat) : State :=
  let slot := (s.taskAt r e).slot
  let d := s.dispAt r
  let s := s.putDisp r { d with window := smapDel d.window e }
  if (s.slotAt slot).st = .ending ∧ (s.tasksOf r slot).isEmpty = true then s.setEvt (pgDisp r) 2 else s

/-- A task ended by cancellation (R647). -/
def State.taskCancelled (s : State) (r e : Nat) : State := (s.count (pgDisp r) oDispCancelled 1).taskFree r e

/-- A transfer slot is FREE again (R604). -/
def State.xferFree (s : State) (r i : Nat) : State :=
  let c := s.cometAt r
  s.putComet r { c with slots := smapDel c.slots i }

/-- Transfers of an admission slot. -/
def State.xfersOf (s : State) (r slot : Nat) : List Nat :=
  ((s.cometAt r).slots.filter (fun e => decide (e.2.st ≠ .free) && decide (e.2.slot = slot))).map (·.1)

/-- A cancelled transfer left Comet: counted, its task ended, CANCEL_DONE with the last of the request (R604). -/
def State.xferCancelled (s : State) (r i : Nat) : State :=
  let x := s.xferAt r i
  let s := (s.xferFree r i).count (pgComet r) oCometCancelled 1
  let s := if (s.xfersOf r x.slot).isEmpty then s.setEvt (pgComet r) 1 else s
  s.taskCancelled r x.task

/-- Granules of the rows of a transfer not yet delivered, at least those of one row. -/
def xferGranules (x : XferSt) : Nat := (leAt x.desc 0 8 / 2 ^ 36 % 2 ^ 17 + 255) / 256

/-- Buffer granules a transfer's rows hold (R582). -/
def XferSt.granules (x : XferSt) : Nat := (x.bufs.map (fun b => b.grans.length)).foldl (· + ·) 0

/-- Buffer granules of a Comet that are reserved: by rows that wait for their delivery, and by what drains (R582). -/
def CometSt.granules (c : CometSt) : Nat := (c.slots.map (fun e => e.2.granules + e.2.flight)).foldl (· + ·) 0

/-- TX_CAP as it acts (R584, R615). -/
def State.txCap (s : State) (r : Nat) : Nat := max 16 (s.rf (pgComet r) oCometTxCap 14 0)

/-- Granules of an ACTIVE transfer that stops: those its rows hold, and reads ahead of them that no command has shown, a free
value within TX_CAP and the buffers that are left (R584); none for a STORE. -/
def State.xferFlight (s : State) (r : Nat) (x : XferSt) : Nat × State :=
  if leAt x.desc 0 8 / 2 ^ 62 = 1 then (0, s)
  else
    let (v, s) := s.draw
    let left := s.rf (pgComet r) oCometBufGranules 14 0 - (s.cometAt r).granules
    (x.granules + v % (min (s.txCap r - x.granules) left + 1), s)

/-- Release granules of a transfer without delivery (R595, R601). -/
def State.xferRelease (s : State) (r i : Nat) (p : RowBuf → Bool) : State :=
  let x := s.xferAt r i
  let gone := x.bufs.filter p
  let n := (gone.map (fun b => b.grans.length)).foldl (· + ·) 0
  (s.putXfer r i { x with bufs := x.bufs.filter (fun b => !p b) }).count (pgComet r) oCometCancelRd n

/-- Stop an ACTIVE transfer: it drains what is in flight, or is FREE at once (R592, R600, R601). -/
def State.xferStop (s : State) (r i : Nat) (ended : Nat) : State :=
  let x := s.xferAt r i
  let (n, s) := s.xferFlight r x
  s.putXfer r i { x with st := .draining, flight := n, bufs := [], ended := ended, saved := none }

/-- Cancel one transfer (R592, R600). -/
def State.xferCancel (s : State) (r i : Nat) : State :=
  let x := s.xferAt r i
  let s := s.unpark r (fun q => match q.who with | .comet g k _ => decide (g.val = r) && decide (k = i) | _ => false)
  let s := s.waitDrop r (fun w => match w with | .transfer _ k => decide (k = i) | _ => false)
  match x.st with
  | .queued => s.xferCancelled r i
  | .halted => (s.xferRelease r i (fun _ => true)).xferCancelled r i
  | .active => s.xferStop r i 0
  | _ => s

/-- Cancel one task of a dispatcher (R647): waiting tasks go, running ones end in their unit. -/
def State.taskCancel (s : State) (r e : Nat) : State :=
  let t := s.taskAt r e
  let s := s.waitDropAll (fun w => match w with | .task g k _ => decide (g.val = r) && decide (k = e) | _ => false)
  match t.st with
  | .pending => s.taskCancelled r e
  | .ready => s.taskCancelled r e
  | .running => s.taskGo r e .ending
  | _ => s

/-- A walk task left its Weevil: CANCEL_DONE, the task ended, positions of the next task assigned. -/
def State.walkCancelled (s : State) (w entry : Nat) : State :=
  let v := s.wvAt w
  if (v.cur.any (fun t => t.entry = entry && v.finished t)) || (v.nxt.any (fun t => t.entry = entry && v.finished t)) then
    let s := s.putWv w (v.retire entry).assign
    (s.setEvt (pgWlk w) 4).taskCancelled (cluRegion (w / 4)) entry
  else s

/-- Weevils of a region that hold a window entry's task. -/
def State.weevilsOf (s : State) (r entry : Nat) : List Nat :=
  (s.wv.filter (fun e => decide (cluRegion (e.1 / 4) = r) &&
    (e.2.cur.any (fun t => t.entry = entry) || e.2.nxt.any (fun t => t.entry = entry)))).map (·.1)

/-- Remove a swarm: its pieces not started, its sets (R468). Pieces that run go on without it. -/
def State.swarmDrop (s : State) (id : Nat) : State :=
  let s := s.setSwarms (s.swarms.filter (fun w => w.id ≠ id))
  (List.range 12).foldl (fun t g =>
    let d := t.dispAt g
    t.putDisp g { d with pieces := d.pieces.filter (fun p => p.bag ≠ id) }) s

/-- A swarm ended without a result (R468). -/
def State.swarmCancel (s : State) (w : SwarmSt) : State :=
  let c := w.ctx.clu.val
  ((s.swarmDrop w.id).count (pgVec c) oVecSwarmCancel 1).setEvt (pgVec c) 5

/-- End the swarms of a request (R468): the request of each issuing context is over. -/
def State.swarmsCancel (s : State) (slot : Nat) : State :=
  (s.swarms.filter (fun w => w.bag.slot = slot)).foldl (fun t w =>
    let x := t.ctxAt w.ctx
    (t.putCtx w.ctx { x with reqs := x.reqs.filter (fun q => q.id ≠ w.req) }).swarmCancel w) s

/-- Cancel the batches of a request (R270): nothing further of them is issued; those with nothing issued are gone. -/
def State.batchesCancel (s : State) (slot : Nat) : State :=
  let mine (i : Nat) : Bool := s.batches.any (fun b => decide (b.id = i) && decide (b.slot = slot))
  let s := (List.range 12).foldl (fun t r =>
    let m := t.migAt r
    t.putMig r { m with hold := m.hold.filter (fun w => !mine w.batch) }) s
  s.setBatches (s.batches.filterMap (fun b =>
    if b.slot ≠ slot then some b
    else if b.issued then some { b with cancel := true, closed := true, todo := [], rows := [] }
    else none))

/-- Discard the relay chunks of a request wherever they stand; their credits are back (R521). -/
def State.relayCancel (s : State) (slot : Nat) : State :=
  s.setRelay ((s.relay.map (fun e => (e.1, e.2.filter (fun ch => ch.slot ≠ slot)))).filter (fun e => !e.2.isEmpty))

/-- Take a task out of the units of a physical cluster (R521, R566): whether one of them held it. -/
def State.cluTake (s : State) (c e : Nat) : Bool × State :=
  let m := s.matAt c
  let g := s.gmxAt c
  let v := s.vecAt c
  let hm (l : List MatTask) : Bool := l.any (fun t => t.entry = e)
  let hu (l : List UnitTask) : Bool := l.any (fun t => t.entry = e)
  let fm (l : List MatTask) : List MatTask := l.filter (fun t => t.entry ≠ e)
  let fu (l : List UnitTask) : List UnitTask := l.filter (fun t => t.entry ≠ e)
  let s := if g.tasks.any (fun t => decide (t.entry = e) && t.part.isSome) then
      s.unpark (cluRegion c) (fun q => match q.who with | .matrix k => decide (k.val = c) | _ => false)
    else s
  let s := s.putMat c { m with tasks := fm m.tasks, bufs := fm m.bufs, relay := fm m.relay }
  let s := s.putGmx c { g with tasks := fu g.tasks }
  (hm m.tasks || hm m.bufs || hm m.relay || hu g.tasks || hu v.tasks, s.putVec c { v with tasks := fu v.tasks })

/-- Take a LOOKUP or UPDATE task out of its engine: its bags go, traffic on its way is answered to nobody. Whether it is
over: an update with RUPDs on their way is not (R270). -/
def State.embTake (s : State) (r e : Nat) : Bool × State :=
  let m := s.embAt r
  let mine (b : BagSt) : Bool := decide (b.owner = .task e)
  let s := s.unpark r (fun q => match q.who with
    | .engine g k => decide (g.val = r) && decide (k = e)
    | .bag g k => decide (g.val = r) && m.bags.any (fun b => decide (b.id = k) && mine b)
    | _ => false)
  if s.batches.any (fun b => decide (b.task = some e) && decide (b.region = r)) then (false, s)
  else (true, s.putEmb r { m with tasks := m.tasks.filter (fun t => t.entry ≠ e), bags := m.bags.filter (fun b => !mine b) })

/-- Pass a cancel to the unit that runs a task (R647). -/
def State.unitCancel (s : State) (r e : Nat) : State :=
  let t := s.taskAt r e
  if t.st ≠ .ending then s
  else if t.kind = 0 then
    (s.weevilsOf r e).foldl (fun u w => (u.walkDrain w e).walkCancelled w e) s
  else if t.kind = 4 then
    match (s.cometAt r).slots.find? (fun x => x.2.task = e && decide (x.2.st ≠ .free)) with
    | some x => s.xferCancel r x.1
    | none => s
  else if t.kind ≤ 3 then
    let (hit, s) := (List.range 13).foldl (fun (a : Bool × State) i =>
      let (h, t) := a.2.cluTake (r * 13 + i) e
      (a.1 || h, t)) (false, s)
    if hit then s.taskCancelled r e else s
  else
    match s.embTake r e with
    | (true, s) => s.taskCancelled r e
    | (false, s) => s

/-- Cancel everything of a request in one region. -/
def State.regionCancel (s : State) (r slot : Nat) : State :=
  let d := s.dispAt r
  let s := s.putDisp r { d with pieces := d.pieces.filter (fun p => p.slot ≠ slot) }
  let es := s.tasksOf r slot
  es.foldl (fun t e => (t.taskCancel r e).unitCancel r e) s

/-- Regions a request runs in. -/
def AdmSt.regions (a : AdmSt) : List Nat := a.ents.map (·.region)

/-- Cancel a request (R600, R809): its slot is ENDING, its transfers, tasks and walker contexts stop and drain. -/
def State.cancelReq (s : State) (slot : Nat) : State :=
  let a := s.slotAt slot
  if a.st = .running then
    let s := (((s.putSlot slot { a with st := .ending }).swarmsCancel slot).batchesCancel slot).relayCancel slot
    a.regions.foldl (fun t r => t.regionCancel r slot) s
  else s

/-- End a request with a failure status: that of its first failure stands, the rest is cancelled (R652). -/
def State.failReq (s : State) (slot status source detail : Nat) : State :=
  let a := s.slotAt slot
  if a.st = .running then
    (s.putSlot slot { a with status := status, source := source, detail := detail }).cancelReq slot
  else s

/-- Mark a request's result as poisoned (R694, R996). -/
def State.poisonReq (s : State) (slot : Nat) : State := s.putSlot slot { s.slotAt slot with poisoned := true }

/-- The unit reports a task done (R640, R647). -/
def State.taskDone (s : State) (r e : Nat) : State :=
  match (s.taskAt r e).st with
  | .running => (s.count (pgDisp r) oDispTasksDone 1).taskFree r e
  | .ending => s.taskCancelled r e
  | _ => s

/-- A unit ends a task with a failure status (R647, R652). -/
def State.taskFail (s : State) (r e status source detail : Nat) : State :=
  let slot := (s.taskAt r e).slot
  match (s.taskAt r e).st with
  | .ending => s.taskCancelled r e
  | .free => s
  | _ =>
    let s := s.count (pgDisp r) oDispTaskFail 1
    let s := s.setEvt (pgDisp r) 1
    let s := s.waitDropAll (fun w => match w with | .task g k _ => decide (g.val = r) && decide (k = e) | _ => false)
    (s.taskFree r e).failReq slot status source detail

/-- Every request that runs in a region ends with DEVICE_ERROR (R849). -/
def State.fatalRegion (s : State) (r source : Nat) : State :=
  s.slots.foldl (fun t e => if e.2.regions.contains r then t.failReq e.1 stDeviceError source 0 else t) s

end Sys2Proof.Machine
end

