-- ==== Sys2Proof/Machine/Cluster.lean ====
section
/-! DEFINITION. Errors of a cluster (R870 to R872): scratchpad SECDED, unit parity, and a cluster made permanent. -/

namespace Sys2Proof.Machine

/-- Cluster as a repairable part. -/
def State.cluAt (s : State) (c : Nat) : CluSt := smapGet (fun _ => CluSt.reset) s.clu c
/-- Cluster replaced. -/
def State.putClu (s : State) (c : Nat) (v : CluSt) : State := s.setClu (smapSet (fun _ => CluSt.reset) s.clu c v)

/-- A request uses a cluster: it has scratchpad buffers there (R684). -/
def AdmSt.uses (a : AdmSt) (r l : Nat) : Bool := a.ents.any (fun e => decide (e.region = r) && decide (e.bufs.getD l 0 ≠ 0))

/-- Requests that used a failed cluster end with DEVICE_ERROR (R872). -/
def State.cluFail (s : State) (c : Nat) : State :=
  match s.logClu c with
  | none => s
  | some l => s.slots.foldl (fun t e =>
      if e.2.uses (cluRegion c) l then
        match e.2.st with
        | .held => t.putSlot e.1 { e.2 with st := .ending, status := stDeviceError, source := pgClu c }
        | .running => t.failReq e.1 stDeviceError (pgClu c) 0
        | _ => t
      else t) s

/-- A spare of a region is left (R24, R885). -/
def State.spareLeft (s : State) (r : Nat) : Bool := (List.range 13).any (fun k => (s.cluAt (13 * r + k)).st = .spare)

/-- A permanent cluster that no spare replaces: its logical cluster stays unmapped and the region is LOST (R873, R874). -/
def State.regionCheck (s : State) (r : Nat) : State :=
  let g := s.regionAt r
  if g.waiting.isEmpty || s.spareLeft r then s
  else
    let s := s.putRegion r { g with map := g.map.map (fun k => if g.waiting.contains (13 * r + k) then 15 else k), waiting := [] }
    s.regionLost r

/-- A cluster in service becomes permanent (R871, R872): its region pauses until the substitution. `unit` is the code of
FAIL_UNIT (R886). -/
def State.cluPermanent (s : State) (c unit wv : Nat) : State :=
  let v := s.cluAt c
  let r := cluRegion c
  if v.st = .service then
    let s := s.putClu c { v with st := .permanent }
    let s := s.setRg (pgClu c) oCluFailUnit (word (wv * 16 + unit))
    let s := (s.setEvt (pgClu c) 2).cluFail c
    let g := s.regionAt r
    let s := s.putRegion r { g with st := if g.st = .serving then .paused else g.st, waiting := g.waiting ++ [c] }
    if g.subst.isNone then s.regionCheck r else s
  else s

/-- A corrected scratchpad access (R870, R852). -/
def State.spadCe (s : State) (c a : Nat) : State :=
  let s := s.count (pgClu c) oCluSpadCe 1
  let s := s.setEvt (pgClu c) 0
  let v := s.cluAt c
  let (perm, t) := recurStep v.recur 64 (s.classWin (cluRegion c)) (a / 32) s.ns
  let s := s.putClu c { v with recur := t }
  let s := s.error (pgClu c) ⟨0, perm, 0x0201, pgClu c, 0, 0⟩
  if perm then s.cluPermanent c 4 0 else s

/-- Note an uncorrectable error of a cluster: whether it is the second within the window (R871). -/
def State.cluUe (s : State) (c : Nat) : Bool × State :=
  let v := s.cluAt c
  let win := s.classWin (cluRegion c)
  let second := v.firstUe.any (fun t => decide (s.ns - t ≤ win))
  let s := if second then s else (s.putClu c { v with firstUe := some s.ns }).setRg (pgClu c) oCluUeFirstSt (word s.ns)
  (second, s)

/-- An uncorrectable scratchpad access: it is poisoned (R870). -/
def State.spadUe (s : State) (c a : Nat) : State :=
  let s := s.setSpad (s.spad.setPoison (c * 2 ^ 17 + a / 32) true)
  let s := s.count (pgClu c) oCluSpadUe 1
  let s := s.setEvt (pgClu c) 1
  let (perm, s) := s.cluUe c
  let s := s.error (pgClu c) ⟨1, perm, 0x0202, pgClu c, 0, 0⟩
  if perm then s.cluPermanent c 4 0 else s

/-- A parity error in the state of a unit that serves a request (R870): fatal to the request (R849). -/
def State.unitState (s : State) (c unit wv slot : Nat) : State :=
  let s := s.count (pgClu c) oCluUnitState 1
  let s := s.setEvt (pgClu c) 1
  let (perm, s) := s.cluUe c
  let s := s.error (pgClu c) ⟨2, perm, 0x0203, pgClu c, 0, 0⟩
  let s := if perm then s.cluPermanent c unit wv else s
  s.failReq slot stDeviceError (pgClu c) 0

/-- What SECDED and parity find while unit `unit` (Weevil wv) reads scratchpad byte a of cluster c for a request. -/
def State.spadFound (s : State) (c a unit wv slot : Nat) : SpadErr → State
  | .none => s
  | .single => s.spadCe c a
  | .double => s.spadUe c a
  | .unitState => s.unitState c unit wv slot

end Sys2Proof.Machine
end

