-- ==== Sys2Proof/Machine/Tasks.lean ====
section
/-! DEFINITION. Dispatchers (R638 to R658): reading of task lists, the task window, ready lists and held asks, and what
the release or timeout of a wait does to its waiter (R631 to R635). -/

namespace Sys2Proof.Machine

/-! ## Task entries (R638 to R643) -/

/-- Word of a task header (R639). -/
def TaskSt.hw (t : TaskSt) (off : Nat) : Word := wordAt t.hdr off
/-- CLU_MASK (R639). -/
def TaskSt.cluMask (t : TaskSt) : Nat := fld (t.hw 0) 59 48
/-- WMASK (R639). -/
def TaskSt.wmask (t : TaskSt) : Nat := fld (t.hw 0) 46 44

/-- Kinds that run on a cluster (R640). -/
def kindOnCluster (k : Nat) : Bool := decide (k ≤ 3)

/-- Payload bytes of a kind (R640). -/
def payloadBytes (k : Nat) : Nat := if k = 4 then 128 else if k = 7 then 0 else 64

/-- Well-formed task entry (R638, R639, R643): no reserved field or code, operands of regions 0 to 11, CLU_MASK set
exactly for kinds run on a cluster, SIG_AMT and SIG_CTR for SIGNAL only. -/
def taskEntryOk (bs : List Byte) : Bool :=
  let w := wordAt bs 0
  let k := fld w 63 60
  let w7 := wordAt bs 0x38
  decide (fld w 43 0 = 0) && decide (k ≤ 7) &&
    (kindOnCluster k == decide (fld w 59 48 ≠ 0)) &&
    allZero (bs.drop (0x40 + payloadBytes k)) &&
    (List.range 3).all (fun i =>
      let c := wordAt bs (8 + 16 * i)
      decide (fld c 63 32 = 0) && (!bit w (44 + i) || decide (fld c 15 12 ≤ 11))) &&
    (if k = 7 then decide (fld w7 31 16 = 0) && decide (fld w7 63 32 ≠ 0) && decide (fld w7 15 12 ≤ 11)
     else decide (w7 = 0))

/-- The payload as posted: with REL a TRANSFER's WAIT_VAL has the base of WAIT_CTR added (R642). -/
def State.taskPayload (s : State) (r : Nat) (bs : List Byte) : List Byte :=
  let k := leAt bs 0 8 / 2 ^ 60
  let p := sliceB bs 0x40 (payloadBytes k)
  if k = 4 ∧ bit (wordAt bs 0) 47 = true then
    patchB p 0x70 (leBytes 8 (leAt p 0x70 8 + s.baseAt r (leAt p 0x68 2 % 4096)))
  else p

/-- A task becomes READY when every wait of WMASK has completed (R647). -/
def State.taskCheck (s : State) (r e : Nat) : State :=
  let t := s.taskAt r e
  if t.st = .pending ∧ t.wmask &&& t.flags = t.wmask then
    s.putTask r e { t with st := .ready, since := s.ns, readyAt := s.time.st }
  else s

/-- Set flag i of a task (R647). -/
def State.taskFlag (s : State) (r e i : Nat) : State :=
  let t := s.taskAt r e
  (s.putTask r e { t with flags := t.flags ||| 2 ^ i }).taskCheck r e

/-- Register wait i of a new task (R626, R627). -/
def State.taskWait (s : State) (r : Region) (e i : Nat) : State :=
  let t := s.taskAt r.val e
  if t.wmask.testBit i then
    let c := t.hw (8 + 16 * i)
    let (g, n) := ctrOp (fld c 15 0)
    let v := (t.hw (16 + 16 * i)).toNat + (if bit (t.hw 0) 47 then s.baseAt g n else 0)
    match s.waitOffer g (.task r e i) n v (fld c 31 16) with
    | (true, s) => s.taskFlag r.val e i
    | (false, s) => s
  else s

/-- The list taken next: the admitted request after the one read last, with rotation in ascending slot (R644). -/
def State.nextList (s : State) (r : Nat) : Option (Nat × LaunchEnt × Nat) :=
  let d := s.dispAt r
  let open_ := s.slots.filterMap (fun e =>
    if e.2.st = .running then
      match e.2.ents.find? (fun n => n.region = r) with
      | some n =>
        let k := smapGet (fun _ => 0) d.next e.1
        if k < n.listLen then some (e.1, n, k) else none
      | none => none
    else none)
  match open_.find? (fun x => decide (d.last < x.1)) with
  | some x => some x
  | none => open_.head?

/-- The lowest FREE window entry. -/
def DispSt.freeEntry (d : DispSt) : Option Nat :=
  (List.range windowCap).find? (fun e => (smapGet (fun _ => TaskSt.reset) d.window e).st = .free)

/-- Make a fault on a list's read end its request (R186): used on ABORT. -/
def State.listAbort (s : State) (slot : Nat) (r : Nat) : State :=
  s.failReq slot stXlatFault (pgDisp r) 0

/-- TASK_ENTRY_READ (R644): the dispatcher reads the next task entry into its window and registers its waits. A full
window keeps the list waiting (R645); a refused entry ends its request (R643). -/
def execTaskEntryRead (r : Region) (s : State) : Out State := s.live <|
  match s.nextList r.val with
  | none => .next s
  | some (slot, n, k) =>
    let pg := pgDisp r.val
    let d := s.dispAt r.val
    match d.freeEntry with
    | none => .next ((s.count pg oDispWinFullCyc 1).setEvt pg 3)
    | some e =>
      let who := Who.list slot r
      if s.parkedAt r.val who then .next s
      else match s.readVa r.val who false (n.listVa + 256 * k) 256 with
        | (none, s) => .next s
        | (some (bs, ps), s) =>
          let d := s.dispAt r.val
          let s := s.putDisp r.val { d with next := smapSet (fun _ => 0) d.next slot (k + 1), last := slot }
          if ps.any id || !taskEntryOk bs then
            let s := (s.count pg oDispTaskFail 1).setEvt pg 1
            .next (s.failReq slot stInvalidDesc pg 0)
          else
            let t : TaskSt :=
              { st := .pending, slot := slot, kind := leAt bs 0 8 / 2 ^ 60, hdr := sliceB bs 0 64,
                payload := s.taskPayload r.val bs, flags := 0, pos := k, since := s.ns, readyAt := 0 }
            let s := s.putTask r.val e t
            let d := s.dispAt r.val
            let s := s.putDisp r.val { d with hwm := max d.hwm d.window.length }
            .next (((List.range 3).foldl (fun s i => s.taskWait r e i) s).taskCheck r.val e)

/-! ## Ready lists (R648, R649, R98) -/

/-- The order of a ready list: real-time tasks that have not missed first, by DEADLINE and slot; then the order of
becoming READY, slot, list position. -/
def State.readyKey (s : State) (slot readyAt pos : Nat) : List Nat :=
  let a := s.slotAt slot
  if a.rt ∧ a.missed = false then [0, a.deadline.toNat, slot, readyAt, pos] else [1, readyAt, slot, pos, 0]

/-- Lexicographic order of keys. -/
def keyLt : List Nat → List Nat → Bool
  | [], _ => false
  | _ :: _, [] => false
  | a :: as, b :: bs => decide (a < b) || (decide (a = b) && keyLt as bs)

/-- The first element in key order. -/
def firstBy {α : Type} (key : α → List Nat) : List α → Option α
  | [] => none
  | x :: xs =>
    match firstBy key xs with
    | none => some x
    | some y => if keyLt (key y) (key x) then some y else some x

/-- READY window entries of a kind. -/
def State.readyOf (s : State) (r kind : Nat) : List (Nat × TaskSt) :=
  (s.dispAt r).window.filter (fun e => decide (e.2.st = .ready) && decide (e.2.kind = kind))

/-- The first READY task of a kind that satisfies a test (R648, R653). -/
def State.readyFirst (s : State) (r kind : Nat) (p : TaskSt → Bool) : Option (Nat × TaskSt) :=
  firstBy (fun e => s.readyKey e.2.slot e.2.readyAt e.2.pos) ((s.readyOf r kind).filter (fun e => p e.2))

/-- A task left its ready list for its unit (R647, R669). -/
def State.taskRun (s : State) (r e : Nat) : State := (s.taskGo r e .running).count (pgDisp r) oDispDelivered 1

/-- SIGNAL_TASK (R647): the SIGNAL task at the head of its list adds SIG_AMT to SIG_CTR and is done. -/
def execSignalTask (r : Region) (s : State) : Out State := s.live <|
  match s.readyFirst r.val 7 (fun _ => true) with
  | none => .next s
  | some (e, t) =>
    let w := t.hw 0x38
    let (g, c) := ctrOp (fld w 15 0)
    let s := s.issueInc g c (fld w 63 32)
    .next ((s.count (pgDisp r.val) oDispTasksDone 1).taskFree r.val e)

/-! ## Release and timeout of waits (R631 to R635, R590, R419) -/

/-- The order of release (R631): the cycle that made a wait due, counter, expected value, registration. -/
def dueKey (w : WaitEnt) : List Nat := [w.due.getD 0, w.ctr, w.expect, w.seq]

/-- The first n due waits in the order of release. -/
def takeDue : Nat → List WaitEnt → List WaitEnt
  | 0, _ => []
  | n + 1, ws =>
    match firstBy dueKey ws with
    | none => []
    | some w => w :: takeDue n (ws.filter (fun v => v.seq ≠ w.seq))

/-- A wait is complete: its waiter goes on (R417, R589, R647). The CWAIT of a context is complete and its program
counter advances (R368). -/
def State.waitMet (s : State) (w : Waiter) : State :=
  match w with
  | .task r e i => s.taskFlag r.val e i
  | .transfer r i => s.putXfer r.val i { s.xferAt r.val i with waitMet := true }
  | .walker c =>
    let x := s.ctxAt c
    let y := (s.wvAt (ctxWv c)).past x (x.pc + 1)
    let s :=
      if x.st = .waitCtr then s.putCtx c { y with st := s.wBack c }
      else if x.st = .halted ∧ x.prior = .waitCtr then s.putCtx c { y with prior := s.wBack c }
      else s
    s.putWv (ctxWv c) { s.wvAt (ctxWv c) with gated := false }

/-- WAIT_RELEASE (R631): up to 16 due waits leave the bank in order. -/
def execWaitRelease (r : Region) (s : State) : Out State := s.live <|
  let b := s.syncAt r.val
  let ws := takeDue 16 (b.waits.filter (fun w => w.due.isSome))
  let s := s.putSync r.val { b with waits := b.waits.filter (fun w => !ws.any (fun v => v.seq = w.seq)) }
  let s := s.count (pgSync r.val) oSyncReleases ws.length
  .next (ws.foldl (fun t w => t.waitMet w.waiter) s)

/-- Offer held waits again in their order while the table has room; k bounds them (R629). -/
def State.reoffer (s : State) (r : Nat) : Nat → State
  | 0 => s
  | k + 1 =>
    let b := s.syncAt r
    match b.held with
    | [] => s
    | w :: ws =>
      if waitCap ≤ b.waits.length then s.waitFull r
      else
        let s := s.putSync r { b with held := ws }
        let s := if w.expect ≤ s.ctrAt r w.ctr then (s.count (pgSync r) oSyncReleases 1).waitMet w.waiter
          else s.waitEnter r w
        s.reoffer r k

/-- WAIT_REOFFER (R629). -/
def execWaitReoffer (r : Region) (s : State) : Out State := s.live <| .next (s.reoffer r.val (s.syncAt r.val).held.length)

/-- SOURCE and detail of a waiter (R634). -/
def waiterInfo : Waiter → Nat × Nat
  | .walker c => (pgWlk (ctxWv c), c.wv.val * 2 ^ 10 + c.ctx.val)
  | .transfer r i => (pgComet r.val, i % 1024)
  | .task r e _ => (pgDisp r.val, e % 2048)

/-- The wait of a transfer timed out (R590, R592): an active one drains as under cancellation; a halted one, which has nothing in
flight, ends at once and its record no longer holds it (R607). -/
def State.xferLost (s : State) (r i : Nat) : State :=
  let x := s.xferAt r i
  let s := s.unpark r (fun q => match q.who with | .comet g k _ => decide (g.val = r) && decide (k = i) | _ => false)
  match x.st with
  | .active => s.xferStop r i stWaitTimeout
  | .halted => ((s.xferRelease r i (fun _ => true)).xferFree r i).taskFail r x.task stWaitTimeout (pgComet r) i
  | _ => s

/-- What a timeout does to its waiter (R634). -/
def State.waitLost (s : State) (w : Waiter) (r c : Nat) : State :=
  match w with
  | .walker x =>
    let v := s.ctxAt x
    let h := v.hold 9 (r * 2 ^ 12 + c) v.pc
    if v.st = .waitCtr then s.putCtx x { h with st := s.wBack x }
    else if v.st = .halted ∧ v.prior = .waitCtr then s.putCtx x { h with prior := s.wBack x }
    else s
  | .transfer g i =>
    let s := s.count (pgComet g.val) oCometTimeouts 1
    let s := s.setEvt (pgComet g.val) 3
    s.xferLost g.val i
  | .task g e _ =>
    let slot := (s.taskAt g.val e).slot
    if (s.taskAt g.val e).st = .pending then
      let s := s.waitDropAll (fun v => match v with | .task q k _ => decide (q = g) && decide (k = e) | _ => false)
      (s.taskFree g.val e).failReq slot stWaitTimeout (pgDisp g.val) e
    else s

/-- WAIT_TIMEOUT (R633 to R635): a wait of the table or held back whose deadline has passed, and that is not due, is
removed and its timeout raised. `wait` is its order of registration. -/
def execWaitTimeout (r : Region) (wait : Nat) (s : State) : Out State := s.live <|
  let b := s.syncAt r.val
  match (b.waits ++ b.held).find? (fun w => w.seq = wait) with
  | none => .next s
  | some w =>
    if w.due.isSome ∨ s.ns ≤ w.dead then .next s
    else
      let pg := pgSync r.val
      let s := s.putSync r.val { b with waits := b.waits.filter (fun v => v.seq ≠ wait), held := b.held.filter (fun v => v.seq ≠ wait) }
      let (src, det) := waiterInfo w.waiter
      let s := s.error pg (contained 0x0302 src (word (r.val * 2 ^ 12 + w.ctr)) 0)
      let s := s.setRg pg oSyncToDetail (word det)
      let s := s.count pg oSyncTimeouts 1
      let s := s.setEvt pg 0
      .next (s.waitLost w.waiter r.val w.ctr)

/-! ## Barriers (R657) -/

/-- A BARRIER entry acts on one region (R657). -/
def State.barrier (s : State) (r ctr : Nat) : State :=
  let s := s.issueInc r ctr 1
  (s.count (pgDisp r) oDispBarriers 1).setEvt (pgDisp r) 0

/-! ## Asks (R651, R653, R654) -/

/-- Kind code of a unit's tasks (R651). -/
def unitKindCode : UnitKind → Nat
  | .weevil _ => 0
  | .mantis => 1
  | .gmx => 2
  | .firefly => 3

/-- Weevil number within a cluster for the order of R654. -/
def unitRank : UnitKind → Nat
  | .weevil w => w.val
  | _ => 0

/-- A held ask of a kind that may take a task: the lowest local cluster after the one served last, with wrap-around,
and the lowest Weevil number (R654). -/
def State.askFor (s : State) (r kind mask : Nat) : Option (Nat × UnitKind) :=
  let d := s.dispAt r
  let last := d.lastClu.getD kind 11
  let ok := d.asks.filter (fun a => decide (unitKindCode a.2 = kind) &&
    (match s.logClu a.1 with | some l => mask.testBit l | none => false))
  firstBy (fun a => [((s.logClu a.1).getD 0 + 11 - last) % 12, unitRank a.2]) ok

end Sys2Proof.Machine
end

