-- ==== Sys2Proof/Machine/Comet.lean ====
section
/-! DEFINITION. Comet (R572 to R616): posting, activation, issue and delivery of rows, faults, draining. Rows are issued in
Comet's order when a command asks for the delivery of a row; a LOAD or COPY row lies in its buffer until then, a STORE row is
written when it is issued. -/

namespace Sys2Proof.Machine

/-! ## The transfer descriptor (R573 to R576) -/

/-- Word of a transfer's descriptor. -/
def XferSt.dw (x : XferSt) (off : Nat) : Word := wordAt x.desc off
/-- DIR (R573). -/
def XferSt.dir (x : XferSt) : Nat := fld (x.dw 0) 63 62
/-- ROW_BYTES. -/
def XferSt.rowBytes (x : XferSt) : Nat := fld (x.dw 0) 52 36
/-- CLU. -/
def XferSt.clu (x : XferSt) : Nat := fld (x.dw 0) 35 32
/-- Count of dimension k, 1 to 4. -/
def XferSt.count (x : XferSt) (k : Nat) : Nat := leAt x.desc (0x18 + 4 * (k - 1)) 4
/-- Source stride of dimension k, signed. -/
def XferSt.sStride (x : XferSt) (k : Nat) : Int := if k < fld (x.dw 0) 61 59 then signedOf 64 (leAt x.desc (0x20 + 8 * k) 8) else 0
/-- Destination stride of dimension k, signed. -/
def XferSt.dStride (x : XferSt) (k : Nat) : Int := if k < fld (x.dw 0) 61 59 then signedOf 64 (leAt x.desc (0x40 + 8 * k) 8) else 0

/-- Rows of a transfer (R574). -/
def XferSt.total (x : XferSt) : Nat := x.count 1 * x.count 2 * x.count 3 * x.count 4

/-- Index of dimension k in row j (R575). -/
def XferSt.index (x : XferSt) (j k : Nat) : Nat :=
  match k with
  | 1 => j % x.count 1
  | 2 => j / x.count 1 % x.count 2
  | 3 => j / (x.count 1 * x.count 2) % x.count 3
  | _ => j / (x.count 1 * x.count 2 * x.count 3)

/-- Address of row j from a base with strides (R575), modulo 2^64. -/
def XferSt.rowAt (x : XferSt) (base : Nat) (stride : Nat → Int) (j : Nat) : Nat :=
  wrapInt 64 ((base : Int) + (x.index j 1 : Int) * stride 1 + (x.index j 2 : Int) * stride 2 +
    (x.index j 3 : Int) * stride 3 + (x.index j 4 : Int) * stride 4)

/-- Source address of row j. -/
def XferSt.src (x : XferSt) (j : Nat) : Nat := x.rowAt (x.dw 8).toNat x.sStride j
/-- Destination address of row j. -/
def XferSt.dst (x : XferSt) (j : Nat) : Nat := x.rowAt (x.dw 0x10).toNat x.dStride j

/-- Extremes of a row address: sums of the negative and of the positive offsets. -/
def XferSt.span (x : XferSt) (stride : Nat → Int) : Int × Int :=
  let o (k : Nat) : Int := ((x.count k : Int) - 1) * stride k
  ((([1, 2, 3, 4].map (fun k => min 0 (o k)))).foldl (· + ·) 0, (([1, 2, 3, 4].map (fun k => max 0 (o k)))).foldl (· + ·) 0)

/-- Every row of a scratchpad end lies in bytes 0 to 0x2F_FFFF (R371, R576). -/
def XferSt.spadOk (x : XferSt) (base : Word) (stride : Nat → Int) : Bool :=
  let (lo, hi) := x.span stride
  decide (base.toNat < 0x300000) && decide (0 ≤ (base.toNat : Int) + lo) &&
    decide ((base.toNat : Int) + hi + (x.rowBytes : Int) ≤ 0x300000)

/-- The descriptor keeps R573 to R575 (R576). -/
def XferSt.descOk (x : XferSt) : Bool :=
  let w := x.dw 0
  let d := fld w 61 59
  let g := x.dw 0x68
  let counts := [1, 2, 3, 4].map x.count
  decide (x.dir ≠ 3) && decide (1 ≤ d) && decide (d ≤ 5) && decide (fld w 57 53 = 0) && decide (fld w 25 0 = 0) &&
    decide (32 ≤ x.rowBytes) && decide (x.rowBytes ≤ 65536) && decide (x.rowBytes % 32 = 0) &&
    decide (x.clu ≤ 11) && (decide (x.dir ≠ 2) || decide (x.clu = 0)) &&
    counts.all (fun n => decide (1 ≤ n)) && decide (x.total ≤ 2 ^ 32) &&
    [1, 2, 3, 4].all (fun k => decide (k < d) || decide (x.count k = 1)) &&
    [1, 2, 3, 4].all (fun k => decide (x.sStride k % 32 = 0) && decide (x.dStride k % 32 = 0)) &&
    decide (fld g 61 28 = 0) && decide (fld g 15 12 = 0) && decide (x.dw 0x78 = 0) &&
    (decide (x.dir = 1) || decide ((x.dw 8).toNat % 32 = 0)) && (decide (x.dir = 0) || decide ((x.dw 0x10).toNat % 32 = 0)) &&
    (decide (x.dir ≠ 1) || x.spadOk (x.dw 8) x.sStride) && (decide (x.dir ≠ 0) || x.spadOk (x.dw 0x10) x.dStride)

/-! ## Posting and activation (R579 to R581) -/

/-- The lowest FREE slot of a Comet (R580). -/
def CometSt.freeSlot (c : CometSt) : Option Nat :=
  (List.range 1024).find? (fun i => (smapGet (fun _ => XferSt.reset) c.slots i).st = .free)

/-- Post the TRANSFER task at the head of its list (R572, R580, R655): no post is dropped, one that finds no slot waits. -/
def State.xferPost (s : State) (r : Nat) : State :=
  match s.readyFirst r 4 (fun _ => true) with
  | none => s
  | some (e, t) =>
    let c := s.cometAt r
    match c.freeSlot with
    | none => s.count (pgComet r) oCometSlotWaitCyc 1
    | some i =>
      let a := s.slotAt t.slot
      let x : XferSt :=
        { XferSt.reset with st := .queued, desc := t.payload, queue := leAt t.payload 0 8 / 2 ^ 26 % 64, seq := c.seq,
                            slot := t.slot, task := e, rt := a.rt && !a.missed }
      let s := s.putComet r { c with seq := c.seq + 1 }
      let s := s.putXfer r i x
      (s.count (pgComet r) oCometPosted 1).taskRun r e

/-- TRANSFER_POST (R572). -/
def execTransferPost (r : Region) (s : State) : Out State := s.live <| .next (s.xferPost r.val)

/-- Transfers of a queue that are not FREE, in queue order (R579). -/
def CometSt.queue (c : CometSt) (q : Nat) : List (Nat × XferSt) :=
  sortBy (fun a b => decide (a.2.seq < b.2.seq)) (c.slots.filter (fun e => decide (e.2.st ≠ .free) && decide (e.2.queue = q)))

/-- DEPTH of a queue: 0 acts as 1 and values above 16 act as 16 (R615). -/
def State.qDepth (s : State) (r q : Nat) : Nat := min 16 (max 1 (s.rf (pgComet r) (oCometQctl + 8 * q) 4 0))

/-- Make a QUEUED transfer active: checked (R576), its wait offered (R589, R590). -/
def State.xferStart (s : State) (r : Region) (i : Nat) : State :=
  let x := s.xferAt r.val i
  let pg := pgComet r.val
  if !x.descOk || (decide (x.dir ≠ 2) && (s.physClu r.val x.clu).isNone) then
    let s := (s.count pg oCometDescBad 1).setEvt pg 2
    (s.xferFree r.val i).taskFail r.val x.task stInvalidDesc pg 0
  else
    let g := x.dw 0x68
    let c := s.cometAt r.val
    let s := s.putComet r.val { c with acts := c.acts + 1 }
    let s := s.putXfer r.val i { x with st := .active, waitMet := !bit g 62, actSeq := c.acts }
    if bit g 62 then
      match s.waitOffer r.val (.transfer r i) (fld g 11 0) (x.dw 0x70).toNat 0 with
      | (true, s) => s.putXfer r.val i { s.xferAt r.val i with waitMet := true }
      | (false, s) => s
    else s

/-- TRANSFER_ACTIVATE (R581): the first QUEUED transfer among the first DEPTH of an enabled queue becomes active. -/
def execTransferActivate (r : Region) (q : Fin 64) (s : State) : Out State := s.live <|
  if bit (s.rg (pgComet r.val) (oCometQctl + 8 * q.val)) 16 then
    match (((s.cometAt r.val).queue q.val).take (s.qDepth r.val q.val)).find? (fun e => e.2.st = .queued) with
    | none => .next s
    | some e => .next (s.xferStart r e.1)
  else .next s

/-! ## Delivery (R582 to R591) -/

/-- Write chunks of 32 B with their marks into a scratchpad. -/
def State.spadChunks (s : State) (c a : Nat) : List Byte → List Bool → State
  | _, [] => s
  | bs, p :: ps => (s.spadWr c a (bs.take 32) p).spadChunks c (a + 32) (bs.drop 32) ps

/-- Write chunks of 32 B with their marks to memory by VA. false while one waits on a fault. -/
def State.vaChunks (s : State) (u : Nat) (who : Who) (rdma : Bool) (va : Nat) : List Byte → List Bool → Bool × State
  | _, [] => (true, s)
  | bs, p :: ps =>
    match s.writeVa u who rdma va (bs.take 32) p with
    | (false, s) => (false, s)
    | (true, s) => s.vaChunks u who rdma (va + 32) (bs.drop 32) ps

/-- Marks of a scratchpad range, one for each chunk of 32 B. -/
def State.spadMarks (s : State) (c a n : Nat) : List Bool :=
  (List.range ((n + 31) / 32)).map (fun i => s.spadPoison c (a + 32 * i) (min 32 (n - 32 * i)))

/-! ### Issue (R577, R582 to R586) -/

/-- Source granules a row touches (R577). -/
def XferSt.rowGranules (x : XferSt) (j : Nat) : Nat := (x.src j + x.rowBytes - 1) / 256 + 1 - x.src j / 256

/-- The stretches of a row's bytes by source granule: offset within the granule and length. -/
def rowCuts (a n : Nat) : Nat → List (Nat × Nat)
  | 0 => []
  | k + 1 =>
    if n = 0 then []
    else
      let m := min n (256 - a % 256)
      (a % 256, m) :: rowCuts (a + m) (n - m) k

/-- Byte of the region store at offset o of buffer granule g (R582). -/
def State.bufByte (s : State) (r g o : Nat) : Nat := r * 2 ^ 25 + (s.rf (pgComet r) oCometBufBase 24 0 + 256 * g + o) % 2 ^ 25

/-- Put a row's bytes into its buffer granules. -/
def State.bufPut (s : State) (r : Nat) : List Nat → List (Nat × Nat) → List Byte → State
  | g :: gs, (o, m) :: cs, bs => (s.setStore (s.store.setBytes (s.bufByte r g o) (bs.take m))).bufPut r gs cs (bs.drop m)
  | _, _, _ => s

/-- Take a row's bytes out of its buffer granules. -/
def State.bufGet (s : State) (r : Nat) : List Nat → List (Nat × Nat) → List Byte
  | g :: gs, (o, m) :: cs => s.store.bytes (s.bufByte r g o) m ++ s.bufGet r gs cs
  | _, _ => []

/-- Buffer granules nothing holds, lowest first. -/
def State.bufFree (s : State) (r : Nat) : List Nat :=
  let used := (s.cometAt r).slots.flatMap (fun e => e.2.bufs.flatMap (fun b => b.grans))
  (List.range (s.rf (pgComet r) oCometBufGranules 14 0)).filter (fun g => !used.contains g)

/-- A row of n granules finds its buffers (R582). -/
def State.bufRoom (s : State) (r n : Nat) : Bool := decide ((s.cometAt r).granules + n ≤ s.rf (pgComet r) oCometBufGranules 14 0)

/-- Granules held by active transfers whose wait is not met (R585). -/
def CometSt.waitGranules (c : CometSt) : Nat :=
  (c.slots.map (fun e => if e.2.st = .active ∧ e.2.waitMet = false then e.2.granules else 0)).foldl (· + ·) 0

/-- A transfer may issue its next row but for its buffers: it is active, no position is saved (R593), it has rows left, a wait
not met lets it read under R585 and write nothing (R589), and it is within its cap (R584). -/
def State.mayIssue (s : State) (r : Nat) (x : XferSt) : Bool :=
  let n := x.rowGranules x.next
  decide (x.st = .active) && x.saved.isNone && decide (x.next < x.total) &&
    (if x.dir = 1 then x.waitMet
     else (decide (x.granules = 0) || decide (x.granules + n ≤ s.txCap r)) &&
      (x.waitMet || decide (2 * ((s.cometAt r).waitGranules + n - 1) < s.rf (pgComet r) oCometBufGranules 14 0)))

/-- The order of issue (R583, R608 to R611): real-time transfers by DEADLINE and admission slot, the others behind them in the
order in which they became active. -/
def State.issueKey (s : State) (x : XferSt) : List Nat :=
  if x.rt then [0, (s.slotAt x.slot).deadline.toNat, x.slot, x.actSeq] else [1, x.actSeq]

/-- The transfer whose next row is issued now, of those a list does not pass over (R583, R584). -/
def State.issueNext (s : State) (r : Nat) (skip : List Nat) : Option Nat :=
  firstBy (fun i => s.issueKey (s.xferAt r i)) (((s.cometAt r).slots.filter (fun e =>
    s.mayIssue r e.2 && (decide (e.2.dir = 1) || s.bufRoom r (e.2.rowGranules e.2.next)) && !skip.contains e.1)).map (·.1))

/-- A request of row j was not granted: where it faulted the row is saved, the lowest row that does (R593, R594, R599), and what
was read for it and the rows above it is released (R595). An access that waits at its stack port changes nothing. -/
def State.rowFault (s : State) (r : Region) (i j : Nat) : State :=
  if s.parkedAt r.val (.comet r i j) then
    (s.putXfer r.val i { s.xferAt r.val i with saved := some j }).xferRelease r.val i (fun b => decide (j ≤ b.row))
  else s

/-- Issue the next row of a transfer (R577, R586): a LOAD or COPY row is read into its buffer granules, a STORE row is read from
the scratchpad and written. false: it is passed over, since it faulted or waits at a stack port. -/
def State.xferIssue (s : State) (r : Region) (i : Nat) : Bool × State :=
  let x := s.xferAt r.val i
  let j := x.next
  let who := Who.comet r i j
  let n := x.rowBytes
  let pg := pgComet r.val
  let issued (gs : List Nat) (ps : List Bool) (s : State) : State :=
    let x := s.xferAt r.val i
    s.putXfer r.val i { x with next := j + 1, bufs := x.bufs ++ [⟨j, gs, ps⟩] }
  if x.dir = 1 then
    let clu := (s.physClu r.val x.clu).getD 0
    let ps := s.spadMarks clu (x.src j) n
    match s.vaChunks r.val who false (x.dst j) (s.spadRd clu (x.src j) n) ps with
    | (false, s) => (false, s.rowFault r i j)
    | (true, s) => (true, issued [] ps (s.count pg oCometBytesWr n))
  else
    match s.readVa r.val who false (x.src j) n with
    | (none, s) => (false, s.rowFault r i j)
    | (some (bs, ps), s) =>
      let s := s.count pg oCometBytesRd n
      let gs := (s.bufFree r.val).take (x.rowGranules j)
      (true, issued gs ps (s.bufPut r.val gs (rowCuts (x.src j) n gs.length) bs))

/-- Issue rows in Comet's order until row j of transfer i is issued or nothing more can be; k bounds the rows. -/
def State.issueTo (s : State) (r : Region) (i j : Nat) : Nat → List Nat → State
  | 0, _ => s
  | k + 1, skip =>
    if j < (s.xferAt r.val i).next then s
    else match s.issueNext r.val skip with
      | none => s
      | some e =>
        match s.xferIssue r e with
        | (true, s) => s.issueTo r i j k skip
        | (false, s) => s.issueTo r i j k (e :: skip)

/-- Rows Comet could issue in one command at most: all of every slot. -/
def issueBound : Nat := 2 ^ 43

/-! ### Delivery -/

/-- Write an issued row to its destination (R587, R591): a LOAD row to the scratchpad, a COPY row to memory; a STORE row was
written when it was issued. false: a write was not granted. -/
def State.xferRow (s : State) (r : Region) (i : Nat) (b : RowBuf) : Bool × State :=
  let x := s.xferAt r.val i
  let n := x.rowBytes
  let bs := s.bufGet r.val b.grans (rowCuts (x.src b.row) n b.grans.length)
  let poison (s : State) : State := if b.marks.any id then s.poisonReq x.slot else s
  if x.dir = 1 then (true, poison s)
  else if x.dir = 0 then (true, s.spadChunks ((s.physClu r.val x.clu).getD 0) (x.dst b.row) bs b.marks)
  else
    match s.vaChunks r.val (.comet r i b.row) false (x.dst b.row) bs b.marks with
    | (false, s) => (false, s)
    | (true, s) => (true, poison (s.count (pgComet r.val) oCometBytesWr n))

/-- Extend the prefix of delivered rows; n bounds the rows taken in. -/
def XferSt.advance (x : XferSt) : Nat → XferSt
  | 0 => x
  | n + 1 =>
    if x.rows.contains x.prefix_ then
      XferSt.advance { x with prefix_ := x.prefix_ + 1, rows := x.rows.filter (fun j => j ≠ x.prefix_) } n
    else x

/-- Signal and complete after a delivery (R588, R592). -/
def State.xferSignal (s : State) (r i before : Nat) : State :=
  let x := s.xferAt r i
  let w := x.dw 0
  let g := x.dw 0x68
  let all := decide (x.prefix_ = x.total)
  let n := if bit g 63 then (if bit w 58 then x.prefix_ - before else b2n all) else 0
  let s := (List.range n).foldl (fun t _ => t.issueInc r (fld g 27 16) 1) s
  if all then ((s.xferFree r i).count (pgComet r) oCometTxDone 1).taskDone r x.task else s

/-- An issued row is written to its destination and counts as delivered. -/
def State.rowDeliver (s : State) (r : Region) (i : Nat) (b : RowBuf) : State :=
  match s.xferRow r i b with
  | (false, s) => s.rowFault r i b.row
  | (true, s) =>
    let x := s.xferAt r.val i
    let y := { x with rows := x.rows ++ [b.row], bufs := x.bufs.filter (fun c => c.row ≠ b.row) }
    ((s.putXfer r.val i (y.advance (y.rows.length + 1))).count (pgComet r.val) oCometRows 1).xferSignal r.val i x.prefix_

/-- Rows are issued towards row j of transfer i; a read that finds no free buffer granule counts (R584). -/
def State.rowIssue (s : State) (r : Region) (i j : Nat) : State :=
  let s := s.issueTo r i j issueBound []
  let x := s.xferAt r.val i
  if x.next ≤ j ∧ x.dir ≠ 1 ∧ s.mayIssue r.val x = true ∧ s.bufRoom r.val (x.rowGranules x.next) = false then
    (s.count (pgComet r.val) oCometWinFullCyc 1).setEvt (pgComet r.val) 5
  else s

/-- ROW_DELIVERED (R587): the rows of the region are issued in Comet's order up to this one (R583 to R585), and it is delivered;
rows from a saved row on are not (R595), and none is while the wait is not met (R589). A fault saves the lowest faulting row
(R593, R594, R599). -/
def execRowDelivered (r : Region) (slot : Fin 1024) (row : Nat) (s : State) : Out State := s.live <|
  let i := slot.val
  let x := s.xferAt r.val i
  if x.st ≠ .active ∨ x.total ≤ row ∨ row < x.prefix_ ∨ x.rows.contains row = true ∨
      x.saved.any (fun k => decide (k ≤ row)) = true then .next s
  else
    let s := s.rowIssue r i row
    let x := s.xferAt r.val i
    match x.waitMet, x.bufs.find? (fun b => b.row = row) with
    | true, some b => .next (s.rowDeliver r i b)
    | _, _ => .next s

/-- TRANSFER_HALT (R592): an active transfer that faulted enters HALTED once the rows below its saved row that it has issued are
delivered (R595); those of a transfer whose wait is not met stay in their buffers. -/
def execTransferHalt (r : Region) (slot : Fin 1024) (s : State) : Out State := s.live <|
  let x := s.xferAt r.val slot.val
  match x.st, x.saved with
  | .active, some k =>
    if x.waitMet && !x.bufs.isEmpty then .next s
    else
    let s := s.putXfer r.val slot.val { x with st := .halted, next := k, rows := x.rows.filter (fun j => decide (j < k)) }
    .next ((s.count (pgComet r.val) oCometHalts 1).setEvt (pgComet r.val) 0)
  | _, _ => .next s

/-- TRANSFER_DRAIN_DONE (R592, R601, R604): what was in flight has returned; its buffers are released. -/
def execTransferDrainDone (r : Region) (slot : Fin 1024) (s : State) : Out State := s.live <|
  let x := s.xferAt r.val slot.val
  if x.st = .draining then
    let s := s.count (pgComet r.val) oCometCancelRd x.flight
    if x.ended = 0 then .next (s.xferCancelled r.val slot.val)
    else .next ((s.xferFree r.val slot.val).taskFail r.val x.task x.ended (pgComet r.val) (slot.val))
  else .next s

/-- A transfer's fault record is resumed with RETRY: only the record of its saved row counts (R596, R597). -/
def State.xferRetry (s : State) (r i row : Nat) : State :=
  let x := s.xferAt r i
  if x.saved = some row ∧ (x.st = .halted ∨ x.st = .active) then
    s.putXfer r i { x with st := .active, saved := none, next := row, rows := x.rows.filter (fun j => decide (j < row)) }
  else s

/-- A transfer's fault record is resumed with ABORT (R592). -/
def State.xferAbort (s : State) (r i row : Nat) : State :=
  let x := s.xferAt r i
  if x.saved = some row ∧ (x.st = .halted ∨ x.st = .active) then
    let s := s.waitDrop r (fun w => match w with | .transfer _ k => decide (k = i) | _ => false)
    ((s.xferRelease r i (fun _ => true)).xferFree r i).taskFail r x.task stXlatFault (pgComet r) i
  else s

/-- The transfers of a missed request are served as those of others from now on (R611). -/
def State.xferDemote (s : State) (slot : Nat) : State :=
  (List.range 12).foldl (fun s r =>
    let is := ((s.cometAt r).slots.filter (fun e => decide (e.2.slot = slot) && e.2.rt && decide (e.2.st ≠ .free))).map (·.1)
    if is.isEmpty then s
    else
      let s := is.foldl (fun s i => s.putXfer r i { s.xferAt r i with rt := false }) s
      (s.count (pgComet r) oCometDlDemoted is.length).setEvt (pgComet r) 4) s

end Sys2Proof.Machine
end

