-- ==== Sys2Proof/Machine/Walker.lean ====
section
/-! DEFINITION. Walker contexts at work (R316 to R361, R365 to R428): walk tasks, issue, exceptions, outstanding
requests, graph structure and sampling. -/

namespace Sys2Proof.Machine

/-! ## Walk tasks (R325 to R329, R365) -/

/-- A walk payload that keeps R641: reserved bits 0, PROG_VA aligned, PROG_LEN 1 to 1,024, N at least 1. -/
def walkPayloadOk (p : List Byte) : Bool :=
  let w (i : Nat) := wordAt p (8 * i)
  decide (fld (w 0) 63 52 = 0) && decide ((w 0).toNat % 8 = 0) && decide (fld (w 1) 63 11 = 0) &&
    decide (1 ≤ fld (w 1) 10 0) && decide (fld (w 1) 10 0 ≤ 1024) && decide (fld (w 4) 63 40 = 0) && decide (w 4 ≠ 0) &&
    decide (fld (w 5) 63 12 = 0) && decide (w 6 = 0) && decide (w 7 = 0)

/-- The task report of a Weevil (R329, R358): DONE_CTR increments when the task is done, a position that took an
exception makes the task fail. -/
def State.walkReport (s : State) (w : Nat) (t : WalkTask) : State :=
  let r := cluRegion (w / 4)
  let s := s.putWv w ((s.wvAt w).retire t.entry).assign
  if t.cancel then (s.setEvt (pgWlk w) 4).taskDone r t.entry
  else
    let s := s.count (pgWlk w) oWlkTasksDone 1
    let s := s.setEvt (pgWlk w) 0
    let s := s.issueInc r t.done 1
    match t.fail with
    | none => s.taskDone r t.entry
    | some (st, d) => s.taskFail r t.entry st (pgWlk w) d

/-- Report a task of a Weevil if it is done. -/
def State.walkDone (s : State) (w : Nat) (t : Option WalkTask) : State :=
  match t with
  | some t => if (s.wvAt w).finished t then s.walkReport w t else s
  | none => s

/-- After a context became FREE: it takes a position, and a task that is done is reported, be it the current or the next
(R327, R329). -/
def State.wFreed (s : State) (w : Nat) : State :=
  let s := s.putWv w (s.wvAt w).assign
  let s := s.walkDone w (s.wvAt w).cur
  let s := s.walkDone w (s.wvAt w).nxt
  s.walkDone w (s.wvAt w).cur

/-- Load a walk task's program (R365): the words with their poison marks. A fault parks the load. -/
def State.walkLoad (s : State) (w entry : Nat) : State :=
  let v := s.wvAt w
  let c := ctxRef w 0
  let r := cluRegion (w / 4)
  match (v.cur.toList ++ v.nxt.toList).find? (fun t => t.entry = entry) with
  | none => s
  | some t =>
    if t.loaded then s
    else match s.readVa r (.program c.clu c.wv) false t.progVa (8 * t.len) with
      | (none, s) => s
      | (some (bs, ps), s) =>
        let t' := { t with
          loaded := true, prog := (List.range t.len).map (fun i => wordAt bs (8 * i)),
          poison := (List.range t.len).map (fun i => ps.getD ((t.progVa + 8 * i) / 32 - t.progVa / 32) false) }
        let put (o : Option WalkTask) : Option WalkTask := o.map (fun (u : WalkTask) => if u.entry = entry then t' else u)
        let v := s.wvAt w
        (s.putWv w { v with cur := put v.cur, nxt := put v.nxt }).wFreed w

/-- A Weevil may take a task: it holds fewer than two and its current one has no unassigned position (R651). -/
def WvSt.accepts (v : WvSt) : Bool :=
  match v.cur, v.nxt with
  | none, _ => true
  | some t, none => !t.left && t.loaded
  | _, _ => false

/-- Deliver a WALK task to a Weevil (R325, R653). Its cluster forgets the graph descriptors it caches, so that a task reads what
software wrote before its admission (R333, assumption 94). -/
def State.walkDeliver (s : State) (w r e : Nat) : State :=
  let t := s.taskAt r e
  if !walkPayloadOk t.payload then s.taskFail r e stInvalidDesc (pgWlk w) 0
  else
    let p (i : Nat) := wordAt t.payload (8 * i)
    let u : WalkTask :=
      { entry := e, slot := t.slot, progVa := fld (p 0) 51 0, len := fld (p 1) 10 0, prog := [], poison := [],
        loaded := false, arg := p 2, p0 := (p 3).toNat, n := fld (p 4) 39 0, done := fld (p 5) 11 0,
        seed := (s.slotAt t.slot).seed, given := 0, fail := none, cancel := false }
    let v := s.wvAt w
    let v := { v with gated := false }
    let s := s.putGCache (w / 4) []
    let s := s.putWv w (match v.cur with | none => { v with cur := some u } | some _ => { v with nxt := some u })
    s.walkLoad w e

/-! ## Exceptions (R358 to R361, R424 to R428) -/

/-- Mark the task of a context as failed with a status, once (R358). -/
def WvSt.markFail (v : WvSt) (entry status detail : Nat) : WvSt :=
  let put (o : Option WalkTask) : Option WalkTask :=
    o.map (fun (u : WalkTask) => if u.entry = entry ∧ u.fail = none then { u with fail := some (status, detail) } else u)
  { v with cur := put v.cur, nxt := put v.nxt }

/-- Take an exception (R359, R427, R428): the record, EXC_COUNT, the event; the position ends once its requests have
returned. -/
def State.wTake (s : State) (c : CtxRef) (code addr pc : Nat) : State :=
  let w := (ctxWv c)
  let pg := pgWlk w
  let x := s.ctxAt c
  let k := s.rf pg oWlkExcNext 2 0
  let off := 0x300 + 32 * k
  let s := s.setRg pg off (word (2 ^ 63 + pc % 1024 * 2 ^ 48 + code % 256 * 2 ^ 40 + c.ctx.val))
  let s := s.setRg pg (off + 8) (word x.pos)
  let s := s.setRg pg (off + 16) (word s.ns)
  let s := s.setRg pg (off + 24) (word (addr % 2 ^ 52))
  let s := s.setRg pg oWlkExcNext (word ((k + 1) % 8))
  let s := (s.count pg oWlkExcCount 1).setEvt pg 1
  let s := s.putWv w ((s.wvAt w).markFail x.entry (if code = 5 then stXlatFault else stWalkerExc) code)
  let s := s.wUnpark c
  if x.reqs.isEmpty then (s.putCtx c CtxSt.reset).wFreed w
  else s.putCtx c { x with st := .except, held := none }

/-- After an attempt of a context to issue, `s` before and `t` after it: a context under STEP whose instruction issued is
halted again, unless its position ended or it took an exception (R947). `fin`: the instruction was an END. -/
def stepDone (c : CtxRef) (fin : Bool) (s t : State) : State :=
  let w := ctxWv c
  let x := s.ctxAt c
  let y := t.ctxAt c
  let exc := decide (t.rg (pgWlk w) oWlkExcCount ≠ s.rg (pgWlk w) oWlkExcCount)
  if !s.dbg.step.contains (w, c.ctx.val) || (!exc && decide (y.st = .waitMem)) then t
  else
    let done := fin && decide (y.pc ≠ x.pc + 1)
    let t := if exc || done then t else t.putCtx c { y with st := .halted, prior := y.st }
    let t := t.setDbg { t.dbg with step := t.dbg.step.filter (fun e => e ≠ (w, c.ctx.val)),
                                   result := if exc then 3 else if done then 2 else 1 }
    (t.count pgDbg oDbgSteps 1).setEvt pgDbg 1

/-- HELD_EXCEPTION (R426): a held exception is taken in place of the context's next issue, when its turn comes (R29). -/
def execHeldException (c : CtxRef) (s : State) : Out State := s.live <|
  let x := s.ctxAt c
  match x.st, x.held with
  | .ready, some (code, addr, pc) =>
    if (s.wvAt (ctxWv c)).turn c.ctx.val then .next ((stepDone c false s (s.wTake c code addr pc)).wTurn c) else .next s
  | _, _ => .next s

/-! ## Issue (R316, R368, R375 to R380) -/

/-- The instruction issued and is complete for the program counter (R368); ISSUED counts it. -/
def State.wGo (s : State) (c : CtxRef) (x : CtxSt) (pc : Nat) : State :=
  (s.putCtx c ((s.wvAt (ctxWv c)).past x pc)).count (pgWlk (ctxWv c)) oWlkIssued 1

/-- Advance by one instruction. -/
def State.wNext (s : State) (c : CtxRef) (x : CtxSt) : State := s.wGo c x (x.pc + 1)

/-- Issue the word at a context's program counter with the effect given for its opcode. -/
def State.wRun (s : State) (c : CtxRef) (f : CtxSt → Word → State → State) : State :=
  let v := s.wvAt (ctxWv c)
  let x := s.ctxAt c
  match v.wordOf x with
  | none => s
  | some (w, p) =>
    if p then
      let va := match v.taskOf x with | some t => t.progVa + 8 * x.pc | none => 0
      s.wTake c 0x0A va x.pc
    else if wIllegal w then s.wTake c 0x01 0 x.pc
    else if v.blocked x then
      let s := if wGuard x w && wIsRequest (wOpc w) && decide (missCap ≤ v.used) then s.count (pgWlk (ctxWv c)) oWlkReqFull 1 else s
      s.putCtx c { x with st := .waitMem }
    else if !wGuard x w then s.wNext c x
    else f x w s

/-- The opcode at a context's program counter. -/
def State.wOpcAt (s : State) (c : CtxRef) : Option Nat :=
  ((s.wvAt (ctxWv c)).wordOf (s.ctxAt c)).map (fun e => wOpc e.1)

/-- Issue for a READY context: when its turn comes (R29), or without a turn into WAIT_MEM where its instruction cannot issue
yet (R317). -/
def State.wIssueAt (s : State) (c : CtxRef) (fin : Bool) (f : CtxSt → Word → State → State) : State :=
  let v := s.wvAt (ctxWv c)
  if v.blocked (s.ctxAt c) then stepDone c fin s (s.wRun c f)
  else if v.turn c.ctx.val then (stepDone c fin s (s.wRun c f)).wTurn c
  else s

/-- Issue for a READY context whose next word has the opcode of the command; a held exception goes first (R426). -/
def State.wIssue (s : State) (c : CtxRef) (opc : Nat) (f : CtxSt → Word → State → State) : State :=
  let x := s.ctxAt c
  if x.st = .ready ∧ x.held = none ∧ s.wOpcAt c = some opc then s.wIssueAt c (opc == 0x51) f else s

/-- Write gD and advance. -/
def State.wSetD (s : State) (c : CtxRef) (x : CtxSt) (w v : Word) : State := s.wNext c (x.setReg (wD w) v)

/-! ## Scratchpad operands (R369 to R371) -/

/-- The scratchpad byte a context's operand names for an access of n bytes; none where R371 raises SPAD_RANGE. -/
def spadOperand (c : CtxRef) (op : Word) (n : Nat) : Option Nat :=
  let off := fld op 21 0
  if fld op 63 23 ≠ 0 then none
  else if bit op 22 then
    if off ≤ 511 ∧ off + n ≤ 512 then some (0x300000 + (c.wv.val * 512 + c.ctx.val) * 512 + off) else none
  else if off < 0x300000 ∧ off + n ≤ 0x300000 then some off else none

/-! ## Requests (R319, R321, R355, R356) -/

/-- Add a request to a context and advance. -/
def State.wReq (s : State) (c : CtxRef) (x : CtxSt) (op : WReqOp) : State :=
  s.wNext c { x with reqs := x.reqs ++ [⟨x.next, x.pc, op, []⟩], next := x.next + 1 }

/-- A request a CINC waits for (R416). -/
def WReqOp.isStore : WReqOp → Bool
  | .st _ _ => true
  | .put _ _ _ => true
  | .sadd _ _ _ _ => true
  | _ => false

/-- The requests with every CINC sent that follows no outstanding store (R416), and the increments to issue. -/
def sendCincs (c : CtxRef) : Bool → List WReq → List WReq × List (Nat × IncEnt)
  | _, [] => ([], [])
  | st, r :: rs =>
    let (rest, incs) := sendCincs c (st || r.op.isStore) rs
    match r.op with
    | .cinc g n amount false =>
      if st then (r :: rest, incs)
      else ({ r with op := .cinc g n amount true } :: rest,
            if amount = 0 then incs else (g, ⟨n, amount, some (c, r.id)⟩) :: incs)
    | _ => (r :: rest, incs)

/-- Send the increments of a context's CINCs that may go (R416). -/
def State.wCincs (s : State) (c : CtxRef) : State :=
  let x := s.ctxAt c
  let (rs, incs) := sendCincs c false x.reqs
  let s := s.putCtx c { x with reqs := rs }
  incs.foldl (fun t i =>
    let b := t.syncAt i.1
    t.putSync i.1 { b with incQ := b.incQ ++ [i.2] }) s

/-- The position of a context is over: it drains, or it took an exception, be it halted since (R316). -/
def CtxSt.isOver (x : CtxSt) : Bool :=
  decide (x.st = .except) || decide (x.st = .drain) || (decide (x.st = .halted) && decide (x.prior = .except))

/-- A request is complete (R319): its entry is free, the context and its Weevil go on, a drained or excepted context is
FREE with its last request. `f` writes what the completion delivers. -/
def State.wComplete (s : State) (c : CtxRef) (req : Nat) (f : CtxSt → CtxSt) : State :=
  let w := (ctxWv c)
  let x := s.ctxAt c
  let live := !x.isOver && decide (x.st ≠ .free)
  let x := { x with reqs := x.reqs.filter (fun r => r.id ≠ req) }
  let x := if live then f x else x
  let s :=
    if x.st = .drain ∧ x.reqs.isEmpty = true then ((s.putCtx c CtxSt.reset).count (pgWlk w) oWlkCancelled 1).wFreed w
    else if x.st = .except ∧ x.reqs.isEmpty = true then (s.putCtx c CtxSt.reset).wFreed w
    else (s.putCtx c x).wCincs c
  s.wWake w

/-- End a request with an exception of its response (R426, R428). -/
def State.wExcReq (s : State) (c : CtxRef) (r : WReq) (code addr : Nat) : State :=
  s.wComplete c r.id (fun x => x.hold code addr r.pc)

/-- An access of a request was not granted. A fault parks the context (R180, R316, R355): READY and WAIT_MEM become PARKED, a
halted one is parked on resume, one that waits for a counter or is parked already keeps its state; a context whose position is
over leaves no request behind (R360). An access that waits at its stack port parks nothing. -/
def State.wPark (s : State) (c : CtxRef) (req : Nat) : State :=
  if !s.parkedAt (cluRegion c.clu.val) (.walker c req) then s
  else
    let x := s.ctxAt c
    match x.st with
    | .ready => s.putCtx c { x with st := .parked }
    | .waitMem => s.putCtx c { x with st := .parked }
    | .parked => s
    | .waitCtr => s
    | .halted =>
      if x.prior = .ready ∨ x.prior = .waitMem then s.putCtx c { x with prior := .parked }
      else if x.isOver then s.wUnpark c else s
    | _ => s.wUnpark c

/-- RESUME with RETRY of a context's record (R316): READY again once none of its requests is parked (R186), the request
reissued. -/
def State.wRetry (s : State) (c : CtxRef) : State :=
  let x := s.ctxAt c
  if s.wHeldBy c then s
  else match x.st with
  | .parked => s.putCtx c { x with st := .ready }
  | .halted => if x.prior = .parked then s.putCtx c { x with prior := .ready } else s
  | _ => s

/-- RESUME with ABORT (R186, R316, R360): the translation exception of the request, taken by a parked context, held until it is
next READY by one that is not. -/
def State.wAbort (s : State) (c : CtxRef) (req va : Nat) : State :=
  let x := s.ctxAt c
  match x.reqs.find? (fun r => r.id = req) with
  | none => s
  | some r =>
    let y := { x with reqs := x.reqs.filter (fun q => q.id ≠ req) }
    if x.isOver then s.wComplete c req id
    else match x.st with
    | .parked => (s.putCtx c y).wTake c 0x05 va r.pc
    | .halted =>
      if x.prior = .parked then s.putCtx c { y.hold 0x05 va r.pc with prior := .ready } else s.wExcReq c r 0x05 va
    | .free => s
    | .drain => s.wComplete c req id
    | _ => s.wExcReq c r 0x05 va

/-- What reading structure answers. -/
inductive RdRes where
  | wait
  | poison (va : Nat)
  | ok (bs : List Byte)
  deriving DecidableEq, Repr

/-- The access at a VA that a request has read (R344, R356). -/
def State.wGot (s : State) (c : CtxRef) (req a : Nat) : Option (List Byte) :=
  ((s.ctxAt c).reqs.find? (fun r => r.id = req)).bind (fun r => (r.got.find? (fun e => e.1 = a)).map (fun e => e.2))

/-- Keep an access a request has read. -/
def State.wKeep (s : State) (c : CtxRef) (req a : Nat) (bs : List Byte) : State :=
  let x := s.ctxAt c
  s.putCtx c { x with reqs := x.reqs.map (fun r => if r.id = req then { r with got := r.got ++ [(a, bs)] } else r) }

/-- Read n bytes of memory for a walker request access by access (R999), each access once whatever the request reads of it
(R344, R356); k bounds the accesses. -/
def State.wReadN (s : State) (c : CtxRef) (req : Nat) : Nat → Nat → Nat → RdRes × State
  | 0, _, _ => (.ok [], s)
  | k + 1, va, n =>
    if n = 0 then (.ok [], s)
    else
      let a := va / 32 * 32
      let m := min n (32 - va % 32)
      let more (bs : List Byte) (s : State) : RdRes × State :=
        match s.wReadN c req k (va + m) (n - m) with
        | (.ok cs, s) => (.ok (sliceB bs (va % 32) m ++ cs), s)
        | r => r
      match s.wGot c req a with
      | some bs => more bs s
      | none =>
        match s.readVa1 (cluRegion c.clu.val) ⟨word a, .read, false, .walker c req⟩ 32 with
        | (none, s) => (.wait, s)
        | (some (bs, p), s) => if p then (.poison a, s) else more bs (s.wKeep c req a bs)

/-- Read n bytes of memory for a walker request. -/
def State.wRead (s : State) (c : CtxRef) (req va n : Nat) : RdRes × State := s.wReadN c req (n / 32 + 2) va n

/-! ## Graph structure (R330 to R334, R392, R395) -/

/-- A graph descriptor's fields (R330). -/
structure Graph where
  vertices : Nat
  offs     : Nat
  idx      : Nat
  cdf      : Nat
  deg      : Nat
  hub      : Nat
  idx64    : Bool
  edges    : Nat
  ew       : Nat
  ok       : Bool
  deriving DecidableEq, Repr

/-- Read the fields and check them (R395). -/
def graphOf (bs : List Byte) : Graph :=
  let w (i : Nat) := wordAt bs (8 * i)
  let f := w 5
  let h := fld f 63 32
  { vertices := fld (w 0) 39 0, offs := (w 1).toNat, idx := (w 2).toNat, cdf := (w 3).toNat, deg := (w 4).toNat,
    hub := if h = 0 then 65536 else h, idx64 := bit f 9, edges := (w 6).toNat, ew := (w 7).toNat,
    ok := decide (fld (w 0) 63 40 = 0) && decide (fld f 31 10 = 0) && decide (fld f 7 0 = 1) &&
      (decide (h = 0) || (decide (1024 ≤ h) && decide (h ≤ 16777216))) }

/-- What a structure read ends in: parked, an exception with its address, or a value. -/
inductive StRes (α : Type) where
  | wait
  | exc (code addr : Nat)
  | ok (v : α)
  deriving DecidableEq, Repr

/-- The cached descriptor of a VA. -/
def State.gCached (s : State) (clu gva : Nat) : Option (List Byte) :=
  ((s.gCache clu).find? (fun e => e.1 = gva)).map (fun e => e.2)

/-- Cache a descriptor that was read; in a full cache a free value picks the one that leaves. -/
def State.gKeep (s : State) (clu gva : Nat) (bs : List Byte) : State :=
  let (l, s) := s.cachePut graphCap ((s.gCache clu).filter (fun e => e.1 ≠ gva)) (gva, bs)
  s.putGCache clu l

/-- Read a graph descriptor, from the cluster's cache where it holds it (R333, R395, R999). -/
def State.gDesc (s : State) (c : CtxRef) (req gva : Nat) : StRes Graph × State :=
  let done (bs : List Byte) (s : State) : StRes Graph × State :=
    let g := graphOf bs
    (if g.ok then .ok g else .exc 0x07 gva, s)
  match s.gCached c.clu.val gva with
  | some bs => done bs s
  | none =>
    match s.wRead c req gva 64 with
    | (.wait, s) => (.wait, s)
    | (.poison a, s) => (.exc 0x0A a, s)
    | (.ok bs, s) => done bs (s.gKeep c.clu.val gva bs)

/-- Read the offsets of vertex v (R331, R334): its first position and degree. -/
def State.gOffs (s : State) (c : CtxRef) (req : Nat) (g : Graph) (v : Nat) : StRes (Nat × Nat) × State :=
  let va := (g.offs + 8 * v) % 2 ^ 64
  if g.vertices ≤ v then (.exc 0x06 va, s)
  else match s.wRead c req va 16 with
    | (.wait, s) => (.wait, s)
    | (.poison a, s) => (.exc 0x0A a, s)
    | (.ok bs, s) =>
      let a := leAt bs 0 8
      let b := leAt bs 8 8
      (if b < a ∨ g.edges < b then .exc 0x06 (va + 8) else .ok (a, b - a), s)

/-- Degree of a vertex (R332, R392). -/
def State.gDegree (s : State) (c : CtxRef) (req gva v : Nat) : StRes Nat × State :=
  match s.gDesc c req gva with
  | (.wait, s) => (.wait, s)
  | (.exc k a, s) => (.exc k a, s)
  | (.ok g, s) =>
    let viaOffs (s : State) : StRes Nat × State :=
      match s.gOffs c req g v with
      | (.wait, s) => (.wait, s)
      | (.exc k a, s) => (.exc k a, s)
      | (.ok o, s) => (.ok o.2, s)
    if g.deg = 0 ∨ g.vertices ≤ v then viaOffs s
    else match s.wRead c req ((g.deg + 4 * v) % 2 ^ 64) 4 with
      | (.wait, s) => (.wait, s)
      | (.poison a, s) => (.exc 0x0A a, s)
      | (.ok bs, s) => if leAt bs 0 4 = 2 ^ 32 - 1 then viaOffs s else (.ok (leAt bs 0 4), s)

/-! ## Sampling (R335 to R345) -/

/-- Word k of a sample request (R336). -/
def sampleWord (seed stream elem k : Nat) : Nat := (philox seed stream elem (k / 4)).getD (k % 4) 0

/-- A uniform draw below n from word k on (R337): the value and the next word. -/
def sampleDraw (seed stream elem k n : Nat) : Nat × Nat :=
  if n ≤ 2 ^ 32 then (sampleWord seed stream elem k * n / 2 ^ 32, k + 1)
  else ((sampleWord seed stream elem k + sampleWord seed stream elem (k + 1) * 2 ^ 32) * n / 2 ^ 64, k + 2)

/-- UNI_WOR with f < d (R338): n draws left, next i, word k, the set so far ascending. -/
def sampleWor (seed stream elem : Nat) : Nat → Nat → Nat → List Nat → List Nat × Nat
  | 0, _, k, S => (S, k)
  | n + 1, i, k, S =>
    let (t, k) := sampleDraw seed stream elem k (i + 1)
    let x := if S.contains t then i else t
    sampleWor seed stream elem n (i + 1) k (insertBy (fun a b => decide (a < b)) x S)

/-- UNI_WR (R340): n draws below d. -/
def sampleWr (seed stream elem d : Nat) : Nat → Nat → List Nat × Nat
  | 0, k => ([], k)
  | n + 1, k =>
    let (t, k) := sampleDraw seed stream elem k d
    let (ts, k) := sampleWr seed stream elem d n k
    (t :: ts, k)

/-- The first position, among CDF values known by position, whose value is below that of an earlier one (R334). -/
def cdfBad : List (Nat × Nat) → Option Nat
  | (_, a) :: (j, b) :: rest => if b < a then some j else cdfBad ((j, b) :: rest)
  | _ => none

/-- CDF values an instruction read join those it knows. -/
def cdfJoin (kn : SMap Nat) (first : Nat) (vs : List Nat) : SMap Nat :=
  (List.range vs.length).foldl (fun m i => smapSet (fun _ => 2 ^ 32) m (first + i) (vs.getD i 0)) kn

/-- Elements of the 32 B access that holds element i of a list of 4-byte values at va, clipped to d elements: the first
element and the number of them. -/
def cdfBlock (va d i : Nat) : Nat × Nat :=
  let a := (va + 4 * i) / 32 * 32
  let first := if va ≤ a then (a - va) / 4 else 0
  let last := min d ((a + 32 - va) / 4)
  (first, last - first)

/-- The least position whose cumulative weight exceeds x (R341), by binary search over accesses between elements lo and
hi; n bounds the reads (R344). Every value read is checked against all the request has read (R334). -/
def State.cdfFind (s : State) (c : CtxRef) (req va d x : Nat) : Nat → SMap Nat → Nat → Nat → StRes (Nat × SMap Nat) × State
  | 0, kn, lo, _ => (.ok (lo, kn), s)
  | n + 1, kn, lo, hi =>
    if hi ≤ lo then (.ok (lo, kn), s)
    else
      let (first, cnt) := cdfBlock va d ((lo + hi) / 2)
      match s.wRead c req (va + 4 * first) (4 * cnt) with
      | (.wait, s) => (.wait, s)
      | (.poison a, s) => (.exc 0x0A a, s)
      | (.ok bs, s) =>
        let vs := (List.range cnt).map (fun j => leAt bs (4 * j) 4)
        let kn := cdfJoin kn first vs
        match cdfBad kn with
        | some j => (.exc 0x06 (va + 4 * j), s)
        | none =>
          if vs.getD (cnt - 1) 0 ≤ x then s.cdfFind c req va d x n kn (first + cnt) hi
          else if vs.getD 0 0 > x ∧ first ≠ 0 then s.cdfFind c req va d x n kn lo first
          else (.ok (first + vs.findIdx (fun v => decide (x < v)), kn), s)

/-- WGT_WR (R341): n draws by weight. -/
def State.sampleWgt (s : State) (c : CtxRef) (req seed stream elem va d W : Nat) : Nat → Nat → SMap Nat → StRes (List Nat) × State
  | 0, _, _ => (.ok [], s)
  | n + 1, k, kn =>
    match s.cdfFind c req va d (sampleWord seed stream elem k * W / 2 ^ 32) 64 kn 0 d with
    | (.wait, s) => (.wait, s)
    | (.exc e a, s) => (.exc e a, s)
    | (.ok (i, kn), s) =>
      match s.sampleWgt c req seed stream elem va d W n (k + 1) kn with
      | (.ok is, s) => (.ok (i :: is), s)
      | r => r

/-- The output positions of a sample and the words drawn (R335 to R342). -/
def State.samplePos (s : State) (c : CtxRef) (req seed stream elem mode f : Nat) (g : Graph) (first d : Nat) :
    StRes (List Nat × Nat) × State :=
  if d = 0 then (.ok ([], 0), s)
  else if mode = 0 then
    (.ok (if d ≤ f then (List.range d, 0) else sampleWor seed stream elem f (d - f) 0 []), s)
  else if mode = 1 then (.ok (sampleWr seed stream elem d f 0), s)
  else
    let va := (g.cdf + 4 * first) % 2 ^ 64
    match s.wRead c req (va + 4 * (d - 1)) 4 with
    | (.wait, s) => (.wait, s)
    | (.poison a, s) => (.exc 0x0A a, s)
    | (.ok bs, s) =>
      let W := leAt bs 0 4
      if W = 0 then (.ok ([], 0), s)
      else match s.sampleWgt c req seed stream elem va d W f 0 (cdfJoin [] (d - 1) [W]) with
        | (.wait, s) => (.wait, s)
        | (.exc e a, s) => (.exc e a, s)
        | (.ok ps, s) => (.ok (ps, f), s)

/-- Read the neighbour indices at positions (R343); each access that holds one is read once (R344). -/
def State.sampleIdx (s : State) (c : CtxRef) (req base width : Nat) : List Nat → StRes (List Byte) × State
  | [] => (.ok [], s)
  | p :: ps =>
    match s.wRead c req ((base + width * p) % 2 ^ 64) width with
    | (.wait, s) => (.wait, s)
    | (.poison a, s) => (.exc 0x0A a, s)
    | (.ok bs, s) =>
      match s.sampleIdx c req base width ps with
      | (.ok cs, s) => (.ok (bs ++ cs), s)
      | r => r

/-- What a sample delivers: indices, edge positions, count, words drawn. -/
structure Sampled where
  idx   : List Byte
  edges : List Byte
  count : Nat
  words : Nat
  deriving DecidableEq, Repr

/-- Run a sample request (R335 to R345, R394, R395). -/
def State.sampleRun (s : State) (c : CtxRef) (req seed gva v f mode stream elem : Nat) (dst : Word) (edst : Option Word) :
    StRes Sampled × State :=
  match s.gDesc c req gva with
  | (.wait, s) => (.wait, s)
  | (.exc e a, s) => (.exc e a, s)
  | (.ok g, s) =>
    let width := if g.idx64 then 8 else 4
    if mode = 2 ∧ g.cdf = 0 then (.exc 0x07 gva, s)
    else if (spadOperand c dst (f * width)).isNone then (.exc 0x04 dst.toNat, s)
    else if edst.any (fun e => (spadOperand c e (f * 8)).isNone) then (.exc 0x04 (edst.getD 0).toNat, s)
    else match s.gOffs c req g v with
      | (.wait, s) => (.wait, s)
      | (.exc e a, s) => (.exc e a, s)
      | (.ok (first, d), s) =>
        match s.samplePos c req seed stream elem mode f g first d with
        | (.wait, s) => (.wait, s)
        | (.exc e a, s) => (.exc e a, s)
        | (.ok (ps, words), s) =>
          match s.sampleIdx c req (g.idx + width * first) width ps with
          | (.wait, s) => (.wait, s)
          | (.exc e a, s) => (.exc e a, s)
          | (.ok bs, s) => (.ok ⟨bs, ps.flatMap (fun p => leBytes 8 (first + p)), ps.length, words⟩, s)

end Sys2Proof.Machine
end

