-- ==== Sys2Proof/Machine/Table.lean ====
section
/-! DEFINITION. Embedding tables: descriptors and their check (R201 to R204, R994), the slot state machine and pins
(R246 to R248, R259), and rows: their places, dropped indices, the row directory (R207 to R209, R216, R287 to R297). -/

namespace Sys2Proof.Machine

/-! ## The table descriptor (R202) -/

/-- HOME. -/
def tdHome (d : List Byte) : Nat := fld (wordAt d 0) 52 49
/-- POOL_THR. -/
def tdThr (d : List Byte) : Nat := fld (wordAt d 0) 47 40
/-- FMT. -/
def tdFmt (d : List Byte) : Nat := fld (wordAt d 0) 34 32
/-- DIM. -/
def tdDim (d : List Byte) : Nat := fld (wordAt d 0) 27 14
/-- ROWS. -/
def tdRows (d : List Byte) : Nat := fld (wordAt d 8) 39 0
/-- COL_TOTAL. -/
def tdColTotal (d : List Byte) : Nat := fld (wordAt d 0x10) 31 16
/-- COL_FIRST. -/
def tdColFirst (d : List Byte) : Nat := fld (wordAt d 0x10) 15 0
/-- DIR_VA. -/
def tdDir (d : List Byte) : Nat := fld (wordAt d 0x18) 51 0
/-- CUR. -/
def tdCur (d : List Byte) : Nat := fld (wordAt d 0x20) 2 0
/-- UPD_SEQ. -/
def tdUpd (d : List Byte) : Word := wordAt d 0x28
/-- STATE of slot s. -/
def tdState (d : List Byte) (s : Nat) : Nat := fld (wordAt d (0x40 + 16 * s)) 58 56
/-- BASE_VA of slot s. -/
def tdBase (d : List Byte) (s : Nat) : Nat := fld (wordAt d (0x40 + 16 * s)) 51 0
/-- PINS of slot s. -/
def tdPins (d : List Byte) (s : Nat) : Nat := fld (wordAt d (0x48 + 16 * s)) 52 40
/-- LIVE_ROWS of slot s. -/
def tdLive (d : List Byte) (s : Nat) : Nat := fld (wordAt d (0x48 + 16 * s)) 39 0
/-- Pieces of a row (R207). -/
def tdPieces (d : List Byte) : Nat := tblPieces (tdFmt d) (tdDim d)

/-- Slot states (R246). -/
def svFree : Nat := 0
/-- LOADING. -/
def svLoading : Nat := 1
/-- READY. -/
def svReady : Nat := 2
/-- CURRENT. -/
def svCurrent : Nat := 3
/-- DRAINING. -/
def svDraining : Nat := 4

/-- A usable descriptor of index id, its accesses read clean (R994). -/
def tdOk (id : Nat) (d : List Byte) : Bool :=
  let w0 := wordAt d 0
  let g := 4 * 2 ^ fld w0 29 28
  decide (fld w0 63 53 = 0) && !bit w0 48 && decide (fld w0 39 35 = 0) && decide (fld w0 31 30 = 0) &&
    decide (fld w0 13 10 = 0) && decide (fld (wordAt d 8) 63 40 = 0) &&
    decide (fld (wordAt d 0x10) 63 46 = 0) && decide (fld (wordAt d 0x10) 39 38 = 0) &&
    decide (fld (wordAt d 0x18) 63 52 = 0) && decide (fld (wordAt d 0x20) 63 3 = 0) &&
    allZero ((d.drop 0x30).take 16) && allZero (d.drop 0xC0) &&
    (List.range 8).all (fun s =>
      let w := wordAt d (0x40 + 16 * s)
      decide (fld w 63 59 = 0) && decide (fld w 55 52 = 0) && decide (fld (wordAt d (0x48 + 16 * s)) 63 53 = 0) &&
        decide (tdState d s ≤ 4) && (decide (tdState d s = svFree) || decide (tdBase d s % 256 = 0))) &&
    (decide (tdHome d ≤ 11) || decide (tdHome d = 15)) && decide (tdFmt d ≤ 5) && decide (fld w0 29 28 ≠ 3) &&
    decide (fld w0 9 0 = id) && decide (1 ≤ tdDim d) && decide (tdDim d ≤ (if tdFmt d = 5 then 252 else 8192)) &&
    decide (1 ≤ tdRows d) && decide (fld (wordAt d 0x10) 37 32 ≤ fld (wordAt d 0x10) 45 40) &&
    decide (tdColFirst d + tdDim d ≤ tdColTotal d) && decide (tdDim d % g = 0) && decide (tdColFirst d % g = 0)

/-- VA of a descriptor (R201). -/
def State.tdVa (s : State) (id : Nat) : Nat := s.rf (pgEmb 0) oEmbTblBase 51 8 * 256 + 256 * id

/-- What reading a descriptor answers: it waits on a fault, the table has no usable descriptor, or the descriptor. -/
inductive TdRes where
  | wait
  | bad
  | ok (d : List Byte)
  deriving DecidableEq, Repr

/-- Descriptors an engine caches (R204). -/
def tdCap : Nat := 256

/-- Read a descriptor through engine r's cache (R204, R994). -/
def State.tdRead (s : State) (r : Nat) (who : Who) (id : Nat) : TdRes × State :=
  if s.rf (pgEmb 0) oEmbTblCount 10 0 ≤ id then (.bad, s)
  else
    let e := s.embAt r
    match e.cache.find? (fun c => c.1 = id) with
    | some c => (.ok c.2, s)
    | none =>
      match s.readVa r who false (s.tdVa id) 256 with
      | (none, s) => (.wait, s)
      | (some (d, ps), s) =>
        if ps.any id' || !tdOk id d then (.bad, s)
        else
          let (c, s) := s.cachePut tdCap (s.embAt r).cache (id, d)
          (.ok d, s.putEmb r { s.embAt r with cache := c })
where
  /-- The mark itself. -/
  id' (p : Bool) : Bool := p

/-- A refusal on account of a table with no usable descriptor (R994). -/
def State.tblBad (s : State) (r : Nat) : State := s.count (pgEmb r) oEmbTblBad 1

/-- Write one word of a descriptor through to memory and into every cache that holds it (R204). false: the write waits
on a fault. -/
def State.tdPut (s : State) (r : Nat) (who : Who) (id off : Nat) (v : Word) : Bool × State :=
  match s.writeVa r who false (s.tdVa id + off) (leBytes 8 v.toNat) false with
  | (false, s) => (false, s)
  | (true, s) =>
    (true, (List.range 12).foldl (fun t k =>
      let e := t.embAt k
      if e.cache.any (fun c => c.1 = id) then
        t.putEmb k { e with cache := e.cache.map (fun c => if c.1 = id then (c.1, patchB c.2 off (leBytes 8 v.toNat)) else c) }
      else t) s)

/-- Set STATE of a slot. -/
def State.tdSetState (s : State) (r : Nat) (who : Who) (id : Nat) (d : List Byte) (k st : Nat) : Bool × State :=
  s.tdPut r who id (0x40 + 16 * k) (setFld (wordAt d (0x40 + 16 * k)) 58 56 st)

/-- Set PINS of a slot. -/
def State.tdSetPins (s : State) (r : Nat) (who : Who) (id : Nat) (d : List Byte) (k n : Nat) : Bool × State :=
  s.tdPut r who id (0x48 + 16 * k) (setFld (wordAt d (0x48 + 16 * k)) 52 40 n)

/-- EMB page a table slot belongs to (R810). -/
def tdPage (d : List Byte) : Nat := pgEmb (if tdHome d ≤ 11 then tdHome d else 0)

/-- Broadcast the last write of an entry, which leaves no move to go on (R291); its frame is in use until every engine has
acknowledged it. -/
def State.castLast (s : State) (n : Nat) (c : RowCopy) : State :=
  (s.setIds (s.ids + 1)).setMoves (s.moves ++
    [{ id := s.ids, n := n, table := c.table, ver := c.ver, row := c.row, pieces := 0, homeVa := 0, entVa := c.entVa,
       ent := [0, 0, 0, 0], home := false, frame := some c.frame, old := none, phase := .last, acks := List.range 12, epochs := [],
       copied := 0, delayed := [], stale := true }])

/-- A move of the entry at a VA is in progress, or its last broadcast is. -/
def State.moveOn (s : State) (entVa : Nat) : Bool := s.moves.any (fun v => v.entVa = entVa)

/-- Release the entry of one copy whose slot became FREE, unless a move still holds it (R307). -/
def State.releaseCopy (s : State) (n : Nat) (c : RowCopy) : State :=
  if s.moveOn c.entVa then s
  else match s.writeVa n (.engine (Fin.ofNat 12 n) (2 ^ 17)) false c.entVa (List.replicate 32 0) false with
    | (false, s) => s
    | (true, s) =>
      let m := s.migAt n
      (s.putMig n { m with copies := m.copies.erase c }).castLast n c

/-- Release what is due of an engine's copies (R307). -/
def State.releaseGone (s : State) (n : Nat) : State :=
  if s.parkedAt n (.engine (Fin.ofNat 12 n) (2 ^ 17)) then s
  else ((s.migAt n).copies.filter (fun c => c.gone)).foldl (fun t c => t.releaseCopy n c) s

/-- A slot became FREE (R307): the entries of its copies are released and their frames returned, once each is ACTIVE or
EMPTY; a move in progress remembers it. -/
def State.slotGone (s : State) (id k : Nat) : State :=
  let s := s.setMoves (s.moves.map (fun v =>
    if v.table = id ∧ v.ver = k ∧ v.phase ≠ .last then { v with stale := true } else v))
  (List.range 12).foldl (fun t n =>
    let m := t.migAt n
    (t.putMig n { m with copies := m.copies.map (fun c => if c.table = id ∧ c.ver = k then { c with gone := true } else c) }).releaseGone n) s

/-- One pin of a slot drops; a DRAINING slot without pins becomes FREE and sets SLOT_FREED (R246, R247). -/
def State.unpin (s : State) (r : Nat) (who : Who) (id k : Nat) : Bool × State :=
  match s.tdRead r who id with
  | (.ok d, s) =>
    let n := tdPins d k - 1
    match s.tdSetPins r who id d k n with
    | (false, s) => (false, s)
    | (true, s) =>
      if n = 0 ∧ tdState d k = svDraining then
        match s.tdSetState r who id d k svFree with
        | (false, s) => (false, s)
        | (true, s) => (true, (s.slotGone id k).setEvt (tdPage d) 4)
      else (true, s)
  | (.bad, s) => (true, s)
  | (.wait, s) => (false, s)

/-- The slot a request pinned of a table (R247, R248). -/
def State.pinOf (s : State) (slot id : Nat) : Option Nat :=
  ((s.slotAt slot).pins.find? (fun p => p.1 = id)).map (·.2)

/-! ## Registers and the cache (R201, R204) -/

/-- Every EMB page takes a device-wide value. -/
def State.embAll (s : State) (off : Nat) (v : Word) : State :=
  (List.range 12).foldl (fun t r => t.setRg (pgEmb r) off v) s

/-- TBL_BASE_WRITE (R201): set on all twelve instances. -/
def execTblBaseWrite (_r : Region) (v : Word) (s : State) : Out State := s.live <|
  .next (s.embAll oEmbTblBase (v &&& word (2 ^ 52 - 2 ^ 8)))

/-- TBL_COUNT_WRITE (R201, R273): above 1,024 acts as 1,024. -/
def execTblCountWrite (_r : Region) (v : Word) (s : State) : Out State := s.live <|
  .next (s.embAll oEmbTblCount (word (min 1024 (fld v 10 0))))

/-- TBL_INV (R204): the descriptor leaves all twelve caches. -/
def execTblInv (_r : Region) (v : Word) (s : State) : Out State := s.live <|
  .next ((List.range 12).foldl (fun t r =>
    let e := t.embAt r
    t.putEmb r { e with cache := e.cache.filter (fun c => c.1 ≠ fld v 9 0) }) s)

/-! ## Indices (R216, R217) -/

/-- What becomes of an index (R216). -/
inductive IdxKind where
  | keep
  | missing
  | invalid
  deriving DecidableEq, Repr

/-- Classify an index of a slot (R216): PAD_INDEX is compared with the low 32 bits when IDX64 = 0. -/
def idxKind (d : List Byte) (ver : Nat) (idx64 : Bool) (pad : Option Nat) (i : Nat) : IdxKind :=
  if pad.any (fun p => decide ((if idx64 then p else p % 2 ^ 32) = i)) then .missing
  else if tdRows d ≤ i ∨ (idx64 = true ∧ 2 ^ 40 ≤ i) then .invalid
  else if tdLive d ver ≤ i then .missing
  else .keep

/-- Count dropped indices (R217). -/
def State.idxDrops (s : State) (r invalid missing : Nat) : State :=
  let s := if invalid = 0 then s else s.count (pgEmb r) oEmbIdxInvalid invalid
  let s := if missing = 0 then s else s.count (pgEmb r) oEmbIdxMissing missing
  if invalid + missing = 0 then s else s.setEvt (pgEmb r) 1

/-! ## The row directory (R287 to R289, R297) -/

/-- Multiplier of the bucket hash (R288). -/
def dirMul : Nat := 0x9E3779B97F4A7C15

/-- Bucket of a row (R288). -/
def dirBucket (row log : Nat) : Nat := row * dirMul % 2 ^ 64 / 2 ^ (64 - log)

/-- Word w of a directory entry's bytes. -/
def deWord (e : List Byte) (w : Nat) : Word := wordAt e (8 * w)
/-- STATE of an entry (R289). -/
def deState (e : List Byte) : Nat := fld (deWord e 0) 63 61

/-- The key fields of an entry match a row (R288). -/
def deIs (e : List Byte) (table ver row : Nat) : Bool :=
  decide (fld (deWord e 0) 49 40 = table) && decide (fld (deWord e 0) 58 56 = ver) && decide (fld (deWord e 0) 39 0 = row)

/-- VA of a row's bucket, by the directory's header (R287, R288); none while the read waits. -/
def State.dirVa (s : State) (u : Nat) (who : Who) (dir row : Nat) : Option Nat × State :=
  match s.readVa u who false dir 32 with
  | (none, s) => (none, s)
  | (some (h, _), s) => (some (dir + 128 + dirBucket row (leAt h 0 1 % 32) * 128), s)

/-- A row's bucket as memory holds it: its VA and bytes. -/
def State.dirMem (s : State) (u : Nat) (who : Who) (dir row : Nat) : Option (Nat × List Byte) × State :=
  match s.dirVa u who dir row with
  | (none, s) => (none, s)
  | (some va, s) =>
    match s.readVa u who false va 128 with
    | (none, s) => (none, s)
    | (some (b, _), s) => (some (va, b), s)

/-- A row's bucket as engine u sees it, through its directory cache (R291). -/
def State.dirRead (s : State) (u : Nat) (who : Who) (dir row : Nat) : Option (Nat × List Byte) × State :=
  match s.dirVa u who dir row with
  | (none, s) => (none, s)
  | (some va, s) =>
    match (s.migAt u).dirs.find? (fun e => e.1 = va) with
    | some e => (some (va, e.2), s)
    | none =>
      match s.readVa u who false va 128 with
      | (none, s) => (none, s)
      | (some (b, ps), s) =>
        if ps.any (fun p => p) then (some (va, b), s)
        else
          let (l, s) := s.cachePut dirCap (s.migAt u).dirs (va, b)
          (some (va, b), s.putMig u { s.migAt u with dirs := l })

/-- A broadcast drops the bucket of an entry from an engine's directory cache (R291). -/
def State.dirDrop (s : State) (u entVa : Nat) : State :=
  let m := s.migAt u
  s.putMig u { m with dirs := m.dirs.filter (fun e => !(decide (e.1 ≤ entVa) && decide (entVa < e.1 + 128))) }

/-- The entry of a row in a bucket: its VA and bytes (R288). -/
def dirFind (va : Nat) (b : List Byte) (table ver row : Nat) : Option (Nat × List Byte) :=
  (List.range 4).findSome? (fun i =>
    let e := sliceB b (32 * i) 32
    if deState e ≠ 0 ∧ deIs e table ver row = true then some (va + 32 * i, e) else none)

/-- Where a row is read: at its home VA, or at a PA of a copy (R297), with its directory epoch (R292). -/
inductive RowAt where
  | home
  | copy (pa : Nat)
  deriving DecidableEq, Repr

/-- The place an entry names for reads (R297): SWITCHED reads NEXT, every other state LOC. -/
def dePlace (e : List Byte) : RowAt :=
  if deState e = 3 then (if bit (deWord e 0) 59 then .home else .copy (fld (deWord e 2) 41 8 * 256))
  else if deState e = 0 ∨ bit (deWord e 0) 60 = true then .home
  else .copy (fld (deWord e 1) 41 8 * 256)

/-- Look a row up (R209): its place, its directory epoch, and whether engine u sees its entry as MOVING. An engine whose
acknowledgement of a switch is due still reads the entry as it was before (R300). -/
def State.rowPlace (s : State) (u : Nat) (who : Who) (d : List Byte) (ver row : Nat) :
    Option (RowAt × Nat × Bool) × State :=
  if tdDir d = 0 then (some (.home, 0, false), s)
  else
    match s.dirRead u who (tdDir d) row with
    | (none, s) => (none, s)
    | (some (va, b), s) =>
      match dirFind va b (fld (wordAt d 0) 9 0) ver row with
      | none => (some (.home, 0, false), s)
      | some (x, e) =>
        let late := decide (deState e = 3) && s.moves.any (fun m => decide (m.entVa = x) && decide (m.phase = .switch) && m.acks.contains u)
        let e' : List Byte := if late then patchB e 0 (leBytes 8 (setFld (deWord e 0) 63 61 2).toNat) else e
        (some (dePlace e', (deWord e 3).toNat - b2n late, decide (deState e' = 2)), s)

/-- Home VA of piece p of a row (R208). -/
def rowVa (d : List Byte) (ver row p : Nat) : Nat := tdBase d ver + (row * tdPieces d + p) * 256

/-- Physical address of piece p of a row at a place; poison pages and faults as in translation (R208, R290). -/
def State.piecePa (s : State) (u : Nat) (who : Who) (acc : Acc) (d : List Byte) (ver row p : Nat) (at_ : RowAt) :
    Option (Option Nat) × State :=
  match at_ with
  | .copy pa => (some (some (pa + 256 * p)), s)
  | .home => s.xlateF u ⟨word (rowVa d ver row p), acc, false, who⟩

end Sys2Proof.Machine
end

