-- ==== Sys2Proof/Machine/Bags.lean ====
section
/-! DEFINITION. Bags of an embedding engine (R212 to R241, R347 to R357, R441 to R445, R455 to R470): sums, the stack
traffic that feeds them, and their finish. -/

namespace Sys2Proof.Machine

/-! ## Tables of the engines -/

/-- Outstanding traffic replaced. -/
def State.putPart (s : State) (old new : PartSt) : State := s.setParts (s.parts.map (fun p => if p = old then new else p))
/-- Outstanding traffic removed. -/
def State.dropPart (s : State) (p : PartSt) : State := s.setParts (s.parts.erase p)
/-- Bag of an engine. -/
def State.bagAt (s : State) (r id : Nat) : Option BagSt := (s.embAt r).bags.find? (fun b => b.id = id)
/-- Bag replaced. -/
def State.putBag (s : State) (r : Nat) (b : BagSt) : State :=
  let e := s.embAt r
  s.putEmb r { e with bags := e.bags.map (fun c => if c.id = b.id then b else c) }
/-- Bag removed. -/
def State.dropBag (s : State) (r id : Nat) : State :=
  let e := s.embAt r
  s.putEmb r { e with bags := e.bags.filter (fun c => c.id ≠ id) }
/-- A bag enters an engine under its next number. -/
def State.addBag (s : State) (r : Nat) (b : BagSt) : State :=
  let e := s.embAt r
  s.putEmb r { e with bags := e.bags ++ [{ b with id := e.nextBag }], nextBag := e.nextBag + 1 }
/-- Swarm bag. -/
def State.swarmAt (s : State) (id : Nat) : Option SwarmSt := s.swarms.find? (fun w => w.id = id)
/-- Swarm bag replaced. -/
def State.putSwarm (s : State) (w : SwarmSt) : State := s.setSwarms (s.swarms.map (fun v => if v.id = w.id then w else v))

/-- Traffic of a bag is outstanding. -/
def State.bagBusy (s : State) (r id : Nat) : Bool := s.parts.any (fun p => p.owner = .bag r id)

/-- Batch by number. -/
def State.batchOf (s : State) (id : Nat) : Option BatchSt := s.batches.find? (fun b => b.id = id)

/-- The lowest TAG free at a stack for the embedding engines, from k on, within n. -/
def State.freeTag (s : State) (n : Nat) : Nat → Nat → Option Nat
  | 0, _ => none
  | m + 1, k => if s.parts.any (fun p => decide (p.stk = n) && decide (p.flit.tag.toNat = k)) then s.freeTag n m (k + 1) else some k

/-- Issue stack traffic under a free TAG; none when every TAG is in use. -/
def State.addPart (s : State) (p : PartSt) : Option State :=
  match s.freeTag p.stk (2 ^ 16) 0 with
  | none => none
  | some t =>
    let tag := BitVec.ofNat 16 t
    some (s.setParts (s.parts ++ [{ p with flit := { p.flit with tag := tag }, rows := p.rows.map (fun f => { f with tag := tag }) }]))

/-! ## Accumulators (R441, R442, R464) -/

/-- Accumulators a row of sums takes on every lane (R441). -/
def accNeed (cols : Nat) : Nat := (cols + 63) / 64

/-- Accumulators in use on every lane of a cluster's Firefly: bags that hold sums, and swarm sets. -/
def State.accUsed (s : State) (c : Nat) : Nat :=
  let bags := (List.range 12).map (fun r => (((s.embAt r).bags.filter (fun b => b.clu = c)).map (fun b => accNeed b.acc.length)).foldl (· + ·) 0)
  let sets := s.swarms.map (fun w => ((w.sets.filter (fun t => t.clu = c)).map (fun t => accNeed t.acc.length)).foldl (· + ·) 0 +
    (match w.total with | some t => if t.clu = c then accNeed t.acc.length else 0 | none => 0))
  (bags ++ sets).foldl (· + ·) 0

/-- Whether a cluster can reserve accumulators for a number of columns. -/
def State.accFits (s : State) (c cols : Nat) : Bool := decide (s.accUsed c + accNeed cols ≤ accPerLane)

/-! ## Sums -/

/-- Values added to a list of sums from column c0 on. -/
def addCols {α β : Type} (f : α → β → α) (l : List α) (c0 : Nat) (vs : List β) : List α :=
  l.take c0 ++ (List.zipWith f (l.drop c0) vs) ++ l.drop (c0 + vs.length)

/-- An exact sum as an FP32 value, rounded by RNE (R455). -/
def XAcc.to32 (a : XAcc) : Fl := fp32.decode (a.round fp32 .rne 1).bits

/-- A row's decoded values, weighted for WSUM (R229, R445). -/
def rowVals (fmt cols : Nat) (bs : List Byte) (w : Option Nat) : List Fl :=
  let vs := decodePiece fmt bs cols
  match w with
  | none => vs
  | some x => vs.map (fun v => (fp32.decode x).mul32 v)

/-- What a bag's sums take: direct addends, or partials. -/
inductive Addends where
  | row (vs : List Fl)
  | parts (ps : List (Option XAcc))
  deriving DecidableEq, Repr

/-- Add to exact sums (R229, R236, R432): a rejected partial adds nothing. -/
def addExact (acc : List XAcc) (c0 : Nat) : Addends → List XAcc
  | .row vs => addCols XAcc.add acc c0 vs
  | .parts ps => addCols (fun a p => match p with | some x => a.merge x | none => a) acc c0 ps

/-- Add to FP32 running sums in arrival order (R455). -/
def addFast (run : List Fl) (c0 : Nat) : Addends → List Fl
  | .row vs => addCols (fun a v => (a.add v).to32) run c0 vs
  | .parts ps => addCols (fun a p => match p with | some x => (a.add x.to32).to32 | none => a) run c0 ps

/-- Count what a cluster's exact lanes and its engine took (R273, R471). A rejected header is one rejected partial; nothing
behind it is read as a partial (DEDUCED, assumption 96). -/
def State.addCount (s : State) (r c : Nat) : Addends → State
  | .row vs => s.count (pgVec c) oVecAddends vs.length
  | .parts ps =>
    let ok := (ps.takeWhile (fun p => p.isSome)).length
    let bad := ok < ps.length
    let s := (s.count (pgEmb r) oEmbXpRecv (ok + b2n bad)).count (pgVec c) oVecXpIn ok
    if bad then (s.count (pgEmb r) oEmbXpBad 1).setEvt (pgEmb r) 2 else s

/-- Feed a bag's sums from column c0 on, with poison (R230, R235, R239). A swarm piece feeds its cluster's set (R463). -/
def State.feed (s : State) (r : Nat) (b : BagSt) (c0 : Nat) (x : Addends) (bad : Bool) : State :=
  let bad := bad || (match x with | .parts ps => ps.any (fun p => p.isNone) | .row _ => false)
  let s := s.addCount r b.clu x
  match b.owner with
  | .piece w _ =>
    (match s.swarmAt w with
    | none => s
    | some sw =>
      let up (t : SwarmSet) : SwarmSet :=
        if t.clu = b.clu then { t with acc := addExact t.acc c0 x, run := addFast t.run c0 x, poison := t.poison || bad } else t
      s.putSwarm { sw with sets := sw.sets.map up })
  | _ => s.putBag r { b with acc := addExact b.acc c0 x, run := addFast b.run c0 x, poison := b.poison || bad }

/-- The b-th cluster of CLU_MASK (R215). -/
def maskClu (mask b : Nat) : Nat :=
  let bits := onesBelow 12 mask
  bits.getD (b % max 1 bits.length) 0

/-! ## Row loads (R276, R277) -/

/-- Count pieces read or written at a stack for a table with a directory, and its row in the tracker (R276, R277). -/
def State.trackRow (s : State) (r : Nat) (d : List Byte) (ver row stk n : Nat) : State :=
  if tdDir d = 0 then s
  else
    let m := s.migAt r
    let cur := (m.slots.headD (List.replicate 12 0))
    let slots := (cur.set stk (cur.getD stk 0 + n)) :: m.slots.tail
    let table := fld (wordAt d 0) 9 0
    let hit (t : TrackEnt) : Bool := decide (t.table = table) && decide (t.ver = ver) && decide (t.row = row)
    let track :=
      if m.track.any hit then m.track.map (fun t => if hit t then { t with stk := stk, count := t.count + n } else t)
      else if m.track.length < trackCap then m.track ++ [⟨table, ver, row, stk, n⟩]
      else
        let low := m.track.foldl (fun k t => min k t.count) (m.track.headD ⟨0, 0, 0, 0, 0⟩).count
        match findIdx (fun t => t.count = low) m.track with
        | some i => m.track.set i ⟨table, ver, row, stk, low + 1⟩
        | none => m.track
    s.putMig r { m with slots := slots, track := track }

/-! ## Locating rows (R209, R222) -/

/-- A piece of a row located: stack, pseudo-channel and access; none where the access reads poisoned without memory
(R134, R190). -/
structure PieceAt where
  row   : Nat
  w     : Option Nat
  piece : Nat
  at_   : Option (Nat × Nat × Nat)
  pa    : Nat
  deriving DecidableEq, Repr

/-- Locate the pieces p, p + 1, … of a row at a place. -/
def State.locPieces (s : State) (u : Nat) (who : Who) (acc : Acc) (d : List Byte) (ver row : Nat) (w : Option Nat) (pl : RowAt) :
    Nat → Nat → Option (List PieceAt) × State
  | 0, _ => (some [], s)
  | n + 1, p =>
    match s.piecePa u who acc d ver row p pl with
    | (none, s) => (none, s)
    | (some pa, s) =>
      let (a, s) : Option (Nat × Nat × Nat) × State := match pa with
        | none => (none, s)
        | some x => (match s.paAcc x with
          | some (dv, ac) => (some (dv / 64, dv % 64, ac), s)
          | none => (none, s.addrErr u (whoSource who) x (decide (acc ≠ .read))))
      match s.locPieces u who acc d ver row w pl n (p + 1) with
      | (none, s) => (none, s)
      | (some rest, s) => (some (⟨row, w, p, a, pa.getD 0⟩ :: rest), s)

/-- Locate rows with their weights in list order (R209, R297): their pieces with each row's directory epoch. -/
def State.locRows (s : State) (u : Nat) (who : Who) (d : List Byte) (ver : Nat) :
    List (Nat × Option Nat) → Option (List (Nat × List PieceAt)) × State
  | [] => (some [], s)
  | (row, w) :: rs =>
    match s.rowPlace u who d ver row with
    | (none, s) => (none, s)
    | (some (pl, ep, _), s) =>
      match s.locPieces u who .read d ver row w pl (tdPieces d) 0 with
      | (none, s) => (none, s)
      | (some ps, s) =>
        match s.locRows u who d ver rs with
        | (none, s) => (none, s)
        | (some rest, s) => (some ((ep, ps) :: rest), s)

/-! ## Shares (R222 to R224) -/

/-- A list cut into m parts of consecutive elements whose sizes differ by at most 1. -/
def cutEven {α : Type} (l : List α) (m : Nat) : Nat → List (List α)
  | 0 => []
  | k + 1 =>
    let n := (l.length + k) / (k + 1)
    l.take n :: cutEven (l.drop n) m k

/-- A share of k rows as GPOOLs: their rows and whether THR acts as 1 (R223). -/
def cutShare {α : Type} (l : List α) : List (List α) :=
  let m := (l.length + 254) / 255
  if m ≤ 1 then [l] else cutEven l m m

/-- ARG of a GPOOL (R224). -/
def gpArg (fmt accs thr : Nat) (wsum : Bool) : Nat := (accs - 1) * 2 ^ 16 + b2n wsum * 2 ^ 14 + fmt * 2 ^ 11 + thr

/-- A flit of an embedding engine without a TAG. -/
def embFlit (pch addr count : Nat) (poison : Bool) (arg : Nat) (data : List Byte) : PortCmd :=
  { src := .emb, pch := BitVec.ofNat 6 pch, addr := BitVec.ofNat 25 addr, count := BitVec.ofNat 8 count, tag := 0,
    poison := poison, arg := BitVec.ofNat 32 arg, data := data }

/-- The GPOOLs of a share: piece p of rows that lie in stack n (R222, R223). -/
def shareParts (r : Nat) (b : BagSt) (d : List Byte) (epoch n p : Nat) (ps : List PieceAt) : List PartSt :=
  let accs := pieceAccs (tdFmt d) (tdDim d) p
  let cols := (pieceCols (tdFmt d) (tdDim d) p).2
  let thr := if ps.length ≤ 255 then tdThr d else if tdThr d = 0 then 0 else 1
  (cutShare ps).map (fun l =>
    let row (x : PieceAt) : PortCmd := match x.at_ with
      | some (_, pch, a) => embFlit pch a 0 false (x.w.getD 0) []
      | none => embFlit 0 0 0 false 0 []
    { stk := n, opc := 0x10, flit := embFlit 0 0 l.length false (gpArg (tdFmt d) accs thr (decide (b.op = 3))) [],
      rows := l.map row, region := r, owner := .bag r b.id, piece := p, wts := l.map (fun x => x.w.getD 0), k := l.length,
      seen := 0, got := [], bad := false, epoch := epoch, sent := false, gate := none, done := false, sadd := none,
      ncols := cols, pooled := false, vas := l.map (fun x => rowVa d b.ver x.row x.piece) })

/-- The RD of one piece of a gathered row (R221). -/
def readPart (r : Nat) (b : BagSt) (d : List Byte) (epoch n pch a p row : Nat) : PartSt :=
  { stk := n, opc := 0x01, flit := embFlit pch a (pieceAccs (tdFmt d) (tdDim d) p) false 0 [], rows := [], region := r,
    owner := .bag r b.id, piece := p, wts := [], k := 1, seen := 0, got := [], bad := false, epoch := epoch, sent := false,
    gate := none, done := false, sadd := none, ncols := (pieceCols (tdFmt d) (tdDim d) p).2, pooled := false,
    vas := [rowVa d b.ver row p] }

/-- Issue a list of parts; none when a TAG is missing. -/
def State.addParts (s : State) : List PartSt → Option State
  | [] => some s
  | p :: ps => match s.addPart p with
    | none => none
    | some s => s.addParts ps

/-! ## Reading lists (R996) -/

/-- n elements of w bytes at a VA: values with the marks of the accesses each lies in; none while a read waits. -/
def State.readList (s : State) (u : Nat) (who : Who) (va w n : Nat) : Option (List (Nat × Bool)) × State :=
  match s.readVa u who false va (w * n) with
  | (none, s) => (none, s)
  | (some (bs, ps), s) =>
    let mark (a : Nat) : Bool := ps.getD ((va + a) / 32 - va / 32) false
    (some ((List.range n).map (fun i => (leAt bs (w * i) w, mark (w * i) || mark (w * i + (w - 1))))), s)

/-- n elements of w bytes in a scratchpad: values with marks. -/
def State.spadList (s : State) (c a w n : Nat) : List (Nat × Bool) :=
  (List.range n).map (fun i => (ofLe (s.spadRd c (a + w * i) w), s.spadPoison c (a + w * i) w))

/-- A bag's indices and weights (R213, R349, R996): each kept pair, whether any was poisoned, and all indices. -/
def State.bagLists (s : State) (r : Nat) (b : BagSt) : Option (List (Nat × Option Nat) × Bool) × State :=
  let w := if b.idx64 then 8 else 4
  let who := Who.bag (Fin.ofNat 12 r) b.id
  let pair (is ws : List (Nat × Bool)) : List (Nat × Option Nat) × Bool :=
    let l := (List.range is.length).map (fun i => (is.getD i (0, false), ws.getD i (0, false)))
    ((l.filter (fun x => !x.1.2 && !x.2.2)).map (fun x => (x.1.1, if b.op = 3 then some x.2.1 else none)),
     l.any (fun x => x.1.2 || x.2.2))
  if b.offBad then (some ([], true), s)
  else if b.list then
    (some (pair (s.spadList b.clu b.idxVa w b.n) (if b.op = 3 then s.spadList b.clu b.wgtVa 4 b.n else [])), s)
  else
    match s.readList r who b.idxVa w b.n with
    | (none, s) => (none, s)
    | (some is, s) =>
      if b.op = 3 then
        match s.readList r who b.wgtVa 4 b.n with
        | (none, s) => (none, s)
        | (some ws, s) => (some (pair is ws), s)
      else (some (pair is []), s)

/-! ## Staged rows (R243 to R245) -/

/-- The staged row of a table slot, if it is staged. -/
def EmbSt.stagedRow (e : EmbSt) (table ver row : Nat) : Option Staged :=
  e.staged.find? (fun t => decide (t.table = table) && decide (t.ver = ver) && decide (t.row = row))

/-- Feed one staged row to a bag (R245). -/
def State.feedStaged (s : State) (r : Nat) (bid : Nat) (d : List Byte) (w : Option Nat) (t : Staged) : State :=
  (t.data.zip (List.range t.data.length)).foldl (fun u x =>
    match u.bagAt r bid with
    | none => u
    | some b =>
      if b.op = 0 then u.putBag r { b with got := b.got ++ [(x.2, x.1.1, x.1.2)] }
      else
        let (c0, n) := pieceCols (tdFmt d) (tdDim d) x.2
        u.feed r b c0 (.row (rowVals (tdFmt d) n x.1.1 w)) (x.1.2.any (fun p => p))) s

/-! ## Starting a bag (R222, R442) -/

/-- Pieces of located rows grouped by piece and stack, in index-list order, as traffic of a bag. -/
def bagParts (r : Nat) (b : BagSt) (d : List Byte) (epoch : Nat) (ps : List PieceAt) : List PartSt :=
  if b.op = 0 then
    ps.filterMap (fun x => x.at_.map (fun a => readPart r b d epoch a.1 a.2.1 a.2.2 x.piece x.row))
  else
    (List.range (tdPieces d)).flatMap (fun p => (List.range 12).flatMap (fun n =>
      let l := ps.filter (fun x => decide (x.piece = p) && x.at_.any (fun a => decide (a.1 = n)))
      if l.isEmpty then [] else shareParts r b d epoch n p l))

/-- The bag with its rows requested: sums opened, drops counted, staged rows fed, traffic issued. -/
def State.bagStart (s : State) (r : Nat) (b : BagSt) (d : List Byte) (all : List Nat) (bad : Bool)
    (rows : List (Nat × Option Nat)) (loc : List (Nat × List PieceAt)) : Option State :=
  let kinds := all.map (fun i => idxKind d b.ver b.idx64 b.pad i)
  let s := s.idxDrops r (kinds.countP (fun k => k = .invalid)) (kinds.countP (fun k => k = .missing))
  let exact := decide (b.op ≠ 0) && !b.fast && (match b.owner with | .piece _ _ => false | _ => true)
  let b := { b with started := true, count := rows.length, poison := b.poison || bad,
                    acc := if exact then List.replicate (tdDim d) XAcc.zero else [],
                    run := if b.fast then List.replicate (tdDim d) Fl.zero else [] }
  let s := s.putBag r b
  let e := s.embAt r
  let upd := tdUpd d
  let plan := (rows.zip loc).map (fun x =>
    (x.1, x.2, e.stagedRow (fld (wordAt d 0) 9 0) b.ver x.1.1))
  let good (x : (Nat × Option Nat) × (Nat × List PieceAt) × Option Staged) : Bool :=
    x.2.2.any (fun t => decide (t.epoch = x.2.1.1) && decide (t.upd = upd))
  let staged := plan.filter good
  let drop := plan.filter (fun x => x.2.2.isSome && !good x)
  let fresh := (plan.filter (fun x => !good x)).flatMap (fun x => x.2.1.2)
  let s := if staged.isEmpty then s else s.count (pgEmb r) oEmbStageHit staged.length
  let s := if drop.isEmpty then s else s.count (pgEmb r) oEmbStageDrop drop.length
  let s := s.putEmb r { s.embAt r with staged := (s.embAt r).staged.filter (fun t =>
    !plan.any (fun x => x.2.2 == some t)) }
  let s := staged.foldl (fun t x => match x.2.2 with | some g => t.feedStaged r b.id d x.1.2 g | none => t) s
  let lost := fresh.any (fun x => x.at_.isNone)
  let s := match s.bagAt r b.id with
    | some c => if lost then s.feed r c 0 (.row []) true else s
    | none => s
  let s := if lost && decide (b.op = 0) then
      (match s.bagAt r b.id with | some c => s.putBag r { c with poison := true } | none => s)
    else s
  let s := fresh.foldl (fun t x => match x.at_ with | some a => t.trackRow r d b.ver x.row a.1 1 | none => t) s
  s.addParts (bagParts r b d (s.migAt r).epoch fresh)

/-- A swarm whose table is no longer usable ends with the DESC exception of its request (R995, R404). -/
def State.swarmBad (s : State) (w : SwarmSt) : State :=
  match (s.ctxAt w.ctx).reqs.find? (fun q => q.id = w.req) with
  | some q => (s.wExcReq w.ctx q 0x07 (s.tdVa w.bag.table)).swarmCancel w
  | none => s.swarmCancel w

/-- A table's descriptor, read anew, is no longer usable: a bag that was taken up is refused with it (R995). A look-up ends
with INVALID_DESC, a walker's request with DESC (R404), a swarm with the request that issued it. -/
def State.bagBad (s : State) (r : Nat) (b : BagSt) : State :=
  let s := s.tblBad r
  match b.owner with
  | .task e => ((s.embTake r e).2).taskFail r e stInvalidDesc (pgEmb r) 0
  | .walker c req =>
    (match (s.ctxAt c).reqs.find? (fun q => q.id = req) with
    | some q => (s.dropBag r b.id).wExcReq c q 0x07 (s.tdVa b.table)
    | none => s.dropBag r b.id)
  | .piece w _ =>
    match (s.dropBag r b.id).swarmAt w with
    | none => s.dropBag r b.id
    | some x => (s.dropBag r b.id).swarmBad x

/-- ACC_RESERVE (R442): the engine takes up a waiting bag once its finishing cluster can hold its sums, reads its lists,
drops indices, locates its rows and issues its traffic. A fault holds the bag (R357); a want of accumulators is counted; a table
that is no longer usable refuses it (R995). -/
def execAccReserve (r : Region) (bag : Nat) (s : State) : Out State := s.live <|
  let who := Who.bag r bag
  match s.bagAt r.val bag with
  | none => .next s
  | some b =>
    if b.started ∨ s.parkedAt r.val who = true then .next s
    else match s.tdRead r.val who b.table with
      | (.ok d, s) =>
        let need := if b.op = 0 ∨ b.fast = true then 0 else match b.owner with | .piece _ _ => 0 | _ => tdDim d
        if !s.accFits b.clu need then .next (s.count (pgVec b.clu) oVecAccWait 1)
        else match s.bagLists r.val b with
          | (none, s) => .next s
          | (some (l, bad), s) =>
            let rows := l.filter (fun x => idxKind d b.ver b.idx64 b.pad x.1 = .keep)
            match s.locRows r.val who d b.ver rows with
            | (none, s) => .next s
            | (some loc, s) =>
              match s.bagStart r.val b d (l.map (·.1)) bad rows loc with
              | some t => .next t
              | none => .next s
      | (.bad, s) => .next (s.bagBad r.val b)
      | (.wait, s) => .next s

/-! ## Pooling in the stack (R225 to R233) -/

/-- THR and COUNT of a GPOOL ask for pooling (R225). -/
def gpPools (f : PortCmd) : Bool :=
  let thr := f.arg.toNat % 256
  decide (thr ≠ 0) && decide (thr ≤ f.count.toNat)

/-- The base die of stack n pools a GPOOL: R225 applies while its pool block is ON; otherwise the answer is raw (R829). -/
def State.gpPooled (s : State) (n : Nat) (f : PortCmd) : Bool := gpPools f && decide ((s.domAt (168 + n)).st = .on)

/-- Columns a GPOOL sums: those of the piece an engine's GPOOL reads (R207, R228); of any other GPOOL the elements of its
accesses (R224; a Q8R row has 4 bytes of scale and offset; assumption 22). -/
def State.gpCols (s : State) (n : Nat) (f : PortCmd) : Nat :=
  match s.parts.find? (fun p => decide (p.stk = n) && decide (p.opc = 0x10) && decide (p.flit = f)) with
  | some p => p.ncols
  | none =>
    let fmt := bitsOf f.arg.toNat 13 11
    if fmt = 5 then 32 * gpAccs f - 4 else 32 * gpAccs f / tblElemBytes fmt

/-- Accesses read for a row flit of a job. -/
def GpoolJob.accsOf (j : GpoolJob) (f : PortCmd) : List (List Byte × Bool) :=
  match j.rows.find? (fun g => decide (g.pch = f.pch.toNat) && decide (g.addr = f.addr.toNat)) with
  | some g => g.accs
  | none => []

/-- The pooled sums of a job, column by column (R229, R232). -/
def GpoolJob.sums (j : GpoolJob) (cols : Nat) : List XAcc :=
  let fmt := bitsOf j.f.arg.toNat 13 11
  let wsum := decide (bitsOf j.f.arg.toNat 15 14 = 1)
  j.want.foldl (fun acc f =>
    addCols XAcc.add acc 0 (rowVals fmt cols ((j.accsOf f).flatMap (·.1)) (if wsum then some f.arg.toNat else none)))
    (List.replicate cols XAcc.zero)

/-- A pooled answer's bytes: canonical partials padded to a multiple of 32 B (R228). -/
def poolBytes (sums : List XAcc) : List Byte :=
  let bs := sums.flatMap XAcc.partial_
  bs ++ List.replicate (roundUp bs.length 32 - bs.length) 0

/-- The response flits of a job whose rows are read (R227, R228, R230): pooled over its columns, or raw. -/
def GpoolJob.answer (j : GpoolJob) (pooled : Bool) (cols : Nat) : List Resp :=
  if pooled then
    let bs := poolBytes (j.sums cols)
    poolFlits j.f (j.rows.any (fun g => g.accs.any (·.2))) (bs.length / 256 + 1) bs
  else j.want.map (fun f => dataResp { f with tag := j.f.tag } (j.accsOf f) false)

/-- GPOOL (R121, R225): the header is taken from the command path; exactly COUNT rows follow. -/
def execGpool (n : Region) (f : PortCmd) (s : State) : Out State := s.live <|
  if f.carries 0 then
    let k := s.stkAt n.val
    if k.gp.isSome || !s.portOwn n.val 0x10 f || k.pools.any (fun j => j.f.tag = f.tag) || s.parkFull n.val f.src then .next s
    else
      let s := s.portSent n.val f
      if !portFieldsOk 0x10 f then .next (s.portRefuse n.val f)
      else
        let k := s.stkAt n.val
        .next (s.putStk n.val { k with gp := some (f.tag.toNat, f.count.toNat), pools := k.pools ++ [⟨f, [], []⟩] })
  else .fault (.illFormed "GPOOL")

/-- GPOOL_ROW (R121): one row of the preceding GPOOL; its pseudo-channel reads it in its turn. Of a GPOOL that an engine
issued, the rows are the engine's. After the last row a service flit that waited is issued. A row with no GPOOL open is
answered REFUSED, a row with another TAG does nothing, and a refused row is none of the COUNT (DESIGN CHOICE, assumption 91). -/
def execGpoolRow (n : Region) (f : PortCmd) (s : State) : Out State := s.live <|
  if f.carries 0 then
    let k := s.stkAt n.val
    match k.gp with
    | none => .next (s.portRefuse n.val f)
    | some (tag, left) =>
      let own := match s.parts.find? (fun p => decide (p.stk = n.val) && decide (p.opc = 0x10) && decide (p.flit.tag.toNat = tag) && p.sent) with
        | some p => decide (p.rows[p.k - left]? = some f)
        | none => true
      if f.tag.toNat ≠ tag ∨ own = false ∨ s.parkFull n.val f.src = true then .next s
      else if !portFieldsOk 0x11 f then .next (s.portRefuse n.val f)
      else if !portAddrOk 0x11 f then .next ((s.setEvt (pgStk n.val) 5).portRefuse n.val f)
      else
        let s := s.putStk n.val { k with gp := if left ≤ 1 then none else some (tag, left - 1),
                                         pools := k.pools.map (fun j => if j.f.tag = f.tag then { j with want := j.want ++ [f] } else j) }
        let s := s.portTake n.val ⟨0x11, f, []⟩
        .next (if left ≤ 1 then s.svcAfter n.val else s)
  else .fault (.illFormed "GPOOL_ROW")

/-- POOL_LANE_DONE (R228, R829): every row of a GPOOL is read; the base die answers it pooled or raw, and the engine knows
which. -/
def execPoolLaneDone (n : Region) (tag : BitVec 16) (s : State) : Out State := s.live <|
  let k := s.stkAt n.val
  match k.pools.find? (fun j => j.f.tag = tag) with
  | none => .next s
  | some j =>
    if j.want.length = j.f.count.toNat ∧ j.rows.length = j.want.length then
      let cols := s.gpCols n.val j.f
      let pooled := s.gpPooled n.val j.f
      let s := s.putStk n.val { k with pools := k.pools.filter (fun i => i.f.tag ≠ tag) }
      let s := s.setParts (s.parts.map (fun p =>
        if p.stk = n.val ∧ p.opc = 0x10 ∧ p.flit = j.f then { p with pooled := pooled } else p))
      .next ((j.answer pooled cols).foldl (fun t a => t.respond n.val a) s)
    else .next s

/-! ## Answers (R123, R227 to R236) -/

/-- Columns of a piece a bag of a table sums. -/
def State.partCols (s : State) (p : PartSt) (table : Nat) : Nat × Nat :=
  match (s.embAt p.region).cache.find? (fun c => c.1 = table) with
  | some c => pieceCols (tdFmt c.2) (tdDim c.2) p.piece
  | none => (0, 0)

/-- Format of a part's rows. -/
def PartSt.fmt (p : PartSt) : Nat := bitsOf p.flit.arg.toNat 13 11

/-- Columns and first column of piece p of a part whose bag sums `dim` columns in a format. -/
def PartSt.cols (p : PartSt) (dim : Nat) : Nat × Nat := pieceCols p.fmt dim p.piece

/-- Columns a bag's sums have; a swarm piece's are those of its cluster's set. -/
def State.bagDim (s : State) (b : BagSt) : Nat :=
  match b.owner with
  | .piece w _ => match s.swarmAt w with
    | some sw => (sw.sets.find? (fun t => t.clu = b.clu)).elim 0 (fun t => max t.acc.length t.run.length)
    | none => 0
  | _ => max b.acc.length b.run.length

/-- The partials an answer spells so far: the complete ones, if all columns are there. -/
def pooledReady (n : Nat) (bs : List Byte) : Option (List (Option XAcc)) :=
  let ps := readPartials n bs
  let used := (List.range n).foldl (fun (k : Nat) _ => match readPartial (bs.drop k) with | (some _, m) => k + m | (none, _) => k) 0
  if used ≤ bs.length ∧ (ps.all (fun p => p.isSome) = true ∨ 4 ≤ bs.length - used) then some ps else none

/-- A DATA flit for a GPOOL of a bag (R227, R228, R236). -/
def State.bagData (s : State) (p : PartSt) (b : BagSt) (x : Resp) : State :=
  let dim := s.bagDim b
  let (c0, n) := p.cols dim
  let bad := decide (x.poison ≠ 0)
  if p.pooled then
    let q := { p with got := p.got ++ x.data, bad := p.bad || bad }
    match pooledReady n q.got with
    | none => s.putPart p q
    | some ps => ((s.dropPart p).count (pgEmb p.region) oEmbRowsPooled p.k).feed p.region b c0 (.parts ps) q.bad
  else
    let w := if b.op = 3 then some (p.wts.getD p.seen 0) else none
    let s := if p.seen + 1 < p.k then s.putPart p { p with seen := p.seen + 1 } else s.dropPart p
    (s.count (pgEmb p.region) oEmbRowsRaw 1).feed p.region b c0 (.row (rowVals p.fmt n x.data w)) bad

/-- A DATA flit for the RD of a gathered row (R221). -/
def State.gatherData (s : State) (p : PartSt) (b : BagSt) (x : Resp) : State :=
  let marks := (List.range (x.data.length / 32)).map (fun i => x.poison.testBit i)
  ((s.dropPart p).count (pgEmb p.region) oEmbRowsRaw (if p.piece = 0 then 1 else 0)).putBag p.region
    { b with got := b.got ++ [(p.piece, x.data, marks)] }

/-- A refused answer for a bag's traffic: its rows are lost and the bag is poisoned. -/
def State.bagLost (s : State) (p : PartSt) (b : BagSt) : State :=
  let s := s.dropPart p
  if b.op = 0 then s.putBag p.region { b with poison := true } else s.feed p.region b 0 (.row []) true

/-- A CONFLICT answer ends the request of an admission slot with STATE_CONFLICT (R124): SOURCE names the pseudo-channel's page
and OBJ_STATE is the answer's STATE. -/
def State.reqConflict (s : State) (slot n : Nat) (x : Resp) : State :=
  let first := decide ((s.slotAt slot).st = .running) && decide ((s.slotAt slot).status = 0)
  let s := s.failReq slot stConflict (pgPch (n * 64 + x.pch)) 0
  if first then s.putSlot slot { s.slotAt slot with obj := x.state } else s

/-- A CONFLICT answer for a bag's traffic (R124): a walker's request ends with its CONFLICT exception (R404), any other
request with STATE_CONFLICT. -/
def State.bagConflict (s : State) (p : PartSt) (b : BagSt) (x : Resp) : State :=
  match b.owner with
  | .walker c req =>
    (match (s.ctxAt c).reqs.find? (fun q => q.id = req) with
    | some q => ((s.dropPart p).dropBag p.region b.id).wExcReq c q 0x08 0
    | none => (s.dropPart p).dropBag p.region b.id)
  | _ => (s.bagLost p b).reqConflict b.slot p.stk x

/-- RESPONSE_FLIT (R123): the oldest response of a stack leaves the base die, frees its slot (R125) and goes to the
requester that waits for its TAG; data that no engine of the model waits for are handed out. -/
def execResponseFlit (n : Region) (s : State) : Out State := s.live <|
  let k := s.stkAt n.val
  match k.resp with
  | [] => .next s
  | x :: rest =>
    let s := s.putStk n.val { k with resp := rest }
    match s.parts.find? (fun p => decide (p.stk = n.val) && decide (p.flit.tag.toNat = x.tag) && decide (p.flit.src = x.src) && p.sent) with
    | none => .next (s.emit (.portData n.val x.tag x.data x.poison))
    | some p =>
      match p.owner with
      | .batch i =>
        let s := if p.gate.isSome then s.putPart p { p with done := true } else s.dropPart p
        .next (match s.batchOf i with
          | some b => if x.rsp = 3 then s.reqConflict b.slot n.val x else s
          | none => s)
      | .move _ => .next (if x.rsp = 0 then s.dropPart p else s.putPart p { p with sent := false })
      | .bag r id =>
        match s.bagAt r id with
        | none => .next (if p.opc = 0x10 ∧ x.rsp = 1 ∧ p.seen + 1 < p.k ∧ p.pooled = false
                         then s.putPart p { p with seen := p.seen + 1 } else s.dropPart p)
        | some b =>
          .next (if x.rsp = 3 then s.bagConflict p b x else if x.rsp ≠ 1 then s.bagLost p b else if p.opc = 0x01 then s.gatherData p b x else s.bagData p b x)

end Sys2Proof.Machine
end

