-- ==== Sys2Proof/Machine/WalkIsa.lean ====
section
/-! DEFINITION. The walk-program instructions (R379 to R423) but for those the embedding engine completes: one meaning
per opcode. Each issues only from a READY context whose next word carries its opcode. -/

namespace Sys2Proof.Machine

/-! ## Register instructions (R379 to R382) -/

/-- gD := f gA gB. -/
def wAlu (f : Word → Word → Word) (c : CtxRef) (x : CtxSt) (w : Word) (s : State) : State :=
  s.wSetD c x w (f (x.reg (wA w)) (x.reg (wB w)))

/-- gD := f gA of the sign-extended IMM. -/
def wAluI (f : Word → Word → Word) (c : CtxRef) (x : CtxSt) (w : Word) (s : State) : State :=
  s.wSetD c x w (f (x.reg (wA w)) (wSext w))

/-- A condition code on two values (R381). -/
def wCond (k : Nat) (a b : Word) : Bool :=
  match k with
  | 0 => a == b
  | 1 => a != b
  | 2 => a.ult b
  | 3 => b.ule a
  | 4 => a.slt b
  | _ => b.sle a

/-- High 64 bits of the unsigned product. -/
def mulHigh (a b : Word) : Word := word (a.toNat * b.toNat / 2 ^ 64)

/-- Unsigned minimum. -/
def minU (a b : Word) : Word := if a.ult b then a else b
/-- Unsigned maximum. -/
def maxU (a b : Word) : Word := if a.ult b then b else a

/-- What NOP does (R379). -/
def wDoNop (c : CtxRef) : CtxSt → Word → State → State := fun x _ t => t.wNext c x

/-- NOP (R379). -/
def execWNop (c : CtxRef) (s : State) : Out State := s.live <| .next (s.wIssue c 0x00 (wDoNop c))

/-- What ADD does (R379). -/
def wDoAdd (c : CtxRef) : CtxSt → Word → State → State := wAlu (fun a b => a + b) c

/-- ADD (R379). -/
def execWAdd (c : CtxRef) (s : State) : Out State := s.live <| .next (s.wIssue c 0x01 (wDoAdd c))

/-- What SUB does (R379). -/
def wDoSub (c : CtxRef) : CtxSt → Word → State → State := wAlu (fun a b => a - b) c

/-- SUB (R379). -/
def execWSub (c : CtxRef) (s : State) : Out State := s.live <| .next (s.wIssue c 0x02 (wDoSub c))

/-- What MUL does (R379). -/
def wDoMul (c : CtxRef) : CtxSt → Word → State → State := wAlu (fun a b => a * b) c

/-- MUL (R379). -/
def execWMul (c : CtxRef) (s : State) : Out State := s.live <| .next (s.wIssue c 0x03 (wDoMul c))

/-- What MULHU does (R379). -/
def wDoMulhu (c : CtxRef) : CtxSt → Word → State → State := wAlu mulHigh c

/-- MULHU (R379). -/
def execWMulhu (c : CtxRef) (s : State) : Out State := s.live <| .next (s.wIssue c 0x04 (wDoMulhu c))

/-- What AND does (R379). -/
def wDoAnd (c : CtxRef) : CtxSt → Word → State → State := wAlu (fun a b => a &&& b) c

/-- AND (R379). -/
def execWAnd (c : CtxRef) (s : State) : Out State := s.live <| .next (s.wIssue c 0x05 (wDoAnd c))

/-- What OR does (R379). -/
def wDoOr (c : CtxRef) : CtxSt → Word → State → State := wAlu (fun a b => a ||| b) c

/-- OR (R379). -/
def execWOr (c : CtxRef) (s : State) : Out State := s.live <| .next (s.wIssue c 0x06 (wDoOr c))

/-- What XOR does (R379). -/
def wDoXor (c : CtxRef) : CtxSt → Word → State → State := wAlu (fun a b => a ^^^ b) c

/-- XOR (R379). -/
def execWXor (c : CtxRef) (s : State) : Out State := s.live <| .next (s.wIssue c 0x07 (wDoXor c))

/-- What SHL does (R379). -/
def wDoShl (c : CtxRef) : CtxSt → Word → State → State := wAlu (fun a b => a <<< (b.toNat % 64)) c

/-- SHL (R379). -/
def execWShl (c : CtxRef) (s : State) : Out State := s.live <| .next (s.wIssue c 0x08 (wDoShl c))

/-- What SHR does (R379). -/
def wDoShr (c : CtxRef) : CtxSt → Word → State → State := wAlu (fun a b => a >>> (b.toNat % 64)) c

/-- SHR (R379). -/
def execWShr (c : CtxRef) (s : State) : Out State := s.live <| .next (s.wIssue c 0x09 (wDoShr c))

/-- What SAR does (R379). -/
def wDoSar (c : CtxRef) : CtxSt → Word → State → State := wAlu (fun a b => a.sshiftRight (b.toNat % 64)) c

/-- SAR (R379). -/
def execWSar (c : CtxRef) (s : State) : Out State := s.live <| .next (s.wIssue c 0x0A (wDoSar c))

/-- What MINU does (R379). -/
def wDoMinu (c : CtxRef) : CtxSt → Word → State → State := wAlu minU c

/-- MINU (R379). -/
def execWMinu (c : CtxRef) (s : State) : Out State := s.live <| .next (s.wIssue c 0x0B (wDoMinu c))

/-- What MAXU does (R379). -/
def wDoMaxu (c : CtxRef) : CtxSt → Word → State → State := wAlu maxU c

/-- MAXU (R379). -/
def execWMaxu (c : CtxRef) (s : State) : Out State := s.live <| .next (s.wIssue c 0x0C (wDoMaxu c))

/-- What SEL does (R379). -/
def wDoSel (c : CtxRef) : CtxSt → Word → State → State := fun x w t => t.wSetD c x w (if x.pred (wSub w % 8) then x.reg (wA w) else x.reg (wB w))

/-- SEL (R379). -/
def execWSel (c : CtxRef) (s : State) : Out State := s.live <| .next (s.wIssue c 0x0D (wDoSel c))

/-- What ADDI does (R379). -/
def wDoAddi (c : CtxRef) : CtxSt → Word → State → State := wAluI (fun a b => a + b) c

/-- ADDI (R379). -/
def execWAddi (c : CtxRef) (s : State) : Out State := s.live <| .next (s.wIssue c 0x10 (wDoAddi c))

/-- What MULI does (R379). -/
def wDoMuli (c : CtxRef) : CtxSt → Word → State → State := wAluI (fun a b => a * b) c

/-- MULI (R379). -/
def execWMuli (c : CtxRef) (s : State) : Out State := s.live <| .next (s.wIssue c 0x11 (wDoMuli c))

/-- What ANDI does (R379). -/
def wDoAndi (c : CtxRef) : CtxSt → Word → State → State := wAluI (fun a b => a &&& b) c

/-- ANDI (R379). -/
def execWAndi (c : CtxRef) (s : State) : Out State := s.live <| .next (s.wIssue c 0x12 (wDoAndi c))

/-- What ORI does (R379). -/
def wDoOri (c : CtxRef) : CtxSt → Word → State → State := wAluI (fun a b => a ||| b) c

/-- ORI (R379). -/
def execWOri (c : CtxRef) (s : State) : Out State := s.live <| .next (s.wIssue c 0x13 (wDoOri c))

/-- What XORI does (R379). -/
def wDoXori (c : CtxRef) : CtxSt → Word → State → State := wAluI (fun a b => a ^^^ b) c

/-- XORI (R379). -/
def execWXori (c : CtxRef) (s : State) : Out State := s.live <| .next (s.wIssue c 0x14 (wDoXori c))

/-- What SHLI does (R379). -/
def wDoShli (c : CtxRef) : CtxSt → Word → State → State := fun x w t => t.wSetD c x w (x.reg (wA w) <<< (wImm w % 64))

/-- SHLI (R379). -/
def execWShli (c : CtxRef) (s : State) : Out State := s.live <| .next (s.wIssue c 0x15 (wDoShli c))

/-- What SHRI does (R379). -/
def wDoShri (c : CtxRef) : CtxSt → Word → State → State := fun x w t => t.wSetD c x w (x.reg (wA w) >>> (wImm w % 64))

/-- SHRI (R379). -/
def execWShri (c : CtxRef) (s : State) : Out State := s.live <| .next (s.wIssue c 0x16 (wDoShri c))

/-- What MOVI does (R379). -/
def wDoMovi (c : CtxRef) : CtxSt → Word → State → State := fun x w t => t.wSetD c x w (wSext w)

/-- MOVI (R379). -/
def execWMovi (c : CtxRef) (s : State) : Out State := s.live <| .next (s.wIssue c 0x17 (wDoMovi c))

/-- What MOVHI does (R379). -/
def wDoMovhi (c : CtxRef) : CtxSt → Word → State → State := fun x w t => t.wSetD c x w (setFld (x.reg (wD w)) 63 32 (wImm w))

/-- MOVHI (R379). -/
def execWMovhi (c : CtxRef) (s : State) : Out State := s.live <| .next (s.wIssue c 0x18 (wDoMovhi c))

/-- What SARI does (R379). -/
def wDoSari (c : CtxRef) : CtxSt → Word → State → State := fun x w t => t.wSetD c x w ((x.reg (wA w)).sshiftRight (wImm w % 64))

/-- SARI (R379). -/
def execWSari (c : CtxRef) (s : State) : Out State := s.live <| .next (s.wIssue c 0x19 (wDoSari c))

/-- What CMP does (R381). -/
def wDoCmp (c : CtxRef) : CtxSt → Word → State → State := fun x w t => t.wNext c (x.setPred (wD w) (wCond (wSub w % 8) (x.reg (wA w)) (x.reg (wB w))))

/-- CMP (R381). -/
def execWCmp (c : CtxRef) (s : State) : Out State := s.live <| .next (s.wIssue c 0x1A (wDoCmp c))

/-- What CMPI does (R381). -/
def wDoCmpi (c : CtxRef) : CtxSt → Word → State → State := fun x w t => t.wNext c (x.setPred (wD w) (wCond (wSub9 w % 8) (x.reg (wA w)) (wSext w)))

/-- CMPI (R381). -/
def execWCmpi (c : CtxRef) (s : State) : Out State := s.live <| .next (s.wIssue c 0x1B (wDoCmpi c))

/-- Predicate operation of PLOG (R379). -/
def wPlogOp (k : Nat) (a b : Bool) : Bool :=
  match k with
  | 0 => a && b
  | 1 => a || b
  | 2 => a != b
  | _ => a && !b

/-- What PLOG does (R379). -/
def wDoPlog (c : CtxRef) : CtxSt → Word → State → State := fun x w t =>
  t.wNext c (x.setPred (wD w) (wPlogOp (wSub w % 4) (x.pred (wA w)) (x.pred (wB w))))

/-- PLOG (R379). -/
def execWPlog (c : CtxRef) (s : State) : Out State := s.live <| .next (s.wIssue c 0x1C (wDoPlog c))

/-- Special values of MOVS (R382). -/
def State.wSpecial (s : State) (c : CtxRef) (x : CtxSt) (k : Nat) : Word :=
  let r := cluRegion c.clu.val
  let t := (s.wvAt (ctxWv c)).taskOf x
  match k with
  | 0 => word (r * 12 + (s.logClu c.clu.val).getD 0)
  | 1 => word r
  | 2 => match t with | some u => u.seed | none => 0
  | 3 => word (s.rf pgDev oDevDevNum 11 0)
  | 4 => match t with | some u => word u.p0 | none => 0
  | _ => match t with | some u => word u.n | none => 0

/-- What MOVS does (R382). -/
def wDoMovs (c : CtxRef) : CtxSt → Word → State → State := fun x w t => t.wSetD c x w (t.wSpecial c x (wSub9 w % 16))

/-- MOVS (R382). -/
def execWMovs (c : CtxRef) (s : State) : Out State := s.live <| .next (s.wIssue c 0x1D (wDoMovs c))

/-- What LEA does (R379). -/
def wDoLea (c : CtxRef) : CtxSt → Word → State → State := fun x w t =>
  t.wSetD c x w (x.reg (wA w) + (x.reg (wB9 w) <<< (wSub9 w % 16)) + wSext w)

/-- LEA (R379). -/
def execWLea (c : CtxRef) (s : State) : Out State := s.live <| .next (s.wIssue c 0x20 (wDoLea c))

/-- What IDX does (R379). -/
def wDoIdx (c : CtxRef) : CtxSt → Word → State → State := fun x w t => t.wSetD c x w (x.reg (wA w) + x.reg (wB9 w) * word (wImm w))

/-- IDX (R379). -/
def execWIdx (c : CtxRef) (s : State) : Out State := s.live <| .next (s.wIssue c 0x21 (wDoIdx c))

/-! ## Memory and scratchpad (R383 to R391) -/

/-- Access size of LD, ST, LDS, STS (R383). -/
def wSize (w : Word) : Nat := 2 ^ (wSub9 w % 4)

/-- Address of LD, ST, LDS, STS (R384). -/
def wAddr (x : CtxSt) (w : Word) : Word := x.reg (wA w) + wSext w

/-- A loaded value extended to 64 bits (R383). -/
def wExtend (size : Nat) (sext : Bool) (v : Nat) : Word :=
  if sext then word (wrapInt 64 (signedOf (8 * size) v)) else word v

/-- What LD does (R384, R346, R355). -/
def wDoLd (c : CtxRef) : CtxSt → Word → State → State := fun x w t =>
  let a := wAddr x w
  if a.toNat % wSize w ≠ 0 then t.wTake c 0x03 a.toNat x.pc
  else (t.wReq c x (.ld a.toNat (wSize w) (wSub9 w / 4 % 2 = 1) (wD w))).count (pgWlk (ctxWv c)) oWlkLoads 1

/-- LD (R384, R346, R355). -/
def execWLd (c : CtxRef) (s : State) : Out State := s.live <| .next (s.wIssue c 0x28 (wDoLd c))

/-- What ST does (R384, R387). -/
def wDoSt (c : CtxRef) : CtxSt → Word → State → State := fun x w t =>
  let a := wAddr x w
  if a.toNat % wSize w ≠ 0 then t.wTake c 0x03 a.toNat x.pc
  else t.wReq c x (.st a.toNat (leBytes (wSize w) (x.reg (wD w)).toNat))

/-- ST (R384, R387). -/
def execWSt (c : CtxRef) (s : State) : Out State := s.live <| .next (s.wIssue c 0x29 (wDoSt c))

/-- What LDS does (R383, R384, R390): a read of a poisoned access holds POISON and writes no register. `e` is what
SECDED and parity find (R870). -/
def wDoLds (c : CtxRef) (e : SpadErr) : CtxSt → Word → State → State := fun x w t =>
  let a := wAddr x w
  match spadOperand c a (wSize w) with
  | none => t.wTake c 0x04 a.toNat x.pc
  | some b =>
    if b % wSize w ≠ 0 then t.wTake c 0x03 a.toNat x.pc
    else
      let clu := c.clu.val
      let slot := match (t.wvAt (ctxWv c)).taskOf x with | some u => u.slot | none => 0
      let t := t.spadFound clu b 0 c.wv.val slot e
      let x := if e = .unitState then t.ctxAt c else x
      if x.st = .free ∨ x.st = .drain then t
      else if t.spadPoison clu b (wSize w) then t.wNext c (x.hold 0x0A (b / 32 * 32) x.pc)
      else t.wSetD c x w (wExtend (wSize w) (wSub9 w / 4 % 2 = 1) (ofLe (t.spadRd clu b (wSize w))))

/-- LDS (R383). -/
def execWLds (c : CtxRef) (e : SpadErr) (s : State) : Out State := s.live <| .next (s.wIssue c 0x2A (wDoLds c e))

/-- What STS does (R383, R384, R998): part of an access is written, so its mark stays. -/
def wDoSts (c : CtxRef) (e : SpadErr) : CtxSt → Word → State → State := fun x w t =>
  let a := wAddr x w
  match spadOperand c a (wSize w) with
  | none => t.wTake c 0x04 a.toNat x.pc
  | some b =>
    if b % wSize w ≠ 0 then t.wTake c 0x03 a.toNat x.pc
    else
      let clu := c.clu.val
      let slot := match (t.wvAt (ctxWv c)).taskOf x with | some u => u.slot | none => 0
      let t := t.spadFound clu b 0 c.wv.val slot e
      let x := if e = .unitState then t.ctxAt c else x
      if x.st = .free ∨ x.st = .drain then t
      else (t.spadWr clu b (leBytes (wSize w) (x.reg (wD w)).toNat) false).wNext c x

/-- STS (R383). -/
def execWSts (c : CtxRef) (e : SpadErr) (s : State) : Out State := s.live <| .next (s.wIssue c 0x2B (wDoSts c e))

/-- Bytes of GATHER and PUT (R379). -/
def wBlock (w : Word) : Nat := (wSub w % 64 + 1) * 32

/-- What GATHER does (R385, R390). -/
def wDoGather (c : CtxRef) : CtxSt → Word → State → State := fun x w t =>
  let a := x.reg (wA w)
  let b := x.reg (wB w)
  match spadOperand c b (wBlock w) with
  | none => t.wTake c 0x04 b.toNat x.pc
  | some k =>
    if a.toNat % 32 ≠ 0 then t.wTake c 0x03 a.toNat x.pc
    else if k % 32 ≠ 0 then t.wTake c 0x03 b.toNat x.pc
    else t.wReq c x (.gather a.toNat k (wSub w % 64 + 1) 0)

/-- GATHER (R385, R390). -/
def execWGather (c : CtxRef) (s : State) : Out State := s.live <| .next (s.wIssue c 0x2C (wDoGather c))

/-- What PUT does (R385, R388). -/
def wDoPut (c : CtxRef) : CtxSt → Word → State → State := fun x w t =>
  let a := x.reg (wA w)
  let b := x.reg (wB w)
  match spadOperand c b (wBlock w) with
  | none => t.wTake c 0x04 b.toNat x.pc
  | some k =>
    if a.toNat % 32 ≠ 0 then t.wTake c 0x03 a.toNat x.pc
    else if k % 32 ≠ 0 then t.wTake c 0x03 b.toNat x.pc
    else t.wReq c x (.put a.toNat (t.spadRd c.clu.val k (wBlock w)) (t.spadMarks c.clu.val k (wBlock w)))

/-- PUT (R385, R388). -/
def execWPut (c : CtxRef) (s : State) : Out State := s.live <| .next (s.wIssue c 0x2D (wDoPut c))

/-- What FENCE does (R422: it issues once every earlier request has completed). -/
def wDoFence (c : CtxRef) : CtxSt → Word → State → State := fun x _ t => t.wNext c x

/-- FENCE (R422: it issues once every earlier request has completed). -/
def execWFence (c : CtxRef) (s : State) : Out State := s.live <| .next (s.wIssue c 0x2E (wDoFence c))

/-! ## Graph structure and prefetch (R392 to R395, R352) -/

/-- What DEG does (R392). -/
def wDoDeg (c : CtxRef) : CtxSt → Word → State → State := fun x w t =>
  let a := x.reg (wA w)
  if a.toNat % 64 ≠ 0 then t.wTake c 0x03 a.toNat x.pc
  else t.wReq c x (.deg a.toNat (x.reg (wB w)).toNat (wD w))

/-- DEG (R392). -/
def execWDeg (c : CtxRef) (s : State) : Out State := s.live <| .next (s.wIssue c 0x30 (wDoDeg c))

/-- What SAMPLE does (R393). -/
def wDoSample (c : CtxRef) : CtxSt → Word → State → State := fun x w t =>
  let a := x.reg (wA w)
  let f := x.reg (wF w)
  let g := x.reg (wG w)
  let edge := bit w 8
  if (spadOperand c f 1).isNone then t.wTake c 0x04 f.toNat x.pc
  else if edge && (spadOperand c g 1).isNone then t.wTake c 0x04 g.toNat x.pc
  else if a.toNat % 64 ≠ 0 then t.wTake c 0x03 a.toNat x.pc
  else if f.toNat % 32 ≠ 0 then t.wTake c 0x03 f.toNat x.pc
  else if edge && decide (g.toNat % 32 ≠ 0) then t.wTake c 0x03 g.toNat x.pc
  else
    t.wReq c x (.sample a.toNat (x.reg (wB w)).toNat (wSub w % 64 + 1) (wSub w / 64 % 4) (fld (x.reg (wC w)) 31 0)
      (x.reg (wE w)).toNat f.toNat (if edge then some g.toNat else none) (wD w))

/-- SAMPLE (R393). -/
def execWSample (c : CtxRef) (s : State) : Out State := s.live <| .next (s.wIssue c 0x31 (wDoSample c))

/-- What an access of a prefetch answers: translated, dropped (R352), or waiting at a stack port, where the prefetch, which
delivers nothing, ends without being dropped. -/
inductive PfRes (α : Type) where
  | ok (v : α)
  | drop
  | wait
  deriving DecidableEq, Repr

/-- Translate for a prefetch: a fault drops it without a record (R352). -/
def State.pfXlate (s : State) (c : CtxRef) (va : Nat) : PfRes Nat × State :=
  match s.xlate (cluRegion c.clu.val) ⟨word va, .read, false, .walker c (2 ^ 16)⟩ with
  | (.pa a, s) => (.ok a, s)
  | (.wait, s) => (.wait, s)
  | (_, s) => (.drop, s)

/-- Read n bytes at a VA for a prefetch, access by access. -/
def State.pfRead (s : State) (c : CtxRef) (va : Nat) : Nat → Nat → PfRes (List Byte) × State
  | 0, _ => (.ok [], s)
  | k + 1, n =>
    if n = 0 then (.ok [], s)
    else
      let m := min n (32 - va % 32)
      match s.pfXlate c va with
      | (.drop, s) => (.drop, s)
      | (.wait, s) => (.wait, s)
      | (.ok a, s) =>
        if !s.paServes (cluRegion c.clu.val) (pgWlk (ctxWv c)) a then (.wait, s)
        else
          let ((bs, p), s) := s.readPa (cluRegion c.clu.val) (pgWlk (ctxWv c)) (a / 32 * 32)
          if p then (.drop, s)
          else match s.pfRead c (va + m) k (n - m) with
            | (.ok cs, s) => (.ok (sliceB bs (a % 32) m ++ cs), s)
            | r => r

/-- Translate the pages of a range, 64 KiB apart; n bounds them. false: dropped. -/
def State.pfPages (s : State) (c : CtxRef) (va last : Nat) : Nat → Bool × State
  | 0 => (true, s)
  | n + 1 =>
    match s.pfXlate c va with
    | (.drop, s) => (false, s)
    | (.wait, s) => (true, s)
    | (.ok _, s) =>
      let nxt := (va / 2 ^ 16 + 1) * 2 ^ 16
      if nxt ≤ last then s.pfPages c nxt last n else (true, s)

/-- The descriptor a prefetch names, from the cluster's cache or from memory (R333). -/
def State.pfDesc (s : State) (c : CtxRef) (gva : Nat) : PfRes (List Byte) × State :=
  match s.gCached c.clu.val gva with
  | some bs => (.ok bs, s)
  | none =>
    match s.pfRead c gva 3 64 with
    | (.ok bs, s) => (.ok bs, s.gKeep c.clu.val gva bs)
    | r => r

/-- A prefetch (R352, R395): descriptor and offsets are read, the pages of the neighbour list are translated; it
delivers nothing. false: dropped. -/
def State.prefetch (s : State) (c : CtxRef) (gva v : Nat) : Bool × State :=
  match s.pfDesc c gva with
  | (.drop, s) => (false, s)
  | (.wait, s) => (true, s)
  | (.ok bs, s) =>
    let g := graphOf bs
    if !g.ok || decide (g.vertices ≤ v) then (false, s)
    else match s.pfRead c ((g.offs + 8 * v) % 2 ^ 64) 3 16 with
      | (.drop, s) => (false, s)
      | (.wait, s) => (true, s)
      | (.ok os, s) =>
        let a := leAt os 0 8
        let b := leAt os 8 8
        let width := if g.idx64 then 8 else 4
        if b ≤ a then (true, s)
        else
          let first := (g.idx + width * a) % 2 ^ 64
          s.pfPages c first (first + width * (b - a) - 1) (width * (b - a) / 2 ^ 16 + 2)

/-- What PF does (R352). -/
def wDoPf (c : CtxRef) : CtxSt → Word → State → State := fun x w t =>
  let a := x.reg (wA w)
  if a.toNat % 64 ≠ 0 then t.wTake c 0x03 a.toNat x.pc
  else
    match t.prefetch c a.toNat (x.reg (wB w)).toNat with
    | (true, t) => t.wNext c x
    | (false, t) => ((t.count (pgWlk (ctxWv c)) oWlkPfDrop 1).setEvt (pgWlk (ctxWv c)) 3).wNext c x

/-- PF (R352). -/
def execWPf (c : CtxRef) (s : State) : Out State := s.live <| .next (s.wIssue c 0x32 (wDoPf c))

/-! ## Counters, random numbers, control (R396 to R398, R414 to R423) -/

/-- A counter operand of CINC and CWAIT (R414). -/
def wCtrOk (v : Word) : Bool := decide (fld v 63 16 = 0) && decide (fld v 15 12 ≤ 11)

/-- What CINC does (R415, R416). -/
def wDoCinc (c : CtxRef) : CtxSt → Word → State → State := fun x w t =>
  let a := x.reg (wA w)
  if !wCtrOk a then t.wTake c 0x0C a.toNat x.pc
  else (t.wReq c x (.cinc (fld a 15 12) (fld a 11 0) (wImm w) false)).wCincs c

/-- CINC (R415, R416). -/
def execWCinc (c : CtxRef) (s : State) : Out State := s.live <| .next (s.wIssue c 0x40 (wDoCinc c))

/-- What CWAIT does (R417, R418). -/
def wDoCwait (c : CtxRef) : CtxSt → Word → State → State := fun x w t =>
  let a := x.reg (wA w)
  if !wCtrOk a then t.wTake c 0x0C a.toNat x.pc
  else match t.waitOffer (fld a 15 12) (.walker c) (fld a 11 0) (x.reg (wB w)).toNat (wSub w) with
    | (true, t) => t.wNext c x
    | (false, t) => (t.putCtx c { x with st := .waitCtr }).count (pgWlk (ctxWv c)) oWlkIssued 1

/-- CWAIT (R417, R418). -/
def execWCwait (c : CtxRef) (s : State) : Out State := s.live <| .next (s.wIssue c 0x41 (wDoCwait c))

/-- What RAND does (R396). -/
def wDoRand (c : CtxRef) : CtxSt → Word → State → State := fun x w t =>
  let ws := philox (match (t.wvAt (ctxWv c)).taskOf x with | some u => u.seed.toNat | none => 0)
    (fld (x.reg (wA w)) 31 0) (x.reg (wB w)).toNat (fld (x.reg (wC w)) 31 0)
  let v (i : Nat) : Word := word (ws.getD i 0 + ws.getD (i + 1) 0 * 2 ^ 32)
  (t.wNext c ((x.setReg (wD w) (v 0)).setReg (wD w + 1) (v 2))).count (pgWlk (ctxWv c)) oWlkPhiloxCalls 1

/-- RAND (R396). -/
def execWRand (c : CtxRef) (s : State) : Out State := s.live <| .next (s.wIssue c 0x48 (wDoRand c))

/-- What BR does (R421). -/
def wDoBr (c : CtxRef) : CtxSt → Word → State → State := fun x w t =>
  let len := match (t.wvAt (ctxWv c)).taskOf x with | some u => u.len | none => 0
  if len ≤ wTarget w then t.wTake c 0x02 0 x.pc else t.wGo c x (wTarget w)

/-- BR (R421). -/
def execWBr (c : CtxRef) (s : State) : Out State := s.live <| .next (s.wIssue c 0x50 (wDoBr c))

/-- What END does (R422). -/
def wDoEnd (c : CtxRef) : CtxSt → Word → State → State := fun _ _ t =>
  ((t.putCtx c CtxSt.reset).count (pgWlk (ctxWv c)) oWlkIssued 1).wFreed (ctxWv c)

/-- END (R422). -/
def execWEnd (c : CtxRef) (s : State) : Out State := s.live <| .next (s.wIssue c 0x51 (wDoEnd c))

/-- What TRAP does (R423). -/
def wDoTrap (c : CtxRef) : CtxSt → Word → State → State := fun x w t => t.wTake c (0x80 + wImm w % 128) 0 x.pc

/-- TRAP (R423). -/
def execWTrap (c : CtxRef) (s : State) : Out State := s.live <| .next (s.wIssue c 0x52 (wDoTrap c))

/-- UNDEFINED_OPCODE (R379): an opcode outside the table raises ILLEGAL. -/
def execUndefinedOpcode (c : CtxRef) (s : State) : Out State := s.live <|
  let x := s.ctxAt c
  match x.st, x.held, s.wOpcAt c with
  | .ready, none, some o => if wDefined o then .next s else .next (s.wIssueAt c false (fun y _ t => t.wTake c 0x01 0 y.pc))
  | _, _, _ => .next s

/-! ## Arrival of data (R316, R318, R321, R323, R324, R387 to R390) -/

/-- Bytes of memory a request names by VA, for the order of R321. -/
def WReqOp.range : WReqOp → Option (Nat × Nat)
  | .ld va n _ _ => some (va, n)
  | .st va d => some (va, d.length)
  | .gather va _ n _ => some (va, 32 * n)
  | .put va d _ => some (va, d.length)
  | _ => none

/-- Two requests touch a common granule; structure reads are kept behind every earlier store, and later stores behind them. -/
def WReqOp.sameGranule (a b : WReqOp) : Bool :=
  match a.range, b.range with
  | some (x, n), some (y, m) => decide (x / 256 ≤ (y + m - 1) / 256) && decide (y / 256 ≤ (x + n - 1) / 256)
  | some _, none => a.isStore
  | none, some _ => b.isStore
  | none, none => false

/-- A request may complete: no earlier outstanding one touches its granules (R36, R321). -/
def CtxSt.mayArrive (x : CtxSt) (r : WReq) : Bool :=
  (x.reqs.takeWhile (fun q => q.id ≠ r.id)).all (fun q => !q.op.sameGranule r.op)

/-- Deliver the accesses of a GATHER that are not delivered (R356, R390); k bounds them. -/
def State.gatherRun (s : State) (c : CtxRef) (req va spad n : Nat) : Nat → Nat → Option Nat × State
  | 0, done => (some done, s)
  | k + 1, done =>
    if n ≤ done then (none, s)
    else match s.readVa1 (cluRegion c.clu.val) ⟨word (va + 32 * done), .read, false, .walker c req⟩ 32 with
      | (none, s) => (some done, s)
      | (some (bs, p), s) =>
        ((s.spadWr c.clu.val (spad + 32 * done) bs p).count (pgWlk (ctxWv c)) oWlkGatherBytes 32).gatherRun c req va spad n k (done + 1)

/-- Complete one request whose completion does not come from the embedding engine. -/
def State.wArrive (s : State) (c : CtxRef) (r : WReq) : State :=
  let u := cluRegion c.clu.val
  let x := s.ctxAt c
  let dead := x.isOver
  let who := Who.walker c r.id
  match r.op with
  | .ld va size sext d =>
    if dead then s.wComplete c r.id id
    else match s.readVa1 u ⟨word va, .read, false, who⟩ size with
      | (none, s) => s.wPark c r.id
      | (some (bs, p), s) =>
        if p then s.wExcReq c r 0x0A (va / 32 * 32)
        else s.wComplete c r.id (fun x => x.setReg d (wExtend size sext (ofLe bs)))
  | .st va data =>
    match s.writeVa1 u ⟨word va, .write, false, who⟩ data false with
    | (false, s) => if dead && s.parkedAt u who then (s.wUnpark c).wComplete c r.id id else s.wPark c r.id
    | (true, s) => s.wComplete c r.id id
  | .gather va spad n done =>
    if dead then s.wComplete c r.id id
    else match s.gatherRun c r.id va spad n (n + 1) done with
      | (none, s) => s.wComplete c r.id id
      | (some k, s) =>
        let x := s.ctxAt c
        (s.putCtx c { x with reqs := x.reqs.map (fun q => if q.id = r.id then { q with op := .gather va spad n k } else q) }).wPark c r.id
  | .put va data marks =>
    match s.vaChunks u who false va data marks with
    | (false, s) => if dead && s.parkedAt u who then (s.wUnpark c).wComplete c r.id id else s.wPark c r.id
    | (true, s) =>
      let slot := match (s.wvAt (ctxWv c)).taskOf x with | some t => t.slot | none => 0
      (if marks.any id then s.poisonReq slot else s).wComplete c r.id id
  | .deg gva v d =>
    if dead then s.wComplete c r.id id
    else match s.gDegree c r.id gva v with
      | (.wait, s) => s.wPark c r.id
      | (.exc k a, s) => s.wExcReq c r k a
      | (.ok n, s) => s.wComplete c r.id (fun x => x.setReg d (word n))
  | .sample gva v f mode stream elem dst edst d =>
    if dead then s.wComplete c r.id id
    else
      let seed := match (s.wvAt (ctxWv c)).taskOf x with | some t => t.seed.toNat | none => 0
      match s.sampleRun c r.id seed gva v f mode stream elem (word dst) (edst.map word) with
      | (.wait, s) => s.wPark c r.id
      | (.exc k a, s) => s.wExcReq c r k a
      | (.ok m, s) =>
        let pg := pgWlk (ctxWv c)
        let s := (s.count pg oWlkSamples m.count).count pg oWlkPhiloxCalls ((m.words + 3) / 4)
        let s := s.spadWr c.clu.val ((spadOperand c (word dst) 1).getD 0) m.idx false
        let s := match edst with
          | some g => s.spadWr c.clu.val ((spadOperand c (word g) 1).getD 0) m.edges false
          | none => s
        s.wComplete c r.id (fun x => x.setReg d (word m.count))
  | .cinc g _ _ sent =>
    if sent ∧ !((s.syncAt g).incQ.any (fun i => i.by_ = some (c, r.id))) then s.wComplete c r.id id else s
  | _ => s

/-- WEEVIL_GATE (R322): a Weevil with no ready context gates its issue clock. -/
def execWeevilGate (clu : Clu) (wv : Fin 4) (s : State) : Out State := s.live <|
  let w := clu.val * 4 + wv.val
  let v := s.wvAt w
  if v.ctxs.any (fun e => e.2.st = .ready) then .next s else .next (s.putWv w { v with gated := true })

end Sys2Proof.Machine
end

