-- ==== Sys2Proof/Machine/Emb.lean ====
section
/-! DEFINITION. Look-ups, walker bags and swarms (R212 to R245, R347 to R357, R400 to R406, R455 to R470): the descriptor
and its check, the finish of a bag, gather-reduce requests, swarm pieces and sets. -/

namespace Sys2Proof.Machine

/-! ## The slot a request works on (R247, R248, R251) -/

/-- Whether a request may use a table in an engine: refused with STATE_CONFLICT and an OBJ_STATE, or the slot. -/
inductive UseRes where
  | conflict (obj : Nat)
  | ok (ver : Nat)
  deriving DecidableEq, Repr

/-- Work on a table in engine r under the pin of a request (R248, R251). -/
def State.pinUse (s : State) (r slot id : Nat) (d : List Byte) : UseRes :=
  if tdHome d ≠ 15 ∧ tdHome d ≠ r then .conflict (tdState d (tdCur d))
  else match s.pinOf slot id with
    | none => .conflict (tdState d (tdCur d))
    | some v => .ok v

/-- A task refused with STATE_CONFLICT at an engine: the request's completion returns the object's state (R248, R652). -/
def State.taskConflict (s : State) (r e obj : Nat) : State :=
  let slot := (s.taskAt r e).slot
  let first := decide ((s.slotAt slot).st = .running) && decide ((s.slotAt slot).status = 0)
  let s := (s.conflict (pgEmb r)).taskFail r e stConflict (pgEmb r) 0
  if first then s.putSlot slot { s.slotAt slot with obj := obj } else s

/-- Remove a task from its engine. -/
def State.embDrop (s : State) (r e : Nat) : State :=
  let m := s.embAt r
  s.putEmb r { m with tasks := m.tasks.filter (fun t => t.entry ≠ e) }

/-! ## The look-up descriptor (R213, R214) -/

/-- BAG_COUNT. -/
def lkCount (p : List Byte) : Nat := fld (wordAt p 0) 63 32
/-- OP. -/
def lkOp (p : List Byte) : Nat := fld (wordAt p 0) 11 10
/-- IDX64. -/
def lkIdx64 (p : List Byte) : Bool := bit (wordAt p 0) 12
/-- Bytes of an index. -/
def lkWidth (p : List Byte) : Nat := if lkIdx64 p then 8 else 4
/-- TABLE_ID. -/
def lkTable (p : List Byte) : Nat := fld (wordAt p 0) 9 0
/-- DONE_CTR. -/
def lkDone (p : List Byte) : Nat := fld (wordAt p 0x38) 11 0

/-- What R214 checks before the offsets, for a table of format fmt. -/
def lkOk (p : List Byte) (fmt : Nat) : Bool :=
  let w := wordAt p 0
  !bit w 19 && decide (fld w 18 17 ≠ 3) && (decide (lkOp p = 0) || decide (fld w 15 13 ≤ 2)) &&
    decide (fld (wordAt p 0x28) 63 32 = 0) && decide (fld (wordAt p 0x38) 31 12 = 0) && decide (fld w 31 20 ≠ 0) &&
    !(decide (lkOp p = 3) && decide (fmt = 5)) && decide ((wordAt p 0x20).toNat % 32 = 0) &&
    decide (fld (wordAt p 0x28) 31 0 % 32 = 0)

/-- No bag is longer than 2^24 and no offset decreases, poisoned offsets skipped (R214, R996). -/
def offsOk : List (Nat × Bool) → Bool
  | (a, p) :: (b, q) :: rest => (p || q || (decide (a ≤ b) && decide (b - a ≤ 2 ^ 24))) && offsOk ((b, q) :: rest)
  | _ => true

/-- Bag b of a look-up (R213, R215): for GATHER index b. -/
def State.lkBag (s : State) (r slot ver entry : Nat) (p : List Byte) (offs : List (Nat × Bool)) (b : Nat) : BagSt :=
  let w := wordAt p 0
  let gather := decide (lkOp p = 0)
  let (lo, pl) := if gather then (b, false) else offs.getD b (0, false)
  let (hi, ph) := if gather then (b + 1, false) else offs.getD (b + 1) (0, false)
  let l := maskClu (fld w 31 20) b
  { id := 0, owner := .task entry, slot := slot, table := lkTable p, ver := ver, op := lkOp p, fmt := fld w 15 13,
    sr := bit w 16, stream := fld (wordAt p 0x38) 63 32, b := b, fast := false, clu := (s.physClu r l).getD (r * 13 + l),
    idx64 := lkIdx64 p, list := false, idxVa := ((wordAt p 0x10).toNat + lkWidth p * lo) % 2 ^ 64,
    wgtVa := ((wordAt p 0x18).toNat + 4 * lo) % 2 ^ 64, n := hi - lo, pad := some (wordAt p 0x30).toNat,
    out := ((wordAt p 0x20).toNat + b * fld (wordAt p 0x28) 31 0) % 2 ^ 64, offBad := pl || ph, started := false,
    count := 0, acc := [], run := [], got := [], poison := pl || ph }

/-! ## Prefetch (R242 to R244) -/

/-- Translate for a prefetch: a fault drops it. -/
def State.stXlate (s : State) (r : Nat) (who : Who) (va : Nat) : Option Nat × State :=
  match s.xlate r ⟨word va, .read, false, who⟩ with
  | (.pa a, s) => (some a, s)
  | (_, s) => (none, s)

/-- Read bytes inside one access for a prefetch, with its mark; a fault or a wait at the stack port drops it. -/
def State.stChunk (s : State) (r : Nat) (who : Who) (va n : Nat) : Option (List Byte × Bool) × State :=
  match s.stXlate r who va with
  | (none, s) => (none, s)
  | (some a, s) =>
    if !s.paServes r (pgEmb r) (a / 32 * 32) then (none, s)
    else
      let ((bs, p), s) := s.readPa r (pgEmb r) (a / 32 * 32)
      (some (sliceB bs (a % 32) n, p), s)

/-- Read one element of a list for a prefetch, from the access or the two it lies in. -/
def State.stElem (s : State) (r : Nat) (who : Who) (va w : Nat) : Option (Nat × Bool) × State :=
  let m := min w (32 - va % 32)
  match s.stChunk r who va m with
  | (none, s) => (none, s)
  | (some (bs, p), s) =>
    if m = w then (some (ofLe bs, p), s)
    else match s.stChunk r who (va + m) (w - m) with
      | (none, s) => (none, s)
      | (some (cs, q), s) => (some (ofLe (bs ++ cs), p || q), s)

/-- Read n elements of a list for a prefetch, from element i on; one that is dropped drops the list. -/
def State.stList (s : State) (r : Nat) (who : Who) (va w : Nat) : Nat → Nat → Option (List (Nat × Bool)) × State
  | 0, _ => (some [], s)
  | n + 1, i =>
    match s.stElem r who (va + w * i) w with
    | (none, s) => (none, s)
    | (some x, s) =>
      match s.stList r who va w n (i + 1) with
      | (none, s) => (none, s)
      | (some xs, s) => (some (x :: xs), s)

/-- Every 32 B access of a range translates and is served; k bounds them. -/
def State.stRange (s : State) (r : Nat) (who : Who) (va : Nat) : Nat → Bool × State
  | 0 => (true, s)
  | k + 1 =>
    match s.stXlate r who (va + 32 * k) with
    | (none, s) => (false, s)
    | (some a, s) => if s.paServes r (pgEmb r) (a / 32 * 32) then s.stRange r who va k else (false, s)

/-- Look a row up for a prefetch; none drops it. -/
def State.stPlace (s : State) (r : Nat) (who : Who) (d : List Byte) (ver row : Nat) : Option (RowAt × Nat) × State :=
  let go (s : State) : Option (RowAt × Nat) × State :=
    match s.rowPlace r who d ver row with
    | (some (pl, ep, _), s) => (some (pl, ep), s)
    | (none, s) => (none, s)
  if tdDir d = 0 then go s
  else match s.stRange r who (tdDir d) 1 with
    | (false, s) => (none, s)
    | (true, s) =>
      match s.readVa r who false (tdDir d) 32 with
      | (none, s) => (none, s)
      | (some (h, _), s) =>
        match s.stRange r who (tdDir d + 128 + dirBucket row (leAt h 0 1 % 32) * 128) 4 with
        | (false, s) => (none, s)
        | (true, s) => go s

/-- Physical addresses of the pieces p, p + 1, … of a row for a prefetch. -/
def State.stPieces (s : State) (r : Nat) (who : Who) (d : List Byte) (ver row : Nat) (pl : RowAt) :
    Nat → Nat → Option (List Nat) × State
  | 0, _ => (some [], s)
  | n + 1, p =>
    let (a, s) := match pl with
      | .copy pa => (some (pa + 256 * p), s)
      | .home => s.stXlate r who (rowVa d ver row p)
    match a with
    | none => (none, s)
    | some a =>
      match s.stPieces r who d ver row pl n (p + 1) with
      | (some as, s) => (some (a :: as), s)
      | (none, s) => (none, s)

/-- Read n accesses at a PA: bytes and marks; none where one waits at its stack port. -/
def State.stRead (s : State) (r pa : Nat) : Nat → Option (List Byte × List Bool) × State
  | 0 => (some ([], []), s)
  | n + 1 =>
    if !s.paServes r (pgEmb r) pa then (none, s)
    else
      let ((bs, p), s) := s.readPa r (pgEmb r) pa
      match s.stRead r (pa + 32) n with
      | (none, s) => (none, s)
      | (some (cs, ps), s) => (some (bs ++ cs, p :: ps), s)

/-- Read the pieces of a staged row; each counts as a read of its stack (R276). -/
def State.stRow (s : State) (r : Nat) (d : List Byte) (ver row : Nat) : List Nat → Nat → Option (List (List Byte × List Bool)) × State
  | [], _ => (some [], s)
  | a :: as, p =>
    match s.stRead r a (pieceAccs (tdFmt d) (tdDim d) p) with
    | (none, s) => (none, s)
    | (some x, s) =>
      let s := match s.paAcc a with
        | some (dv, _) => s.trackRow r d ver row (dv / 64) 1
        | none => s
      match s.stRow r d ver row as (p + 1) with
      | (none, s) => (none, s)
      | (some xs, s) => (some (x :: xs), s)

/-- Bytes of the relay share of a region store: 12 links of 8 buffers of 2 KiB (R514, R516). -/
def relayShare : Nat := 12 * 8 * 2048

/-- Bytes of the staging share of a region's store (R38, R243): what Comet's buffers and the relay share leave of its 24 MiB. The
share a compiled graph assigns stands in no register (DESIGN CHOICE, assumption 97). -/
def State.stageShare (s : State) (r : Nat) : Nat :=
  24 * 2 ^ 20 - s.rf (pgComet r) oCometBufGranules 14 0 * 256 - relayShare

/-- Bytes of the rows staged at an engine. -/
def EmbSt.stagedBytes (e : EmbSt) : Nat := ((e.staged.flatMap (·.data)).map (fun x => x.1.length)).foldl (· + ·) 0

/-- Prefetch one row (R242, R243): its places are resolved; with `stage` it is read raw and tagged, where it has room. -/
def State.stOne (s : State) (r : Nat) (who : Who) (d : List Byte) (ver row : Nat) (stage : Bool) : State :=
  match s.stPlace r who d ver row with
  | (none, s) => s
  | (some (pl, ep), s) =>
    match s.stPieces r who d ver row pl (tdPieces d) 0 with
    | (none, s) => s
    | (some as, s) =>
      if stage && decide ((s.embAt r).stagedBytes + roundUp (tblRowBytes (tdFmt d) (tdDim d)) 32 ≤ s.stageShare r) then
        match s.stRow r d ver row as 0 with
        | (none, s) => s
        | (some x, s) =>
          let e := s.embAt r
          s.putEmb r { e with staged := e.staged ++ [⟨fld (wordAt d 0) 9 0, ver, row, ep, tdUpd d, x⟩] }
      else s

/-- The index ranges of a look-up's bags, bags with a poisoned offset left out (R213, R996). -/
def lkRanges (p : List Byte) (offs : List (Nat × Bool)) : List (Nat × Nat) :=
  if lkOp p = 0 then [(0, lkCount p)]
  else ((offs.zip offs.tail).filter (fun x => !x.1.2 && !x.2.2)).map (fun x => (x.1.1, x.2.1))

/-- Prefetch the next descriptor's rows (R242, R243), once its offsets are read and found in order (R214). How far the engine
runs ahead is a free value. -/
def State.stageNext (s : State) (r e : Nat) (stage : Bool) : State :=
  let t := s.taskAt r e
  let p := t.payload
  let who := Who.engine (Fin.ofNat 12 r) e
  match (s.embAt r).cache.find? (fun c => c.1 = lkTable p) with
  | none => s
  | some (_, d) =>
    match s.pinUse r t.slot (lkTable p) d with
    | .conflict _ => s
    | .ok ver =>
      if !lkOk p (tdFmt d) then s
      else match (if lkOp p = 0 then (some [], s) else s.stList r who (wordAt p 8).toNat 8 (lkCount p + 1) 0) with
        | (none, s) => s
        | (some offs, s) =>
          if !offsOk offs then s
          else
            let w := lkWidth p
            let at_ := (lkRanges p offs).flatMap (fun x => (List.range (x.2 - x.1)).map (fun i => x.1 + i))
            let (m, s) := s.draw
            (at_.take (m % (at_.length + 1))).foldl (fun s i =>
              match s.stElem r who ((wordAt p 0x10).toNat + w * i) w with
              | (none, s) => s
              | (some (row, bad), s) =>
                if bad || decide (idxKind d ver (lkIdx64 p) (some (wordAt p 0x30).toNat) row ≠ .keep) then s
                else s.stOne r who d ver row stage) s

/-! ## Look-up descriptors at work (R213 to R215, R240) -/

/-- The bags of a checked descriptor enter the engine; the next descriptor is prefetched for. -/
def State.lookupGo (s : State) (r e ver : Nat) (offs : List (Nat × Bool)) : State :=
  let t := s.taskAt r e
  let p := t.payload
  let s := (List.range (lkCount p)).foldl (fun s b => s.addBag r (s.lkBag r t.slot ver e p offs b)) s
  let m := s.embAt r
  let s := s.putEmb r { m with tasks := m.tasks.map (fun x => if x.entry = e then { x with started := true } else x) }
  let pf := fld (wordAt p 0) 18 17
  if pf = 0 then s
  else match (s.embAt r).tasks.find? (fun x => !x.update && !x.started) with
    | some n => s.stageNext r n.entry (decide (pf = 2))
    | none => s

/-- LOOKUP (R213, R214): the engine takes its next look-up descriptor, checks it with its table and offsets, and its bags
enter the engine. A fault holds the descriptor. -/
def execLookup (r : Region) (s : State) : Out State := s.live <|
  match (s.embAt r.val).tasks.find? (fun x => !x.update && !x.started) with
  | none => .next s
  | some x =>
    let e := x.entry
    let t := s.taskAt r.val e
    let p := t.payload
    let who := Who.engine r e
    let refuse (s : State) : Out State := .next ((s.taskFail r.val e stInvalidDesc (pgEmb r.val) 0).embDrop r.val e)
    if s.parkedAt r.val who then .next s
    else if !lkOk p 0 then refuse s
    else match s.tdRead r.val who (lkTable p) with
      | (.wait, s) => .next s
      | (.bad, s) => refuse (s.tblBad r.val)
      | (.ok d, s) =>
        if !lkOk p (tdFmt d) then refuse s
        else match s.pinUse r.val t.slot (lkTable p) d with
          | .conflict o => .next ((s.taskConflict r.val e o).embDrop r.val e)
          | .ok ver =>
            if lkOp p = 0 then .next (s.lookupGo r.val e ver [])
            else match s.readList r.val who (wordAt p 8).toNat 8 (lkCount p + 1) with
              | (none, s) => .next s
              | (some offs, s) => if offsOk offs then .next (s.lookupGo r.val e ver offs) else refuse s

/-- LOOKUP_DONE (R240): every output of the descriptor is written; DONE_CTR increments once and the task is done. `task`
is its window entry. -/
def execLookupDone (r : Region) (task : Nat) (s : State) : Out State := s.live <|
  let m := s.embAt r.val
  if m.tasks.any (fun x => decide (x.entry = task) && !x.update && x.started) && !m.bags.any (fun b => b.owner = .task task) then
    let c := lkDone (s.taskAt r.val task).payload
    let s := s.embDrop r.val task
    let s := if (s.taskAt r.val task).st = .running then s.issueInc r.val c 1 else s
    .next (s.taskDone r.val task)
  else .next s

/-! ## Rounding once (R237, R238, R433 to R440, R455) -/

/-- Output format of OUT_FMT. -/
def outFmt (k : Nat) : Fmt := if k = 1 then bf16 else if k = 2 then fp16 else fp32

/-- A running sum divided by a count, RNE_FP32 (R455). -/
def Fl.div32 (v : Fl) (n : Nat) : Fl :=
  match v with
  | .fin neg m => fp32.decode (fp32.round .rne neg m n (-149)).bits
  | v => v

/-- The results of a bag, column by column (R220, R237, R455): `base` is the element index of column 0. -/
def finRow (b : BagSt) (seed base : Nat) (acc : List XAcc) (run : List Fl) (n : Nat) : List Rounded :=
  let f := outFmt b.fmt
  let mode (i : Nat) : RMode := rmode b.sr seed b.stream (base + i) 0
  if n = 0 then List.replicate (max acc.length run.length) ⟨0, false⟩
  else if b.fast then
    (List.range run.length).map (fun i =>
      let v := run.getD i Fl.zero
      f.encode (mode i) (if b.op = 2 then v.div32 n else v))
  else (List.range acc.length).map (fun i => (acc.getD i XAcc.zero).round f (mode i) (if b.op = 2 then n else 1))

/-- Element index of column 0 of a bag (R238, R705). -/
def bagBase (b : BagSt) (d : List Byte) : Nat := b.b * tdColTotal d + tdColFirst d

/-- A result is infinite or NaN. -/
def Fmt.special (f : Fmt) (v : Nat) : Bool :=
  match f.decode v with
  | .fin _ _ => false
  | _ => true

/-- Count what a Firefly rounded (R471, R472). -/
def State.finCount (s : State) (b : BagSt) (acc : List XAcc) (rs : List Rounded) : State :=
  let pg := pgVec b.clu
  let nf := acc.countP (fun a => a.nf ≠ 0)
  let ovf := rs.countP (fun r => r.ovf)
  let s := if b.fast then s.count pg oVecFastBags 1 else s.count pg oVecRounded rs.length
  let s := if nf = 0 then s else s.count pg oVecNonfinite nf
  let s := if ovf = 0 then s else (s.count pg oVecOvf ovf).setEvt pg 2
  if rs.any (fun r => (outFmt b.fmt).special r.bits) then s.setEvt pg 1 else s

/-- Bytes of a result row. -/
def finBytes (b : BagSt) (rs : List Rounded) : List Byte := rs.flatMap (fun r => leBytes (outFmt b.fmt).bytes r.bits)

/-- Count a bag written poisoned (R239). -/
def State.poisonBag (s : State) (r slot : Nat) : State :=
  ((s.count (pgEmb r) oEmbPoisonBags 1).setEvt (pgEmb r) 3).poisonReq slot

/-! ## Results for walkers (R350, R428) -/

/-- A context still takes the result of its request: it has it outstanding and is not ended. -/
def State.wTakes (s : State) (c : CtxRef) (req : Nat) : Bool :=
  let x := s.ctxAt c
  decide (x.st ≠ .free) && !x.isOver && x.reqs.any (fun q => q.id = req)

/-- Write a result row to DEST and then its count to CNT_REG (R350, R402). -/
def State.wResult (s : State) (c : CtxRef) (req : Nat) (b : BagSt) (row : List Byte) (n : Nat) (bad : Bool) : State :=
  if s.wTakes c req then
    let d := match (s.ctxAt c).reqs.find? (fun q => q.id = req) with
      | some q => q.op.dest.getD 0
      | none => 0
    let s := s.spadWr b.clu b.out (row ++ List.replicate (roundUp row.length 32 - row.length) 0) bad
    s.wComplete c req (fun x => x.setReg d (word n))
  else s.wComplete c req id

/-! ## Swarm sets (R463 to R466) -/

/-- A fresh set at a cluster. -/
def swarmSet (clu dim : Nat) (fast : Bool) : SwarmSet :=
  { clu := clu, acc := if fast then [] else List.replicate dim XAcc.zero, run := if fast then List.replicate dim Fl.zero else [],
    n := 0, poison := false, pieces := 0 }

/-- Pieces of a swarm that cluster number j of its order runs, of n clusters. -/
def swarmShare (k n j : Nat) : Nat := k / n + (if j < k % n then 1 else 0)

/-- Clusters of a swarm's order (R461): the global logical number of piece k. -/
def swarmClu (home from_ k : Nat) : Nat :=
  if home ≤ 11 then home * 12 + ((from_ + 144 * 12 - 12 * home + k) % 12) else (from_ + k) % 144

/-- Physical cluster of a global logical number. -/
def State.physOf (s : State) (l : Nat) : Nat := (s.physClu (l / 12) (l % 12)).getD (l / 12 * 13 + l % 12)

/-- Create a swarm's pieces in ascending order while their regions have room (R650); n bounds them. -/
def State.swarmGive (s : State) (id : Nat) : Nat → State
  | 0 => s
  | n + 1 =>
    match s.swarmAt id with
    | none => s
    | some w =>
      if w.k ≤ w.next then s
      else
        let from_ := w.region * 12 + (s.logClu w.ctx.clu.val).getD 0
        let l := swarmClu w.home from_ w.next
        let g := l / 12
        let dd := s.dispAt g
        if 1024 ≤ dd.pieces.length then s
        else
          let t : PieceTask := ⟨w.region, id, w.next, s.physOf l, w.bag.slot, s.time.st⟩
          ((s.putDisp g { dd with pieces := dd.pieces ++ [t] }).putSwarm { w with next := w.next + 1 }).swarmGive id n

/-- Create pieces of every swarm, oldest first. -/
def State.swarmsGive (s : State) : State := s.swarms.foldl (fun t w => t.swarmGive w.id (12 * 1024 + 1)) s

/-- A set leaves its cluster for the issuing one (R463, R444). -/
def State.swarmShip (s : State) (w : SwarmSt) (t : SwarmSet) : State :=
  let s := (s.count (pgVec t.clu) oVecSwarmShipped 1).count (pgVec t.clu) oVecXpOut t.acc.length
  s.putSwarm { w with sets := w.sets.filter (fun u => u.clu ≠ t.clu), ship := w.ship ++ [t] }

/-- A piece is finished (R463): its cluster's set takes its count, and is shipped with the cluster's last piece, or full. -/
def State.pieceDone (s : State) (r : Nat) (b : BagSt) (id : Nat) : State :=
  let s := s.dropBag r b.id
  match s.swarmAt id with
  | none => s
  | some w =>
    let left := w.left.map (fun e => if e.1 = b.clu then (e.1, e.2 - 1) else e)
    let sets := w.sets.map (fun t => if t.clu = b.clu then { t with n := t.n + b.count, poison := t.poison || b.poison } else t)
    let w := { w with left := left, sets := sets }
    let s := s.putSwarm w
    let busy := (s.embAt r).bags.any (fun c => decide (c.clu = b.clu) &&
      (match c.owner with | .piece i _ => decide (i = id) | _ => false))
    match sets.find? (fun t => t.clu = b.clu) with
    | some t =>
      if left.any (fun e => decide (e.1 = b.clu) && decide (e.2 = 0)) || (decide (1024 ≤ t.pieces) && !busy) then s.swarmShip w t
      else s
    | none => s

/-! ## BAG_FINISH (R237, R221) -/

/-- A gathered row: its bytes and the marks of its accesses (R221, R996). -/
def gatherRow (b : BagSt) (d : List Byte) : List Byte × List Bool :=
  let n := tblRowBytes (tdFmt d) (tdDim d)
  let ps := (List.range (tdPieces d)).map (fun p =>
    match b.got.find? (fun g => g.1 = p) with
    | some g => (sliceB g.2.1 0 (pieceBytes (tdFmt d) (tdDim d) p), g.2.2)
    | none => (List.replicate (pieceBytes (tdFmt d) (tdDim d) p) 0, List.replicate (pieceAccs (tdFmt d) (tdDim d) p) b.poison))
  (sliceB (ps.flatMap (·.1)) 0 n, (ps.flatMap (·.2)).take ((n + 31) / 32))

/-- Write a finished bag of a look-up to memory. false while the write waits on a fault. -/
def State.bagWrite (s : State) (r : Region) (b : BagSt) (d : List Byte) : Bool × State :=
  let who := Who.bag r b.id
  if b.op = 0 then
    let (bs, ms) := gatherRow b d
    match s.vaChunks r.val who false b.out bs ms with
    | (false, s) => (false, s)
    | (true, s) =>
      let s := if b.poison && b.count = 0 then s.poisonBag r.val b.slot
        else if ms.any (fun m => m) then s.poisonReq b.slot else s
      (true, s)
  else
    let rs := finRow b (s.slotAt b.slot).seed.toNat (bagBase b d) b.acc b.run b.count
    match s.writeVa r.val who false b.out (finBytes b rs) b.poison with
    | (false, s) => (false, s)
    | (true, s) =>
      let s := (s.finCount b b.acc rs).count (pgEmb r.val) oEmbBags 1
      let s := if b.count = 0 then s.count (pgEmb r.val) oEmbBagEmpty 1 else s
      (true, if b.poison then s.poisonBag r.val b.slot else s)

/-- A finished walker bag (R350). -/
def State.bagGive (s : State) (r : Nat) (b : BagSt) (d : List Byte) (c : CtxRef) (req : Nat) : State :=
  let rs := finRow b (s.slotAt b.slot).seed.toNat (bagBase b d) b.acc b.run b.count
  let s := (s.finCount b b.acc rs).count (pgEmb r) oEmbBags 1
  let s := if b.count = 0 then s.count (pgEmb r) oEmbBagEmpty 1 else s
  let s := if b.poison then s.poisonBag r b.slot else s
  s.wResult c req b (finBytes b rs) b.count b.poison

/-- BAG_FINISH (R237, R239, R350, R463): every row and partial of a bag has arrived; its sums are rounded once and
written, or enter their swarm set. -/
def execBagFinish (r : Region) (bag : Nat) (s : State) : Out State := s.live <|
  match s.bagAt r.val bag with
  | none => .next s
  | some b =>
    let who := Who.bag r bag
    if !b.started || s.bagBusy r.val bag || s.parkedAt r.val who then .next s
    else match b.owner with
      | .piece id _ => .next (s.pieceDone r.val b id)
      | .walker c req =>
        (match s.tdRead r.val who b.table with
        | (.ok d, s) => .next ((s.dropBag r.val bag).bagGive r.val b d c req)
        | (.bad, s) => .next (s.bagBad r.val b)
        | (.wait, s) => .next s)
      | .task _ =>
        (match s.tdRead r.val who b.table with
        | (.ok d, s) =>
          (match s.bagWrite r b d with
          | (true, s) => .next (s.dropBag r.val bag)
          | (false, s) => .next s)
        | (.bad, s) => .next (s.bagBad r.val b)
        | (.wait, s) => .next s)

/-! ## Gather-reduce requests (R347 to R357, R400 to R406) -/

/-- The admission slot of a context's task. -/
def State.wSlot (s : State) (c : CtxRef) : Nat :=
  match (s.wvAt (ctxWv c)).taskOf (s.ctxAt c) with
  | some t => t.slot
  | none => 0

/-- Checks of GRL and GRN at issue (R371, R401, R425): the code and address of an exception. -/
def grCheck (c : CtxRef) (x : CtxSt) (w : Word) (grn : Bool) : Option (Nat × Nat) :=
  let a := x.reg (wA w)
  let k := (x.reg (wB w)).toNat
  let f := x.reg (wF w)
  let wsum := decide (wSub w / 1024 % 4 = 3)
  let g := x.reg (wC w)
  let wd := if bit w 15 then 8 else 4
  let n := if k ≤ 4096 then k else 1
  if !grn && (spadOperand c a (max 1 (wd * n))).isNone then some (0x04, a.toNat)
  else if !grn && wsum && (spadOperand c g (max 1 (4 * n))).isNone then some (0x04, g.toNat)
  else if (spadOperand c f 1).isNone then some (0x04, f.toNat)
  else if !grn && decide (a.toNat % wd ≠ 0) then some (0x03, a.toNat)
  else if grn && decide (a.toNat % 64 ≠ 0) then some (0x03, a.toNat)
  else if !grn && wsum && decide (g.toNat % 4 ≠ 0) then some (0x03, g.toNat)
  else if f.toNat % 32 ≠ 0 then some (0x03, f.toNat)
  else none

/-- Operands of a gather-reduce: gA, gB, gC, gE, gF, gG. -/
def grOps (x : CtxSt) (w : Word) : List Word :=
  [x.reg (wA w), x.reg (wB w), x.reg (wC w), x.reg (wE w), x.reg (wF w), x.reg (wG w)]

/-- The bag a gather-reduce names, on a list or on positions of a graph (R347, R400). -/
def grBag (c : CtxRef) (req slot ver : Nat) (w : Word) (ops : List Word) (idx64 list : Bool) (idxVa wgtVa n : Nat) : BagSt :=
  { id := 0, owner := .walker c req, slot := slot, table := wSub w % 1024, ver := ver, op := wSub w / 1024 % 4,
    fmt := wSub w / 4096 % 4, sr := bit w 14, stream := fld (ops.getD 5 0) 31 0, b := (ops.getD 3 0).toNat, fast := wMv w,
    clu := c.clu.val, idx64 := idx64, list := list, idxVa := idxVa, wgtVa := wgtVa, n := n, pad := none,
    out := (spadOperand c (ops.getD 4 0) 1).getD 0, offBad := false, started := false, count := 0, acc := [], run := [],
    got := [], poison := false }

/-- What the engine answers to a gather-reduce before its bag enters. -/
inductive GrRes where
  | wait
  | exc (code addr : Nat)
  | ok (d : List Byte) (ver : Nat)
  deriving DecidableEq, Repr

/-- The table of a gather-reduce: usable, not WSUM on Q8R, pinned, here, and its row within the window (R402, R404). -/
def State.grTable (s : State) (c : CtxRef) (req : Nat) (w : Word) (ops : List Word) : GrRes × State :=
  let r := cluRegion c.clu.val
  let id := wSub w % 1024
  match s.tdRead r (.walker c req) id with
  | (.wait, s) => (.wait, s)
  | (.bad, s) => (.exc 0x07 (s.tdVa id), s.tblBad r)
  | (.ok d, s) =>
    if wSub w / 1024 % 4 = 3 ∧ tdFmt d = 5 then (.exc 0x07 (s.tdVa id), s)
    else match s.pinUse r (s.wSlot c) id d with
      | .conflict _ => (.exc 0x08 (s.tdVa id), s.conflict (pgEmb r))
      | .ok v =>
        if (spadOperand c (ops.getD 4 0) (roundUp (tdDim d * (outFmt (wSub w / 4096 % 4)).bytes) 32)).isNone then
          (.exc 0x04 (ops.getD 4 0).toNat, s)
        else (.ok d v, s)

/-- Mark a request as sent. -/
def State.grSent (s : State) (c : CtxRef) (req : Nat) : State :=
  let x := s.ctxAt c
  s.putCtx c { x with reqs := x.reqs.map (fun q => if q.id = req then
    { q with op := match q.op with
      | .grl w o _ => .grl w o true
      | .grn w o _ => .grn w o true
      | o => o } else q) }

/-- Entries of a region's walker-bag queue in use: walker bags the engine has not taken up (R351). -/
def State.grQueued (s : State) (r : Nat) : Nat :=
  (s.embAt r).bags.countP (fun b => !b.started && (match b.owner with | .walker _ _ => true | _ => false))

/-- Queue a walker bag; a full queue keeps the request in its miss-table entry (R351). -/
def State.grQueue (s : State) (c : CtxRef) (req : Nat) (b : BagSt) : State :=
  let r := cluRegion c.clu.val
  if walkerBags ≤ s.grQueued r then s.count (pgWlk (ctxWv c)) oWlkGrBackp 1
  else (s.addBag r b).grSent c req

/-- Hand a bag to swarm (R353, R459, R460, R467, R650). -/
def State.grSwarm (s : State) (c : CtxRef) (q : WReq) (b : BagSt) (d : List Byte) (g : Graph) (gva first deg : Nat) : State :=
  let r := cluRegion c.clu.val
  if 2 ^ 42 < deg then s.wExcReq c q 0x07 gva
  else if swarmCap ≤ (s.swarms.countP (fun w => w.region = r)) then s
  else
    let k := (deg + 16383) / 16384
    let from_ := r * 12 + (s.logClu c.clu.val).getD 0
    let n := if tdHome d ≤ 11 then 12 else 144
    let id := s.ids
    let w : SwarmSt :=
      { id := id, ctx := c, req := q.id, region := r, bag := b, home := tdHome d,
        idxVa := (g.idx + (if g.idx64 then 8 else 4) * first) % 2 ^ 64, wgtVa := (g.ew + 4 * first) % 2 ^ 64, deg := deg,
        dim := tdDim d, k := k, next := 0,
        left := (List.range n).map (fun j => (s.physOf (swarmClu (tdHome d) from_ j), swarmShare k n j)),
        sets := [], ship := [], total := none, recv := 0 }
    let s := ((s.setIds (id + 1)).setSwarms (s.swarms ++ [w])).grSent c q.id
    let pg := pgWlk (ctxWv c)
    let s := (s.count pg oWlkHubSplit 1).setEvt pg 2
    (s.count (pgVec c.clu.val) oVecSwarmIssued 1).swarmGive id (12 * 1024 + 1)

/-- The address of the first poisoned access of a scratchpad range (R999). -/
def State.spadBad (s : State) (c a n : Nat) : Option Nat :=
  if n = 0 then none
  else ((List.range ((a + n + 31) / 32 - a / 32)).find? (fun i => s.spad.poisoned (c * 2 ^ 17 + a / 32 + i))).map
    (fun i => (a / 32 + i) * 32)

/-- Send a gather-reduce to its region's engine: what it refuses is an exception (R404), a full queue keeps it (R351), a
hub goes to swarm (R353, R405). -/
def State.grSend (s : State) (c : CtxRef) (q : WReq) : State :=
  match q.op with
  | .grl w ops false =>
    let k := (ops.getD 1 0).toNat
    if 4096 < k then s.wExcReq c q 0x07 0
    else match s.grTable c q.id w ops with
      | (.wait, s) => s.wPark c q.id
      | (.exc e a, s) => s.wExcReq c q e a
      | (.ok _ v, s) =>
        let la := (spadOperand c (ops.getD 0 0) 1).getD 0
        let wa := (spadOperand c (ops.getD 2 0) 1).getD 0
        let wn := if wSub w / 1024 % 4 = 3 then 4 * k else 0
        match s.spadBad c.clu.val la (k * (if bit w 15 then 8 else 4)) with
        | some a => s.wExcReq c q 0x0A a
        | none =>
          match s.spadBad c.clu.val wa wn with
          | some a => s.wExcReq c q 0x0A a
          | none => s.grQueue c q.id (grBag c q.id (s.wSlot c) v w ops (bit w 15) true la wa k)
  | .grn w ops false =>
    let gva := (ops.getD 0 0).toNat
    match s.gDesc c q.id gva with
    | (.wait, s) => s.wPark c q.id
    | (.exc e a, s) => s.wExcReq c q e a
    | (.ok g, s) =>
      if wSub w / 1024 % 4 = 3 ∧ g.ew = 0 then s.wExcReq c q 0x07 gva
      else match s.gOffs c q.id g (ops.getD 1 0).toNat with
        | (.wait, s) => s.wPark c q.id
        | (.exc e a, s) => s.wExcReq c q e a
        | (.ok (first, deg), s) =>
          match s.grTable c q.id w ops with
          | (.wait, s) => s.wPark c q.id
          | (.exc e a, s) => s.wExcReq c q e a
          | (.ok d v, s) =>
            let b := grBag c q.id (s.wSlot c) v w ops g.idx64 false
              ((g.idx + (if g.idx64 then 8 else 4) * first) % 2 ^ 64) ((g.ew + 4 * first) % 2 ^ 64) deg
            if g.hub ≤ deg then s.grSwarm c q b d g gva first deg else s.grQueue c q.id b
  | _ => s

/-- What GRL does (R400, R401). -/
def wDoGrl (c : CtxRef) : CtxSt → Word → State → State := fun x w t =>
  match grCheck c x w false with
  | some (e, a) => t.wTake c e a x.pc
  | none =>
    let op := WReqOp.grl w (grOps x w) false
    ((t.wReq c x op).count (pgWlk (ctxWv c)) oWlkGrBags 1).grSend c ⟨x.next, x.pc, op, []⟩

/-- GRL (R400). -/
def execWGrl (c : CtxRef) (s : State) : Out State := s.live <| .next (s.wIssue c 0x38 (wDoGrl c))

/-- What GRN does (R400): the graph's descriptor and offsets are read as the request's first data. -/
def wDoGrn (c : CtxRef) : CtxSt → Word → State → State := fun x w t =>
  match grCheck c x w true with
  | some (e, a) => t.wTake c e a x.pc
  | none => (t.wReq c x (.grn w (grOps x w) false)).count (pgWlk (ctxWv c)) oWlkGrBags 1

/-- GRN (R400). -/
def execWGrn (c : CtxRef) (s : State) : Out State := s.live <| .next (s.wIssue c 0x39 (wDoGrn c))

/-- A request that waits to be sent to its engine. -/
def WReqOp.unsent : WReqOp → Bool
  | .grl _ _ s => !s
  | .grn _ _ s => !s
  | _ => false

/-- WALKER_BAG_QUEUE_FREE (R351): an entry of a region's walker-bag queue is free; the next gather-reduce that waits takes
it, clusters in ascending order (R35). -/
def execWalkerBagQueueFree (r : Region) (s : State) : Out State := s.live <|
  let all := (s.wv.filter (fun e => decide (cluRegion (e.1 / 4) = r.val))).flatMap (fun e =>
    e.2.ctxs.flatMap (fun x => (x.2.reqs.filter (fun q => q.op.unsent && !x.2.isOver &&
      !s.parkedAt r.val (.walker (ctxRef e.1 x.1) q.id))).map
      (fun q => (ctxRef e.1 x.1, q))))
  match all with
  | [] => .next s
  | (c, q) :: _ => if walkerBags ≤ s.grQueued r.val then .next s else .next (s.grSend c q)

/-! ## Swarm pieces and sets (R461 to R466) -/

/-- A cluster can take a piece of a swarm: it holds a set that is not full, or can reserve one (R464). -/
def State.pieceFits (s : State) (t : PieceTask) : Bool :=
  match s.swarmAt t.bag with
  | none => false
  | some w =>
    match w.sets.find? (fun u => u.clu = t.clu) with
    | some u => decide (u.pieces < 1024)
    | none => w.bag.fast || s.accFits t.clu w.dim

/-- The bag of piece k (R459, R462). -/
def pieceBag (w : SwarmSt) (t : PieceTask) : BagSt :=
  let lo := 16384 * t.piece
  { w.bag with owner := .piece w.id t.piece, op := if w.bag.op = 3 then 3 else 1, clu := t.clu, list := false,
               idxVa := (w.idxVa + (if w.bag.idx64 then 8 else 4) * lo) % 2 ^ 64, wgtVa := (w.wgtVa + 4 * lo) % 2 ^ 64,
               n := min 16384 (w.deg - lo) }

/-- What the LOOKUP list of a region gives next, of the tasks its engine and the pieces their clusters can take (R98, R648, R650). -/
def State.lookupNext (s : State) (r : Nat) : Option (Sum (Nat × TaskSt) PieceTask) :=
  let tasks := if embTasks ≤ (s.embAt r).tasks.length then [] else s.readyOf r 5
  firstBy (fun x => match x with
    | .inl e => s.readyKey e.2.slot e.2.readyAt e.2.pos
    | .inr t => s.readyKey t.slot t.readyAt t.piece)
    (tasks.map .inl ++ ((s.dispAt r).pieces.filter s.pieceFits).map .inr)

/-- SWARM_PIECE (R462, R464, R650): the piece task that is first in the region's list becomes a bag of the region's engine. -/
def execSwarmPiece (r : Region) (s : State) : Out State := s.live <|
  let d := s.dispAt r.val
  match s.lookupNext r.val with
  | some (.inl _) => .next s
  | none =>
    (match d.pieces with
    | [] => .next s
    | t :: _ => .next (s.count (pgVec t.clu) oVecAccWait 1))
  | some (.inr t) =>
    match s.swarmAt t.bag with
    | none => .next s
    | some w =>
      let s := s.putDisp r.val { d with pieces := d.pieces.filter (fun p => !(decide (p.bag = t.bag) && decide (p.piece = t.piece))) }
      let sets := if w.sets.any (fun u => u.clu = t.clu) then w.sets else w.sets ++ [swarmSet t.clu w.dim w.bag.fast]
      let sets := sets.map (fun u => if u.clu = t.clu then { u with pieces := u.pieces + 1 } else u)
      let s := s.putSwarm { w with sets := sets }
      let s := (s.addBag r.val (pieceBag w t)).count (pgVec t.clu) oVecSwarmPieces 1
      .next s.swarmsGive

/-- Add a shipped set to the issuing cluster's set (R465, R458). -/
def SwarmSet.join (a b : SwarmSet) : SwarmSet :=
  { a with acc := List.zipWith XAcc.merge a.acc b.acc, run := List.zipWith (fun x y => (x.add y).to32) a.run b.run,
           n := a.n + b.n, poison := a.poison || b.poison, pieces := a.pieces + b.pieces }

/-- All pieces are in (R465): the result is rounded once, and DEST and CNT_REG are written. -/
def State.swarmFinish (s : State) (w : SwarmSt) (t : SwarmSet) (d : List Byte) : State :=
  let b := w.bag
  let rs := finRow b (s.slotAt b.slot).seed.toNat (bagBase b d) t.acc t.run t.n
  let s := (s.swarmDrop w.id).finCount b t.acc rs
  let s := s.count (pgEmb w.region) oEmbBags 1
  let s := if t.n = 0 then s.count (pgEmb w.region) oEmbBagEmpty 1 else s
  let s := if t.poison then s.poisonBag w.region b.slot else s
  (s.setEvt (pgVec b.clu) 0).wResult w.ctx w.req b (finBytes b rs) t.n t.poison

/-- SWARM_SET_RX (R465): a shipped set arrives at the issuing cluster `clu`. The last one waits while the table's descriptor is
read. -/
def execSwarmSetRx (clu : Clu) (s : State) : Out State := s.live <|
  match s.swarms.find? (fun w => decide (w.ctx.clu = clu) && !w.ship.isEmpty) with
  | none => .next s
  | some w =>
    match w.ship with
    | [] => .next s
    | t :: rest =>
      if w.total.isNone && !w.bag.fast && !s.accFits clu.val w.dim then .next (s.count (pgVec clu.val) oVecAccWait 1)
      else
        let total := (w.total.getD (swarmSet clu.val w.dim w.bag.fast)).join t
        let w' := { w with ship := rest, total := some total, recv := w.recv + t.pieces }
        if w'.recv < w.k then .next ((s.count (pgVec clu.val) oVecXpIn t.acc.length).putSwarm w')
        else match s.tdRead w.region (.walker w.ctx w.req) w.bag.table with
          | (.ok d, s) => .next (((s.count (pgVec clu.val) oVecXpIn t.acc.length).putSwarm w').swarmFinish w' total d)
          | (.wait, s) => .next s
          | (.bad, s) => .next ((s.tblBad w.region).swarmBad w)

end Sys2Proof.Machine
end

