-- ==== Sys2Proof/Machine/Upd.lean ====
section
/-! DEFINITION. Sparse updates and scatter-add (R260 to R271, R302 to R305, R407 to R413, R997), and the arrival of data
of walker requests (R316). -/

namespace Sys2Proof.Machine

/-! ## The update descriptor (R260, R261) -/

/-- ENTRY_COUNT. -/
def upCount (p : List Byte) : Nat := fld (wordAt p 0) 63 32
/-- ROUND. -/
def upSr (p : List Byte) : Bool := bit (wordAt p 0) 16
/-- OP. -/
def upOp (p : List Byte) : Nat := fld (wordAt p 0) 15 14
/-- IDX64. -/
def upIdx64 (p : List Byte) : Bool := bit (wordAt p 0) 13
/-- SLOT. -/
def upSlot (p : List Byte) : Nat := fld (wordAt p 0) 12 10
/-- TABLE_ID. -/
def upTable (p : List Byte) : Nat := fld (wordAt p 0) 9 0
/-- SCALE. -/
def upScale (p : List Byte) : Nat := fld (wordAt p 0x18) 63 32
/-- PAD_INDEX. -/
def upPad (p : List Byte) : Nat := (wordAt p 0x20).toNat
/-- SR_STREAM. -/
def upStream (p : List Byte) : Nat := fld (wordAt p 0x28) 63 32
/-- USE_PIN. -/
def upPin (p : List Byte) : Bool := bit (wordAt p 0x28) 12
/-- DONE_CTR. -/
def upDone (p : List Byte) : Nat := fld (wordAt p 0x28) 11 0

/-- What R261 checks of the descriptor itself. -/
def upOk (p : List Byte) : Bool :=
  decide (fld (wordAt p 0) 31 17 = 0) && decide (upOp p ≤ 1) && decide (fld (wordAt p 0x28) 31 13 = 0) &&
    allZero ((p.drop 0x30).take 16) && decide (fld (wordAt p 0x18) 31 0 % 32 = 0) &&
    decide ((wordAt p 0x10).toNat % 32 = 0)

/-- The slot an update targets in engine r (R248, R251, R261). -/
def State.upTarget (s : State) (r slot : Nat) (p d : List Byte) : UseRes :=
  let use : UseRes :=
    if upPin p then s.pinUse r slot (upTable p) d
    else if tdHome d ≠ 15 ∧ tdHome d ≠ r then .conflict (tdState d (upSlot p))
    else .ok (upSlot p)
  match use with
  | .conflict o => .conflict o
  | .ok v => if tdState d v = svFree ∨ tdState d v = svReady then .conflict (tdState d v) else .ok v

/-! ## RUPDs (R263 to R269, R302 to R305) -/

/-- Who asks for the translations of region m's part of a batch. -/
def mergeWho (m id : Nat) : Who := .engine (Fin.ofNat 12 m) (2 ^ 20 + id)

/-- Who asks for the translations of a batch in its own region. -/
def batchWho (b : BatchSt) : Who := mergeWho b.region b.id

/-- The cluster of region m that merges a row: logical cluster m × 12 + (row mod 12) (R263). -/
def State.mergeClu (s : State) (m row : Nat) : Nat := (s.physClu m (row % 12)).getD (m * 13 + row % 12)

/-- The region that merges a row: that of the stack of its home piece 0; the engine's own where the page reads poisoned
(R263, R302). It is no access of the row. none while the translation waits. -/
def State.homeStk (s : State) (r : Nat) (who : Who) (d : List Byte) (ver row : Nat) : Option Nat × State :=
  let q : XReq := ⟨word (rowVa d ver row 0), if tdDir d = 0 then .update else .read, false, who⟩
  match s.xlate r q with
  | (.pa a, s) => (some ((s.paAcc a).elim r (fun x => x.1 / 64)), s)
  | (.poison, s) => (some r, s)
  | (.wait, s) => (none, s)
  | (.fault k l e, s) => (none, s.xfault r q k l e)

/-- The flit of a RUPD without place and TAG (R266, R267). -/
def rupdFlit (d : List Byte) (p uop : Nat) (data : List Byte) (bad : Bool) : PortCmd :=
  let data := data ++ List.replicate (roundUp data.length 32 - data.length) 0
  embFlit 0 0 (pieceAccs (tdFmt d) (tdDim d) p) bad (tdFmt d * 2 ^ 16 + data.length / 32 * 2 ^ 8 + uop) data

/-- The operand of an ADD for piece p: one u per column of the piece, then one halfword of SR per column (R267, R269, R705). -/
def addOpnd (d : List Byte) (body : List Byte) (seed row p : Nat) (us : List Nat) : List Byte :=
  let (c0, n) := pieceCols (tdFmt d) (tdDim d) p
  let base := row * tdColTotal d + tdColFirst d + c0
  ((List.range n).flatMap (fun i => leBytes 4 (us.getD (c0 + i) 0))) ++
    (if upSr body then (List.range n).flatMap (fun i =>
      leBytes 2 (srBits seed (upStream body) (base + i) ((tdUpd d).toNat % 2 ^ 32))) else [])

/-- The RUPDs of a row of an ADD whose operands are u. -/
def addWaits (d body : List Byte) (id seed ver row m : Nat) (us : List Nat) (bad : List Bool) (sadd : Option (CtxRef × Nat)) :
    List RupdWait :=
  (List.range (tdPieces d)).map (fun p =>
    { stk := 0, flit := rupdFlit d p (if upSr body then 3 else 2) (addOpnd d body seed row p us) (bad.getD p false),
      m := m, table := upTable body, ver := ver, row := row, piece := p, batch := id, sadd := sadd, stalled := false })

/-- The RUPDs of a row of a WRITE. -/
def writeWaits (d body : List Byte) (id ver row m : Nat) (data : List Byte) (bad : List Bool) : List RupdWait :=
  (List.range (tdPieces d)).map (fun p =>
    { stk := 0, flit := rupdFlit d p 1 (sliceB data (256 * p) (pieceBytes (tdFmt d) (tdDim d) p)) (bad.getD p false),
      m := m, table := upTable body, ver := ver, row := row, piece := p, batch := id, sadd := none, stalled := false })

/-- The RUPDs of a merged row (R264, R265). -/
def mergeWaits (d : List Byte) (b : BatchSt) (seed : Nat) (x : MergeRow) : List RupdWait :=
  if upOp b.body = 0 then writeWaits d b.body b.id b.ver x.row x.m x.data x.bad
  else addWaits d b.body b.id seed b.ver x.row x.m (x.acc.map (fun a => (a.round fp32 .rne 1).bits)) x.bad none

/-- The move of a row that is in progress. -/
def State.moveOf (s : State) (table ver row : Nat) : Option RowMove :=
  s.moves.find? (fun v => decide (v.table = table) && decide (v.ver = ver) && decide (v.row = row) && decide (v.phase ≠ .last))

/-- Batch replaced. -/
def State.putBatch (s : State) (b : BatchSt) : State :=
  s.setBatches (s.batches.map (fun c => if c.id = b.id then b else c))
/-- Batch by number. -/
def State.batchAt (s : State) (id : Nat) : Option BatchSt := s.batchOf id

/-- Issue a RUPD to a place from its merging region (R266, R276). false: it waits for a translation or a TAG. A discarded
write is over (R191). -/
def State.rupdIssue (s : State) (b : BatchSt) (w : RupdWait) (d : List Byte) (pl : RowAt) (gate : Option Nat) : Bool × State :=
  let who := mergeWho w.m b.id
  match s.piecePa w.m who .update d w.ver w.row w.piece pl with
  | (none, s) => (false, s)
  | (some none, s) => (true, s)
  | (some (some pa), s) =>
    match s.paAcc pa with
    | none => (true, s.addrErr w.m (whoSource who) pa true)
    | some (dv, ac) =>
      let f := { w.flit with pch := BitVec.ofNat 6 (dv % 64), addr := BitVec.ofNat 25 ac }
      let p : PartSt :=
        { stk := dv / 64, opc := 0x18, flit := f, rows := [], region := w.m, owner := .batch b.id, piece := w.piece, wts := [],
          k := 1, seen := 0, got := [], bad := false, epoch := (s.migAt w.m).epoch, sent := false, gate := gate, done := false,
          sadd := w.sadd, ncols := (pieceCols (tdFmt d) (tdDim d) w.piece).2, pooled := false,
          vas := [rowVa d w.ver w.row w.piece] }
      match s.addPart p with
      | none => (false, s)
      | some s =>
        let s := (s.count (pgEmb w.m) oEmbUpdRows 1).trackRow w.m d w.ver w.row (dv / 64) 2
        let s := match s.batchAt b.id with
          | some c => s.putBatch { c with issued := true }
          | none => s
        (true, s)

/-- What becomes of a RUPD that is to be sent: sent or held, it waits, or its region's hold queue is full. -/
inductive SendRes where
  | ok
  | wait
  | full
  deriving DecidableEq, Repr

/-- Send a RUPD of a batch from its merging region (R266): held while that region sees its row as MOVING (R303), to the
row's place otherwise. A stall on a full hold queue is counted once. -/
def State.rupdSend (s : State) (b : BatchSt) (d : List Byte) (w : RupdWait) : SendRes × State :=
  if s.parkedAt w.m (mergeWho w.m b.id) then (.wait, s)
  else match s.rowPlace w.m (mergeWho w.m b.id) d w.ver w.row with
    | (none, s) => (.wait, s)
    | (some (_, _, true), s) =>
      let m := s.migAt w.m
      if holdCap ≤ m.hold.length then
        (.full, if w.stalled then s else (s.count (pgMig w.m) oMigHoldFull 1).setEvt (pgMig w.m) 2)
      else (.ok, s.putMig w.m { m with hold := m.hold ++ [{ w with stalled := false }] })
    | (some (pl, _, false), s) =>
      match s.rupdIssue b w d pl none with
      | (true, s) => (.ok, s)
      | (false, s) => (.wait, s)

/-- The logical cluster that merges the row of a RUPD (R263). -/
def RupdWait.clu (w : RupdWait) : Nat := w.m * 12 + w.row % 12

/-- Send what a list of waiting RUPDs allows; what still waits stays, in order. A cluster that stalls on a full hold queue
sends nothing further (R303). -/
def State.rupdAll (s : State) (b : BatchSt) (d : List Byte) : List Nat → List RupdWait → List RupdWait × State
  | _, [] => ([], s)
  | full, w :: ws =>
    if full.contains w.clu then
      let (rest, s) := s.rupdAll b d full ws
      (w :: rest, s)
    else match s.rupdSend b d w with
      | (.ok, s) => s.rupdAll b d full ws
      | (.wait, s) =>
        let (rest, s) := s.rupdAll b d full ws
        (w :: rest, s)
      | (.full, s) =>
        let (rest, s) := s.rupdAll b d (w.clu :: full) ws
        ({ w with stalled := true } :: rest, s)

/-- Merging clusters that a RUPD of another batch stalls (R303). -/
def State.stalledClus (s : State) (id : Nat) : List Nat :=
  s.batches.flatMap (fun b => if b.id = id then [] else (b.todo.filter (fun w => w.stalled)).map (fun w => w.clu))

/-- A batch whose table's descriptor, read anew, is no longer usable: its request ends with INVALID_DESC (R995). -/
def State.batchBad (s : State) (b : BatchSt) : State := (s.tblBad b.region).failReq b.slot stInvalidDesc (pgEmb b.region) 0

/-- Send the waiting RUPDs of a batch (R266). -/
def State.pump (s : State) (id : Nat) : State :=
  match s.batchAt id with
  | none => s
  | some b =>
    if b.todo.isEmpty || s.parkedAt b.region (batchWho b) then s
    else match s.tdRead b.region (batchWho b) (upTable b.body) with
      | (.wait, s) => s
      | (.bad, s) => s.batchBad b
      | (.ok d, s) =>
        let (todo, s) := s.rupdAll b d (s.stalledClus id) b.todo
        match s.batchAt id with
        | some c => s.putBatch { c with todo := todo }
        | none => s

/-- A fast SADD is accepted once its RUPDs have taken their stack queue slots (R411). -/
def State.saddCheck (s : State) (x : CtxRef × Nat) : State :=
  if s.parts.any (fun p => decide (p.sadd = some x) && !p.sent) || s.batches.any (fun b => b.todo.any (fun w => w.sadd = some x)) ||
      (List.range 12).any (fun m => (s.migAt m).hold.any (fun w => w.sadd = some x)) then s
  else
    let s := s.setParts (s.parts.map (fun p => if p.sadd = some x then { p with sadd := none } else p))
    s.wComplete x.1 x.2 id

/-- RUPD (R267): a row update arrives at a stack port. -/
def execRupd (n : Region) (f : PortCmd) (s : State) : Out State := s.live <|
  if f.carries (32 * bitsOf f.arg.toNat 15 8) then
    let s := s.portCmd n.val ⟨0x18, f, []⟩
    .next (((s.parts.filter (fun p => p.sent)).filterMap (fun p => p.sadd)).foldl (fun t x => t.saddCheck x) s)
  else .fault (.illFormed "RUPD")

/-- A held RUPD may go: the copy of its row is written, or the row no longer moves (R303, R304). -/
def State.holdMay (s : State) (w : RupdWait) : Bool :=
  match s.moveOf w.table w.ver w.row with
  | some v => decide (v.phase ≠ .start) && decide (v.phase ≠ .fence)
  | none => true

/-- Where a held RUPD goes: to the destination of its row's move, gated by the acknowledgements of its switch, until these are
in (R304); after that, or with no move, to the row's place. -/
def State.holdGo (s : State) (b : BatchSt) (d : List Byte) (w : RupdWait) : Bool × State :=
  let place (s : State) : Bool × State :=
    match s.rowPlace w.m (mergeWho w.m b.id) d w.ver w.row with
    | (none, s) => (false, s)
    | (some (pl, _, _), s) => s.rupdIssue b w d pl none
  match s.moveOf w.table w.ver w.row with
  | some v =>
    if v.phase = .copy ∨ v.phase = .switch then
      s.rupdIssue b w d (match v.frame with | some pa => .copy pa | none => .home) (some v.id)
    else place s
  | none => place s

/-- HOLD_QUEUE_RELEASE (R303, R304): the first held RUPD of a region that may go is issued. Clusters that stalled on the full
queue go on. -/
def execHoldQueueRelease (r : Region) (s : State) : Out State := s.live <|
  let m := s.migAt r.val
  match m.hold.find? s.holdMay with
  | none => .next s
  | some w =>
    match s.batchAt w.batch with
    | none => .next (s.putMig r.val { m with hold := m.hold.erase w })
    | some b =>
      match s.tdRead b.region (batchWho b) w.table with
      | (.ok d, s) =>
        (match s.holdGo b d w with
        | (false, s) => .next s
        | (true, s) =>
          let m := s.migAt r.val
          let s := s.putMig r.val { m with hold := m.hold.erase w }
          let stalled := (s.batches.filter (fun c => c.todo.any (fun x => x.m = r.val))).map (fun c => c.id)
          let s := stalled.foldl (fun t i => t.pump i) s
          .next (match w.sadd with | some x => s.saddCheck x | none => s))
      | (.bad, s) => .next (s.batchBad b)
      | (.wait, s) => .next s

/-! ## UPDATE (R260 to R266) -/

/-- One kept entry of an update: its row, its source bytes and their marks. -/
structure UpdEnt where
  row  : Nat
  data : List Byte
  bad  : List Bool
  deriving DecidableEq, Repr

/-- Read the sources of kept entries (R260, R997). none while a read waits on a fault. -/
def State.updRead (s : State) (r : Nat) (who : Who) (src stride n : Nat) : List (Nat × Nat) → Option (List UpdEnt) × State
  | [] => (some [], s)
  | (e, row) :: es =>
    match s.readVa r who false (src + e * stride) n with
    | (none, s) => (none, s)
    | (some (bs, ps), s) =>
      match s.updRead r who src stride n es with
      | (none, s) => (none, s)
      | (some rest, s) => (some (⟨row, bs, ps⟩ :: rest), s)

/-- Which pieces took a poisoned value: the source accesses of each piece's columns or bytes (R997). -/
def updBad (d : List Byte) (op : Nat) (ps : List Bool) : List Bool :=
  (List.range (tdPieces d)).map (fun p =>
    let (c0, n) := pieceCols (tdFmt d) (tdDim d) p
    let lo := if op = 1 then 4 * c0 else 256 * p
    let hi := if op = 1 then 4 * (c0 + n) else 256 * p + pieceBytes (tdFmt d) (tdDim d) p
    ((ps.drop (lo / 32)).take ((hi + 31) / 32 - lo / 32)).any (fun b => b))

/-- The addends of an entry (R264). -/
def addends (scale dim : Nat) (bs : List Byte) : List Fl :=
  (List.range dim).map (fun i => (fp32.decode scale).mul32 (fp32.decode (leAt bs (4 * i) 4)))

/-- Merge an entry into the rows of a batch (R263 to R265): the rows, and whether another entry of the row was there. -/
def mergeEnt (d body : List Byte) (rows : List MergeRow) (m : Nat) (e : UpdEnt) : List MergeRow × Bool :=
  let op := upOp body
  let bad := updBad d op e.bad
  let fresh : MergeRow := ⟨e.row, m, if op = 1 then List.replicate (tdDim d) XAcc.zero else [], [], bad⟩
  let hit := rows.any (fun x => x.row = e.row)
  let rows := if hit then rows else rows ++ [fresh]
  (rows.map (fun x =>
    if x.row = e.row then
      (if op = 1 then
        { x with acc := List.zipWith XAcc.add x.acc (addends (upScale body) (tdDim d) e.data),
                 bad := List.zipWith (fun a b => a || b) x.bad bad }
       else { x with data := e.data, bad := bad })
    else x), hit)

/-- Merge the entries of an update in index-list order (R263 to R265). none while a row's place waits on a fault. -/
def State.mergeAll (s : State) (r : Nat) (who : Who) (d body : List Byte) (ver : Nat) :
    List MergeRow → List Nat → List UpdEnt → Option (List MergeRow × List Nat) × State
  | rows, hits, [] => (some (rows, hits), s)
  | rows, hits, e :: es =>
    match rows.find? (fun x => x.row = e.row) with
    | some x => s.mergeAll r who d body ver (mergeEnt d body rows x.m e).1 (hits ++ [x.m]) es
    | none =>
      match s.homeStk r who d ver e.row with
      | (none, s) => (none, s)
      | (some m, s) => s.mergeAll r who d body ver (mergeEnt d body rows m e).1 hits es

/-- The addends that the merging cluster's exact lanes take of an entry's row (R264, R471). -/
def State.mergeAdd (s : State) (d : List Byte) (m row : Nat) : State := s.count (pgVec (s.mergeClu m row)) oVecAddends (tdDim d)

/-- The operands u that a merging cluster rounds (R264, R471). -/
def State.mergeRound (s : State) (d : List Byte) (x : MergeRow) : State := s.count (pgVec (s.mergeClu x.m x.row)) oVecRounded (tdDim d)

/-- The merged batch of an update task starts (R266, R270). `es` are its kept entries. -/
def State.updGo (s : State) (r e ver : Nat) (d : List Byte) (rows : List MergeRow) (hits : List Nat) (es : List UpdEnt) : State :=
  let t := s.taskAt r e
  let off := if upOp t.payload = 1 then oEmbUpdMerged else oEmbUpdDup
  let s := if upOp t.payload = 1 then
      rows.foldl (fun u x => u.mergeRound d x)
        (es.foldl (fun u n => match rows.find? (fun x => x.row = n.row) with | some x => u.mergeAdd d x.m n.row | none => u) s)
    else s
  let s := hits.foldl (fun u m => u.count (pgEmb m) off 1) s
  let s := if rows.any (fun x => x.bad.any (fun b => b)) then s.poisonReq t.slot else s
  let id := s.ids
  let b : BatchSt :=
    { id := id, region := r, slot := t.slot, task := some e, desc := 0, body := t.payload, ver := ver, rows := [], closed := true,
      todo := [], issued := false, cancel := false }
  let b := { b with todo := rows.flatMap (mergeWaits d b (s.slotAt t.slot).seed.toNat) }
  let m := s.embAt r
  let s := s.putEmb r { m with tasks := m.tasks.map (fun x => if x.entry = e then { x with started := true } else x) }
  ((s.setIds (id + 1)).setBatches (s.batches ++ [b])).pump id

/-- UPDATE (R260): the engine takes its next update descriptor, drops indices, merges the entries of each row and sends
the RUPDs. A fault holds the descriptor; nothing has been applied then. -/
def execUpdate (r : Region) (s : State) : Out State := s.live <|
  match (s.embAt r.val).tasks.find? (fun x => x.update && !x.started) with
  | none => .next s
  | some x =>
    let e := x.entry
    let t := s.taskAt r.val e
    let p := t.payload
    let who := Who.engine r e
    let refuse (s : State) : Out State := .next ((s.taskFail r.val e stInvalidDesc (pgEmb r.val) 0).embDrop r.val e)
    if s.parkedAt r.val who then .next s
    else if !upOk p then refuse s
    else match s.tdRead r.val who (upTable p) with
      | (.wait, s) => .next s
      | (.bad, s) => refuse (s.tblBad r.val)
      | (.ok d, s) =>
        if upOp p = 1 ∧ tdFmt d = 5 then refuse s
        else match s.upTarget r.val t.slot p d with
          | .conflict o => .next ((s.taskConflict r.val e o).embDrop r.val e)
          | .ok ver =>
            match s.readList r.val who (wordAt p 8).toNat (if upIdx64 p then 8 else 4) (upCount p) with
            | (none, s) => .next s
            | (some is, s) =>
              let kind (i : Nat) : IdxKind := idxKind d ver (upIdx64 p) (some (upPad p)) i
              let clean := is.filter (fun i => !i.2)
              let kept := ((List.range is.length).zip is).filterMap (fun x =>
                if !x.2.2 && decide (kind x.2.1 = .keep) then some (x.1, x.2.1) else none)
              let n := if upOp p = 1 then 4 * tdDim d else tblRowBytes (tdFmt d) (tdDim d)
              match s.updRead r.val who (wordAt p 0x10).toNat (fld (wordAt p 0x18) 31 0) n kept with
              | (none, s) => .next s
              | (some es, s) =>
                match s.mergeAll r.val who d p ver [] [] es with
                | (none, s) => .next s
                | (some (rows, hits), s) =>
                  let bad := is.length - clean.length
                  let s := s.idxDrops r.val (bad + clean.countP (fun i => kind i.1 = .invalid)) (clean.countP (fun i => kind i.1 = .missing))
                  let s := if bad = 0 then s else s.poisonReq t.slot
                  .next (s.updGo r.val e ver d rows hits es)

/-- A batch has nothing on its way: no RUPD waits, is held or is unanswered. -/
def State.batchQuiet (s : State) (b : BatchSt) : Bool :=
  b.todo.isEmpty && !s.parts.any (fun p => p.owner = .batch b.id) &&
    !(List.range 12).any (fun m => (s.migAt m).hold.any (fun w => w.batch = b.id))

/-- A batch leaves its engine, and its task with it. -/
def State.batchOver (s : State) (b : BatchSt) : State :=
  let s := s.setBatches (s.batches.filter (fun c => c.id ≠ b.id))
  match b.task with
  | some e => (s.embDrop b.region e).taskDone b.region e
  | none => s

/-- A batch is done (R270): UPD_SEQ increments, then DONE_CTR, unless the request was cancelled. The UPD_SEQ write may
wait on a fault. -/
def State.batchDone (s : State) (b : BatchSt) : State :=
  let who := batchWho b
  match s.tdRead b.region who (upTable b.body) with
  | (.ok d, s) =>
    (match s.tdPut b.region who (upTable b.body) 0x28 (tdUpd d + 1) with
    | (false, s) => s
    | (true, s) => (if b.cancel then s else s.issueInc b.region (upDone b.body) 1).batchOver b)
  | (.bad, s) => (s.batchBad b).batchOver b
  | (.wait, s) => s

/-- UPDATE_BATCH_DONE (R270): what still waits is sent; once every RUPD of a closed batch has completed it is done. -/
def execUpdateBatchDone (batch : Nat) (s : State) : Out State := s.live <|
  match s.batchAt batch with
  | none => .next s
  | some b =>
    if !b.closed || s.parkedAt b.region (batchWho b) then .next s
    else
      let s := s.pump batch
      match s.batchAt batch with
      | some c => .next (if s.batchQuiet c then s.batchDone c else s)
      | none => .next s

/-! ## Scatter-add (R407 to R413) -/

/-- What SADD does at issue (R407, R425). -/
def wDoSadd (c : CtxRef) : CtxSt → Word → State → State := fun x w t =>
  let a := x.reg (wA w)
  let g := x.reg (wC w)
  if (spadOperand c g 1).isNone then t.wTake c 0x04 g.toNat x.pc
  else if a.toNat % 64 ≠ 0 then t.wTake c 0x03 a.toNat x.pc
  else if g.toNat % 32 ≠ 0 then t.wTake c 0x03 g.toNat x.pc
  else t.wReq c x (.sadd a.toNat (x.reg (wB w)).toNat g.toNat (wMv w))

/-- SADD (R407). -/
def execWSadd (c : CtxRef) (s : State) : Out State := s.live <| .next (s.wIssue c 0x3A (wDoSadd c))

/-- What SCLOSE does at issue (R409). -/
def wDoSclose (c : CtxRef) : CtxSt → Word → State → State := fun x w t =>
  let a := x.reg (wA w)
  if a.toNat % 64 ≠ 0 then t.wTake c 0x03 a.toNat x.pc else t.wReq c x (.sclose a.toNat)

/-- SCLOSE (R410). -/
def execWSclose (c : CtxRef) (s : State) : Out State := s.live <| .next (s.wIssue c 0x3B (wDoSclose c))

/-- Read and check the descriptor of a scatter-add (R408, R999). -/
def State.saddDesc (s : State) (c : CtxRef) (q : WReq) (desc : Nat) : StRes (List Byte × List Byte × Nat) × State :=
  let r := cluRegion c.clu.val
  match s.wRead c q.id desc 64 with
  | (.wait, s) => (.wait, s)
  | (.poison a, s) => (.exc 0x0A a, s)
  | (.ok p, s) =>
    if !upOk p || decide (upOp p ≠ 1) || decide (wordAt p 8 ≠ 0) || decide (wordAt p 0x10 ≠ 0) ||
        decide (fld (wordAt p 0x18) 31 0 ≠ 0) || decide (upCount p ≠ 0) then (.exc 0x07 desc, s)
    else match s.tdRead r (.walker c q.id) (upTable p) with
      | (.wait, s) => (.wait, s)
      | (.bad, s) => (.exc 0x07 desc, s.tblBad r)
      | (.ok d, s) =>
        if tdFmt d = 5 then (.exc 0x07 desc, s)
        else match s.upTarget r (s.wSlot c) p d with
          | .conflict _ => (.exc 0x08 desc, s.conflict (pgEmb r))
          | .ok v => (.ok (p, d, v), s)

/-- The open or closing batch of a descriptor. -/
def State.saddBatch (s : State) (desc : Nat) : Option BatchSt :=
  s.batches.find? (fun b => b.task.isNone && decide (b.desc = desc) && !b.cancel)

/-- Open a batch for a descriptor unless one is there (R409). -/
def State.saddOpen (s : State) (r slot desc ver : Nat) (p : List Byte) : State :=
  match s.saddBatch desc with
  | some _ => s
  | none =>
    let b : BatchSt :=
      { id := s.ids, region := r, slot := slot, task := none, desc := desc, body := p, ver := ver, rows := [], closed := false,
        todo := [], issued := false, cancel := false }
    (s.setIds (s.ids + 1)).setBatches (s.batches ++ [b])

/-- A SADD reaches the merging engine (R407 to R413). -/
def State.saddRun (s : State) (c : CtxRef) (q : WReq) (desc row src : Nat) (fast : Bool) : State :=
  let r := cluRegion c.clu.val
  match s.saddDesc c q desc with
  | (.wait, s) => s.wPark c q.id
  | (.exc e a, s) => s.wExcReq c q e a
  | (.ok (p, d, ver), s) =>
    match spadOperand c (word src) (4 * tdDim d) with
    | none => s.wExcReq c q 0x04 src
    | some a =>
      match s.spadBad c.clu.val a (4 * tdDim d) with
      | some x => s.wExcReq c q 0x0A x
      | none =>
        match idxKind d ver (upIdx64 p) (some (upPad p)) row with
        | .invalid => (s.idxDrops r 1 0).wComplete c q.id id
        | .missing => (s.idxDrops r 0 1).wComplete c q.id id
        | .keep =>
          if (s.saddBatch desc).any (fun b => b.closed) then s.wExcReq c q 0x0B desc
          else match s.homeStk r (.walker c q.id) d ver row with
            | (none, s) => s.wPark c q.id
            | (some m, s) =>
              let s := s.saddOpen r (s.wSlot c) desc ver p
              match s.saddBatch desc with
              | none => s
              | some b =>
                let bs := s.spadRd c.clu.val a (4 * tdDim d)
                if fast then
                  let us := (addends (upScale p) (tdDim d) bs).map (fun v => (fp32.encode .rne v).bits)
                  let seed := (s.slotAt (s.wSlot c)).seed.toNat
                  let ws := addWaits d p b.id seed ver row m us [] (some (c, q.id))
                  ((s.putBatch { b with todo := b.todo ++ ws }).pump b.id).saddCheck (c, q.id)
                else
                  let (rows, hit) := mergeEnt d p b.rows m ⟨row, bs, []⟩
                  let s := (s.putBatch { b with rows := rows }).mergeAdd d m row
                  (if hit then s.count (pgEmb m) oEmbUpdMerged 1 else s).wComplete c q.id id

/-- An SCLOSE reaches the merging engine (R410): the open batch closes and its rows are sent; with no open batch an empty
one closes. The counter it signals is one of the region the SCLOSE comes from. -/
def State.scloseRun (s : State) (c : CtxRef) (q : WReq) (desc : Nat) : State :=
  let r := cluRegion c.clu.val
  match s.saddDesc c q desc with
  | (.wait, s) => s.wPark c q.id
  | (.exc e a, s) => s.wExcReq c q e a
  | (.ok (p, d, ver), s) =>
    if (s.saddBatch desc).any (fun b => b.closed) then s.wExcReq c q 0x0B desc
    else
      let s := s.saddOpen r (s.wSlot c) desc ver p
      match s.saddBatch desc with
      | none => s
      | some b =>
        let ws := b.rows.flatMap (mergeWaits d b (s.slotAt b.slot).seed.toNat)
        let s := b.rows.foldl (fun u x => u.mergeRound d x) s
        let s := (s.putBatch { b with region := r, closed := true, rows := [], todo := b.todo ++ ws }).pump b.id
        let s := match s.batchAt b.id with
          | some e => if s.batchQuiet e && !e.issued then s.batchDone e else s
          | none => s
        s.wComplete c q.id id

/-! ## Data of walker requests (R316, R323, R324, R357) -/

/-- A fast SADD whose RUPDs are on their way. -/
def State.saddOut (s : State) (x : CtxRef × Nat) : Bool :=
  s.parts.any (fun p => p.sadd = some x) || s.batches.any (fun b => b.todo.any (fun w => w.sadd = some x)) ||
    (List.range 12).any (fun m => (s.migAt m).hold.any (fun w => w.sadd = some x))

/-- DATA_ARRIVAL (R316): the data or completion of request `req` of a context arrives, in order at a granule (R321), and
not while the request waits on a fault. A gather-reduce that is not sent is sent now; a scatter-add reaches its merging
engine. `e` is what SECDED and parity find while the unit takes it (R870). -/
def execDataArrival (c : CtxRef) (req : Nat) (e : SpadErr) (s : State) : Out State := s.live <|
  let x := s.ctxAt c
  match x.reqs.find? (fun r => r.id = req) with
  | none => .next s
  | some r =>
    if s.parkedAt (cluRegion c.clu.val) (.walker c req) ∨ x.mayArrive r = false ∨ s.saddOut (c, req) = true then .next s
    else
      let a := match r.op with
        | .gather _ k _ _ => k
        | .sadd _ _ g _ => (spadOperand c (word g) 1).getD 0
        | _ => 0
      let s := s.spadFound c.clu.val a 0 c.wv.val (s.wSlot c) e
      let y := s.ctxAt c
      let dead := y.isOver
      if !(y.reqs.any (fun q => q.id = req)) then .next s
      else match r.op with
        | .sadd d row g fast => .next (if dead then s.wComplete c req id else s.saddRun c r d row g fast)
        | .sclose d => .next (if dead then s.wComplete c req id else s.scloseRun c r d)
        | op =>
          if op.unsent then .next (if dead then s.wComplete c req id else s.grSend c r)
          else .next (s.wArrive c r)

end Sys2Proof.Machine
end

