-- ==== Sys2Proof/Machine/Migrate.lean ====
section
/-! DEFINITION. Row migration (R275 to R314): load windows and reports, the decision, and the moves of rows with their
directory entries, broadcasts and read epochs. -/

namespace Sys2Proof.Machine

/-! ## Registers (R311, R312) -/

/-- Migration is ON at an engine: CTL.EN is 1 and the NEAR band is not empty (R310, R311). -/
def State.migOn (s : State) (n : Nat) : Bool := bit (s.rg (pgMig n) oMigCtl) 0 && decide (s.bandN ≠ 0)
/-- FRAME in granules. -/
def State.migFrame (s : State) (n : Nat) : Nat := 2 ^ s.rf (pgMig n) oMigCtl 3 2
/-- Length of a window slot, ns (R278). -/
def State.migSlot (s : State) (n : Nat) : Nat := max 1 (s.rf (pgMig n) oMigWinNs 31 0 / 4)
/-- MAX_ACTIVE, at most 16 (R308). -/
def State.migMax (s : State) (n : Nat) : Nat := min 16 (s.rf (pgMig n) oMigThresh 31 24)
/-- Moves an engine has in progress. -/
def State.migActive (s : State) (n : Nat) : Nat := s.moves.countP (fun v => decide (v.n = n) && decide (v.phase ≠ .last))

/-- Frames of a stack's pool in use: its copies, destinations of its moves, and old copies not yet freed (R309). -/
def State.migFrames (s : State) (n : Nat) : List Nat :=
  (s.migAt n).copies.map (fun c => c.frame) ++ (s.moves.filter (fun v => v.n = n)).filterMap (fun v => v.frame)

/-- Free granules of a pool (R309, R312). -/
def State.migPoolFree (s : State) (n : Nat) : Nat :=
  s.rf (pgMig n) oMigPoolGranules 31 0 - s.migFrame n * (s.migFrames n).length

/-- Who asks for translations of an engine's moves. -/
def migWho (n : Nat) : Who := .engine (Fin.ofNat 12 n) (2 ^ 16)

/-! ## Load windows (R278 to R281) -/

/-- Order of tracker entries: highest count first, then lowest number. -/
def topTracks (n : Nat) (l : List TrackEnt) : List TrackEnt := (sortBy (fun a b => decide (b.count < a.count)) l).take n

/-- The report of engine k to engine n at boundary B (R279). -/
def State.loadRpt (s : State) (k n b : Nat) : LoadRpt :=
  let m := s.migAt k
  { from_ := k, fwd := false, bound := b, load := (((m.slots.take 4).map (fun l => l.getD n 0)).foldl (· + ·) 0),
    cands := topTracks 32 (m.track.filter (fun t => t.stk = n)) }

/-- A message to engine n. -/
def State.migPost (s : State) (n : Nat) (x : LoadRpt) : State :=
  let m := s.migAt n
  s.putMig n { m with inbox := m.inbox ++ [x] }

/-- Candidates of a stack with their counts summed over the reports, in the order they came (R280). -/
def candSums (all : List TrackEnt) : List TrackEnt :=
  let same (a b : TrackEnt) : Bool := decide (a.table = b.table) && decide (a.ver = b.ver) && decide (a.row = b.row)
  all.foldl (fun acc t =>
    if acc.any (same t) then acc.map (fun u => if same t u then { u with count := u.count + t.count } else u) else acc ++ [t]) []

/-- Count a boundary for every copy of a pool: it stayed cold if its candidate count is below `lim` (R286). -/
def MigSt.cool (m : MigSt) (lim : Nat) : MigSt :=
  let cands := candSums (m.rpts.flatMap (fun r => r.cands))
  { m with copies := m.copies.map (fun c =>
      let k := ((cands.find? (fun t => decide (t.table = c.table) && decide (t.ver = c.ver) && decide (t.row = c.row))).map (·.count)).getD 0
      { c with cool := if k < lim then c.cool + 1 else 0 }) }

/-- RETURN_MIN. -/
def State.returnMin (s : State) (n : Nat) : Nat := s.rf (pgMig n) oMigRowLimits 63 32

/-- Slots and tracker of an engine roll on by one boundary (R278). -/
def MigSt.roll (m : MigSt) : MigSt :=
  { m with slots := List.replicate 12 0 :: m.slots.take 3, track := m.track.map (fun t => { t with count := t.count / 2 }) }

/-- Several boundaries. -/
def MigSt.rollN (m : MigSt) : Nat → MigSt
  | 0 => m
  | n + 1 => (m.roll).rollN n

/-- A boundary that passed with no decision: it counts for the copies with the reports that came, and its reports are gone. -/
def MigSt.lapse (m : MigSt) (lim : Nat) : MigSt :=
  if m.decided || decide (m.bound = 0) then { m with rpts := [], loads := [] }
  else { m.cool lim with rpts := [], loads := [] }

/-- An engine passes its slot boundaries up to the present one (R278, R279), whether its migration is on or not: at the last it
reports to all twelve. Boundaries passed at once each halve the tracker and roll the slots; k is at most 64, by when nothing is
left of either. -/
def State.migBoundary (s : State) (k : Nat) : State :=
  let w := s.migSlot k
  let b := s.ns / w * w
  let m := s.migAt k
  if b ≤ m.bound then s
  else
    let j := min 64 ((b - m.bound) / w)
    let m := ((m.lapse (s.returnMin k)).rollN (j - 1))
    let m := { m with copies := m.copies.map (fun c => if 0 < s.returnMin k then { c with cool := c.cool + (j - 1) } else c) }
    let s := s.putMig k m
    let s := (List.range 12).foldl (fun t n => t.migPost n (s.loadRpt k n b)) s
    let m := s.migAt k
    (s.putMig k { m.roll with bound := b, decided := false, copied := 0 }).releaseGone k

/-- LOAD_WINDOW_BOUNDARY (R278): every engine whose slot boundary has passed reports and halves its tracker. -/
def execLoadWindowBoundary (s : State) : Out State := s.live <| .next ((List.range 12).foldl (fun t k => t.migBoundary k) s)

/-- A message that is in time for its boundary (R281). -/
def MigSt.inTime (m : MigSt) (ns : Nat) (r : LoadRpt) : Bool :=
  decide (r.bound = m.bound) && decide (ns ≤ r.bound + 2000) && !m.decided

/-- LOAD_REPORT_RX (R280, R281): the oldest message from an engine reaches engine n. The twelfth report gives the load of its
shard, which it forwards to every other engine. What comes after B + 2,000 ns is missing. -/
def execLoadReportRx (n from_ : Region) (s : State) : Out State := s.live <|
  let m := s.migAt n.val
  match m.inbox.find? (fun r => r.from_ = from_.val) with
  | none => .next s
  | some r =>
    let m := { m with inbox := m.inbox.erase r }
    if !m.inTime s.ns r then .next (s.putMig n.val m)
    else if r.fwd then .next (s.putMig n.val { m with loads := m.loads ++ [(r.from_, r.load)] })
    else if m.rpts.any (fun q => q.from_ = r.from_) then .next (s.putMig n.val m)
    else
      let rpts := m.rpts ++ [r]
      let load := (rpts.map (fun r => r.load)).foldl (· + ·) 0
      if rpts.length < 12 then .next (s.putMig n.val { m with rpts := rpts })
      else
        let s := s.putMig n.val { m with rpts := rpts, loads := m.loads ++ [(n.val, load)] }
        .next ((List.range 12).foldl (fun t k =>
          if k = n.val then t else t.migPost k { from_ := n.val, fwd := true, bound := r.bound, load := load, cands := [] }) s)

/-! ## Loads and candidates (R280 to R284) -/

/-- L of a stack as engine n knows it; none when it is missing (R280, R281). -/
def State.migLoad (s : State) (n k : Nat) : Option Nat := ((s.migAt n).loads.find? (fun x => x.1 = k)).map (·.2)

/-- Candidates of a stack with their counts summed over the reports (R280), in the order of R284. -/
def State.migCands (s : State) (n : Nat) : List TrackEnt :=
  sortBy (fun a b => decide (b.count < a.count) || (decide (a.count = b.count) &&
    (decide (a.table < b.table) || (decide (a.table = b.table) &&
      (decide (a.row < b.row) || (decide (a.row = b.row) && decide (a.ver < b.ver)))))))
    (candSums ((s.migAt n).rpts.flatMap (fun r => r.cands)))

/-- Pair hot stacks with cool ones (R282, R283): (hot, cool). `ls` are the loads known. -/
def migPairs (hotR coolR : Nat) (ls : List (Nat × Nat)) : List (Nat × Nat) :=
  let cnt := ls.length
  let sum := (ls.map (·.2)).foldl (· + ·) 0
  let hot := sortBy (fun a b => decide (b.2 < a.2)) (ls.filter (fun x => decide (sum * hotR < x.2 * 16 * cnt)))
  let cool := sortBy (fun a b => decide (a.2 < b.2)) (ls.filter (fun x => decide (x.2 * 16 * cnt < sum * coolR)))
  (hot.zip cool).map (fun x => (x.1.1, x.2.1))

/-! ## Directory entries (R289, R291) -/

/-- Write an entry's words; false while the write waits on a fault. -/
def State.entWrite (s : State) (n va : Nat) (ws : List Word) : Bool × State := s.writeVa n (migWho n) false va (wordsBytes ws) false

/-- The words of an entry. -/
def entWords (e : List Byte) : List Word := (List.range 4).map (deWord e)

/-- An entry with STATE replaced. -/
def entState (ws : List Word) (st : Nat) : List Word := ws.set 0 (setFld (ws.getD 0 0) 63 61 st)

/-- The words of an entry that starts to move to a frame, or home (R296). -/
def entMove (ws : List Word) (dst : Option Nat) : List Word :=
  let w0 := setFld (setFld (ws.getD 0 0) 63 61 2) 59 59 (b2n dst.isNone)
  (ws.set 0 w0).set 2 (word (dst.getD 0))

/-- A fresh entry of a row at its home (R289). -/
def entNew (table ver row : Nat) : List Word := [word (2 ^ 60 + ver * 2 ^ 56 + table * 2 ^ 40 + row), 0, 0, 0]

/-- What the look-up of a row finds for a move: it cannot start (with the counter of R285, if any), or the VA and words
of its entry. -/
inductive EntRes where
  | skip
  | full
  | ok (va : Nat) (ws : List Word)
  deriving DecidableEq, Repr

/-- The entry a row moves with (R285, R296): its own, or a free one of its bucket. -/
def State.moveEnt (s : State) (n : Nat) (d : List Byte) (ver row : Nat) : EntRes × State :=
  match s.dirMem n (migWho n) (tdDir d) row with
  | (none, s) => (.skip, s)
  | (some (va, b), s) =>
    match dirFind va b (fld (wordAt d 0) 9 0) ver row with
    | some (x, e) => (if deState e = 2 ∨ deState e = 3 then .skip else .ok x (entWords e), s)
    | none =>
      match (List.range 4).find? (fun i => deState (sliceB b (32 * i) 32) = 0) with
      | none => (.full, s)
      | some i => (.ok (va + 32 * i) (entNew (fld (wordAt d 0) 9 0) ver row), s)

/-- A free frame of stack n's pool, as the PA of its first granule (R290). -/
def State.freeFrame (s : State) (n : Nat) : Option Nat :=
  let f := s.migFrame n
  let base := s.rf (pgMig n) oMigPoolBase 41 8 * 256
  let used := s.migFrames n
  ((List.range (used.length + 1)).find? (fun i =>
    decide ((i + 1) * f ≤ s.rf (pgMig n) oMigPoolGranules 31 0) && !used.contains (base + i * f * 256))).map
    (fun i => base + i * f * 256)

/-- Start a move (R296): the entry is MOVING and broadcast. -/
def State.moveStart (s : State) (n : Nat) (d : List Byte) (ver row va : Nat) (ws : List Word) (dst : Option Nat) : Bool × State :=
  let ws' := entMove ws dst
  match s.entWrite n va ws' with
  | (false, s) => (false, s)
  | (true, s) =>
    let v : RowMove :=
      { id := s.ids, n := n, table := fld (wordAt d 0) 9 0, ver := ver, row := row, pieces := tdPieces d,
        homeVa := rowVa d ver row 0, entVa := va, ent := ws', home := dst.isNone, frame := dst,
        old := if bit (ws.getD 0 0) 60 then none else some (fld (ws.getD 1 0) 41 8 * 256),
        phase := .start, acks := List.range 12, epochs := [], copied := 0, delayed := [], stale := false }
    (true, ((s.setIds (s.ids + 1)).setMoves (s.moves ++ [v])).count (pgMig n) oMigMovesStarted 1)

/-- Try one candidate for engine c (R284, R285): whether its move was started. -/
def State.moveTry (s : State) (c : Nat) (t : TrackEnt) : Bool × State :=
  match s.tdRead c (migWho c) t.table with
  | (.ok d, s) =>
    if tdState d t.ver ≠ svCurrent ∨ s.migFrame c < tdPieces d ∨ tdDir d = 0 then (false, s)
    else match s.moveEnt c d t.ver t.row with
      | (.skip, s) => (false, s)
      | (.full, s) => (false, s.count (pgMig c) oMigDirFull 1)
      | (.ok va ws, s) =>
        match s.freeFrame c with
        | none => (false, (s.count (pgMig c) oMigPoolFull 1).setEvt (pgMig c) 3)
        | some f => s.moveStart c d t.ver t.row va ws (some f)
  | (_, s) => (false, s)

/-- Try the candidates of a pair in order (R284): total count and number of moves started so far. `lim` is the budget
times `cnt`, the number of loads known. -/
def State.moveAll (s : State) (c rowMin maxStart lim cnt : Nat) : Nat → Nat → List TrackEnt → State
  | _, _, [] => s
  | total, k, t :: ts =>
    if rowMin ≤ t.count ∧ (total + t.count) * cnt ≤ lim ∧ k < maxStart ∧ s.migActive c < s.migMax c then
      match s.moveTry c t with
      | (true, s) => s.moveAll c rowMin maxStart lim cnt (total + t.count) (k + 1) ts
      | (false, s) => s.moveAll c rowMin maxStart lim cnt total k ts
    else s.moveAll c rowMin maxStart lim cnt total k ts

/-- Move one copy home (R286). -/
def State.returnTry (s : State) (n : Nat) (c : RowCopy) : State :=
  if s.migMax n ≤ s.migActive n then s
  else match s.tdRead n (migWho n) c.table with
    | (.ok d, s) =>
      (match s.readVa n (migWho n) false c.entVa 32 with
      | (some (e, _), s) =>
        if deState e = 1 ∧ deIs e c.table c.ver c.row = true ∧ tdState d c.ver = svCurrent then
          (s.moveStart n d c.ver c.row c.entVa (entWords e) none).2
        else s
      | (none, s) => s)
    | (_, s) => s

/-- Move home the copies that stayed cold for 16 boundaries (R286). -/
def State.returnHome (s : State) (n : Nat) : State :=
  ((s.migAt n).copies.filter (fun c => decide (16 ≤ c.cool) && !c.gone)).foldl (fun t c => t.returnTry n c) s

/-- Moves of an engine at a boundary (R282 to R286): those of its pair if it is cool, and the rows that go home. `ls` are the
loads it knows. -/
def State.migMoves (s : State) (n : Nat) (ls : List (Nat × Nat)) : State :=
  let pg := pgMig n
  let cnt := ls.length
  let sum := (ls.map (·.2)).foldl (· + ·) 0
  let s := match (migPairs (s.rf pg oMigThresh 7 0) (s.rf pg oMigThresh 15 8) ls).find? (fun p => p.2 = n) with
    | none => s
    | some (h, _) =>
      let lh := ((ls.find? (fun x => x.1 = h)).map (·.2)).getD 0
      let lc := ((ls.find? (fun x => x.1 = n)).map (·.2)).getD 0
      s.moveAll n (s.rf pg oMigRowLimits 31 0) (s.rf pg oMigThresh 23 16) (min (lh * cnt - sum) (sum - lc * cnt)) cnt 0 0
        (s.migCands h)
  if bit (s.rg pg oMigCtl) 1 then s.returnHome n else s

/-- MIGRATION_DECISION (R282 to R286): engine n takes stock at B + 2,000 ns: missing reports, load and mean, its top candidate, the
boundary counted for its copies; while its migration is on it starts its moves. -/
def execMigrationDecision (n : Region) (s : State) : Out State := s.live <|
  let n := n.val
  let pg := pgMig n
  let m := s.migAt n
  if m.decided || decide (m.bound = 0) || decide (s.ns < m.bound + 2000) then .next s
  else
    let s := s.putMig n { m.cool (s.returnMin n) with decided := true }
    let late := 12 - m.rpts.length
    let s := if late = 0 then s else (s.count pg oMigRptLate late).setEvt pg 4
    let ls := (List.range 12).filterMap (fun k => (s.migLoad n k).map (fun l => (k, l)))
    let s := s.setRg pg oMigLoad (word ((s.migLoad n n).getD 0))
    let s := s.setRg pg oMigLoadMean (word ((ls.map (·.2)).foldl (· + ·) 0 / max 1 ls.length))
    let s := match (s.migCands n).head? with
      | some t => (s.setRg pg oMigHotTop (word (t.ver * 2 ^ 50 + t.table * 2 ^ 40 + t.row))).setRg pg oMigHotCnt (word t.count)
      | none => s
    .next ((if s.migOn n then s.migMoves n ls else s).releaseGone n)

/-! ## Broadcasts and read epochs (R291 to R295) -/

/-- Move replaced. -/
def State.putMove (s : State) (v : RowMove) : State := s.setMoves (s.moves.map (fun w => if w.id = v.id then v else w))
/-- Move by number. -/
def State.moveAt (s : State) (id : Nat) : Option RowMove := s.moves.find? (fun v => v.id = id)

/-- Row reads of an engine in flight whose read epoch satisfies a test (R293). -/
def State.readsOf (s : State) (n : Nat) (p : Nat → Bool) : Nat :=
  s.parts.countP (fun q => decide (q.region = n) && (match q.owner with | .bag _ _ => true | _ => false) && p q.epoch)

/-- An engine applies a broadcast and acknowledges it: the bucket leaves its directory cache (R291). -/
def State.ackMove (s : State) (v : RowMove) (n : Nat) : State :=
  (s.dirDrop n v.entVa).putMove { v with acks := v.acks.filter (fun k => k ≠ n) }

/-- DIR_BROADCAST_APPLY (R291, R294, R295): engine n applies a broadcast of a move and acknowledges it. Applying a switch
advances its read epoch; it is delayed while reads of the epoch seven below are in flight, and a delay is counted once. -/
def execDirBroadcastApply (n : Region) (mv : Nat) (s : State) : Out State := s.live <|
  match s.moveAt mv with
  | none => .next s
  | some v =>
    if !v.acks.contains n.val then .next s
    else if v.phase = .switch then
      let m := s.migAt n.val
      if 7 ≤ m.epoch ∧ s.readsOf n.val (fun e => decide (e = m.epoch - 7)) ≠ 0 then
        .next (if v.delayed.contains n.val then s
          else (s.count (pgMig v.n) oMigSwWait 1).putMove { v with delayed := n.val :: v.delayed })
      else
        let s := s.putMig n.val { m with epoch := m.epoch + 1 }
        .next (s.ackMove { v with epochs := v.epochs ++ [(n.val, m.epoch)] } n.val)
    else .next (s.ackMove v n.val)

/-- The frame of a copy whose entry is at a VA leaves the books of its pool. -/
def State.dropCopy (s : State) (entVa frame : Nat) : State :=
  (List.range 12).foldl (fun t k =>
    let m := t.migAt k
    t.putMig k { m with copies := m.copies.filter (fun c => !(decide (c.frame = frame) && decide (c.entVa = entVa))) }) s

/-- A FREED entry is acknowledged (R296): it is ACTIVE, or EMPTY when the row is home, and that last write is broadcast. A
second move that started from FREED has the entry; the first is then over. -/
def State.moveEnd (s : State) (v : RowMove) : State :=
  match s.readVa v.n (migWho v.n) false v.entVa 32 with
  | (none, s) => s
  | (some (e, _), s) =>
    let done (s : State) : State := (s.count (pgMig v.n) oMigMovesDone 1).setEvt (pgMig v.n) 0
    if deState e = 4 ∧ deIs e v.table v.ver v.row = true then
      match s.entWrite v.n v.entVa (if v.home then [0, 0, 0, 0] else entState (entWords e) 1) with
      | (false, s) => s
      | (true, s) => done (s.putMove { v with phase := .last, acks := List.range 12 })
    else done (s.setMoves (s.moves.filter (fun w => w.id ≠ v.id)))

/-- A move is over: copies of a slot that became FREE meanwhile are released now (R307). -/
def State.moveOver (s : State) (v : RowMove) : State :=
  (List.range 12).foldl (fun t k => t.releaseGone k) (s.setMoves (s.moves.filter (fun w => w.id ≠ v.id)))

/-- Send the FENCEs of a move: one to every source pseudo-channel of the row's pieces (R296). -/
def State.moveFences (s : State) (v : RowMove) : Option State :=
  let pas := (List.range v.pieces).filterMap (fun p => match v.old with
    | some a => some (a + 256 * p)
    | none => (s.leafAt (v.homeVa + 256 * p)).map (fun (l : Nat × Word × Nat) => ptePa l.2.1 + (v.homeVa + 256 * p) % 2 ^ lvlBits l.1))
  let pchs := ((pas.filterMap s.paAcc).map (·.1)).eraseDups
  s.addParts (pchs.map (fun d =>
    { stk := d / 64, opc := 0x08, flit := embFlit (d % 64) 0 0 false 0 [], rows := [], region := v.n, owner := .move v.id, piece := 0,
      wts := [], k := 1, seen := 0, got := [], bad := false, epoch := 0, sent := false, gate := none, done := false, sadd := none,
      ncols := 0, pooled := false, vas := [] }))

/-- DIR_BROADCAST_ACK (R291, R296): all twelve engines have acknowledged a broadcast, and the move goes on: FENCEs are
sent; RUPDs that waited for the switch complete (R304); a FREED entry is settled; a move whose last write is acknowledged is
over. -/
def execDirBroadcastAck (mv : Nat) (s : State) : Out State := s.live <|
  match s.moveAt mv with
  | none => .next s
  | some v =>
    if !v.acks.isEmpty then .next s
    else match v.phase with
      | .start =>
        (match s.moveFences v with
        | some s => .next (s.putMove { v with phase := .fence })
        | none => .next s)
      | .switch =>
        let s := s.setParts ((s.parts.filter (fun p => !(decide (p.gate = some mv) && p.done))).map
          (fun p => if p.gate = some mv then { p with gate := none } else p))
        .next (s.putMove { v with phase := .drain })
      | .freed => .next (s.moveEnd v)
      | .last => .next (s.moveOver v)
      | _ => .next s

/-! ## Copying, switching, draining (R296 to R301) -/

/-- PA of piece p of a move's settled location or destination. none: it waits; some none: a poisoned page. -/
def State.movePa (s : State) (v : RowMove) (dest : Bool) (p : Nat) : Option (Option Nat) × State :=
  let at_ := if dest then v.frame else v.old
  match at_ with
  | some pa => (some (some (pa + 256 * p)), s)
  | none => s.xlateF v.n ⟨word (v.homeVa + 256 * p), if dest then .write else .read, false, migWho v.n⟩

/-- Copy one granule access by access with its marks (R298); a poisoned source page is copied as poison. k bounds the accesses. -/
def State.moveAccs (s : State) (n : Nat) (src : Option Nat) (dst : Nat) : Nat → State
  | 0 => s
  | k + 1 =>
    let ((bs, p), s) := match src with
      | some a => s.readPa n (pgMig n) a
      | none => ((List.replicate 32 0, true), s)
    (s.writePa n (pgMig n) dst bs p).moveAccs n (src.map (· + 32)) (dst + 32) k

/-- Both ends of a granule's copy are served at their stack ports now (R299). -/
def State.moveServes (s : State) (n : Nat) (src : Option Nat) (dst : Nat) : Bool :=
  (List.range 8).all (fun i => (match src with | some a => s.paServes n (pgMig n) (a + 32 * i) | none => true) &&
    s.paServes n (pgMig n) (dst + 32 * i))

/-- Copy the next pieces of a row, k at most: how many are copied then. It stops where a translation or a stack port waits. -/
def State.movePieces (s : State) (v : RowMove) : Nat → Nat → Nat × State
  | 0, p => (p, s)
  | k + 1, p =>
    if v.pieces ≤ p then (p, s)
    else match s.movePa v false p with
      | (none, s) => (p, s)
      | (some a, s) =>
        match s.movePa v true p with
        | (none, s) => (p, s)
        | (some none, s) => s.movePieces v k (p + 1)
        | (some (some b), s) =>
          if s.moveServes v.n a b then (s.moveAccs v.n a b 8).movePieces v k (p + 1) else (p, s)

/-- A FENCE of a move is not answered yet. -/
def State.moveFenced (s : State) (v : RowMove) : Bool := s.parts.any (fun q => q.owner = .move v.id)

/-- MOVE_FENCES_DONE (R296): every FENCE is answered DONE; the pieces are read from the settled location and written to the
destination, granule by granule within the slot's COPY_BUDGET (R299). -/
def execMoveFencesDone (mv : Nat) (s : State) : Out State := s.live <|
  match s.moveAt mv with
  | none => .next s
  | some v =>
    if v.phase ≠ .fence ∨ s.moveFenced v = true ∨ s.parkedAt v.n (migWho v.n) = true then .next s
    else
      let left := s.rf (pgMig v.n) oMigCopyBudget 31 0 - (s.migAt v.n).copied
      let (p, s) := s.movePieces v (min left (v.pieces - v.copied)) v.copied
      let m := s.migAt v.n
      .next ((s.putMig v.n { m with copied := m.copied + (p - v.copied) }).putMove
        { v with copied := p, phase := if v.pieces ≤ p then .copy else .fence })

/-- Updates of a move's row are held, or on their way to the destination (R304). -/
def State.moveHeld (s : State) (v : RowMove) : Bool :=
  (List.range 12).any (fun m => (s.migAt m).hold.any (fun w => decide (w.table = v.table) && decide (w.ver = v.ver) && decide (w.row = v.row))) ||
    s.parts.any (fun p => decide (p.gate = some v.id) && !p.done)

/-- MOVE_COPY_WRITTEN (R296): copy and held updates are at the destination; the entry is SWITCHED with its epoch advanced,
and broadcast. -/
def execMoveCopyWritten (mv : Nat) (s : State) : Out State := s.live <|
  match s.moveAt mv with
  | none => .next s
  | some v =>
    if v.phase ≠ .copy ∨ s.moveHeld v = true then .next s
    else
      let ws := (entState v.ent 3).set 3 (v.ent.getD 3 0 + 1)
      match s.entWrite v.n v.entVa ws with
      | (false, s) => .next s
      | (true, s) => .next (s.putMove { v with ent := ws, phase := .switch, acks := List.range 12, epochs := [] })

/-- The books of the pools at FREED (R296, R309): the frame of an old copy is back, and the new copy stands in its pool. -/
def State.freeOld (s : State) (v : RowMove) : State :=
  let s := match v.old with
    | some f => s.dropCopy v.entVa f
    | none => s
  match v.frame with
  | some f =>
    let m := s.migAt v.n
    s.putMig v.n { m with copies := m.copies ++
      [({ table := v.table, ver := v.ver, row := v.row, frame := f, entVa := v.entVa, cool := 0, gone := v.stale } : RowCopy)] }
  | none => s

/-- SWITCH_DRAINED (R296, R301): no read of an older epoch is in flight; the entry is FREED at its new location, and the
old copy's frame is free. -/
def execSwitchDrained (mv : Nat) (s : State) : Out State := s.live <|
  match s.moveAt mv with
  | none => .next s
  | some v =>
    if v.phase ≠ .drain ∨ (v.epochs.any (fun e => s.readsOf e.1 (fun k => decide (k ≤ e.2)) ≠ 0)) = true then .next s
    else
      let w0 := setFld (setFld (v.ent.getD 0 0) 63 61 4) 60 60 (b2n v.home)
      let ws := [w0, v.ent.getD 2 0, v.ent.getD 2 0, v.ent.getD 3 0]
      match s.entWrite v.n v.entVa ws with
      | (false, s) => .next s
      | (true, s) => .next ((s.freeOld v).putMove { v with ent := ws, frame := none, phase := .freed, acks := List.range 12 })

/-! ## Abort (R296) -/

/-- A stack is out of service. -/
def State.stkOut (s : State) (n : Nat) : Bool :=
  let k := s.stkAt n
  (decide (k.st ≠ StackState.base) && decide (k.st ≠ StackState.full)) || k.lost

/-- A destination stack of a move is out of service: that of its frame, or of a home piece. -/
def State.moveDead (s : State) (v : RowMove) : Bool :=
  let pas := match v.frame with
    | some f => [f]
    | none => (List.range v.pieces).filterMap (fun p => (s.leafAt (v.homeVa + 256 * p)).map
        (fun (l : Nat × Word × Nat) => ptePa l.2.1 + (v.homeVa + 256 * p) % 2 ^ lvlBits l.1))
  (pas.filterMap s.paAcc).any (fun x => s.stkOut (x.1 / 64))

/-- Issue the held updates of a row to its settled location, in arrival order (R296). -/
def State.heldGo (s : State) (v : RowMove) : State :=
  (List.range 12).foldl (fun t k =>
    ((t.migAt k).hold.filter (fun w => decide (w.table = v.table) && decide (w.ver = v.ver) && decide (w.row = v.row))).foldl (fun u w =>
      match u.batchAt w.batch with
      | none => u
      | some b =>
        match u.tdRead b.region (batchWho b) w.table with
        | (.ok d, u) =>
          (match u.rupdIssue b w d (match v.old with | some a => .copy a | none => .home) none with
          | (true, u) => let m := u.migAt k; u.putMig k { m with hold := m.hold.erase w }
          | (false, u) => u)
        | (_, u) => u) t) s

/-- Updates already sent to the destination of an aborted move go back to the hold queues, ahead of those held. -/
def State.unsendGated (s : State) (v : RowMove) : State :=
  let back := s.parts.filter (fun p => p.gate = some v.id)
  let s := s.setParts (s.parts.filter (fun p => p.gate ≠ some v.id))
  back.reverse.foldl (fun t p =>
    match p.owner with
    | .batch id =>
      let w : RupdWait := ⟨0, { p.flit with tag := 0 }, p.region, v.table, v.ver, v.row, p.piece, id, p.sadd, false⟩
      let m := t.migAt p.region
      t.putMig p.region { m with hold := w :: m.hold }
    | _ => t) s

/-- MOVE_ABORT (R296): the destination stack left service while the row was MOVING. The entry is settled where it was, and that
write is broadcast (R291). -/
def execMoveAbort (mv : Nat) (s : State) : Out State := s.live <|
  match s.moveAt mv with
  | none => .next s
  | some v =>
    let moving := decide (v.phase = .start) || decide (v.phase = .fence) || decide (v.phase = .copy)
    if !moving || !s.moveDead v then .next s
    else
      let ws := if v.old.isNone then [0, 0, 0, 0] else entState v.ent 1
      match s.entWrite v.n v.entVa ws with
      | (false, s) => .next s
      | (true, s) =>
        let s := s.unsendGated v
        let s := s.setParts (s.parts.filter (fun p => p.owner ≠ .move mv))
        let s := s.putMove { v with frame := none, phase := .last, acks := List.range 12 }
        let s := s.heldGo v
        .next ((s.count (pgMig v.n) oMigMovesAborted 1).setEvt (pgMig v.n) 1)

end Sys2Proof.Machine
end

