-- ==== Sys2Proof/Machine/Exact.lean ====
section
/-! DEFINITION. Moments tasks of the Firefly (R446 to R454): exact sums and squares of columns, imports, exports, and the
four statistics, each rounded once. -/

namespace Sys2Proof.Machine

/-! ## Scratchpad areas of cluster units -/

/-- A scratchpad address of a descriptor, taken modulo the 22 bits of its field (DESIGN CHOICE, assumption 30). -/
def spadAt (a : Nat) : Nat := a % 2 ^ 22

/-- Read n bytes of a scratchpad at an aligned element. -/
def State.spadNum (s : State) (c a n : Nat) : Nat := ofLe (s.spadRd c (spadAt a) n)

/-- Write an area access by access with the mark of each (R998). -/
def State.spadArea (s : State) (c a : Nat) : List Byte → List Bool → State
  | _, [] => s
  | bs, p :: ps => (s.spadWr c (spadAt a) (bs.take 32) p).spadArea c (a + 32) (bs.drop 32) ps

/-- Marks of the accesses of an area from the marks of its elements of w bytes: an access is poisoned with any element
in it (R697). -/
def accMarks (w : Nat) (bytes : Nat) (bad : List Bool) : List Bool :=
  (List.range ((bytes + 31) / 32)).map (fun k => ((bad.drop (32 * k / w)).take (32 / w)).any id)

/-- Bytes padded with zero to a multiple of 32. -/
def pad32 (bs : List Byte) : List Byte := bs ++ List.replicate (roundUp bs.length 32 - bs.length) 0

/-! ## The descriptor (R446, R453) -/

/-- ROWS. -/
def moRows (p : List Byte) : Nat := fld (wordAt p 0) 48 32
/-- COLS. -/
def moCols (p : List Byte) : Nat := fld (wordAt p 0) 31 18
/-- EXPORT. -/
def moExport (p : List Byte) : Bool := bit (wordAt p 0) 16
/-- IMP_SETS. -/
def moSets (p : List Byte) : Nat := fld (wordAt p 0x20) 63 48
/-- Bytes of an export set (R452). -/
def moSetBytes (p : List Byte) : Nat := 16 + 96 * moCols p
/-- Address of imported set i (R453). -/
def moSetAt (p : List Byte) (i : Nat) : Nat := fld (wordAt p 0x20) 21 0 + i * moSetBytes p

/-- No reserved field or code, counts in range, addresses and stride aligned (R446, R453). -/
def moFieldsOk (p : List Byte) : Bool :=
  let w := wordAt p 0
  decide (fld w 63 49 = 0) && !bit w 17 && decide (fld w 5 0 = 0) && decide (fld w 14 12 ≤ 4) && decide (fld w 11 10 ≤ 2) &&
    decide (1 ≤ moRows p) && decide (moRows p ≤ 65536) && decide (1 ≤ moCols p) && decide (moCols p ≤ 8192) &&
    decide (fld (wordAt p 8) 31 22 = 0) && decide (fld (wordAt p 0x10) 63 22 = 0) && decide (fld (wordAt p 0x18) 63 22 = 0) &&
    decide (fld (wordAt p 0x20) 47 22 = 0) && decide (fld (wordAt p 0x30) 63 12 = 0) && decide (wordAt p 0x38 = 0) &&
    decide (fld (wordAt p 8) 36 32 = 0) && decide (fld (wordAt p 8) 4 0 = 0) && decide (fld (wordAt p 0x10) 4 0 = 0) &&
    decide (fld (wordAt p 0x18) 4 0 = 0) && decide (fld (wordAt p 0x20) 4 0 = 0)

/-- Counts of the imported sets; none when a set has other columns or a reserved bit set (R452, R453). -/
def State.moCounts (s : State) (c : Nat) (p : List Byte) : Option Nat :=
  let ns := (List.range (moSets p)).map (fun i => (s.spadNum c (moSetAt p i) 8, s.spadNum c (moSetAt p i + 8) 8))
  if ns.all (fun e => decide (e.2 = moCols p)) then some (ns.foldl (fun t e => t + e.1) 0) else none

/-! ## Column sums (R447, R448) -/

/-- Sums of a column: S, Q, and whether either takes poisoned data; inputs of 2^64 or more, squares that lost bits,
partials rejected. -/
structure MomAcc where
  s     : XAcc
  q     : XAcc
  bad   : Bool
  range : Nat
  trunc : Nat
  xbad  : Nat
  deriving DecidableEq, Repr

/-- No addend. -/
def MomAcc.zero : MomAcc := ⟨XAcc.zero, XAcc.zero, false, 0, 0, 0⟩

/-- Add a value and its square (R430, R447, R448). -/
def MomAcc.add (m : MomAcc) (v : Fl) : MomAcc :=
  match v with
  | .fin _ g =>
    if 2 ^ 213 ≤ g then { m with s := m.s.add v, q := { m.q with nf := m.q.nf ||| 1 }, range := m.range + 1 }
    else
      { m with s := m.s.add v, q := { m.q with x := m.q.x + ((g * g / 2 ^ 149 : Nat) : Int) },
               trunc := m.trunc + (if g * g % 2 ^ 149 = 0 then 0 else 1) }
  | .inf _ => { m with s := m.s.add v, q := { m.q with nf := m.q.nf ||| 1 } }
  | .nan => { m with s := m.s.add v, q := m.q.add .nan }

/-- Add the imported partials of a column; a rejected one poisons it (R444). -/
def MomAcc.take (m : MomAcc) (a b : Option XAcc) (bad : Bool) : MomAcc :=
  match a, b with
  | some a, some b => { m with s := m.s.merge a, q := m.q.merge b, bad := m.bad || bad }
  | some a, none => { m with s := m.s.merge a, bad := true, xbad := m.xbad + 1 }
  | none, some b => { m with q := m.q.merge b, bad := true, xbad := m.xbad + 1 }
  | none, none => { m with bad := true, xbad := m.xbad + 2 }

/-- Sums of column k (R447). -/
def State.moCol (s : State) (c : Nat) (p : List Byte) (k : Nat) : MomAcc :=
  let f := tblFmt (fld (wordAt p 0) 14 12)
  let at_ (i : Nat) : Nat := spadAt (fld (wordAt p 8) 21 0 + i * fld (wordAt p 8) 63 32 + k * f.bytes)
  let m := (List.range (moRows p)).foldl (fun m i =>
    let m := m.add (f.decode (s.spadNum c (at_ i) f.bytes))
    if s.spadPoison c (at_ i) f.bytes then { m with bad := true } else m) MomAcc.zero
  (List.range (moSets p)).foldl (fun m i =>
    let a := moSetAt p i + 16 + 96 * k
    let rd (x : Nat) : Option XAcc := (readPartial ((List.range 6).flatMap (fun j => s.spadRd c (spadAt (x + 8 * j)) 8))).1
    let bad := s.spadPoison c (spadAt (moSetAt p i)) 16 ||
      (List.range 12).any (fun j => s.spadPoison c (spadAt (a + 8 * j)) 8)
    m.take (rd a) (rd (a + 48)) bad) m

/-! ## Statistics (R449 to R451) -/

/-- Round the variance (R449, R450): (n Q - S²) / n² from exact values. -/
def momVar (f : Fmt) (mode : RMode) (m : MomAcc) (n : Nat) : Rounded :=
  if m.q.nf = 1 ∧ m.s.nf = 0 then ⟨f.infBits false, false⟩
  else if m.q.nf ≠ 0 ∨ m.s.nf ≠ 0 then ⟨f.qnan, false⟩
  else
    let v := (n : Int) * m.q.x * 2 ^ 149 - m.s.x * m.s.x
    if v ≤ 0 then ⟨0, false⟩ else f.round mode false v.natAbs (n * n) (-298)

/-- Output k of a column: SUM, SUMSQ, MEAN, VAR (R449). -/
def momOut (f : Fmt) (mode : RMode) (m : MomAcc) (n k : Nat) : Rounded :=
  match k with
  | 0 => m.s.round f mode 1
  | 1 => m.q.round f mode 1
  | 2 => m.s.round f mode n
  | _ => momVar f mode m n

/-- Whether output k comes from a non-finite code. -/
def momNf (m : MomAcc) (k : Nat) : Bool :=
  match k with
  | 0 => decide (m.s.nf ≠ 0)
  | 1 => decide (m.q.nf ≠ 0)
  | 2 => decide (m.s.nf ≠ 0)
  | _ => decide (m.s.nf ≠ 0) || decide (m.q.nf ≠ 0)

/-- An XP partial padded with zero to 48 B (R452, R511). -/
def partial48 (a : XAcc) : List Byte :=
  let bs := a.partial_
  bs ++ List.replicate (48 - bs.length) 0

/-- The export set (R452). -/
def momSet (ms : List MomAcc) (n cols : Nat) : List Byte :=
  leBytes 8 n ++ leBytes 8 cols ++ ms.flatMap (fun m => partial48 m.s ++ partial48 m.q)

/-- Marks of the export set's accesses: one is poisoned with any column in it. -/
def momSetMarks (ms : List MomAcc) (cols : Nat) : List Bool :=
  (List.range ((16 + 96 * cols + 31) / 32)).map (fun k =>
    let col (b : Nat) : Bool := decide (16 ≤ b) && (ms.getD ((b - 16) / 96) MomAcc.zero).bad
    col (32 * k) || col (32 * k + 31))

/-- Remove a task from its Firefly. -/
def State.vecDrop (s : State) (c e : Nat) : State :=
  let v := s.vecAt c
  s.putVec c { v with tasks := v.tasks.filter (fun t => t.entry ≠ e) }

/-- Count what the moments task added (R471). -/
def State.momCount (s : State) (c : Nat) (p : List Byte) (ms : List MomAcc) : State :=
  let pg := pgVec c
  let sum (g : MomAcc → Nat) : Nat := ms.foldl (fun t m => t + g m) 0
  let s := s.count pg oVecAddends (2 * moRows p * moCols p)
  let s := s.count pg oVecXpIn (2 * moSets p * moCols p - sum (·.xbad))
  let s := s.count pg oVecTrunc (sum (·.trunc))
  let s := if sum (·.range) = 0 then s else (s.count pg oVecMomRange (sum (·.range))).setEvt pg 4
  if sum (·.xbad) = 0 then s else (s.count pg oVecXpBad (sum (·.xbad))).setEvt pg 3

/-- Write output k, at row j of DST (R449). -/
def State.momWrite (s : State) (c seed : Nat) (p : List Byte) (ms : List MomAcc) (n k j : Nat) : State :=
  let pg := pgVec c
  let w := wordAt p 0
  let f := if fld w 11 10 = 1 then bf16 else if fld w 11 10 = 2 then fp16 else fp32
  let rs := (List.range ms.length).map (fun i =>
    momOut f (rmode (bit w 15) seed (fld (wordAt p 0x28) 63 32) (k * 8192 + i) (fld (wordAt p 0x28) 31 0))
      (ms.getD i MomAcc.zero) n k)
  let row := pad32 (rs.flatMap (fun r => leBytes f.bytes r.bits))
  let s := s.spadArea c (fld (wordAt p 0x10) 21 0 + j * row.length) row (accMarks f.bytes row.length (ms.map (·.bad)))
  let s := s.count pg oVecRounded rs.length
  let s := s.count pg oVecNonfinite (ms.countP (fun m => momNf m k))
  let ovf := rs.countP (fun r => r.ovf)
  let s := if ovf = 0 then s else (s.count pg oVecOvf ovf).setEvt pg 2
  if rs.any (fun r => match f.decode r.bits with | .fin _ _ => false | _ => true) then s.setEvt pg 1 else s

/-- Write the requested outputs from the lowest, each in its row. -/
def State.momWrites (s : State) (c seed : Nat) (p : List Byte) (ms : List MomAcc) (n : Nat) : List Nat → Nat → State
  | [], _ => s
  | k :: ks, j => (s.momWrite c seed p ms n k j).momWrites c seed p ms n ks (j + 1)

/-- MOMENTS (R446 to R454): the Firefly runs its first moments task. -/
def execMoments (clu : Clu) (s : State) : Out State := s.live <|
  let c := clu.val
  match (s.vecAt c).tasks with
  | [] => .next s
  | t :: _ =>
    let r := cluRegion c
    let p := t.body
    let refuse : Out State := .next ((s.vecDrop c t.entry).taskFail r t.entry stInvalidDesc (pgVec c) 0)
    if !moFieldsOk p then refuse
    else match s.moCounts c p with
      | none => refuse
      | some k =>
        let n := moRows p + k
        if 2 ^ 42 < n then refuse
        else
          let ms := (List.range (moCols p)).map (s.moCol c p)
          let seed := (s.slotAt t.slot).seed.toNat
          let s := s.momCount c p ms
          let s := s.momWrites c seed p ms n ((List.range 4).filter (fun i => bit (wordAt p 0) (6 + i))) 0
          let s := if moExport p then
              (s.spadArea c (fld (wordAt p 0x18) 21 0) (momSet ms n (moCols p)) (momSetMarks ms (moCols p))).count
                (pgVec c) oVecXpOut (2 * moCols p)
            else s
          let s := if ms.any (·.bad) then s.poisonReq t.slot else s
          let s := (s.count (pgVec c) oVecMoments 1).vecDrop c t.entry
          let s := s.issueInc r (fld (wordAt p 0x30) 11 0) 1
          .next (s.taskDone r t.entry)

end Sys2Proof.Machine
end

