-- ==== Sys2Proof/Machine/Gmx.lean ====
section
/-! DEFINITION. Block sparsity and the GMX block (R527 to R571): storage tiles and compressed areas, checks on read,
COMPRESS, DIGEST and EXPAND, layer digests. -/

namespace Sys2Proof.Machine

/-! ## Storage tiles (R527 to R535) -/

/-- Bytes of an element of a tile format (R528). -/
def tileElem (efmt : Nat) : Nat := if efmt = 0 then 4 else if efmt ≤ 2 then 2 else 1

/-- Dense bytes of a tile (R530). -/
def tileDense (efmt : Nat) : Nat := 1024 * tileElem efmt

/-- Bytes of a block. -/
def blockBytes (efmt : Nat) : Nat := 64 * tileElem efmt

/-- Block k = 4q + j of a tile: rows 8q to 8q + 7, columns 8j to 8j + 7, row-major (R527, R532). -/
def tileBlock (efmt : Nat) (d : List Byte) (k : Nat) : List Byte :=
  let e := tileElem efmt
  (List.range 8).flatMap (fun i => sliceB d (((8 * (k / 4) + i) * 32 + 8 * (k % 4)) * e) (8 * e))

/-- The dense bytes of a tile from its 16 blocks. -/
def tileOf (efmt : Nat) (bs : List (List Byte)) : List Byte :=
  let e := tileElem efmt
  (List.range 32).flatMap (fun r => (List.range 4).flatMap (fun j =>
    sliceB (bs.getD (4 * (r / 8) + j) []) (r % 8 * 8 * e) (8 * e)))

/-- Mask of the present blocks (R529). -/
def tileMask (efmt : Nat) (d : List Byte) : Nat :=
  ((List.range 16).map (fun k => if allZero (tileBlock efmt d k) then 0 else 2 ^ k)).foldl (· + ·) 0

/-- Set bits of a mask of 16 bits. -/
def popCount16 (m : Nat) : Nat := (List.range 16).countP (fun k => m.testBit k)

/-- CHECK over header bytes 0 to 5 and the mask word of a SPARSE tile (R534). -/
def tileCheck (hdr6 mask : List Byte) : Nat := crc16 (hdr6 ++ mask)

/-- A tile header with its CHECK (R531). -/
def tileHdr (form npres efmt len : Nat) (mask : List Byte) : List Byte :=
  let h := leBytes 6 (len * 2 ^ 32 + npres * 2 ^ 16 + efmt * 2 ^ 8 + form)
  h ++ leBytes 2 (tileCheck h mask) ++ mask

/-- The one legal form of a tile (R535); `dense` forces the escape (R556). -/
def tilePack (efmt : Nat) (d : List Byte) (dense : Bool) : List Byte :=
  let m := tileMask efmt d
  let n := popCount16 m
  if dense || decide (n = 16) then tileHdr 2 16 efmt (tileDense efmt + 8) [] ++ d
  else tileHdr 1 n efmt (16 + n * blockBytes efmt) (leBytes 8 m) ++
    ((List.range 16).filter (fun k => m.testBit k)).flatMap (tileBlock efmt d)

/-! ## Reading a compressed area (R536, R537, R539 to R542) -/

/-- What a tile is found to be. -/
inductive TileRes where
  | poison
  | bad (reason : Nat)
  | ok (dense : List Byte) (mask form len : Nat)
  deriving DecidableEq, Repr

/-- Check the tile at scratchpad address a of an area that ends at `fin` (R539); reasons as in BAD_INFO. -/
def State.tileRead (s : State) (c a fin efmt : Nat) : TileRes :=
  let h := s.spadNum c a 8
  let len := bitsOf h 47 32
  let form := h % 16
  let npres := bitsOf h 23 16
  if s.spadPoison c a 8 || s.spadPoison c a (min len (fin - a)) then .poison
  else if (form ≠ 1 ∧ form ≠ 2) ∨ bitsOf h 31 24 ≠ 0 ∨ bitsOf h 15 11 ≠ 0 ∨ bitsOf h 7 4 ≠ 0 then .bad 1
  else if bitsOf h 10 8 ≠ efmt then .bad 2
  else if form = 1 then
    let mw := s.spadRd c (a + 8) 8
    let m := ofLe mw
    if fin < a + 16 then .bad 6
    else if tileCheck (leBytes 6 h) mw ≠ h / 2 ^ 48 then .bad 3
    else if 2 ^ 16 ≤ m ∨ npres ≠ popCount16 m ∨ 15 < npres ∨ len ≠ 16 + npres * blockBytes efmt then .bad 4
    else if fin < a + len then .bad 6
    else
      let ks := (List.range 16).filter (fun k => m.testBit k)
      let body := s.spadRd c (a + 16) (npres * blockBytes efmt)
      let bs := (List.range 16).map (fun k =>
        if m.testBit k then sliceB body (ks.countP (fun x => x < k) * blockBytes efmt) (blockBytes efmt)
        else List.replicate (blockBytes efmt) 0)
      if ks.any (fun k => allZero (bs.getD k [])) then .bad 5
      else .ok (tileOf efmt bs) m 1 len
  else
    if tileCheck (leBytes 6 h) [] ≠ h / 2 ^ 48 then .bad 3
    else if npres ≠ 16 ∨ len ≠ tileDense efmt + 8 then .bad 4
    else if fin < a + len then .bad 6
    else
      let d := s.spadRd c (a + 8) (tileDense efmt)
      if tileMask efmt d ≠ 2 ^ 16 - 1 then .bad 5 else .ok d (2 ^ 16 - 1) 2 len

/-- A tile that was read: dense bytes, mask of present blocks, FORM, poisoned. -/
structure TileGot where
  dense  : List Byte
  mask   : Nat
  form   : Nat
  poison : Bool
  deriving DecidableEq, Repr

/-- An area that was read: the tiles, and the fault with its address and reason if there is one (R541). -/
structure AreaGot where
  tiles : List TileGot
  bad   : Option (Nat × Nat)
  deriving DecidableEq, Repr

/-- A poisoned tile: its bytes are not used. -/
def TileGot.poisoned (efmt : Nat) : TileGot := ⟨List.replicate (tileDense efmt) 0, 0, 0, true⟩

/-- Read the tiles from tile k on; n bounds them, `due` is the place R537 gives the next one, none after a poisoned
tile. The last tile ends at AREA_LEN. -/
def State.areaTiles (s : State) (c base fin efmt : Nat) (due : Option Nat) : Nat → Nat → AreaGot
  | 0, _ => ⟨[], if due.any (fun d => decide (base + 8 * d ≠ fin)) then some (base, 6) else none⟩
  | n + 1, k =>
    let e := s.spadNum c (base + 8 + 4 * k) 4
    let a := base + 8 * e
    if due.any (fun d => decide (d ≠ e)) || decide (fin < a + 8) then ⟨[], some (a, 6)⟩
    else match s.tileRead c a fin efmt with
      | .poison =>
        let g := s.areaTiles c base fin efmt none n (k + 1)
        { g with tiles := TileGot.poisoned efmt :: g.tiles }
      | .bad r => ⟨[], some (a, r)⟩
      | .ok d m f len =>
        let g := s.areaTiles c base fin efmt (some (e + len / 8)) n (k + 1)
        { g with tiles := ⟨d, m, f, false⟩ :: g.tiles }

/-- Granules of 8 B of the area word and map of t tiles (R536, R537). -/
def mapEnd (t : Nat) : Nat := (8 + 4 * t + 7) / 8

/-- Read a compressed area that its consumer expects with tr × tc tiles of a format (R540). A poisoned area word or map
leaves every tile unread and poisoned (DEDUCED, assumption 31). -/
def State.areaRead (s : State) (c base tr tc efmt : Nat) : AreaGot :=
  let t := tr * tc
  let w := word (s.spadNum c base 8)
  let len := fld w 55 32
  if spadBytes < base + 8 * mapEnd t then ⟨[], some (base, 6)⟩
  else if s.spadPoison c base (8 * mapEnd t) then ⟨List.replicate t (TileGot.poisoned efmt), none⟩
  else if fld w 63 56 ≠ 0 ∨ fld w 31 27 ≠ 0 ∨ fld w 23 22 ≠ 0 ∨ fld w 26 24 ≠ efmt ∨ fld w 21 11 ≠ tc ∨ fld w 10 0 ≠ tr ∨
      len % 8 ≠ 0 ∨ spadBytes < base + len ∨ !allZero (s.spadRd c (base + 8 + 4 * t) (8 * mapEnd t - 8 - 4 * t)) then
    ⟨[], some (base, 6)⟩
  else s.areaTiles c base (base + len) efmt (some (mapEnd t)) t 0

/-- Book the checks of an area (R541, R542, R570). -/
def State.areaCount (s : State) (c : Nat) (g : AreaGot) (base : Nat) : State :=
  let pg := pgGmx c
  let s := s.count pg oGmxTilesIn (g.tiles.length + (if g.bad.any (fun b => decide (b.1 ≠ base)) then 1 else 0))
  let np := g.tiles.countP (·.poison)
  let s := if np = 0 then s else (s.count pg oGmxPoisonTiles np).setEvt pg 2
  match g.bad with
  | none => s
  | some (a, r) =>
    let a := a % 2 ^ 22
    let s := (s.count pg oGmxTileBad 1).setRg pg oGmxBadInfo (word (r * 2 ^ 24 + a))
    (s.setEvt pg 1).error pg (contained 0x0304 pg (word a) (word r))

/-! ## The task descriptor (R551, R552) -/

/-- OP. -/
def gxOp (p : List Byte) : Nat := fld (wordAt p 0) 49 48
/-- EFMT. -/
def gxFmt (p : List Byte) : Nat := fld (wordAt p 0) 44 42
/-- DIG_EN. -/
def gxDig (p : List Byte) : Bool := bit (wordAt p 0) 41
/-- DIG_SLOT. -/
def gxSlot (p : List Byte) : Nat := fld (wordAt p 0) 40 38
/-- TC. -/
def gxTc (p : List Byte) : Nat := fld (wordAt p 0) 21 11
/-- TR. -/
def gxTr (p : List Byte) : Nat := fld (wordAt p 0) 10 0
/-- D_STRIDE. -/
def gxStride (p : List Byte) : Nat := fld (wordAt p 8) 63 32
/-- D_ADDR. -/
def gxDense (p : List Byte) : Nat := fld (wordAt p 8) 21 0
/-- C_ADDR. -/
def gxArea (p : List Byte) : Nat := fld (wordAt p 0x10) 21 0
/-- DIG_VA. -/
def gxVa (p : List Byte) : Nat := (wordAt p 0x28).toNat

/-- What a GMX block checks of a task (R552). The largest area is used for COMPRESS as for EXPAND (DEDUCED,
assumption 31). -/
def gxOk (p : List Byte) : Bool :=
  let w := wordAt p 0
  let t := gxTr p * gxTc p
  let es := tileElem (gxFmt p)
  decide (fld w 63 50 = 0) && decide (fld w 47 45 = 0) && decide (fld w 37 22 = 0) && decide (fld (wordAt p 8) 31 22 = 0) &&
    decide (fld (wordAt p 0x10) 63 22 = 0) && decide (fld (wordAt p 0x20) 63 32 = 0) && decide (fld (wordAt p 0x30) 63 12 = 0) &&
    decide (wordAt p 0x38 = 0) && decide (gxOp p ≠ 3) && decide (gxFmt p ≤ 5) && decide (gxTr p ≠ 0) && decide (gxTc p ≠ 0) &&
    decide (t ≤ 1024) && decide (fld (wordAt p 0x18) 63 32 + gxTc p ≤ fld (wordAt p 0x20) 31 0) &&
    (decide (gxOp p ≠ 1) || gxDig p) && decide (gxDense p % 32 = 0) && decide (gxStride p % 32 = 0) && decide (gxArea p % 32 = 0) &&
    decide (gxVa p % 8 = 0) && decide (32 * gxTc p * es ≤ gxStride p) &&
    decide (gxDense p + (32 * gxTr p - 1) * gxStride p + 32 * gxTc p * es ≤ spadBytes) &&
    (decide (gxOp p = 1) || decide (gxArea p + 8 * mapEnd t + t * (tileDense (gxFmt p) + 8) ≤ spadBytes))

/-- Dense bytes of task tile k and whether any access of it is poisoned (R530, R553). -/
def State.denseTile (s : State) (c : Nat) (p : List Byte) (k : Nat) : List Byte × Bool :=
  let rb := 32 * tileElem (gxFmt p)
  let at_ (i : Nat) : Nat := gxDense p + (32 * (k / gxTc p) + i) * gxStride p + k % gxTc p * rb
  ((List.range 32).flatMap (fun i => s.spadRd c (at_ i) rb), (List.range 32).any (fun i => s.spadPoison c (at_ i) rb))

/-- Index of task tile k in the whole matrix (R558). -/
def tileIndex (p : List Byte) (k : Nat) : Nat :=
  ((fld (wordAt p 0x18) 31 0 + k / gxTc p) * fld (wordAt p 0x20) 31 0 + fld (wordAt p 0x18) 63 32 + k % gxTc p) % 2 ^ 64

/-- CRC of a tile with its index (R557). -/
def tileCrc (idx : Nat) (d : List Byte) : Nat := crc64 (leBytes 8 idx ++ d)

/-- The private sum of a task (R559). -/
def tilesCrc (p : List Byte) (ds : List (List Byte)) : Nat :=
  ((List.range ds.length).map (fun k => tileCrc (tileIndex p k) (ds.getD k []))).foldl (· + ·) 0 % 2 ^ 64

/-! ## Digest slots (R559 to R565) -/

/-- Add a task's sum to its slot (R559, R561). -/
def State.digAdd (s : State) (c slot v : Nat) (bad : Bool) : State :=
  let pg := pgGmx c
  let s := s.setRg pg (oGmxDigest + 8 * slot) (s.rg pg (oGmxDigest + 8 * slot) + word v)
  if bad then s.setRg pg oGmxDigPoison (s.rg pg oGmxDigPoison ||| bitW slot) else s

/-- Clear a slot and its poison bit. -/
def State.digClear (s : State) (c slot : Nat) : State :=
  let pg := pgGmx c
  let s := s.setRg pg (oGmxDigest + 8 * slot) 0
  if bit (s.rg pg oGmxDigPoison) slot then s.setRg pg oGmxDigPoison (s.rg pg oGmxDigPoison ^^^ bitW slot) else s

/-- Flush a slot into the word at a VA (R560, R561, R990). false while it waits on a fault. -/
def State.digFlush (s : State) (clu : Clu) (slot va : Nat) : Bool × State :=
  let r := cluRegion clu.val
  let pg := pgGmx clu.val
  let fin (s : State) : State := ((s.digClear clu.val slot).count pg oGmxDigFlushes 1).setEvt pg 3
  match s.xlateP r ⟨word va, .update, false, .matrix clu⟩ with
  | (none, s) => (false, s)
  | (some none, s) => (true, fin s)
  | (some (some a), s) =>
    let v := s.rg pg (oGmxDigest + 8 * slot)
    let bad := bit (s.rg pg oGmxDigPoison) slot
    let ((bs, p), s) := s.readPa r pg (a / 32 * 32)
    let s := if p then s.poisonKeep a bs else s.writePa r pg a (leBytes 8 (wordAt bs (a % 32) + v).toNat) bad
    (true, fin s)

/-- DIG_CLR_WRITE (R565). -/
def execDigClrWrite (clu : Clu) (v : Word) (s : State) : Out State := s.live <|
  .next ((List.range 8).foldl (fun t i => if bit v i then t.digClear clu.val i else t) s)

/-! ## Tasks of the GMX block (R553 to R561) -/

/-- Remove a task from its GMX block. -/
def State.gmxDrop (s : State) (c e : Nat) : State :=
  let v := s.gmxAt c
  s.putGmx c { v with tasks := v.tasks.filter (fun t => t.entry ≠ e) }

/-- A GMX task is complete. -/
def State.gmxDone (s : State) (c : Nat) (t : UnitTask) : State :=
  let r := cluRegion c
  let s := ((s.count (pgGmx c) oGmxTasksDone 1).setEvt (pgGmx c) 0).gmxDrop c t.entry
  (s.issueInc r (fld (wordAt t.body 0x30) 11 0) 1).taskDone r t.entry

/-- The end of a task's work: its slot is updated once, then flushed, then the task is complete (R559). -/
def State.gmxFinish (s : State) (clu : Clu) (t : UnitTask) (crc : Nat) (bad : Bool) : State :=
  let p := t.body
  if gxDig p then
    let s := if t.part.isSome then s else s.digAdd clu.val (gxSlot p) crc bad
    if gxVa p = 0 then s.gmxDone clu.val t
    else match s.digFlush clu (gxSlot p) (gxVa p) with
      | (true, s) => s.gmxDone clu.val t
      | (false, s) =>
        let v := s.gmxAt clu.val
        s.putGmx clu.val { v with tasks := v.tasks.map (fun x => if x.entry = t.entry then { x with part := some (crc, bad) } else x) }
  else s.gmxDone clu.val t

/-- The first task of the compressor, or of Scarab (R551); none while debug holds the block (R949) or its flush waits on
a fault. -/
def State.gmxTake (s : State) (clu : Clu) (op : Nat) : Option UnitTask :=
  if s.dbg.units.contains clu.val || s.parkedAt (cluRegion clu.val) (.matrix clu) then none
  else
    match (s.gmxAt clu.val).tasks.find? (fun t => decide (gxOp t.body = 2) == decide (op = 2)) with
    | some t => if gxOp t.body = op then some t else none
    | none => none

/-- Write a compressed area; the area word goes last (R553). -/
def State.areaWrite (s : State) (c : Nat) (p : List Byte) (ts : List (List Byte × Bool)) : State :=
  let t := ts.length
  let lens := ts.map (fun x => x.1.length)
  let start (k : Nat) : Nat := 8 * mapEnd t + (lens.take k).foldl (· + ·) 0
  let len := start t
  let map := (List.range t).flatMap (fun k => leBytes 4 (start k / 8))
  let body := map ++ List.replicate (8 * mapEnd t - 8 - 4 * t) 0 ++ ts.flatMap (·.1)
  let mark (i : Nat) : Bool :=
    (List.range t).any (fun k => (ts.getD k ([], false)).2 && decide (start k < 32 * i + 32) && decide (32 * i < start (k + 1)))
  let w := len * 2 ^ 32 + gxFmt p * 2 ^ 24 + gxTc p * 2 ^ 11 + gxTr p
  let all := leBytes 8 w ++ body
  s.spadArea c (gxArea p) all ((List.range ((len + 31) / 32)).map mark)

/-- The dense tiles of a task, with POISON_TILES booked (R542, R570). -/
def State.denseTiles (s : State) (c : Nat) (p : List Byte) (slot : Nat) : List (List Byte × Bool) × State :=
  let ds := (List.range (gxTr p * gxTc p)).map (s.denseTile c p)
  let np := ds.countP (·.2)
  (ds, if np = 0 then s else ((s.count (pgGmx c) oGmxPoisonTiles np).setEvt (pgGmx c) 2).poisonReq slot)

/-- COMPRESS (R553, R556): the compressor writes the compressed area of its first task and folds its digest. -/
def execCompress (clu : Clu) (s : State) : Out State := s.live <|
  match s.gmxTake clu 0 with
  | none => .next s
  | some t =>
    match t.part with
    | some (crc, bad) => .next (s.gmxFinish clu t crc bad)
    | none =>
      let p := t.body
      let pg := pgGmx clu.val
      let (ds, s) := s.denseTiles clu.val p t.slot
      let packs := ds.map (fun d => (tilePack (gxFmt p) d.1 d.2, d.2))
      let s := s.areaWrite clu.val p packs
      let s := s.count pg oGmxTilesOut ds.length
      let s := s.count pg oGmxEscapes (packs.countP (fun x => decide (x.1.length = tileDense (gxFmt p) + 8)))
      let s := s.count pg oGmxBytesDense (ds.length * tileDense (gxFmt p))
      let s := s.count pg oGmxBytesComp (8 * mapEnd ds.length + (packs.map (fun x => x.1.length)).foldl (· + ·) 0)
      .next (s.gmxFinish clu t (tilesCrc p (ds.map (·.1))) (ds.any (·.2)))

/-- DIGEST (R554): the compressor folds the tiles of a dense area. -/
def execDigest (clu : Clu) (s : State) : Out State := s.live <|
  match s.gmxTake clu 1 with
  | none => .next s
  | some t =>
    match t.part with
    | some (crc, bad) => .next (s.gmxFinish clu t crc bad)
    | none =>
      let (ds, s) := s.denseTiles clu.val t.body t.slot
      .next (s.gmxFinish clu t (tilesCrc t.body (ds.map (·.1))) (ds.any (·.2)))

/-- Write dense tile k of an EXPAND. -/
def State.tileWrite (s : State) (c : Nat) (p : List Byte) (k : Nat) (d : List Byte) (bad : Bool) : State :=
  let rb := 32 * tileElem (gxFmt p)
  (List.range 32).foldl (fun s i =>
    s.spadWr c (gxDense p + (32 * (k / gxTc p) + i) * gxStride p + k % gxTc p * rb) (sliceB d (rb * i) rb) bad) s

/-- EXPAND (R555, R541, R542): Scarab checks a compressed area and writes its dense bytes. -/
def execExpand (clu : Clu) (s : State) : Out State := s.live <|
  match s.gmxTake clu 2 with
  | none => .next s
  | some t =>
    match t.part with
    | some (crc, bad) => .next (s.gmxFinish clu t crc bad)
    | none =>
      let p := t.body
      let c := clu.val
      let g := s.areaRead c (gxArea p) (gxTr p) (gxTc p) (gxFmt p)
      let s := s.areaCount c g (gxArea p)
      if g.bad.isSome then
        let info := (s.rg (pgGmx c) oGmxBadInfo).toNat
        .next ((s.gmxDrop c t.entry).taskFail (cluRegion c) t.entry stTileCheck (pgGmx c) info)
      else
        let bad := g.tiles.any (·.poison)
        let s := (List.range g.tiles.length).foldl (fun s k =>
          s.tileWrite c p k (g.tiles.getD k (TileGot.poisoned 0)).dense bad) s
        let s := s.count (pgGmx c) oGmxBlocksPresent ((g.tiles.map (fun x => popCount16 x.mask)).foldl (· + ·) 0)
        let s := if bad then s.poisonReq t.slot else s
        .next (s.gmxFinish clu t (tilesCrc p (g.tiles.map (·.dense))) bad)

end Sys2Proof.Machine
end

