-- ==== Sys2Proof/Machine/Mantis.lean ====
section
/-! DEFINITION. The Mantis matrix unit (R473 to R526, R543 to R549): the task descriptor, products, groups and running
sums, drains and debug snapshots, the output path, weight relay. -/

namespace Sys2Proof.Machine

/-! ## The descriptor (R476, R477) -/

/-- TM and TN of SHAPE. -/
def mxShape (p : List Byte) : Nat × Nat :=
  match fld (wordAt p 0) 60 58 with
  | 0 => (64, 32)
  | 1 => (32, 64)
  | 2 => (128, 16)
  | 3 => (16, 128)
  | 4 => (32, 32)
  | _ => (16, 16)

/-- TM. -/
def mxTm (p : List Byte) : Nat := (mxShape p).1
/-- TN. -/
def mxTn (p : List Byte) : Nat := (mxShape p).2
/-- Group size g. -/
def mxG (p : List Byte) : Nat := 4 * 2 ^ fld (wordAt p 0) 57 56
/-- A_FMT. -/
def mxAf (p : List Byte) : Nat := fld (wordAt p 0) 55 53
/-- B_FMT. -/
def mxBf (p : List Byte) : Nat := fld (wordAt p 0) 52 50
/-- ACC. -/
def mxAcc (p : List Byte) : Nat := fld (wordAt p 0) 49 48
/-- ROUND. -/
def mxSr (p : List Byte) : Bool := bit (wordAt p 0) 47
/-- PRELOAD. -/
def mxPre (p : List Byte) : Nat := fld (wordAt p 0) 46 45
/-- PRE_FMT. -/
def mxPf (p : List Byte) : Nat := fld (wordAt p 0) 44 43
/-- DRAIN: chain-out. -/
def mxChain (p : List Byte) : Bool := bit (wordAt p 0) 42
/-- SPARSE_A. -/
def mxSparse (p : List Byte) : Bool := bit (wordAt p 0) 41
/-- ACT. -/
def mxAct (p : List Byte) : Nat := fld (wordAt p 0) 40 39
/-- OUT_FMT. -/
def mxOf (p : List Byte) : Nat := fld (wordAt p 0) 38 36
/-- ROWSTAT. -/
def mxRowstat (p : List Byte) : Bool := bit (wordAt p 0) 35
/-- OUT_ROUND. -/
def mxOsr (p : List Byte) : Bool := bit (wordAt p 0) 34
/-- K. -/
def mxK (p : List Byte) : Nat := fld (wordAt p 0) 31 0
/-- Address and stride of the operand whose word lies at an offset. -/
def mxArea (p : List Byte) (off : Nat) : Nat × Nat := (fld (wordAt p off) 21 0, fld (wordAt p off) 63 32)
/-- B_RELAY. -/
def mxRelay (p : List Byte) : Bool := bit (wordAt p 0x10) 22
/-- RELAY_FWD. -/
def mxFwd (p : List Byte) : Bool := bit (wordAt p 0x38) 24
/-- RELAY_ID. -/
def mxId (p : List Byte) : Nat := fld (wordAt p 0x38) 31 28
/-- LEAKY_S. -/
def mxLeaky (p : List Byte) : Nat := fld (wordAt p 0x38) 35 32

/-- Bytes of an operand element. -/
def mxElem (f : Nat) : Nat := if f ≤ 1 then 2 else 1
/-- Bytes of a preload element. -/
def mxPreElem (p : List Byte) : Nat := if mxPf p = 0 then 4 else 2
/-- Bytes of an accumulator element in memory (R495). -/
def mxAccElem (p : List Byte) : Nat := if mxAcc p = 1 then 2 else 4
/-- Bytes of an output element. -/
def mxOutElem (p : List Byte) : Nat :=
  if mxChain p then mxAccElem p else if mxOf p = 0 then 4 else if mxOf p ≤ 2 then 2 else 1
/-- Class of an operand format (R477). -/
def mxClass (f : Nat) : Nat := f / 2
/-- Accumulator halves a task holds (R480). -/
def mxHalves (p : List Byte) : Nat := mxTm p * mxTn p * (if mxAcc p = 1 then 1 else 2)
/-- Element index of tile element n, row-major (R479). -/
def mxElemIdx (p : List Byte) (n : Nat) : Nat :=
  (wordAt p 0x30).toNat + n / mxTn p * fld (wordAt p 0x38) 63 40 + n % mxTn p

/-- rows rows of n bytes at an address with a stride end inside the scratchpad. -/
def mxFits (a : Nat × Nat) (rows n : Nat) : Bool := decide (a.1 + (rows - 1) * a.2 + n ≤ spadBytes)

/-- Reserved fields and codes (R476). -/
def mxCodesOk (p : List Byte) : Bool :=
  let w := wordAt p 0
  decide (fld w 63 61 = 0) && decide (fld w 60 58 ≤ 5) && decide (fld w 57 56 ≠ 3) && decide (mxAf p ≤ 4) && decide (mxBf p ≤ 4) &&
    decide (mxAcc p ≠ 3) && decide (mxPf p ≠ 3) && decide (mxAct p ≠ 3) && decide (mxOf p ≤ 4) && decide (fld w 33 32 = 0) &&
    decide (fld (wordAt p 8) 31 22 = 0) && decide (fld (wordAt p 0x10) 31 23 = 0) && decide (fld (wordAt p 0x18) 31 22 = 0) &&
    decide (fld (wordAt p 0x20) 31 22 = 0) && decide (fld (wordAt p 0x38) 39 36 = 0) && decide (fld (wordAt p 0x38) 27 25 = 0) &&
    decide (fld (wordAt p 0x38) 23 12 = 0)

/-- Combinations of formats and modes (R477, R544). -/
def mxModesOk (p : List Byte) : Bool :=
  decide (mxClass (mxAf p) = mxClass (mxBf p)) && (decide (mxAf p = 4) == decide (mxAcc p = 2)) &&
    decide (mxK p ≠ 0) && decide (mxK p % mxG p = 0) &&
    (decide (mxPre p ≠ 3) || decide (mxPf p = if mxAcc p = 1 then 2 else 0)) &&
    (decide (mxAcc p ≠ 2) || (decide (mxPf p = 0) && decide (mxOf p = 0) && decide (mxAct p ≠ 2) && !mxRowstat p)) &&
    (!mxChain p || (decide (mxAct p = 0) && !mxRowstat p)) && (decide (mxAct p ≠ 2) || decide (mxLeaky p ≠ 0)) &&
    (!mxSparse p || (decide (mxTm p % 32 = 0) && decide (mxK p % 32 = 0)))

/-- Alignment and extent of the areas (R477). A_STRIDE is ignored with SPARSE_A (R543). -/
def mxAreasOk (p : List Byte) : Bool :=
  let a := mxArea p 8
  let b := mxArea p 0x10
  let q := mxArea p 0x18
  let o := mxArea p 0x20
  let al (x : Nat × Nat) : Bool := decide (x.1 % 32 = 0) && decide (x.2 % 32 = 0)
  al (a.1, if mxSparse p then 0 else a.2) && al b && al q && al o &&
    (mxSparse p || mxFits a (mxTm p) (mxK p * mxElem (mxAf p))) && mxFits b (mxK p) (mxTn p * mxElem (mxBf p)) &&
    (decide (mxPre p = 0) || mxFits q (if mxPre p = 1 then 1 else mxTm p) (mxTn p * mxPreElem p)) &&
    mxFits o (mxTm p) (mxTn p * mxOutElem p) &&
    (!mxRowstat p || decide (o.1 + mxTm p * o.2 + 64 * mxTm p ≤ spadBytes))

/-- What a Mantis checks of a task before it reads anything (R477). -/
def mxOk (p : List Byte) : Bool := mxCodesOk p && mxModesOk p && mxAreasOk p

/-! ## Products, groups, folds (R484 to R492) -/

/-- Accumulator format of A32 or A16. -/
def mxAccFmt (p : List Byte) : Fmt := if mxAcc p = 1 then fp16 else fp32

/-- Floating-point format of an operand code. -/
def mxFmt (f : Nat) : Fmt := if f = 0 then bf16 else if f = 1 then fp16 else if f = 2 then e4m3 else e5m2

/-- A product, its magnitude in units of 2^-298 (R484, R485). -/
def mxProd : Fl → Fl → Fl
  | .fin a m, .fin b n => .fin (a != b) (m * n)
  | .fin a m, .inf b => if m = 0 then .fin (a != b) 0 else .inf (a != b)
  | .inf a, .fin b n => if n = 0 then .fin (a != b) 0 else .inf (a != b)
  | .inf a, .inf b => .inf (a != b)
  | .fin _ m, .nan => if m = 0 then .fin false 0 else .nan
  | .nan, .fin _ n => if n = 0 then .fin false 0 else .nan
  | _, _ => .nan

/-- A group value: its non-finite code, or num × 2^exp units of 2^-298. -/
structure GVal where
  nf  : Nat
  num : Int
  exp : Int
  deriving DecidableEq, Repr

/-- The value of a group of products (R486 to R488). -/
def groupVal (ps : List Fl) : GVal :=
  let nf := ps.foldl (fun t q => match q with
    | .fin _ _ => t
    | .inf n => t ||| (if n then 2 else 1)
    | .nan => t ||| 3) 0
  let mags := ps.filterMap (fun q => match q with | .fin n m => if m = 0 then none else some (n, m) | _ => none)
  if nf ≠ 0 then ⟨nf, 0, 0⟩
  else if mags.isEmpty then ⟨0, 0, 0⟩
  else
    let e := mags.foldl (fun t q => max t q.2.log2) 0
    let one (q : Bool × Nat) : Int × Bool :=
      if 58 ≤ e then (signMag q.1 (q.2 / 2 ^ (e - 58)), decide (q.2 % 2 ^ (e - 58) ≠ 0))
      else (signMag q.1 (q.2 * 2 ^ (58 - e)), false)
    let w := mags.foldl (fun t q => t + (one q).1) 0
    let sticky := mags.any (fun q => (one q).2)
    ⟨0, 2 * w + (if sticky then 1 else 0), (e : Int) - 59⟩

/-- The value of a non-finite code (R433). -/
def nfVal (nf : Nat) : Fl := if nf = 1 then .inf false else if nf = 2 then .inf true else .nan

/-- Fold a group into a running sum, given as bits of the accumulator format (R490). -/
def mxFold (f : Fmt) (mode : RMode) (s : Nat) (g : GVal) : Nat :=
  match f.decode s with
  | .fin n m =>
    if g.nf ≠ 0 then (f.encode .rne (nfVal g.nf)).bits
    else
      let x := signMag n m * 2 ^ 213 + g.num * 2 ^ (g.exp + 64).toNat
      if x = 0 then 0 else (f.roundI mode x (-362)).bits
  | v => (f.encode .rne (if g.nf = 0 then v else v.add (nfVal g.nf))).bits

/-- Whether bits of a format are infinite or NaN: 0 finite, 1 infinite, 2 NaN. -/
def Fmt.kind (f : Fmt) (v : Nat) : Nat :=
  match f.decode v with
  | .fin _ _ => 0
  | .inf _ => 1
  | .nan => 2

/-- A running sum with the folds that made it infinite, and those that produced NaN (R523). -/
structure MxSum where
  s   : Nat
  ovf : Nat
  nan : Nat
  deriving DecidableEq, Repr

/-- The SR halfword of group k of element e (R491). -/
def mxHalf (seed stream e k : Nat) : Nat :=
  (philox seed stream e (k / 8)).getD (k % 8 / 2) 0 / 2 ^ (16 * (k % 2)) % 2 ^ 16

/-- Fold the groups of one element in ascending order from group k on (R483, R491): `a` and `b` are the operands of the
reduction, n bounds the groups. -/
def mxGroups (p : List Byte) (seed e : Nat) : Nat → Nat → List Fl → List Fl → MxSum → MxSum
  | 0, _, _, _, x => x
  | n + 1, m, a, b, x =>
    let g := mxG p
    let f := mxAccFmt p
    let k := fld (wordAt p 0x28) 31 0 + m
    let mode : RMode := if mxSr p then .sr (mxHalf seed (fld (wordAt p 0x28) 63 32) e k) else .rne
    let s := mxFold f mode x.s (groupVal (List.zipWith mxProd (a.take g) (b.take g)))
    mxGroups p seed e n (m + 1) (a.drop g) (b.drop g)
      ⟨s, x.ovf + (if f.kind x.s = 0 ∧ f.kind s = 1 then 1 else 0), x.nan + (if f.kind s = 2 then 1 else 0)⟩

/-- The running sum of one element after its last group (R489, R490). -/
def mxElement (p : List Byte) (seed n : Nat) (a b : List Nat) (s0 : Nat) : MxSum :=
  if mxAcc p = 2 then
    let t := (List.zipWith (fun x y => signedOf 8 x * signedOf 8 y) a b).foldl (fun t v => t + v) (signedOf 32 s0)
    ⟨wrapInt 32 t, 0, 0⟩
  else
    mxGroups p seed (mxElemIdx p n) (mxK p / mxG p) 0 (a.map (mxFmt (mxAf p)).decode) (b.map (mxFmt (mxBf p)).decode)
      ⟨s0, 0, 0⟩

/-- A preload element in the accumulator format (R492). -/
def mxWiden (p : List Byte) (v : Nat) : Nat :=
  if mxAcc p = 2 ∨ (mxAcc p = 0 ∧ mxPf p = 0) ∨ (mxAcc p = 1 ∧ mxPf p = 2) then v
  else
    let f := if mxPf p = 1 then bf16 else if mxPf p = 2 then fp16 else fp32
    ((mxAccFmt p).encode .rne (f.decode v)).bits

/-! ## Operands (R478, R493, R543) -/

/-- Preload of tile element n: its value and whether it was poisoned (R492, R493). -/
def State.mxPreAt (s : State) (c : Nat) (p : List Byte) (n : Nat) : Nat × Bool :=
  let (a, st) := mxArea p 0x18
  let w := mxPreElem p
  let at_ := a + (if mxPre p = 1 then 0 else n / mxTn p * st) + n % mxTn p * w
  if mxPre p = 0 then (0, false) else (mxWiden p (s.spadNum c at_ w), s.spadPoison c at_ w)

/-- Row i of a dense A. -/
def State.mxRowA (s : State) (c : Nat) (p : List Byte) (i : Nat) : List Nat × Bool :=
  let (a, st) := mxArea p 8
  let w := mxElem (mxAf p)
  let bs := s.spadRd c (a + i * st) (mxK p * w)
  ((List.range (mxK p)).map (fun k => leAt bs (k * w) w), s.spadPoison c (a + i * st) (mxK p * w))

/-- Column j of B, with its marks. -/
def State.mxColB (s : State) (c : Nat) (p : List Byte) (j : Nat) : List Nat × Bool :=
  let (b, st) := mxArea p 0x10
  let w := mxElem (mxBf p)
  ((List.range (mxK p)).map (fun k => s.spadNum c (b + k * st + j * w) w),
    (List.range (mxK p)).any (fun k => s.spadPoison c (b + k * st + j * w) w))

/-- Row i of an A read through Scarab (R543). -/
def mxRowArea (p : List Byte) (g : AreaGot) (i : Nat) : List Nat × Bool :=
  let w := mxElem (mxAf p)
  ((List.range (mxK p)).map (fun k =>
    leAt (g.tiles.getD (i / 32 * (mxK p / 32) + k / 32) (TileGot.poisoned 0)).dense ((i % 32 * 32 + k % 32) * w) w), false)

/-- A storage tile takes the sparse path (R545). -/
def TileGot.sparsePath (t : TileGot) : Bool :=
  decide (t.form = 1) && (List.range 4).all (fun q => decide (popCount16 (t.mask / 16 ^ q % 16) ≤ 2))

/-- Count what a feed of Scarab brought (R546, R547, R570). -/
def State.feedCount (s : State) (c : Nat) (p : List Byte) (g : AreaGot) : State :=
  let pg := pgGmx c
  let nc := mxK p / 32
  let col (k : Nat) : Bool := (List.range (mxTm p / 32)).all (fun i => (g.tiles.getD (i * nc + k) (TileGot.poisoned 0)).sparsePath)
  let ns := (List.range nc).countP col
  let pres := (g.tiles.map (fun t => popCount16 t.mask)).foldl (· + ·) 0
  let s := (s.count pg oGmxStepsSparse ns).count pg oGmxStepsDense (nc - ns)
  (s.count pg oGmxBlocksPresent pres).count pg oGmxBlocksSkipped (16 * g.tiles.length - pres)

/-! ## Weight relay (R513 to R521) -/

/-- Chunks of a task's B (R514). -/
def mxBbytes (p : List Byte) : Nat := mxK p * mxTn p * mxElem (mxBf p)
/-- Number of chunks of 2 KiB. -/
def mxChunks (p : List Byte) : Nat := (mxBbytes p + 2047) / 2048

/-- Chunk buffers of a ring link (R516). -/
def relayCap : Nat := 8

/-- Key of the link buffers at a physical cluster; none for a cluster that is not mapped. -/
def State.relayKey (s : State) (c : Nat) : Option Nat := (s.logClu c).map (fun l => cluRegion c * 12 + l)

/-- Key of the link buffers of the next cluster on the ring (R513). -/
def State.relayNext (s : State) (c : Nat) : Option Nat := (s.logClu c).map (fun l => cluRegion c * 12 + (l + 1) % 12)

/-- Chunks in a link's buffers. -/
def State.relayAt (s : State) (k : Nat) : List Chunk := smapGet (fun _ => []) s.relay k
/-- Link buffers replaced. -/
def State.putRelay (s : State) (k : Nat) (v : List Chunk) : State := s.setRelay (smapSet (fun _ => []) s.relay k v)

/-- Chunk n of a task's B: a relay's origin gathers it from its rows, a later cluster holds it packed (R514, R515). -/
def State.relayChunk (s : State) (c : Nat) (t : MatTask) (n : Nat) : Chunk :=
  let p := t.body
  let (b, st) := mxArea p 0x10
  let rb := mxTn p * mxElem (mxBf p)
  let len := min 2048 (mxBbytes p - 2048 * n)
  let at_ (x : Nat) : Nat := if mxRelay p then b + x else b + x / rb * st + x % rb
  let half (i : Nat) : Bool := s.spadPoison c (at_ (2048 * n + 16 * i)) 16
  { id := mxId p, n := n, slot := t.slot,
    data := (List.range len).map (fun i => ((s.spadRd c (at_ (2048 * n + i)) 1).getD 0 0)),
    bad := (List.range ((len + 31) / 32)).map (fun k => half (2 * k) || half (2 * k + 1)) }

/-- Change a task wherever its Mantis holds it. -/
def State.matUpd (s : State) (c e : Nat) (f : MatTask → MatTask) : State :=
  let m := s.matAt c
  let g (t : MatTask) : MatTask := if t.entry = e then f t else t
  s.putMat c { m with tasks := m.tasks.map g, bufs := m.bufs.map g, relay := m.relay.map g }

/-- Send waiting chunks of a cluster while the next link has credits (R516); n bounds them. A chunk left waiting counts
in RELAY_WAIT. -/
def State.relaySend (s : State) (c : Nat) : Nat → State
  | 0 => s
  | n + 1 =>
    let m := s.matAt c
    match (m.tasks ++ m.bufs ++ m.relay).find? (fun t => !t.toSend.isEmpty), s.relayNext c with
    | some t, some k =>
      let q := s.relayAt k
      if relayCap ≤ q.length then s.count (pgMat c) oMatRelayWait 1
      else
        let ch := s.relayChunk c t (t.toSend.headD 0)
        let s := (s.putRelay k (q ++ [ch])).count (pgMat c) oMatRelayOut ch.data.length
        (s.matUpd c t.entry (fun t => { t with toSend := t.toSend.tail })).relaySend c n
    | _, _ => s

/-- The next cluster has taken every chunk of a task (R518). -/
def State.relayClear (s : State) (c : Nat) (t : MatTask) : Bool :=
  !mxFwd t.body || (t.toSend.isEmpty && (match s.relayNext c with
    | some k => !(s.relayAt k).any (fun ch => decide (ch.id = mxId t.body) && decide (ch.slot = t.slot))
    | none => true))

/-- A task of a Mantis is complete (R510, R518). -/
def State.matEnd (s : State) (c : Nat) (t : MatTask) : State :=
  (s.setEvt (pgMat c) 0).taskDone (cluRegion c) t.entry

/-- Complete the written tasks whose last chunk is taken. -/
def State.relayEnds (s : State) (c : Nat) : State :=
  let m := s.matAt c
  let done := m.relay.filter (fun t => s.relayClear c t)
  done.foldl (fun s t => s.matEnd c t) (s.putMat c { m with relay := m.relay.filter (fun t => !s.relayClear c t) })

/-- RELAY_CHUNK_RX (R515): the first chunk in the link buffers of a cluster that an accepted task takes is written to its
scratchpad, leaves the buffers, and is forwarded if the task forwards. -/
def execRelayChunkRx (clu : Clu) (s : State) : Out State := s.live <|
  let c := clu.val
  match s.relayKey c with
  | none => .next s
  | some k =>
    let q := s.relayAt k
    let m := s.matAt c
    let takes (ch : Chunk) (t : MatTask) : Bool :=
      !t.sums.isEmpty && mxRelay t.body && decide (mxId t.body = ch.id) && !t.chunks.contains ch.n
    match findIdx (fun ch => m.tasks.any (takes ch)) q with
    | none => .next s
    | some i =>
      let ch := q.getD i ⟨0, 0, [], [], 0⟩
      match m.tasks.find? (takes ch) with
      | none => .next s
      | some t =>
        let s := s.putRelay k (q.eraseIdx i)
        let s := s.spadArea c ((mxArea t.body 0x10).1 + 2048 * ch.n) ch.data ch.bad
        let s := s.count (pgMat c) oMatRelayIn ch.data.length
        let s := s.matUpd c t.entry (fun t =>
          { t with chunks := t.chunks ++ [ch.n], toSend := if mxFwd t.body then t.toSend ++ [ch.n] else t.toSend })
        .next (if mxFwd t.body then s.relaySend c relayCap else s)

/-- RELAY_CREDIT_RETURN (R516, R518): credits are back at a sending cluster; waiting chunks leave, and a task whose last
chunk was taken completes. -/
def execRelayCreditReturn (clu : Clu) (s : State) : Out State := s.live <| .next ((s.relaySend clu.val relayCap).relayEnds clu.val)

/-! ## Acceptance and issue (R480 to R483, R493, R516, R517) -/

/-- Remove a task from its Mantis wherever it stands. -/
def State.matDrop (s : State) (c e : Nat) : State :=
  let m := s.matAt c
  let g (l : List MatTask) : List MatTask := l.filter (fun t => t.entry ≠ e)
  s.putMat c { m with tasks := g m.tasks, bufs := g m.bufs, relay := g m.relay }

/-- Accumulator halves in use (R480, R523). -/
def MatSt.halves (m : MatSt) : Nat := (m.tasks.map (fun t => if t.sums.isEmpty then 0 else mxHalves t.body)).foldl (· + ·) 0

/-- Accept delivered tasks in order as long as the accumulators suffice (R477, R481, R493); n bounds them. -/
def State.matAccept (s : State) (c : Nat) : Nat → State
  | 0 => s
  | n + 1 =>
    let m := s.matAt c
    match m.tasks.find? (fun t => t.sums.isEmpty) with
    | none => s
    | some t =>
      let p := t.body
      let r := cluRegion c
      if !mxOk p then
        let s := ((s.count (pgMat c) oMatDescBad 1).setEvt (pgMat c) 1).matDrop c t.entry
        (s.taskFail r t.entry stInvalidDesc (pgMat c) 0).matAccept c n
      else if 65536 < m.halves + mxHalves p then s
      else
        let pre := (List.range (mxTm p * mxTn p)).map (s.mxPreAt c p)
        let s := s.matUpd c t.entry (fun t =>
          { t with sums := pre.map (·.1), bad := pre.map (·.2),
                   toSend := if mxFwd p && !mxRelay p then List.range (mxChunks p) else [] })
        (if mxFwd p && !mxRelay p then s.relaySend c relayCap else s).matAccept c n

/-- Issue every group of a task whose operands are complete (R483, R541 to R549). -/
def State.matIssue (s : State) (c : Nat) (t : MatTask) : State :=
  let p := t.body
  let pg := pgMat c
  let r := cluRegion c
  let g : AreaGot :=
    if mxSparse p then s.areaRead c (mxArea p 8).1 (mxTm p / 32) (mxK p / 32) (mxAf p + 1) else ⟨[], none⟩
  let s := if mxSparse p then s.areaCount c g (mxArea p 8).1 else s
  if g.bad.isSome then
    (s.matDrop c t.entry).taskFail r t.entry stTileCheck (pgGmx c) (s.rg (pgGmx c) oGmxBadInfo).toNat
  else
    let s := if mxSparse p then s.feedCount c p g else s
    let rows := (List.range (mxTm p)).map (fun i => if mxSparse p then mxRowArea p g i else s.mxRowA c p i)
    let cols := (List.range (mxTn p)).map (s.mxColB c p)
    let all := g.tiles.any (·.poison)
    let seed := (s.slotAt t.slot).seed.toNat
    let els := (List.range (mxTm p * mxTn p)).map (fun n =>
      mxElement p seed n (rows.getD (n / mxTn p) ([], false)).1 (cols.getD (n % mxTn p) ([], false)).1 (t.sums.getD n 0))
    let bad := (List.range (mxTm p * mxTn p)).map (fun n =>
      all || t.bad.getD n false || (rows.getD (n / mxTn p) ([], false)).2 || (cols.getD (n % mxTn p) ([], false)).2)
    let ovf := (els.map (·.ovf)).foldl (· + ·) 0
    let nan := (els.map (·.nan)).foldl (· + ·) 0
    let skip := if mxSparse p then 64 * (16 * g.tiles.length - (g.tiles.map (fun x => popCount16 x.mask)).foldl (· + ·) 0) else 0
    let s := s.matUpd c t.entry (fun t => { t with sums := els.map (·.s), bad := bad, issued := true })
    let s := s.count pg oMatProducts (mxTn p * (mxTm p * mxK p - skip))
    let s := s.count pg oMatGroups (mxTm p * mxTn p * (mxK p / mxG p))
    let s := if ovf = 0 then s else (s.count pg oMatRunOvf ovf).setEvt pg 2
    if nan = 0 then s else (s.count pg oMatRunNan nan).setEvt pg 3

/-- A task's groups may issue: it is accepted and its relay chunks are complete (R517). -/
def MatTask.canIssue (t : MatTask) : Bool :=
  !t.sums.isEmpty && !t.issued && (!mxRelay t.body || (List.range (mxChunks t.body)).all (fun n => t.chunks.contains n))

/-- MATRIX_TASK (R481): the Mantis accepts the tasks delivered to it and issues the groups of the first task whose
operands are complete. Debug holds the issue (R949). `e` is what SECDED finds at A_ADDR. -/
def execMatrixTask (clu : Clu) (e : SpadErr) (s : State) : Out State := s.live <|
  let c := clu.val
  let s := s.matAccept c (s.matAt c).tasks.length
  if s.dbg.units.contains c then .next s
  else match (s.matAt c).tasks.find? (·.canIssue) with
    | none => .next s
    | some t =>
      let s := s.spadFound c (mxArea t.body 8).1 1 0 t.slot e
      match (s.matAt c).tasks.find? (fun u => u.entry = t.entry) with
      | none => .next s
      | some t => .next (s.matIssue c t)

/-! ## Drains (R500 to R506) -/

/-- TASK_END_DRAIN (R501, R503): the first task whose groups are all folded is snapshotted into a free drain buffer. -/
def execTaskEndDrain (clu : Clu) (s : State) : Out State := s.live <|
  let c := clu.val
  let m := s.matAt c
  match m.tasks.find? (·.issued) with
  | none => .next s
  | some t =>
    if 2 ≤ m.bufs.length then .next (s.count (pgVec c) oVecDrainbufWait 1)
    else
      let s := s.putMat c { m with tasks := m.tasks.filter (fun u => u.entry ≠ t.entry), bufs := m.bufs ++ [t] }
      .next (s.count (pgMat c) oMatDrains 1)

/-- DBG_SEL_WRITE (R504 to R506): in debug mode a snapshot of the named task, else denied. The value of an element the
tile does not have is free. -/
def execDbgSelWrite (clu : Clu) (v : Word) (s : State) : Out State := s.live <|
  let c := clu.val
  let pg := pgMat c
  if !s.dbg.mode.contains c then .next ((s.count pg oMatDbgDenied 1).setEvt pg 4)
  else
    let s := s.setRg pg oMatDbgSel (word (fld v 28 20 * 2 ^ 20 + fld v 10 0))
    match ((s.matAt c).tasks.filter (fun t => !t.sums.isEmpty))[fld v 28 20]? with
    | none => .next (s.setRg pg oMatDbgData (word (3 * 2 ^ 62)))
    | some t =>
      let s := s.count pg oMatDrains 1
      match t.sums[fld v 10 0]? with
      | some x => .next (s.setRg pg oMatDbgData (word (2 ^ 63 + x)))
      | none =>
        let (x, s) := s.draw
        .next (s.setRg pg oMatDbgData (word (2 ^ 63 + x % 2 ^ 32)))

/-! ## The output path (R507 to R512) -/

/-- The output bits of a running sum (R507, R508). -/
def mxOutput (p : List Byte) (seed n s : Nat) : Rounded :=
  let f := tblFmt (mxOf p)
  let mode : RMode := rmode (mxOsr p) seed (fld (wordAt p 0x28) 63 32) (mxElemIdx p n) (2 ^ 32 - 1)
  match (mxAccFmt p).decode s with
  | .nan => ⟨f.qnan, false⟩
  | .inf neg => if neg && decide (mxAct p = 1) then ⟨0, false⟩ else ⟨f.infBits neg, false⟩
  | .fin neg m =>
    if mxAct p = 1 ∧ (neg = true ∨ m = 0) then ⟨0, false⟩
    else if mxAct p = 2 ∧ neg = true ∧ m ≠ 0 then f.round mode neg m 1 (-149 - (mxLeaky p : Int))
    else f.round mode neg m 1 (-149)

/-- The written bits of tile element n: unchanged to chain-out, INT32 for I32 (R495, R507, R509). -/
def mxWritten (p : List Byte) (seed n s : Nat) : Rounded :=
  if mxChain p then ⟨s, false⟩
  else if mxAcc p = 2 then ⟨if mxAct p = 1 ∧ s.testBit 31 = true then 0 else s, false⟩
  else mxOutput p seed n s

/-- Position of a value in the numeric order, +0.0 above -0.0 (R512). -/
def flKey : Fl → Int
  | .fin n m => if n && decide (m = 0) then -1 else 2 * signMag n m
  | .inf n => if n then -(2 ^ 600) else 2 ^ 600
  | .nan => 0

/-- The row record of written values (R511, R512). -/
def rowRecord (vs : List Fl) : List Byte :=
  let mx := if vs.any (fun v => v = .nan) then fp32.qnan
    else match vs with
      | [] => 0
      | v :: vs => (fp32.encode .rne (vs.foldl (fun m x => if flKey m < flKey x then x else m) v)).bits
  leBytes 4 mx ++ List.replicate 12 0 ++ partial48 (vs.foldl (fun a v => a.add v) XAcc.zero)

/-- Write row i of a tile (R510, R511). -/
def State.mxRowOut (s : State) (c : Nat) (p : List Byte) (rs : List Rounded) (bad : List Bool) (i : Nat) : State :=
  let (o, st) := mxArea p 0x20
  let tn := mxTn p
  let w := mxOutElem p
  let row := (rs.drop (i * tn)).take tn
  let marks := (bad.drop (i * tn)).take tn
  let s := s.spadArea c (o + i * st) (row.flatMap (fun r => leBytes w r.bits)) (accMarks w (tn * w) marks)
  if mxRowstat p then
    s.spadWr c (o + mxTm p * st + 64 * i) (rowRecord (row.map (fun r => (tblFmt (mxOf p)).decode r.bits))) (marks.any id)
  else s

/-- Count what the output path rounded (R525, R526). -/
def State.mxOutCount (s : State) (c : Nat) (p : List Byte) (rs : List Rounded) : State :=
  let pg := pgVec c
  if mxChain p then s
  else
    let ovf := rs.countP (fun r => r.ovf)
    let nan := if mxAcc p = 2 then 0 else rs.countP (fun r => decide ((tblFmt (mxOf p)).kind r.bits = 2))
    let s := (s.count pg oVecOutTiles 1).count pg oVecOutElems rs.length
    let s := s.count pg oVecRowstatRows (if mxRowstat p then mxTm p else 0)
    let s := if ovf = 0 then s else (s.count pg oVecOutOvf ovf).setEvt pg 8
    if nan = 0 then s else (s.count pg oVecOutNan nan).setEvt pg 9

/-- OUTPUT_PATH (R495, R507 to R512, R518): the tile in the first drain buffer is written, DONE_CTR increments, and the
task completes once the next cluster has taken its last relay chunk. -/
def execOutputPath (clu : Clu) (s : State) : Out State := s.live <|
  let c := clu.val
  let m := s.matAt c
  match m.bufs with
  | [] => .next s
  | t :: rest =>
    let p := t.body
    let r := cluRegion c
    let seed := (s.slotAt t.slot).seed.toNat
    let rs := (List.range t.sums.length).map (fun n => mxWritten p seed n (t.sums.getD n 0))
    let s := (List.range (mxTm p)).foldl (fun s i => s.mxRowOut c p rs t.bad i) s
    let s := s.mxOutCount c p rs
    let s := if t.bad.any id then s.poisonReq t.slot else s
    let s := s.issueInc r (fld (wordAt p 0x38) 11 0) 1
    let s := s.count (pgMat c) oMatTasksDone 1
    let clear := s.relayClear c t
    let s := s.putMat c { m with bufs := rest, relay := if clear then m.relay else m.relay ++ [t] }
    .next (if clear then s.matEnd c t else s)

end Sys2Proof.Machine
end

