-- ==== Sys2Proof/Machine/Deliver.lean ====
section
/-! DEFINITION. Asks and deliveries (R636, R651 to R655): which unit can accept a task, the task an ask is answered with,
the task given to a held ask, clock gating of idle units. -/

namespace Sys2Proof.Machine

/-- Weevil of a unit. -/
def unitWv (c : Nat) : UnitKind → Nat
  | .weevil w => c * 4 + w.val
  | _ => c * 4

/-- A unit can accept a task of its kind (R651). Tasks delivered to a Mantis count as accepted. -/
def State.unitAccepts (s : State) (c : Nat) (u : UnitKind) : Bool :=
  match u with
  | .weevil _ => (s.wvAt (unitWv c u)).accepts
  | .mantis =>
    let m := s.matAt c
    decide ((m.tasks.map (fun t => mxHalves t.body)).foldl (· + ·) 0 + 4096 ≤ 65536) && decide (m.tasks.length < 256)
  | .gmx => decide ((s.gmxAt c).tasks.length < 16)
  | .firefly => decide ((s.vecAt c).tasks.length < 4)

/-- The unit is ungated by a delivery (R636). -/
def State.unitWake (s : State) (c : Nat) (u : UnitKind) : State :=
  match u with
  | .weevil _ => s.putWv (unitWv c u) { s.wvAt (unitWv c u) with gated := false }
  | .mantis => s.putMat c { s.matAt c with gated := false }
  | .gmx => s.putGmx c { s.gmxAt c with gated := false }
  | .firefly => s.putVec c { s.vecAt c with gated := false }

/-- A fresh unit task of a window entry. -/
def State.unitTask (s : State) (r e : Nat) : UnitTask := ⟨e, (s.taskAt r e).slot, (s.taskAt r e).payload, none⟩

/-- Hand a task to a unit of a cluster (R640, R653): a GMX block refuses it at once if it is not valid (R552). -/
def State.handOver (s : State) (r e c : Nat) (u : UnitKind) : State :=
  let s := (s.taskRun r e).unitWake c u
  let t := s.taskAt r e
  match u with
  | .weevil _ => s.walkDeliver (unitWv c u) r e
  | .mantis =>
    let m := s.matAt c
    let x : MatTask :=
      { entry := e, slot := t.slot, body := t.payload, sums := [], bad := [], issued := false, chunks := [], toSend := [] }
    s.putMat c { m with tasks := m.tasks ++ [x] }
  | .gmx =>
    if gxOk t.payload then
      let g := s.gmxAt c
      s.putGmx c { g with tasks := g.tasks ++ [s.unitTask r e] }
    else ((s.count (pgGmx c) oGmxDescBad 1).setEvt (pgGmx c) 4).taskFail r e stInvalidDesc (pgGmx c) 0
  | .firefly =>
    let v := s.vecAt c
    s.putVec c { v with tasks := v.tasks ++ [s.unitTask r e] }

/-- Deliver a task to a cluster's unit and note the cluster served (R654). -/
def State.deliverTo (s : State) (r e kind c : Nat) (u : UnitKind) : State :=
  let d := s.dispAt r
  let l := (s.logClu c).getD 11
  let s := s.putDisp r { d with lastClu := d.lastClu.set kind l, asks := d.asks.filter (fun a => a ≠ (c, u)) }
  s.handOver r e c u

/-- ASK (R651, R653): a unit that can accept a task and has no ask outstanding asks its dispatcher; it receives the first
task of its kind whose CLU_MASK holds its cluster, or its ask is held. A cluster that is not mapped, or whose domain is
not ON, asks for nothing. -/
def execAsk (clu : Clu) (u : UnitKind) (s : State) : Out State := s.live <|
  let c := clu.val
  let r := cluRegion c
  let k := unitKindCode u
  let d := s.dispAt r
  match s.logClu c with
  | none => .next s
  | some l =>
    if !s.unitAccepts c u || d.asks.contains (c, u) || decide ((s.domAt c).st ≠ .on) then .next s
    else match s.readyFirst r k (fun t => t.cluMask.testBit l) with
      | some (e, _) => .next (s.deliverTo r e k c u)
      | none => .next (s.putDisp r { d with asks := d.asks ++ [(c, u)] })

/-- The LOOKUP or UPDATE task an embedding engine receives next (R648, R655): a swarm piece before it in the list goes first. -/
def State.embNext (s : State) (r kind : Nat) : Option (Nat × TaskSt) :=
  if kind = 5 then
    match s.lookupNext r with
    | some (.inl e) => some e
    | _ => none
  else if embTasks ≤ (s.embAt r).tasks.length then none
  else s.readyFirst r kind (fun _ => true)

/-- Give an embedding engine the first ready task of its kind (R655). -/
def State.deliverEmb (s : State) (r kind : Nat) : State :=
  match s.embNext r kind with
  | none => s
  | some (e, t) =>
    let s := s.taskRun r e
    let m := s.embAt r
    s.putEmb r { m with tasks := m.tasks ++ [⟨e, t.slot, decide (kind = 6), false, 0⟩] }

/-- Give the first ready task of a cluster kind that a held ask can take to that ask (R654). -/
def State.deliverClu (s : State) (r kind : Nat) : State :=
  match s.readyFirst r kind (fun t => (s.askFor r kind t.cluMask).isSome) with
  | none => s
  | some (e, t) =>
    match s.askFor r kind t.cluMask with
    | none => s
    | some (c, u) => s.deliverTo r e kind c u

/-- TASK_DELIVER (R654, R655): a ready task goes to a held ask, or to the embedding engine. TRANSFER tasks are posted by
TRANSFER_POST, SIGNAL tasks act by SIGNAL_TASK. -/
def execTaskDeliver (r : Region) (k : TaskKind) (s : State) : Out State := s.live <|
  match k with
  | .walk => .next (s.deliverClu r.val 0)
  | .matrix => .next (s.deliverClu r.val 1)
  | .gmx => .next (s.deliverClu r.val 2)
  | .moments => .next (s.deliverClu r.val 3)
  | .lookup => .next (s.deliverEmb r.val 5)
  | .update => .next (s.deliverEmb r.val 6)
  | .transfer => .next s
  | .signal => .next s

/-- UNIT_GATE (R636): a Mantis, GMX block or Firefly with no accepted task whose ask is held gates its clock. A Weevil
gates by WEEVIL_GATE (R322). -/
def execUnitGate (clu : Clu) (u : UnitKind) (s : State) : Out State := s.live <|
  let c := clu.val
  let held := (s.dispAt (cluRegion c)).asks.contains (c, u)
  match u with
  | .weevil _ => .next s
  | .mantis =>
    let m := s.matAt c
    .next (if held && m.tasks.isEmpty && m.bufs.isEmpty && m.relay.isEmpty then s.putMat c { m with gated := true } else s)
  | .gmx =>
    let g := s.gmxAt c
    .next (if held && g.tasks.isEmpty then s.putGmx c { g with gated := true } else s)
  | .firefly =>
    let v := s.vecAt c
    .next (if held && v.tasks.isEmpty then s.putVec c { v with gated := true } else s)

end Sys2Proof.Machine
end

