-- ==== Sys2Proof/Machine/Ledger.lean ====
section
/-! DEFINITION. Books and snapshots (R674 to R693): the counts of the ten books as the state holds them, a snapshot
requested, latched and checked. -/

namespace Sys2Proof.Machine

/-- Sum of a list. -/
def sumN (l : List Nat) : Nat := l.foldl (· + ·) 0

/-- A book: CAP, LENT, HELD, TRANSIT, OWNED and whether no event that unbalances it is in progress; FREE is the rest
(R675, R676). -/
def book (cap lent held transit owned : Nat) (calm : Bool) : List Nat :=
  [cap, cap - (lent + held + transit), lent, held, transit, owned, b2n (calm && decide (transit = 0))]

/-- LINK (R683): buffers of the relay links; items of the other links are never on their way between two commands. -/
def State.bookLink (s : State) : List Nat :=
  let n := sumN (s.relay.map (fun e => e.2.length))
  book 38016 0 n 0 0 (decide (n = 0))

/-- Transfer slots of all Comets that satisfy a test. -/
def State.xferCount (s : State) (p : XferState → Bool) : Nat :=
  sumN ((List.range 12).map (fun r => (s.cometAt r).slots.countP (fun e => p e.2.st)))

/-- No transfer drains. -/
def State.noDrain (s : State) : Bool := decide (s.xferCount (fun st => st = .draining) = 0)

/-- COMET_SLOT (R683). -/
def State.bookSlot (s : State) : List Nat :=
  book 12288 0 (s.xferCount (fun st => st ≠ .free)) 0 (s.xferCount (fun st => decide (st ≠ .free) && decide (st ≠ .draining))) s.noDrain

/-- Buffer granules reserved by ACTIVE or HALTED transfers. -/
def CometSt.live (c : CometSt) : Nat :=
  sumN (c.slots.map (fun e => if e.2.st = .active ∨ e.2.st = .halted then e.2.granules else 0))

/-- A faulted transfer has not yet entered HALTED (R595). -/
def CometSt.halting (c : CometSt) : Bool := c.slots.any (fun e => decide (e.2.st = .active) && e.2.saved.isSome)

/-- COMET_BUF (R683). -/
def State.bookBuf (s : State) : List Nat :=
  let cap := sumN ((List.range 12).map (fun r => s.rf (pgComet r) oCometBufGranules 14 0))
  let held := sumN ((List.range 12).map (fun r => (s.cometAt r).granules))
  let owned := sumN ((List.range 12).map (fun r => (s.cometAt r).live))
  book cap 0 held 0 owned (s.noDrain && (List.range 12).all (fun r => !(s.cometAt r).halting))

/-- STACK_SLOT (R683). -/
def State.bookStack (s : State) : List Nat :=
  let live := (List.range 768).filter (fun d => (s.pchAt d).st ≠ .retired)
  let back := sumN ((List.range 12).map (fun n => (s.stkAt n).resp.countP (fun r => r.slot)))
  let held := sumN ((List.range 768).map s.slotsUsed) - back
  book (slotCap * live.length) 0 held back held (!live.any (fun d => (s.pchAt d).st = .retrain))

/-- RDMA_CREDIT (R683). -/
def State.bookCredit (s : State) : List Nat :=
  let qs := s.qps.filter (fun e => e.2.up)
  book (sumN (qs.map (fun e => e.2.credits))) 0 0 (sumN (qs.map (fun e => e.2.unacked.length))) 0 true

/-- RDMA engines whose domain is ON. -/
def State.rdmaOn (s : State) : Nat := (List.range 4).countP (fun e => (s.domAt (184 + e)).st = .on)

/-- PSIG (R683). -/
def State.bookPsig (s : State) : List Nat :=
  let lent := sumN (s.qps.map (fun e => e.2.sigLent))
  let owed := sumN (s.qps.map (fun e => e.2.sigOwed))
  let held := s.eth.psig.length
  book (psigCap * s.rdmaOn) lent held owed (lent + held) true

/-- Buffers a slot assigns (R684). -/
def AdmSt.buffers (a : AdmSt) : Nat :=
  sumN (a.ents.map (fun e => sumN (e.bufs.map (fun m => (List.range 256).countP (fun k => m.testBit k)))))

/-- Slots that are not FREE. -/
def State.slotsBusy (s : State) : List AdmSt := (s.slots.filter (fun e => e.2.st ≠ .free)).map (·.2)

/-- SPAD_BUF (R683, R684). -/
def State.bookSpad (s : State) : List Nat :=
  let live := s.slotsBusy.filter (fun a => a.st ≠ .ending)
  book 36864 0 (sumN (s.slotsBusy.map (·.buffers))) 0 (sumN (live.map (·.buffers))) (decide (live.length = s.slotsBusy.length))

/-- ADMIT (R683). -/
def State.bookAdmit (s : State) : List Nat := book 4096 0 s.slotsBusy.length 0 s.slotsBusy.length true

/-- Pins the table descriptors hold: the sum of PINS over every table and slot (R683). The count leaves everything as it is; a
table with no usable descriptor holds none. -/
def State.pinsKept (s : State) : Nat :=
  sumN ((List.range (s.rf (pgEmb 0) oEmbTblCount 10 0)).map (fun id =>
    match (s.tdRead 0 (.engine 0 0) id).1 with
    | .ok d => sumN ((List.range 8).map (tdPins d))
    | _ => 0))

/-- PIN (R677): the descriptors keep the pins, the admission slots own them (R683). -/
def State.bookPin (s : State) : List Nat :=
  [0, 0, 0, s.pinsKept, 0, sumN (s.slotsBusy.map (fun a => a.pins.length)), 1]

/-- COPY (R683). -/
def State.bookCopy (s : State) : List Nat :=
  let per (f : Nat → Nat) : Nat := sumN ((List.range 12).map f)
  book (per (fun n => s.rf (pgMig n) oMigPoolGranules 31 0)) 0 (per (fun n => s.migFrame n * (s.migFrames n).length)) 0
    (per (fun n => s.migFrame n * (s.migAt n).copies.length)) s.moves.isEmpty

/-- The ten books in their order (R683). -/
def State.books (s : State) : List (List Nat) :=
  [s.bookLink, s.bookSlot, s.bookBuf, s.bookStack, s.bookCredit, s.bookPsig, s.bookSpad, s.bookAdmit, s.bookPin, s.bookCopy]

/-- SNAP_CMD (R679, R682). -/
def execSnapCmd (v : Word) (s : State) : Out State := s.live <|
  if s.snap.isSome then .next (s.setEvt pgLedger 3)
  else if bit v 0 then
    let t := max (s.rg pgLedger oLedgerSnapAt).toNat (s.ns + 1000)
    .next ((s.setSnap (some ⟨t, none⟩)).setRg pgLedger oLedgerSnapStatus 1)
  else .next s

/-- SNAPSHOT_LATCH (R679, R680): at T every book is counted. -/
def execSnapshotLatch (s : State) : Out State := s.live <|
  match s.snap with
  | some ⟨t, none⟩ => .next (if t ≤ s.ns then s.setSnap (some ⟨t, some s.books⟩) else s)
  | _ => .next s

/-- The conservation equation of a book (R676, R677). -/
def bookC (i : Nat) (b : List Nat) : Bool :=
  decide (i = 8) || decide (b.getD 1 0 + b.getD 2 0 + b.getD 3 0 + b.getD 4 0 = b.getD 0 0)

/-- The agreement equation of a book (R678). -/
def bookA (b : List Nat) : Bool := decide (b.getD 3 0 + b.getD 2 0 = b.getD 5 0)

/-- A failed check of book i, on bit e of the page (R689). -/
def State.bookFail (s : State) (i e : Nat) : State :=
  let s := (s.count pgLedger (oLedgerMismatch + 64 * i) 1).setEvt pgLedger e
  s.error pgLedger (contained 0x0305 pgLedger (word i) 0)

/-- Write the results of book i (R688, R691, R692). -/
def State.bookWrite (s : State) (i : Nat) (b : List Nat) : State :=
  let s := (List.range 6).foldl (fun t k => t.setRg pgLedger (oLedgerCap + 64 * i + 8 * k) (word (b.getD k 0))) s
  let quiet := decide (b.getD 6 0 = 1)
  let s := s.setRg pgLedger (oLedgerStatus + 64 * i) (word (b2n (bookA b) * 4 + b2n (bookC i b) * 2 + b2n quiet))
  let s := if bookC i b then s else s.bookFail i 1
  if quiet && !bookA b then s.bookFail i 2 else s

/-- Write the results of the books from number i on. -/
def State.bookWrites (s : State) : Nat → List (List Nat) → State
  | _, [] => s
  | i, b :: bs => (s.bookWrite i b).bookWrites (i + 1) bs

/-- SNAPSHOT_DONE (R681, R688): the page holds the results. -/
def execSnapshotDone (s : State) : Out State := s.live <|
  match s.snap with
  | some ⟨t, some bs⟩ =>
    let s := (s.setSnap none).bookWrites 0 bs
    let s := (s.setRg pgLedger oLedgerSnapStatus 2).setRg pgLedger oLedgerSnapSt (word t)
    .next ((s.count pgLedger oLedgerSnapCount 1).setEvt pgLedger 0)
  | _ => .next s

end Sys2Proof.Machine
end

