-- ==== Sys2Proof/Machine/Device.lean ====
section
/-! DEFINITION. The device as a whole: service state and its causes (R888 to R891), board replacement (R881), power
domains changing state, demands and what a domain loses (R822 to R828). -/

namespace Sys2Proof.Machine

/-! ## Requests as a whole -/

/-- End an admitted or held request with a status (R809): what runs of it is cancelled. -/
def State.slotEnd (s : State) (i status source : Nat) : State :=
  let a := s.slotAt i
  match a.st with
  | .held => s.putSlot i { a with st := .ending, status := status, source := source }
  | .running => s.failReq i status source 0
  | _ => s

/-- End every request that satisfies a test (R792, R888). -/
def State.slotsEnd (s : State) (p : AdmSt → Bool) (status source : Nat) : State :=
  (s.slots.filter (fun e => p e.2)).foldl (fun t e => t.slotEnd e.1 status source) s

/-- An admission slot that is not FREE names a region. -/
def State.regionBusy (s : State) (r : Nat) : Bool := s.slotsBusy.any (fun a => a.regions.contains r)

/-! ## Power domains (R820 to R828) -/

/-- Entries of a sparse table that do not belong to a part that lost its supply. -/
def dropKeys {α : Type} (m : SMap α) (mine : Nat → Bool) : SMap α := m.filter (fun e => !mine e.1)

/-- Cells and marks of a store outside one part of 2^n bytes. -/
def Mem.dropPart (m : Mem) (n k : Nat) : Mem :=
  ⟨m.cells.filter (fun e => e.1 / 2 ^ n ≠ k), dropKeys m.poison (fun a => decide (a / 2 ^ (n - 5) = k))⟩

/-- A register that is one for the device, shown on the pages of several regions: it survives a region's domain (R162, R176, R201,
R992). -/
def sharedKey (k : Nat) : Bool :=
  let off := k % 512 * 8
  (decide (k / 512 / 1024 = 0x13) && (decide (off = oXlatRoot) || decide (off = oXlatInvIssued) || decide (off = oXlatInvDone))) ||
    (decide (k / 512 / 1024 = 0x1A) && (decide (off = oEmbTblBase) || decide (off = oEmbTblCount)))

/-- The link-local address of a MAC address as modified EUI-64 (R726): fe80::/64, bit 1 of the first MAC byte inverted, ff fe in
the middle. The first byte of the MAC address is bits [47:40] (DEDUCED, assumption 107). -/
def linkLocalBytes (mac : Nat) : List Byte :=
  let b (i : Nat) : Byte := BitVec.ofNat 8 (mac / 2 ^ (40 - 8 * i))
  [0xFE, 0x80, 0, 0, 0, 0, 0, 0, b 0 ^^^ 2, b 1, b 2, 0xFF, 0xFE, b 3, b 4, b 5]

/-- A link that has its link-local address alone, source 3, with a prefix of 64 bits (R726, R770, assumption 107). -/
def LinkSt.linkLocal (k : LinkSt) : LinkSt :=
  let bs := linkLocalBytes (smapGet (fun _ => 0) k.regs oEthMac).toNat
  let rs := [(oEthIpv6Hi, wordAt bs 0), (oEthIpv6Lo, wordAt bs 8), (oEthIpv6Info, word (3 * 2 ^ 8 + 64))].foldl
    (fun m e => smapSet (fun o => regResetAt (pgEth 0) o) m e.1 e.2) k.regs
  { k with regs := rs }

/-- A link that lost its supply: the addresses the configuration gave it and its retirement remain, and in place of an IPv6 address
from DHCP its link-local one (R726, R770, R875). -/
def LinkSt.cold (k : LinkSt) : LinkSt :=
  let rg (off : Nat) : Word := smapGet (fun _ => 0) k.regs off
  let v : LinkSt := { LinkSt.reset with
    dead := k.dead
    regs := k.regs.filter (fun e => decide (e.1 = oEthMac) || (decide (e.1 = oEthIpv4) && decide (fld (rg oEthIpv4) 41 40 = 1)) ||
      ((decide (e.1 = oEthIpv6Hi) || decide (e.1 = oEthIpv6Lo) || decide (e.1 = oEthIpv6Info)) && decide (fld (rg oEthIpv6Info) 9 8 = 1))) }
  if 2 ≤ fld (rg oEthIpv6Info) 9 8 then v.linkLocal else v

/-- What lies in a domain starts from its reset state (R823): registers of its pages, units, buffers. -/
def State.domClear (s : State) (d : Nat) : State :=
  let s := s.setRegs (dropKeys s.regs (fun k => decide (pageDomain (k / 512) = some d) && !sharedKey k))
  if d < 156 then
    (((((s.setSpad (s.spad.dropPart 22 d)).setWv (dropKeys s.wv (fun k => decide (k / 4 = d)))).setMat
      (smapDel s.mat d)).setGmx (smapDel s.gmx d)).setVec (smapDel s.vec d)).setGdesc (smapDel s.gdesc d)
  else if d < 168 then
    let r := d - 156
    let s := ((s.setStore (s.store.dropPart 25 r)).setDisp (smapDel s.disp r)).setComet (smapDel s.comet r)
    let s := ((s.setSync (smapDel s.sync r)).setXlat (smapDel s.xlat r)).setEmb (smapDel s.emb r)
    let s := s.putMig r { s.migAt r with dirs := [] }
    s.setRelay (dropKeys s.relay (fun k => decide (k / 12 = r)))
  else if d < 180 then s
  else if d < 184 then
    let p := d - 180
    (s.setFrames (dropKeys s.frames (fun l => decide (l / 4 = p)))).setEth
      { s.eth with
        links := (s.eth.links.map (fun e => if e.1 / 4 = p then (e.1, e.2.cold) else e)).filter (fun e => e.2 ≠ LinkSt.reset),
        pauses := s.eth.pauses.filter (fun x => x.port ≠ p), xoff := s.eth.xoff.filter (· ≠ p) }
  else if d < 188 then
    let e := d - 184
    ((s.setQps (dropKeys s.qps (fun q => decide (q / 4096 = e)))).setServed (dropKeys s.served (fun l => decide (l / 4 = e)))).setEth
      { s.eth with psig := s.eth.psig.filter (fun x => x.eng ≠ e) }
  else if d < 196 then s.setCores (smapDel s.cores (d - 188))
  else if d = 196 then (s.setSess []).setConns []
  else s

/-- The asks of a cluster are withdrawn from its region's dispatcher (R651). -/
def State.asksDrop (s : State) (c : Nat) : State :=
  let r := cluRegion c
  let d := s.dispAt r
  s.putDisp r { d with asks := d.asks.filter (fun x => x.1 ≠ c) }

/-- A domain changes state (R824): one that goes to OFF or LOCKED loses its state (R822, R823), and a cluster that leaves
ON withdraws its asks. -/
def State.domGo (s : State) (d : Nat) (st : DomState) : State :=
  let v := s.domAt d
  if v.st = st then s
  else
    let s := s.putDom d { v with st := st }
    let s := if st = .off ∨ st = .locked then s.domClear d else s
    let s := if d < 156 ∧ v.st = .on then s.asksDrop d else s
    (s.setRg (pgPwrd d) oPwrdLastSt (word s.ns)).setEvt (pgPwrd d) 0

/-- A waking domain is ON (R824). -/
def State.domOn (s : State) (d : Nat) : State := if (s.domAt d).st = .waking then s.domGo d .on else s

/-- Start to wake a domain in RET, OFF or LOCKED (R824). -/
def State.domWaking (s : State) (d : Nat) : State := s.domGo d .waking

/-- Record a refused (abort = false) or aborted entry with its refuser and reason (R828). -/
def State.domRefuse (s : State) (d source reason : Nat) (abort : Bool) : State :=
  let pg := pgPwrd d
  let s := if abort then (s.count pg oPwrdAborted 1).setEvt pg 2 else (s.count pg oPwrdRefused 1).setEvt pg 1
  s.setRg pg oPwrdLastRefuser (word (reason * 2 ^ 16 + source % 2 ^ 16))

/-- One domain meets a demand of a party (R824, R827, R828, R830). -/
def State.demand1 (s : State) (d source : Nat) : State :=
  match (s.domAt d).st with
  | .toRet => (s.domWaking d).domRefuse d source 4 true
  | .toOff => (s.domWaking d).domRefuse d source 4 true
  | .ret => if bit (s.rg (pgPwrd d) oPwrdCtl) 0 then (s.domWaking d).count (pgPwrd d) oPwrdWakes 1 else s
  | .off => if bit (s.rg (pgPwrd d) oPwrdCtl) 0 then (s.domWaking d).count (pgPwrd d) oPwrdWakes 1 else s
  | _ => s

/-- A demand: that on a cluster wakes its region fabric first (R827). -/
def State.demand (s : State) (d source : Nat) : State :=
  if d < 156 then (s.demand1 (156 + cluRegion d) source).demand1 d source else s.demand1 d source

/-- A demand whose domain wakes before the command that woke it completes: RDMA engines and bridge halves (R827). -/
def State.demandNow (s : State) (d source : Nat) : State := (s.demand d source).domOn d

/-- Both bridge halves wake (R827). -/
def State.demandBridge (s : State) (source : Nat) : State := (s.demandNow 197 source).demandNow 198 source

/-- A part is retired or unmapped: its domain goes to LOCKED (R824). -/
def State.domLock (s : State) (d : Nat) : State := s.domGo d .locked

/-! ## Service state (R888 to R891) -/

/-- A domain STOPPED leaves on: Ethernet port 0, RDMA engine 0, the crypto block, and the core that hosts SPDM (R891). -/
def State.stopKeeps (s : State) (d : Nat) : Bool :=
  decide (d = 180) || decide (d = 184) || decide (d = 196) ||
    (decide (188 ≤ d) && decide (d < 196) && (smapGet (fun _ => CoreSt.reset) s.cores (d - 188)).services.testBit 4)

/-- The service state changes (R888): the entry is recorded; STOPPED cancels every request and switches the domains off. -/
def State.devGo (s : State) (st : DevState) : State :=
  if s.dev.st = st then s
  else
    let s := s.devMark st
    match st with
    | .stopped =>
      let s := s.slotsEnd (fun _ => true) stCancelled pgHcmd
      (List.range 199).foldl (fun t d =>
        if t.stopKeeps d || decide ((t.domAt d).st = .locked) || decide ((t.domAt d).st = .off) then t else t.domGo d .off) s
    | _ => s

/-! ## Service cores as parts (R53, R890, R926) -/

/-- Service cores in service: RUNNING or RESTARTING. -/
def State.coresUp (s : State) : Nat :=
  (List.range 8).countP (fun c => decide ((s.coreAt c).st = .running) || decide ((s.coreAt c).st = .restarting))

end Sys2Proof.Machine
end

