-- ==== Sys2Proof/Machine/Eth.lean ====
section
/-! DEFINITION. Ports, links, addresses and discovery (R715 to R732), faulted links and ports (R875 to R878), and the
connection manager (R737, R739). -/

namespace Sys2Proof.Machine

/-! ## Discovery messages (R729 to R732) -/

/-- A number as n bytes, most significant first (R4). -/
def beBytes (n v : Nat) : List Byte := (leBytes n v).reverse

/-- The 64 B payload of a discovery message of a link (R729); kind 1 ANNOUNCE, 3 LEAVE. -/
def State.discMsg (s : State) (l kind : Nat) : List Byte :=
  let k := s.linkAt l
  leBytes 4 0x5A475631 ++ leBytes 4 (s.rf pgDev oDevDevNum 11 0 * 2 ^ 16 + kind * 2 ^ 8 + 1) ++
    leBytes 4 (b2n (s.time.sync = .locked) * 2 ^ 17 + b2n s.host.bound * 2 ^ 16 + l * 2 ^ 8 + s.dev.st.code) ++
    leBytes 4 k.seq ++ leBytes 8 (s.linkRg l oEthMac).toNat ++ beBytes 4 (fld (s.linkRg l oEthIpv4) 31 0) ++
    List.replicate 4 0 ++ leBytes 8 (s.linkRg l oEthIpv6Hi).toNat ++ leBytes 8 (s.linkRg l oEthIpv6Lo).toNat ++
    (beBytes 48 s.dev.digest).take 16

/-- Send one discovery message over IPv4 or IPv6. -/
def State.discOne (s : State) (l kind : Nat) (reply v6 : Bool) : State :=
  let s := s.sendOn l 1 (.discovery l reply v6 (s.discMsg l kind))
  let k := s.linkAt l
  (s.putLink l { k with seq := (k.seq + 1) % 2 ^ 32 }).linkCount l oEthDiscTx 1

/-- Send a discovery message, over IPv6 also where DISC_CTL says so (R729, R770). -/
def State.discSend (s : State) (l kind : Nat) (reply : Bool) : State :=
  let s := s.discOne l kind reply false
  if bit (s.linkRg l oEthDiscCtl) 17 then s.discOne l kind reply true else s

/-- Send an ANNOUNCE where DISC_CTL.EN allows it (R730). -/
def State.announce (s : State) (l : Nat) : State :=
  if decide ((s.linkAt l).st = .up) && bit (s.linkRg l oEthDiscCtl) 16 then
    let k := s.linkAt l
    (s.putLink l { k with annAt := s.ns }).discSend l 1 false
  else s

/-- DISCOVERY_ANNOUNCE (R730): INTERVAL has passed since the last one. -/
def execDiscoveryAnnounce (l : Fin 16) (s : State) : Out State := s.live <|
  let gap := max 100 (fld (s.linkRg l.val oEthDiscCtl) 15 0) * 1000000
  .next (if (s.linkAt l.val).annAt + gap ≤ s.ns then s.announce l.val else s)

/-- DISCOVERY_QUERY_RX (R731): the answer is due after a delay that the device number sets; a QUERY of the device's own is
not answered. The message itself is stored by DISCOVERY_RX. -/
def execDiscoveryQueryRx (l : Fin 16) (own : Bool) (s : State) : Out State := s.live <|
  if own || decide ((s.linkAt l.val).st ≠ .up) then .next s
  else
    let due := s.ns + s.rf pgDev oDevDevNum 11 0 % 64 * 100000
    .next (s.setEth { s.eth with queries := s.eth.queries ++ [(l.val, due)] })

/-- DISCOVERY_QUERY_ANSWER (R731). -/
def execDiscoveryQueryAnswer (l : Fin 16) (s : State) : Out State := s.live <|
  match s.eth.queries.find? (fun q => decide (q.1 = l.val) && decide (q.2 ≤ s.ns)) with
  | none => .next s
  | some q =>
    let s := s.setEth { s.eth with queries := s.eth.queries.erase q }
    .next (if (s.linkAt l.val).st = .up then s.discSend l.val 1 true else s)

/-- DISCOVERY_RX (R732): a message with the right MAGIC and VER goes into the ring of the port's page. -/
def execDiscoveryRx (l : Fin 16) (payload : List Byte) (s : State) : Out State := s.live <|
  let pg := pgEth (l.val / 4)
  let s := s.heard l.val 1 payload.length
  if payload.length = 64 ∧ leAt payload 0 4 = 0x5A475631 ∧ leAt payload 4 1 = 1 ∧ (s.linkAt l.val).st = .up then
    let i := s.rf pg oEthDiscNext 3 0
    let s := (List.range 8).foldl (fun t k => t.setRg pg (0x400 + 64 * i + 8 * k) (wordAt payload (8 * k))) s
    let s := s.setRg pg oEthDiscNext (word ((i + 1) % 16))
    .next ((s.linkCount l.val oEthDiscRx 1).setEvt pg 5)
  else .next s

/-! ## Links (R720, R721) -/

/-- A link that may train: it exists in its port's MODE, is enabled, not retired, and its port's domain is ON (R716, R721,
R820). -/
def State.linkWanted (s : State) (l : Nat) : Bool :=
  let p := l / 4
  decide (l % 4 < s.portLinks p) && bit (s.rg (pgEth p) oEthCfg) (4 + l % 4) && !(s.linkAt l).dead &&
    decide ((s.domAt (180 + p)).st = .on)

/-- Start the training of the links of a port that are DOWN and enabled (R721); a faulted link is held DOWN (R875). -/
def State.portStart (s : State) (p : Nat) : State :=
  (List.range 4).foldl (fun t k =>
    let l := p * 4 + k
    let v := t.linkAt l
    if v.st = .down ∧ v.fails ≠ 3 ∧ t.linkWanted l = true then t.putLink l { v with st := .training } else t) s

/-- A link goes DOWN (R721). -/
def State.linkDown (s : State) (l : Nat) : State :=
  let v := s.linkAt l
  if v.st = .down then s
  else ((s.putLink l { v with st := .down, downAt := some s.ns }).linkCount l oEthLinkDowns 1).setEvt (pgEth (l / 4)) 1

/-- Writable bits of ETH.CFG (R770). -/
def ethCfgMask : Nat := 0x77FFF7

/-- ETH_CFG_WRITE (R720): only while every link of the port is DOWN; a link that becomes enabled is a demand (R827). -/
def execEthCfgWrite (port : Fin 4) (v : Word) (s : State) : Out State := s.live <|
  let p := port.val
  let pg := pgEth p
  if (List.range 4).any (fun k => decide ((s.linkAt (p * 4 + k)).st ≠ .down)) then .next (s.conflict pg)
  else
    let on := decide (fld v 7 4 ≠ 0) && decide ((s.domAt (180 + p)).st ≠ .on)
    let s := if on then s.demand (180 + p) pg else s
    .next ((s.setRg pg oEthCfg (v &&& word ethCfgMask)).portStart p)

/-- A queue pair of a link has a message that may go (R766). -/
def State.qpSends (s : State) (l : Nat) (x : Nat × QpSt) : Bool :=
  decide (s.qpLink x.1 = l) && (match x.2.txWait with
    | [] => false
    | m :: _ => x.2.mayTx m && s.qpLinkUp x.1)

/-- The queue pair a link serves next: ascending numbers, starting after the one served last (R766). -/
def State.nextQp (s : State) (l : Nat) : Option Nat :=
  let ready := ((s.engQps (l / 4)).filter (s.qpSends l)).map (·.1)
  (ready.find? (fun q => decide (smapGet (fun _ => 0) s.served l ≤ q))).or ready.head?

/-- Serve the queue pairs of a link in rotation, one message at a time (R766); n bounds them. -/
def State.serveLink (s : State) (l : Nat) : Nat → State
  | 0 => s
  | n + 1 =>
    match s.nextQp l with
    | none => s
    | some q => (s.txDrain q 1).serveLink l n

/-- Send what waits on the queue pairs of an engine, link by link (R766). -/
def State.drainPort (s : State) (p : Nat) : State :=
  let n := ((s.engQps p).map (fun x => x.2.txWait.length)).foldl (· + ·) 0
  (List.range 4).foldl (fun t k => t.serveLink (p * 4 + k) n) s

/-- LINK_TRAINED (R721): the link is UP, announces itself (R730), and its queue pairs send again (R768). -/
def execLinkTrained (l : Fin 16) (s : State) : Out State := s.live <|
  let v := s.linkAt l.val
  if v.st = .training then
    let s := (s.putLink l.val { v with st := .up, fails := 0, fec := [] }).setEvt (pgEth (l.val / 4)) 0
    .next ((s.announce l.val).drainPort (l.val / 4))
  else .next s

/-- LINK_LOSS (R721, R768): its queue pairs stay in their state. -/
def execLinkLoss (l : Fin 16) (s : State) : Out State := s.live <| .next (s.linkDown l.val)

/-- LINK_RETRY_TIMER (R721, R876): 10 ms after going DOWN, 1 s for a link whose fault lies outside the device. -/
def execLinkRetryTimer (l : Fin 16) (s : State) : Out State := s.live <|
  let v := s.linkAt l.val
  let gap := if v.fails = 4 then 10 ^ 9 else 10 ^ 7
  if decide (v.st = .down) && decide (v.fails ≠ 3) && s.linkWanted l.val &&
      v.downAt.all (fun t => decide (t + gap ≤ s.ns)) then
    .next (s.putLink l.val { v with st := .training })
  else .next s

/-! ## Flow control (R722 to R724) -/

/-- Pause time in ns of a number of quanta of 512 bit times at the line rate of a port (IEEE 802.1Qbb, R722). -/
def State.pauseNs (s : State) (p quanta : Nat) : Nat := quanta * 512 * 100 / max 1 (s.lineRate p * 8)

/-- Enter a received pause of one priority; a pause that follows without a break keeps its start (R724). -/
def State.pauseOne (s : State) (p prio quanta : Nat) : State :=
  let old := s.eth.pauses.find? (fun x => decide (x.port = p) && decide (x.prio = prio))
  let rest := s.eth.pauses.filter (fun x => !(decide (x.port = p) && decide (x.prio = prio)))
  if quanta = 0 then s.setEth { s.eth with pauses := rest }
  else
    let e := s.ns + s.pauseNs p quanta
    let x : Pause := match old with
      | some o => if s.ns ≤ o.until_ then { o with until_ := e } else ⟨p, prio, s.ns, e, false⟩
      | none => ⟨p, prio, s.ns, e, false⟩
    s.setEth { s.eth with pauses := rest ++ [x] }

/-- PFC_FRAME_RX (R722): the priorities of PFC_EN that the frame names pause, or go on where their time is 0. The frame
counts on link 0 of the port. -/
def execPfcFrameRx (port : Fin 4) (mask : Byte) (quanta : List (BitVec 16)) (s : State) : Out State := s.live <|
  let p := port.val
  if quanta.length ≠ 8 then .fault (.illFormed "PFC_FRAME_RX")
  else
    let en := s.rf (pgEth p) oEthCfg 15 8
    let s := (s.heard (p * 4) 1 0).linkCount (p * 4) oEthPfcRx 1
    let s := (onesBelow 8 (mask.toNat &&& en)).foldl (fun t i => t.pauseOne p i (quanta.getD i 0).toNat) s
    .next (s.drainPort p)

/-- PFC_PAUSE_EXPIRY (R722): the pause time has run out. -/
def execPfcPauseExpiry (port : Fin 4) (prio : Fin 8) (s : State) : Out State := s.live <|
  let p := port.val
  let gone (x : Pause) : Bool := decide (x.port = p) && decide (x.prio = prio.val) && decide (x.until_ ≤ s.ns)
  .next ((s.setEth { s.eth with pauses := s.eth.pauses.filter (fun x => !gone x) }).drainPort p)

/-- PFC_STORM (R724): counted once for a pause unbroken for 100 ms. -/
def execPfcStorm (port : Fin 4) (prio : Fin 8) (s : State) : Out State := s.live <|
  let p := port.val
  let hit (x : Pause) : Bool := decide (x.port = p) && decide (x.prio = prio.val) && !x.storm && decide (s.ns < x.until_) &&
    decide (x.since + 10 ^ 8 ≤ s.ns)
  if s.eth.pauses.any hit then
    let s := s.setEth { s.eth with pauses := s.eth.pauses.map (fun x => if hit x then { x with storm := true } else x) }
    .next ((s.linkCount (p * 4) oEthPfcStorm 1).setEvt (pgEth p) 3)
  else .next s

/-- Bytes of the receive buffer held by requests that wait (R722, R746). -/
def State.rxBytes (s : State) (p : Nat) : Nat :=
  ((s.eth.rxHeld.filter (fun m => m.qp / 4096 = p)).map (fun m => m.op.bytes)).foldl (· + ·) 0

/-- Send the PFC frames the share of the RoCE priority calls for (R722). -/
def State.pfcCheck (s : State) (p : Nat) : State :=
  let prio := s.rf (pgEth p) oEthCfg 18 16
  let n := s.rxBytes p
  let thr := s.linkRg (p * 4) oEthPfcThr
  if !bit (s.rg (pgEth p) oEthCfg) (8 + prio) then s
  else if !s.eth.xoff.contains p && decide (fld thr 15 0 * 1024 < n) then
    ((s.setEth { s.eth with xoff := s.eth.xoff ++ [p] }).linkCount (p * 4) oEthPfcTx 1).sendOn (p * 4) 1 (.pfc p true)
  else if s.eth.xoff.contains p && decide (n < fld thr 31 16 * 1024) then
    ((s.setEth { s.eth with xoff := s.eth.xoff.filter (· ≠ p) }).linkCount (p * 4) oEthPfcTx 1).sendOn (p * 4) 1 (.pfc p false)
  else s

/-! ## Addresses (R726 to R728) -/

/-- The IPv6 address of a link as a number, most significant byte first. -/
def State.ipv6Of (s : State) (l : Nat) : Nat :=
  ofBe (leBytes 8 (s.linkRg l oEthIpv6Hi).toNat ++ leBytes 8 (s.linkRg l oEthIpv6Lo).toNat)

/-- The link has this IPv4 address. -/
def State.ownV4 (s : State) (l a : Nat) : Bool :=
  decide (fld (s.linkRg l oEthIpv4) 41 40 ≠ 0) && decide (fld (s.linkRg l oEthIpv4) 31 0 = a)

/-- The link has this IPv6 address. -/
def State.ownV6 (s : State) (l a : Nat) : Bool :=
  decide (fld (s.linkRg l oEthIpv6Info) 9 8 ≠ 0) && decide (s.ipv6Of l = a)

/-- Note the resolved MAC address of a next hop (R727). -/
def State.hopNote (s : State) (l ip mac : Nat) : State :=
  let k := s.linkAt l
  s.putLink l { k with hops := k.hops.filter (fun h => h.1 ≠ ip) ++ [(ip, mac)] }

/-- NEIGHBOR_PACKET_RX (R727): what asks for the link's own address is answered, resolutions are noted, DHCP belongs to
the address source; the rest is dropped and counted. -/
def execNeighborPacketRx (l : Fin 16) (p : NeighborPkt) (s : State) : Out State := s.live <|
  let l := l.val
  let s := s.heard l 1 0
  let drop := s.linkCount l oEthDrop 1
  if (s.linkAt l).st ≠ .up then .next s
  else match p with
    | .arp t => .next (if s.ownV4 l t.toNat then s.sendOn l 1 (.neighbor l 0) else drop)
    | .nd t => .next (if s.ownV6 l t.toNat then s.sendOn l 1 (.neighbor l 1) else drop)
    | .echo4 d => .next (if s.ownV4 l d.toNat then s.sendOn l 1 (.neighbor l 2) else drop)
    | .echo6 d => .next (if s.ownV6 l d.toNat then s.sendOn l 1 (.neighbor l 3) else drop)
    | .reply4 ip mac => .next (s.hopNote l ip.toNat mac.toNat)
    | .reply6 ip mac => .next (s.hopNote l ip.toNat mac.toNat)
    | .dhcp => .next s
    | .other => .next drop

/-- Source of the IPv4 or IPv6 address of a link (R770): 0 none, 1 the configuration, 2 DHCP, 3 link-local. -/
def State.addrSource (s : State) (l : Nat) (v6 : Bool) : Nat :=
  if v6 then fld (s.linkRg l oEthIpv6Info) 9 8 else fld (s.linkRg l oEthIpv4) 41 40

/-- The configuration enables DHCPv4 or DHCPv6 on a link (R726, R907). -/
def State.dhcpOn (s : State) (l : Nat) (v6 : Bool) : Bool := (smapGet (fun _ => 0) s.eth.dhcp l).testBit (b2n v6)

/-- A source changes the address of a link (R726): DHCP where the configuration enables it and gives no address itself; the loss of
an address DHCP gave; the link-local address where no other source gives one. -/
def State.addrTakes (s : State) (l : Nat) (a : AddrInfo) : Bool :=
  let cur := s.addrSource l a.ipv6
  match a.source.toNat with
  | 0 => decide (cur = 2)
  | 2 => s.dhcpOn l a.ipv6 && decide (cur ≠ 1)
  | 3 => a.ipv6 && decide (cur = 0)
  | _ => false

/-- Write the address registers of a link: an address from DHCP, or what takes its place (R726, R770). -/
def State.addrWrite (s : State) (l : Nat) (a : AddrInfo) : State :=
  if a.source = 2 then
    let n := a.addr.toNat
    let pre := a.prefixLen.toNat
    if a.ipv6 then
      let bs := beBytes 16 n
      let s := (s.setLinkRg l oEthIpv6Hi (wordAt bs 0)).setLinkRg l oEthIpv6Lo (wordAt bs 8)
      s.setLinkRg l oEthIpv6Info (word (2 * 2 ^ 8 + pre))
    else s.setLinkRg l oEthIpv4 (word (2 * 2 ^ 40 + pre * 2 ^ 32 + n % 2 ^ 32))
  else if a.ipv6 then s.putLink l (s.linkAt l).linkLocal
  else s.setLinkRg l oEthIpv4 0

/-- ADDR_CHANGE (R726, R728): DHCP gives or withdraws an address of a link. A changed or lost address puts the link's queue pairs
into ERROR and is announced (R730). -/
def execAddrChange (l : Fin 16) (a : AddrInfo) (s : State) : Out State := s.live <|
  let l := l.val
  let t := s.addrWrite l a
  if !s.addrTakes l a || decide (t.linkAt l = s.linkAt l) then .next s
  else
    let t := (t.qpErrAll (fun q => decide (t.qpLink q = l))).setEvt (pgEth (l / 4)) 4
    .next (t.announce l)

/-! ## Faulted links and ports (R875 to R878) -/

/-- A faulted link is held DOWN while its loopback test runs (R875). -/
def State.linkFault (s : State) (l : Nat) : State :=
  let s := s.linkDown l
  s.putLink l { s.linkAt l with fails := 3 }

/-- LINK_TRAINING_FAILURE (R875, R876): the third in succession faults the link; a link whose fault lies outside the
device counts each failure and tries again. -/
def execLinkTrainingFailure (l : Fin 16) (s : State) : Out State := s.live <|
  let l := l.val
  let v := s.linkAt l
  if v.st ≠ .training then .next s
  else
    let s := s.linkDown l
    let w := s.linkAt l
    .next (s.putLink l { w with fails := if v.fails = 4 then 4 else v.fails + 1 })

/-- FEC_UNCORRECTABLE_CODEWORD (R721, R770, R875): the frame is dropped for its FCS; more than 16 within 1 s fault the
link. -/
def execFecUncorrectableCodeword (l : Fin 16) (s : State) : Out State := s.live <|
  let l := l.val
  let v := s.linkAt l
  if v.st ≠ .up then .next s
  else
    let recent := (v.fec ++ [s.ns]).filter (fun t => s.ns < t + 10 ^ 9)
    let s := s.putLink l { v with fec := recent }
    let s := ((s.linkCount l oEthFecUncorr 1).linkCount l oEthFcsErr 1).setEvt (pgEth (l / 4)) 2
    .next (if 16 < recent.length then s.linkFault l else s)

/-- Retire a port (R878): domain LOCKED, queue pairs of its engine to ERROR, the board is to be replaced. -/
def State.portRetire (s : State) (p : Nat) : State :=
  let s := s.error (pgEth p) ⟨2, true, 0x0404, pgEth p, 0, 0⟩
  let s := (s.qpErrAll (fun q => decide (q / 4096 = p))).domLock (180 + p)
  (s.setCause 2 true).replaceBoard 3

/-- Retire a link (R877). -/
def State.linkRetire (s : State) (l : Nat) : State :=
  let s := s.linkDown l
  let s := s.putLink l { s.linkAt l with dead := true }
  let s := s.error (pgEth (l / 4)) ⟨0, true, 0x0403, pgEth (l / 4), 0, 0⟩
  s.qpErrAll (fun q => decide (s.qpLink q = l))

/-- LOOPBACK_DONE (R876 to R878): with every lane good the link trains again every second; a bad lane retires every link
that uses it, and the port when none is left. -/
def execLoopbackDone (l : Fin 16) (badLanes : Byte) (s : State) : Out State := s.live <|
  let l := l.val
  let p := l / 4
  let v := s.linkAt l
  if v.fails ≠ 3 then .next s
  else if badLanes = 0 then .next (s.putLink l { v with fails := 4 })
  else
    let n := s.portLinks p
    let hit (k : Nat) : Bool := (List.range 8).any (fun i => badLanes.toNat.testBit i && decide (i / (8 / max 1 n) = k))
    let s := s.putLink l { v with fails := 4 }
    let s := ((List.range n).filter (fun k => hit k && !(s.linkAt (p * 4 + k)).dead)).foldl (fun t k => t.linkRetire (p * 4 + k)) s
    .next (if (List.range n).all (fun k => (s.linkAt (p * 4 + k)).dead) && decide ((s.domAt (180 + p)).st ≠ .locked) then s.portRetire p
      else s)

/-! ## The connection manager (R736, R737, R739) -/

/-- A message of the connection manager is about a queue pair of its port that it may connect (R736, R737). -/
def cmMine (m : CmMsg) : Bool := decide (m.qp.val / 4096 = m.port.val) && decide (2 ≤ m.qp.val % 4096)

/-- The peer's values enter the context a connection uses (R737, R738). -/
def State.cmPeer (s : State) (m : CmMsg) : State :=
  let q := m.qp.val
  let v := s.qpAt q
  let ctx := patchB v.ctx 8 (leBytes 8 (setFld (wordAt v.ctx 8) 23 0 m.peerQpn.toNat).toNat)
  let ctx := patchB ctx 0x10 (leBytes 8 (setFld (wordAt v.ctx 0x10) 23 0 m.peerPsn.toNat).toNat)
  s.putQp q { v with ctx := ctx, rqPsn := m.peerPsn.toNat }

/-- A management queue pair needs no context in memory: the device gives it one of its own (DESIGN CHOICE, assumption 42). -/
def mgmtCtx : List Byte := wordsBytes [word (7 * 2 ^ 37 + 14 * 2 ^ 32 + 2 * 2 ^ 4)] ++ List.replicate 120 0

/-- A message of the connection manager arrives for the second queue pair of its port's engine (R736, R770). -/
def State.cmHeard (s : State) (m : CmMsg) : State := s.heard (s.qpLink (m.port.val * 4096 + 1)) 1 0

/-- CM_REQ (R737): accepted on a queue pair in INIT, and on a management queue pair that is not connected; the engine's
domain is woken first (R827). Anything else is rejected. -/
def execCmReq (m : CmMsg) (s : State) : Out State := s.live <|
  let q := m.qp.val
  let s := s.cmHeard m
  if !cmMine m then .next s
  else
    let s := s.demandNow (184 + q / 4096) (pgRdma (q / 4096))
    let s := if mgmtQp q && !(s.qpAt q).up then s.qpInit q mgmtCtx else s
    if (s.qpAt q).st = .init then
      let s := s.cmPeer m
      .next ((s.putQp q { s.qpAt q with connected := true }).sendQp q 1 (.cm m.port.val q 1))
    else .next (s.sendQp q 1 (.cm m.port.val q 3))

/-- The queue pair is connected: it receives, and a management queue pair sends too (R736, R739). -/
def State.cmUp (s : State) (q : Nat) : State :=
  let s := s.qpRtr q
  if mgmtQp q then s.qpRts q else s

/-- CM_REP (R737, R739): a queue pair in INIT goes to RTR and the device answers RTU. -/
def execCmRep (m : CmMsg) (s : State) : Out State := s.live <|
  let q := m.qp.val
  let s := s.cmHeard m
  if cmMine m && decide ((s.qpAt q).st = .init) then .next (((s.cmPeer m).cmUp q).sendQp q 1 (.cm m.port.val q 2))
  else .next s

/-- CM_RTU (R737, R739): the accepted request is complete. -/
def execCmRtu (m : CmMsg) (s : State) : Out State := s.live <|
  let q := m.qp.val
  let s := s.cmHeard m
  let v := s.qpAt q
  if cmMine m && decide (v.st = .init) && v.connected then .next ((s.putQp q { v with connected := false }).cmUp q)
  else .next s

/-- CM_REJ (R737): the request in progress is over. -/
def execCmRej (m : CmMsg) (s : State) : Out State := s.live <|
  let q := m.qp.val
  let s := s.cmHeard m
  .next (if cmMine m then s.putQp q { s.qpAt q with connected := false } else s)

/-- CM_DREQ (R739): a connected queue pair enters ERROR; the device answers DREP. -/
def execCmDreq (m : CmMsg) (s : State) : Out State := s.live <|
  let q := m.qp.val
  let s := s.cmHeard m
  if cmMine m && (s.qpAt q).up then .next ((s.qpErr q).sendQp q 1 (.cm m.port.val q 5)) else .next s

/-- CM_DREP (R737): the device sends no DREQ of its own, so the answer ends nothing. -/
def execCmDrep (m : CmMsg) (s : State) : Out State := s.live <| .next (s.cmHeard m)

end Sys2Proof.Machine
end

