-- ==== Sys2Proof/Machine/Wqe.lean ====
section
/-! DEFINITION. The RDMA engine as requester (R748 to R760): work queue entries, acknowledgements and retries,
completions, signal credits, rate control (R765), and pending signals whose writes have landed (R663). -/

namespace Sys2Proof.Machine

/-! ## Otfer headers (R756) -/

/-- The first 14 bytes of an Otfer header (R756). -/
def otferBody (type efmt len src cols colFirst : Nat) (poison : Bool) : List Byte :=
  leBytes 14 (type % 256 + 2 ^ 8 + src % 2 ^ 12 * 2 ^ 16 + len % 2 ^ 32 * 2 ^ 32 + b2n poison * 2 ^ 64 +
    efmt % 256 * 2 ^ 72 + cols % 2 ^ 16 * 2 ^ 80 + colFirst % 2 ^ 16 * 2 ^ 96)

/-- An Otfer header with its HCRC (R756). -/
def otferHeader (type efmt len src cols colFirst : Nat) (poison : Bool) : List Byte :=
  let b := otferBody type efmt len src cols colFirst poison
  b ++ leBytes 2 (crc16 b)

/-- The immediate data of a SIGNAL (R757). -/
def sigImm : Nat := 0x53470001

/-! ## The send queue (R749 to R755) -/

/-- OP of a WQE (R751). -/
def wqeOp (w : List Byte) : Nat := fld (wordAt w 0) 7 0
/-- FRAME of a WQE. -/
def wqeFrame (w : List Byte) : Bool := bit (wordAt w 0) 9
/-- LENGTH of a WQE. -/
def wqeLen (w : List Byte) : Nat := fld (wordAt w 0x10) 31 0
/-- LOCAL_VA of a WQE. -/
def wqeLocal (w : List Byte) : Nat := fld (wordAt w 8) 51 0

/-- No reserved field or code of a WQE is set (R751, R752, R761). A frame needs a WRITE, a frame TYPE and a format. -/
def wqeOk (w : List Byte) : Bool :=
  decide (fld (wordAt w 0) 15 11 = 0) && decide (fld (wordAt w 8) 63 52 = 0) && decide (fld (wordAt w 0x20) 63 32 = 0) &&
    decide (fld (wordAt w 0x38) 63 16 = 0) && decide (wqeOp w ≤ 7) && decide (wqeLen w ≤ 2 ^ 31) &&
    (!wqeFrame w || (decide (wqeOp w ≤ 1) && decide (wqeLen w ≤ 2 ^ 20) && decide (2 ≤ fld (wordAt w 0) 23 16) &&
      decide (fld (wordAt w 0) 23 16 ≤ 4) && decide (fld (wordAt w 0) 31 24 ≤ 5)))

/-- The message a WQE asks for, with the bytes of its source and their poison (R751, R757, R761). -/
def State.wqeMsg (s : State) (w data : List Byte) (poison : Bool) : TxOp :=
  let w0 := wordAt w 0
  let va := wordAt w 0x18
  let rkey := fld (wordAt w 0x20) 31 0
  let imm := fld (wordAt w 0x10) 63 32
  let dev := s.rf pgDev oDevDevNum 11 0
  let body := if wqeFrame w then
      otferHeader (fld w0 23 16) (fld w0 31 24) (wqeLen w) dev (fld w0 63 48) (fld w0 47 32) poison ++ data
    else data
  match wqeOp w with
  | 0 => .write va rkey body none
  | 1 => .write va rkey body (some imm)
  | 2 => .send data none
  | 3 => .send data (some imm)
  | 4 => .read va rkey (wqeLen w)
  | 5 => .fetchAdd va rkey (wordAt w 0x28)
  | 6 => .cmpSwap va rkey (wordAt w 0x28) (wordAt w 0x30)
  | _ => .send (otferHeader 1 0 (wqeLen w) dev 0 0 false ++ data) (some sigImm)

/-- The queue entry of a WQE's message (R751). -/
def wqeTx (w : List Byte) (op : TxOp) : TxMsg :=
  { plainTx op with cmpl := if bit (wordAt w 0) 8 then some (fld (wordAt w 0x38) 15 0) else none,
                    dest := if op.asks then some (word (wqeLocal w)) else none, wqe := true,
                    signal := decide (wqeOp w = 7), fence := bit (wordAt w 0) 10 }

/-- A WQE is taken from its ring (R749). -/
def State.wqeTaken (s : State) (q : Nat) : State := s.putQp q { s.qpAt q with taken := (s.qpAt q).taken + 1 }

/-- Run the next WQE of a queue pair when its OP is `op` (R749 to R757). It is taken only when its message may go at once
(R751, R754, R760); a malformed or poisoned WQE, or a poisoned source without a frame, puts the queue pair into ERROR
(R752, R755). -/
def State.wqeRun (s : State) (q op : Nat) : State :=
  let v := s.qpAt q
  let c := wordAt v.ctx 0x28
  let who : Who := .rdma q (2 * v.taken)
  if v.st ≠ .rts ∨ v.avail ≤ v.taken ∨ fld c 55 52 = 0 ∨ v.txWait ≠ [] ∨ s.qpLinkUp q = false ∨ s.parkedAt 12 who = true then s
  else
    let va := fld c 51 0 + 64 * (v.taken % 2 ^ fld c 55 52)
    match s.readVa 12 who true va 64 with
    | (none, s') => s'
    | (some (w, ps), s1) =>
      if ps.any id || !wqeOk w then (s1.wqeTaken q).qpErr q
      else if wqeOp w ≠ op then s
      else if !v.mayTx (wqeTx w (s.wqeMsg w [] false)) then s
      else if 4 ≤ op ∧ op ≤ 6 then (s1.wqeTaken q).txPost q (wqeTx w (s1.wqeMsg w [] false))
      else match s1.readVa 12 who true (wqeLocal w) (wqeLen w) with
        | (none, s') => s'
        | (some (d, ds), s2) =>
          if ds.any id && !wqeFrame w then
            let pg := pgRdma (q / 4096)
            (((s2.wqeTaken q).count pg oRdmaPoison 1).setEvt pg 4).qpErr q
          else (s2.wqeTaken q).txPost q (wqeTx w (s2.wqeMsg w d (ds.any id)))

/-- WQE_WRITE (R751). -/
def execWqeWrite (qp : Fin 16384) (s : State) : Out State := s.live <| .next (s.wqeRun qp.val 0)
/-- WQE_WRITE_IMM (R751). -/
def execWqeWriteImm (qp : Fin 16384) (s : State) : Out State := s.live <| .next (s.wqeRun qp.val 1)
/-- WQE_SEND (R751). -/
def execWqeSend (qp : Fin 16384) (s : State) : Out State := s.live <| .next (s.wqeRun qp.val 2)
/-- WQE_SEND_IMM (R751). -/
def execWqeSendImm (qp : Fin 16384) (s : State) : Out State := s.live <| .next (s.wqeRun qp.val 3)
/-- WQE_READ (R751). -/
def execWqeRead (qp : Fin 16384) (s : State) : Out State := s.live <| .next (s.wqeRun qp.val 4)
/-- WQE_FETCH_ADD (R751). -/
def execWqeFetchAdd (qp : Fin 16384) (s : State) : Out State := s.live <| .next (s.wqeRun qp.val 5)
/-- WQE_CMP_SWAP (R751). -/
def execWqeCmpSwap (qp : Fin 16384) (s : State) : Out State := s.live <| .next (s.wqeRun qp.val 6)
/-- WQE_SIGNAL (R757, R760). -/
def execWqeSignal (qp : Fin 16384) (s : State) : Out State := s.live <| .next (s.wqeRun qp.val 7)

/-- WQE_COMPLETE (R752): the oldest WQE acknowledged or answered is complete; CMPL_CTR rises where it says so. -/
def execWqeComplete (qp : Fin 16384) (s : State) : Out State := s.live <|
  let q := qp.val
  let v := s.qpAt q
  match v.acked with
  | [] => .next s
  | m :: ms =>
    let s := s.putQp q { v with acked := ms, done := v.done + 1 }
    .next (match m.cmpl with
      | some c => s.issueInc (ctrOp c).1 (ctrOp c).2 1
      | none => s)

/-! ## Acknowledgements as they arrive (R748, R752, R759) -/

/-- ACK_RX (R752, R759): messages up to the PSN are acknowledged; with SIG_EN the credit field returns signal credits. -/
def execAckRx (qp : Fin 16384) (psn : BitVec 24) (credits : BitVec 5) (s : State) : Out State := s.live <|
  let q := qp.val
  let s := s.heard (s.qpLink q) 1 0
  let v := s.qpAt q
  if v.st ≠ .rts then .next s
  else
    let n := if v.sigEn ∧ credits.toNat ≤ 30 then credits.toNat else 0
    .next ((s.putQp q { v with sigTx := v.sigTx + n }).ackTo q psn.toNat)

/-- NAK_RX (R739, R748): a sequence NAK resends from its PSN, an RNR NAK retries, any other puts the queue pair into
ERROR. -/
def execNakRx (qp : Fin 16384) (psn : BitVec 24) (k : NakKind) (s : State) : Out State := s.live <|
  let q := qp.val
  let s := s.heard (s.qpLink q) 1 0
  if (s.qpAt q).st ≠ .rts then .next s
  else
    let s := s.count (pgRdma (q / 4096)) oRdmaNakRx 1
    let before := (psn.toNat + 2 ^ 24 - 1) % 2 ^ 24
    match k with
    | .sequence => .next ((s.ackTo q before).retry q)
    | .rnr => .next ((s.ackTo q before).rnrRetry q)
    | .invalid => .next (s.qpErr q)
    | .remoteAccess => .next (s.qpErr q)
    | .remoteOp => .next (s.qpErr q)

/-- ACK_TIMEOUT (R739, R748): unacknowledged messages are sent again, while retries are left. -/
def execAckTimeout (qp : Fin 16384) (s : State) : Out State := s.live <|
  let v := s.qpAt qp.val
  .next (if v.st = .rts ∧ v.unacked ≠ [] then s.retry qp.val else s)

/-- CREDIT_ACK (R759): credits to return and no acknowledgement due: a duplicate of the last one carries them. -/
def execCreditAck (qp : Fin 16384) (s : State) : Out State := s.live <|
  let v := s.qpAt qp.val
  .next (if v.up && v.sigEn && decide (0 < v.sigOwed) then s.sendAck qp.val v.lastAck else s)

/-- A response has arrived for the first READ or atomic outstanding: what was sent before it is acknowledged, its result is
written to LOCAL_VA, and it waits for its completion (R752). false while the result waits on a fault. -/
def State.rdRun (s : State) (q : Nat) (data : List Byte) : Bool × State :=
  let v := s.qpAt q
  match v.unacked.find? (fun m => m.op.asks) with
  | none => (true, s)
  | some m =>
    if data.length ≠ m.op.bytes then (true, s)
    else
      let s := s.ackTo q ((m.psn + 2 ^ 24 - 1) % 2 ^ 24)
      let (ok, s) := match m.dest with
        | some a => s.writeVa 12 (.rdma q (2 * (2 ^ 40 + m.psn))) true a.toNat data false
        | none => (true, s)
      if ok then
        let v := s.qpAt q
        let s := (s.putQp q { v with unacked := v.unacked.erase m }).acked q [m]
        (true, s.ackTo q ((m.psn + m.npkt + 2 ^ 24 - 1) % 2 ^ 24))
      else (false, s)

/-- Packets of a response of n bytes (R733). -/
def respPackets (mtu n : Nat) : Nat := max 1 ((n + mtu - 1) / mtu)

/-- RDMA_READ_RESPONSE_RX (R752): responses are written in order. -/
def execRdmaReadResponseRx (qp : Fin 16384) (data : List Byte) (s : State) : Out State := s.live <|
  let q := qp.val
  let s := s.heard (s.qpLink q) (respPackets (qpMtu (s.qpAt q).ctx) data.length) data.length
  let v := s.qpAt q
  if v.st ≠ .rts then .next s
  else if v.rdHeld ≠ [] then .next (s.putQp q { v with rdHeld := v.rdHeld ++ [data] })
  else match s.rdRun q data with
    | (true, s) => .next s
    | (false, s) => .next (s.putQp q { s.qpAt q with rdHeld := [data] })

/-- Responses that waited on a fault go on in order; n bounds them. -/
def State.rdResume (s : State) (q : Nat) : Nat → State
  | 0 => s
  | n + 1 =>
    match (s.qpAt q).rdHeld with
    | [] => s
    | d :: ds =>
      match s.rdRun q d with
      | (true, s) => (s.putQp q { s.qpAt q with rdHeld := ds }).rdResume q n
      | (false, s) => s

/-! ## Rate control (R765, R767) -/

/-- CNP_RX (R765). -/
def execCnpRx (qp : Fin 16384) (s : State) : Out State := s.live <|
  let q := qp.val
  let s := s.heard (s.qpLink q) 1 0
  let v := s.qpAt q
  let s := s.count (pgRdma (q / 4096)) oRdmaCnpRx 1
  .next (if v.st = .rts then s.putQp q { v with cnps := v.cnps + 1 } else s)

/-- The rate of a queue pair after a period (R765), in units of 10 MB/s: line rate lr, RC_PARAM w. -/
def QpSt.newRate (v : QpSt) (lr : Nat) (w : Word) : QpSt :=
  if 0 < v.cnps then { v with rate := max (fld w 31 16) (v.rate - v.rate * min v.cnps 4 / 16), quiet := 0, cnps := 0 }
  else
    let q := v.quiet + 1
    { v with rate := if q ≤ fld w 55 48 then min lr (v.rate + fld w 15 0) else min lr (v.rate + v.rate / 8), quiet := q }

/-- RATE_PERIOD (R765): a period of the engine ends. -/
def execRatePeriod (e : Fin 4) (s : State) : Out State := s.live <|
  let w := s.rg (pgRdma e.val) oRdmaRcParam
  let lr := s.lineRate e.val
  .next ((s.engQps e.val).foldl (fun t x => if x.2.st = .rts then t.putQp x.1 ((t.qpAt x.1).newRate lr w) else t) s)

/-! ## Pending signals (R663) -/

/-- PENDING_SIGNAL_APPLY (R663): every covered write has landed; the increment leaves for its bank and the entry is
freed. -/
def execPendingSignalApply (e : Fin 4) (entry : Nat) (s : State) : Out State := s.live <|
  match s.eth.psig.find? (fun x => decide (x.eng = e.val) && decide (x.id = entry)) with
  | none => .next s
  | some x =>
    if s.sigMet x then .next (((s.psigDrop x).count (pgSync x.region) oSyncRemoteIncs 1).issueInc x.region x.ctr x.amount)
    else .next s

end Sys2Proof.Machine
end

