-- ==== Sys2Proof/Machine/HostCmd.lean ====
section
/-! DEFINITION. The command unit (R793 to R805): taking a command from a ring or a management session, checking it,
completing it; scheduled entries (R86 to R92), graph handles (R806, R807), table slots (R246), queue pairs (R739),
binding (R788 to R792). -/

namespace Sys2Proof.Machine

/-! ## Taking commands (R794 to R800) -/

/-- Who reads memory for a command: ring r, or 64 + k for management session k. -/
def cmdWho : CmdSrc → Who
  | .ring r => .ring r.val
  | .mgmt k _ => .ring (64 + k.val)

/-- Number under which a command's completions go: ring, or 64 + session. -/
def cmdRing : CmdSrc → Nat
  | .ring r => r.val
  | .mgmt k _ => 64 + k.val

/-- Commands of a ring available and not taken (R795). -/
def RingSt.avail (g : RingSt) : Nat := (g.prod + 2 ^ 32 - g.taken) % 2 ^ 32

/-- Completion entries a command reserves: a LAUNCH two (R799). -/
def cmdNeed (opc : Nat) : Nat := if opc = 1 then 2 else 1

/-- Read the next command of a ring: its words and whether any access of it is poisoned (R794, R797). -/
def State.ringPeek (s : State) (r : Nat) : Option (List Word × Bool) × State :=
  let g := s.ringAt r
  match s.readVa 12 (.ring r) false (g.cmdBase.toNat + 64 * (g.taken % 2 ^ fld g.ctl 7 4)) 64 with
  | (none, s) => (none, s)
  | (some (bs, ps), s) => (some ((List.range 8).map (fun i => wordAt bs (8 * i)), ps.any id), s)

/-- A ring has a command available that may be looked at. -/
def State.ringWaits (s : State) (r : Nat) : Bool :=
  let g := s.ringAt r
  bit g.ctl 0 && decide (0 < g.avail) && !s.parkedAt 12 (.ring r)

/-- Opcode of a command. -/
def cmdOpc (ws : List Word) : Nat := fld (ws.getD 0 0) 7 0

/-- A ring's next command can be taken now: it can be read and its completion entries are free (R799). Commands complete
as they are taken, so FENCE never waits (R798). -/
def State.ringReady (s : State) (r : Nat) : Bool :=
  s.ringWaits r && (match (s.ringPeek r).1 with
    | some (ws, _) => decide (cmdNeed (cmdOpc ws) ≤ (s.ringAt r).cplFree)
    | none => false)

/-- It is a ring's turn: no ring between the one served last and it can be served (R798). -/
def State.ringTurn (s : State) (r : Nat) : Bool :=
  let n := (r + 63 - s.host.lastRing) % 64
  (List.range n).all (fun i => !s.ringReady ((s.host.lastRing + 1 + i) % 64))

/-- SPDM session. -/
def State.sessAt (s : State) (k : Nat) : SessSt := smapGet (fun _ => SessSt.reset) s.sess k

/-- Set a session. -/
def State.putSess (s : State) (k : Nat) (v : SessSt) : State := s.setSess (smapSet (fun _ => SessSt.reset) s.sess k v)

/-- The management command of a session that waits on a fault (R180). -/
def State.holdCmd (s : State) (src : CmdSrc) (ws : List Word) : State :=
  match src with
  | .mgmt k _ => s.putSess k.val { s.sessAt k.val with held := ws }
  | .ring _ => s

/-- Digest bytes, most significant first (R789, R909). -/
def digestBytes (bs : List Byte) : List Byte := beBytes 48 (Config.sha384 bs)

/-- A session may carry a management command (R788, R790, R914). -/
def State.mgmtOk (s : State) (k opc : Nat) : Bool :=
  let v := s.sessAt k
  v.open_ && v.finished && v.auth && v.verified && (decide (opc = 0x30) || decide (digestBytes v.chain = s.host.owner))

/-- Take the command of a source when its opcode is one a row stands for: its words and whether they are poisoned. None is
taken while the ring waits for its turn or for a completion entry, which is counted (R799). A management command in a
session that may not carry it is answered with ERROR (R914, assumption 43). -/
def State.cmdTake (s : State) (src : CmdSrc) (p : Nat → Bool) : Option (List Word × Bool) × State :=
  match src with
  | .mgmt k ws =>
    if !p (cmdOpc ws) then (none, s)
    else if s.mgmtOk k.val (cmdOpc ws) && decide (ws.length = 8) then (some (ws, false), s)
    else (none, (s.count pgSec oSecSpdmErr 1).emit (.spdm (some k.val) 0x7F []))
  | .ring r =>
    let r := r.val
    if !s.ringWaits r || !s.ringTurn r then (none, s)
    else match s.ringPeek r with
      | (none, s) => (none, s)
      | (some (ws, bad), s1) =>
        if !p (cmdOpc ws) then (none, s)
        else
          let g := s1.ringAt r
          let n := cmdNeed (cmdOpc ws)
          if g.cplFree < n then (none, (s1.count pgHcmd oHcmdCplFullCyc 1).setEvt pgHcmd 1)
          else
            let s1 := s1.putRing r { g with taken := (g.taken + 1) % 2 ^ 32, reserved := g.reserved + n }
            (some (ws, bad), s1.setHost { s1.host with lastRing := r })

/-- Put a command that must wait back where it was. -/
def State.cmdUntake (s old : State) (src : CmdSrc) : State :=
  match src with
  | .mgmt _ _ => s
  | .ring r => (s.putRing r.val { s.ringAt r.val with taken := (old.ringAt r.val).taken, reserved := (old.ringAt r.val).reserved }).setHost
      { s.host with lastRing := old.host.lastRing }

/-- What a command answers (R802). -/
structure CmdRes where
  status : Nat
  result : Nat
  detail : Nat
  source : Nat
  obj    : Nat
  deriving DecidableEq, Repr

/-- Done, with a result, at an object's page. -/
def CmdRes.ok (source result : Nat) : CmdRes := ⟨stOk, result, 0, source, 0⟩
/-- Refused for the state of its object (R810). -/
def CmdRes.conflict (source obj : Nat) : CmdRes := ⟨stConflict, 0, 0, source, obj⟩
/-- Malformed. -/
def CmdRes.invalid (source : Nat) : CmdRes := ⟨stInvalidCmd, 0, 0, source, 0⟩
/-- A refused descriptor or payload. -/
def CmdRes.desc (source detail : Nat) : CmdRes := ⟨stInvalidDesc, 0, detail, source, 0⟩

/-- Write a completion towards a ring or a management session (R793, R802, R913), with its counts (R783, R818). -/
def State.cplOut (s : State) (ring kind cmdId : Nat) (r : CmdRes) : State :=
  let s := if r.status = stConflict then (s.count pgHcmd oHcmdCmdConflict 1).conflict r.source else s
  if ring < 64 then
    let g := s.ringAt ring
    (s.putRing ring { g with reserved := g.reserved - 1 }).writeCpl ring kind r.status cmdId r.result r.detail r.source r.obj
  else s.emit (.mgmtCpl (ring - 64) (cplWords 0xFF 1 kind r.status cmdId s.ns r.result r.detail r.source r.obj))

/-- Complete a command (R802): the second entry of a refused LAUNCH is free again, and a session holds it no longer. -/
def State.cmdDone (s : State) (src : CmdSrc) (ws : List Word) (r : CmdRes) : State :=
  let s := (s.holdCmd src []).count pgHcmd oHcmdCmds 1
  let n := cmdRing src
  let s := if cmdOpc ws = 1 ∧ r.status ≠ stOk ∧ n < 64 then
      s.putRing n { s.ringAt n with reserved := (s.ringAt n).reserved - 1 } else s
  s.cplOut n 0 (fld (ws.getD 0 0) 63 32) r

/-- Words 1 to 7 hold no bit outside the masks of an opcode, and word 0 no reserved bit (R800, R801). -/
def cmdBits (ws : List Word) (masks : List Nat) : Bool :=
  decide (fld (ws.getD 0 0) 31 25 = 0) && decide (fld (ws.getD 0 0) 23 8 = 0) &&
    (List.range 7).all (fun i => decide ((ws.getD (i + 1) 0).toNat &&& (masks.getD i 0 ^^^ (2 ^ 64 - 1)) = 0))

/-- A mask of every bit. -/
def allBits : Nat := 2 ^ 64 - 1

/-- A command that has no answer yet: on a ring it is not taken, in a session it is held while its access is parked (R180). -/
def State.cmdWait (s old : State) (src : CmdSrc) (ws : List Word) : State :=
  (s.holdCmd src (if s.parkedAt 12 (cmdWho src) then ws else [])).cmdUntake old src

/-- Take and run a command (R798 to R802). The body answers, or waits; a waiting command is not taken. -/
def State.runCmd (s : State) (src : CmdSrc) (p : Nat → Bool) (masks : List Nat)
    (body : List Word → Who → State → Option CmdRes × State) : State :=
  match s.cmdTake src p with
  | (none, s) => s
  | (some (ws, bad), s1) =>
    if bad || !cmdBits ws masks then s1.cmdDone src ws (.invalid pgHcmd)
    else match body ws (cmdWho src) s1 with
      | (some r, s2) => s2.cmdDone src ws r
      | (none, s2) => s2.cmdWait s src ws

/-- An opcode the table of R801 or R915 defines. -/
def opcDefined (o : Nat) : Bool :=
  [0, 1, 2, 3, 4, 8, 9, 0x10, 0x11, 0x12, 0x13, 0x18, 0x20, 0x21, 0x30, 0x31, 0x38, 0x39, 0x3A, 0x3B].contains o

/-- A source that is a management session; the others complete management commands with INVALID_CMD (R801, R915). -/
def srcMgmt : CmdSrc → Bool
  | .mgmt _ _ => true
  | .ring _ => false

/-- A management-only command (R801, R915). -/
def State.runMgmt (s : State) (src : CmdSrc) (opc : Nat) (masks : List Nat)
    (body : List Word → Who → State → Option CmdRes × State) : State :=
  s.runCmd src (· = opc) masks (fun ws w t => if srcMgmt src then body ws w t else (some (.invalid pgHcmd), t))

/-- Read an object of a command from memory (R800): its bytes, and whether any access is poisoned. -/
def State.cmdRead (s : State) (w : Who) (va n : Nat) : Option (List Byte × Bool) × State :=
  match s.readVa 12 w false va n with
  | (none, s) => (none, s)
  | (some (bs, ps), s) => (some (bs, ps.any id), s)

/-- NOP_COMMAND (R801): a NOP does nothing; an undefined opcode completes with INVALID_CMD. -/
def execNopCommand (src : CmdSrc) (s : State) : Out State := s.live <|
  .next (s.runCmd src (fun o => decide (o = 0) || !opcDefined o) []
    (fun ws _ t => (some (if cmdOpc ws = 0 then .ok pgHcmd 0 else .invalid pgHcmd), t)))

/-! ## Scheduled entries (R81, R86 to R92) -/

/-- The TARGET a KIND accepts (R81). -/
def schedTarget (kind target : Nat) : Bool :=
  let inst (ty n : Nat) : Bool := decide (target / 1024 = ty) && decide (target % 1024 < n)
  match kind with
  | 1 => inst 0x22 1
  | 2 => inst 0x11 12 || inst 0x01 1
  | 3 => inst 0x1A 12 || inst 0x01 1
  | 4 => inst 0x04 199
  | 5 => inst 0x18 12 || inst 0x01 1
  | 6 => inst 0x18 12 || inst 0x01 1
  | _ => false

/-- The time unit accepts an entry (R86 to R88): RESULT, or the refusal of a full queue. -/
def State.schedAccept (s : State) (e : SchedEnt) : Option Nat × State :=
  let e := { e with seq := s.time.seq }
  if e.due < s.st16 then
    let s := (s.count pgTime oTimeLateEvt 1).setRg pgTime oTimeLateDue (word (e.due / 2 ^ 16))
    let s := s.setRg pgTime oTimeLateInfo (word (b2n e.late * 2 ^ 20 + e.kind * 2 ^ 16 + e.tag))
    let s := s.setEvt pgTime 5
    if e.late then (some 3, s)
    else (some 1, s.setTime { s.time with seq := s.time.seq + 1, delivered := s.time.delivered ++ [e] })
  else if schedCap ≤ s.time.queue.length then (none, s.setEvt pgTime 7)
  else (some 0, s.setTime { s.time with seq := s.time.seq + 1, queue := s.time.queue ++ [e] })

/-- SCHED (R81, R86, R88). -/
def execSched (src : CmdSrc) (s : State) : Out State := s.live <|
  .next (s.runCmd src (· = 3) [allBits, 0xFFFF, 0xFFFF001F, 0xFFFFFFFF, 0xFFFF] (fun ws _ t =>
    let w3 := ws.getD 3 0
    let kind := fld w3 3 0
    let target := fld w3 31 16
    if schedTarget kind target then
      let e : SchedEnt := ⟨(ws.getD 1 0).toNat * 2 ^ 16 + fld (ws.getD 2 0) 15 0, kind, target, fld (ws.getD 4 0) 31 0, bit w3 4,
        fld (ws.getD 5 0) 15 0, 0⟩
      match t.schedAccept e with
      | (some r, t) => (some (.ok pgTime r), t)
      | (none, t) => (some (.conflict pgTime 2), t)
    else (some (.invalid pgTime), t)))

/-- The instant of an entry's delivery has come (R82). -/
def State.deliverNow (s : State) (e : SchedEnt) : Bool := decide (e.due ≤ s.st16 + 256 * 2 ^ 16)

/-- SCHED_CANCEL (R91, R92): an entry whose instant of delivery has come acts. -/
def execSchedCancel (src : CmdSrc) (s : State) : Out State := s.live <|
  .next (s.runCmd src (· = 4) [0xFFFF] (fun ws _ t =>
    let tag := fld (ws.getD 1 0) 15 0
    let (gone, kept) := t.time.queue.partition (fun e => decide (e.tag = tag) && !t.deliverNow e)
    if gone.isEmpty then (some (.conflict pgTime 0), t)
    else (some (.ok pgTime gone.length), t.setTime { t.time with queue := kept })))

/-! ## Graph handles (R806, R807) -/

/-- A graph image header (R806): the tables it lists, if it is valid. -/
def graphTables (h : List Byte) (tblCount : Nat) : Option (List Nat) :=
  let n := leAt h 8 1
  let ids := (List.range n).map (fun i => leAt h (0x40 + 2 * i) 2)
  if leAt h 0 4 = 0x4F544731 ∧ leAt h 4 1 = 1 ∧ leAt h 5 3 = 0 ∧ leAt h 9 7 = 0 ∧ n ≤ 64 ∧ allZero (sliceB h 0x10 0x30) = true ∧
      allZero (sliceB h 0xC0 0x40) = true ∧ ids.all (fun i => decide (i < tblCount) && decide (i < 1024)) = true ∧
      (List.range 64).all (fun i => decide (leAt h (0x40 + 2 * i) 2 < 1024)) = true then some ids
  else none

/-- A stream that is not CLOSED names a graph. -/
def State.graphStreams (s : State) (g : Nat) : Bool :=
  s.streams.any (fun e => decide (e.2.st ≠ .closed) && decide (fld (wordAt e.2.block 0) 7 0 = g))

/-- GRAPH_LOAD (R806, R807). -/
def execGraphLoad (src : CmdSrc) (s : State) : Out State := s.live <|
  .next (s.runCmd src (· = 8) [0xFF, allBits] (fun ws w t =>
    let g := fld (ws.getD 1 0) 7 0
    let va := (ws.getD 2 0).toNat
    if (t.graphAt g).st ≠ .empty then (some (.conflict pgHcmd (t.graphAt g).st.code), t)
    else if va % 256 ≠ 0 then (some (.invalid pgHcmd), t)
    else match t.cmdRead w va 256 with
      | (none, t) => (none, t)
      | (some (h, bad), t) =>
        match graphTables h (t.rf (pgEmb 0) oEmbTblCount 10 0) with
        | some ids => if bad then (some (.desc pgHcmd 0), t) else (some (.ok pgHcmd 0), t.putGraph g ⟨.ready, ids⟩)
        | none => (some (.desc pgHcmd 0), t)))

/-- GRAPH_UNLOAD (R807). -/
def execGraphUnload (src : CmdSrc) (s : State) : Out State := s.live <|
  .next (s.runCmd src (· = 9) [0xFF] (fun ws _ t =>
    let g := fld (ws.getD 1 0) 7 0
    let v := t.graphAt g
    if v.st ≠ .ready ∨ t.graphStreams g = true then (some (.conflict pgHcmd v.st.code), t)
    else if t.slotsBusy.any (fun a => a.graph = g) then (some (.ok pgHcmd 0), t.putGraph g { v with st := .retiring })
    else (some (.ok pgHcmd 0), t.putGraph g GraphSt.reset)))

/-! ## Table slots (R246, R801, R995) -/

/-- The descriptor a slot command or an admission is about, through the cache of the table's HOME, for HOME 15 through
that of region r (R247). -/
def State.tdFind (s : State) (r : Nat) (w : Who) (id : Nat) : TdRes × State :=
  match s.tdRead r w id with
  | (.ok d, s) => if tdHome d ≤ 11 ∧ tdHome d ≠ r then s.tdRead (tdHome d) w id else (.ok d, s)
  | x => x

/-- A slot command (R246): its checks before the state machine, the state it needs, and the words it writes. -/
def State.slotCmd (s : State) (src : CmdSrc) (opc : Nat) (masks : List Nat) (need : Nat)
    (early late : List Word → List Byte → Bool) (act : List Word → Nat → Nat → List Byte → Who → State → Bool × State) : State :=
  s.runCmd src (· = opc) masks (fun ws w t =>
    let id := fld (ws.getD 1 0) 9 0
    let k := fld (ws.getD 1 0) 12 10
    if !early ws [] then (some (.invalid (pgEmb 0)), t)
    else match t.tdFind 0 w id with
      | (.wait, t) => (none, t)
      | (.bad, t) => (some (.desc (pgEmb 0) 0), t.tblBad 0)
      | (.ok d, t) =>
        let pg := tdPage d
        if !late ws d then (some (.invalid pg), t)
        else if tdState d k ≠ need then
          (some (.conflict pg (tdState d k)), (t.count pg oEmbSlotConflict 1).setEvt pg 5)
        else match act ws id k d w t with
          | (true, t) => (some (.ok pg 0), t)
          | (false, t) => (none, t))

/-- Region a descriptor is written through. -/
def tdRegion (d : List Byte) : Nat := if tdHome d ≤ 11 then tdHome d else 0

/-- SLOT_LOAD_BEGIN (R246): FREE to LOADING with its base, no row live. -/
def execSlotLoadBegin (src : CmdSrc) (s : State) : Out State := s.live <|
  .next (s.slotCmd src 0x10 [0x1FFF, allBits] svFree
    (fun ws _ => decide ((ws.getD 2 0).toNat % 256 = 0) && decide ((ws.getD 2 0).toNat < 2 ^ 52)) (fun _ _ => true)
    (fun ws id k d w t =>
      let a := setFld (setFld (wordAt d (0x40 + 16 * k)) 51 0 (ws.getD 2 0).toNat) 58 56 svLoading
      match t.tdPut (tdRegion d) w id (0x40 + 16 * k) a with
      | (false, t) => (false, t)
      | (true, t) => t.tdPut (tdRegion d) w id (0x48 + 16 * k) (setFld (wordAt d (0x48 + 16 * k)) 39 0 0)))

/-- SLOT_LOAD_END (R246): LOADING to READY with its live rows. -/
def execSlotLoadEnd (src : CmdSrc) (s : State) : Out State := s.live <|
  .next (s.slotCmd src 0x11 [0x1FFF, 2 ^ 40 - 1] svLoading (fun _ _ => true)
    (fun ws d => decide (fld (ws.getD 2 0) 39 0 ≤ tdRows d))
    (fun ws id k d w t =>
      match t.tdPut (tdRegion d) w id (0x48 + 16 * k) (setFld (wordAt d (0x48 + 16 * k)) 39 0 (fld (ws.getD 2 0) 39 0)) with
      | (false, t) => (false, t)
      | (true, t) => t.tdSetState (tdRegion d) w id d k svReady))

/-- SLOT_LOAD_ABORT (R246): LOADING to FREE. -/
def execSlotLoadAbort (src : CmdSrc) (s : State) : Out State := s.live <|
  .next (s.slotCmd src 0x12 [0x1FFF] svLoading (fun _ _ => true) (fun _ _ => true) (fun _ id k d w t =>
    match t.tdSetState (tdRegion d) w id d k svFree with
    | (true, t) => (true, t.slotGone id k)
    | x => x))

/-- SLOT_FREE (R246): READY to FREE. -/
def execSlotFree (src : CmdSrc) (s : State) : Out State := s.live <|
  .next (s.slotCmd src 0x13 [0x1FFF] svReady (fun _ _ => true) (fun _ _ => true) (fun _ id k d w t =>
    match t.tdSetState (tdRegion d) w id d k svFree with
    | (true, t) => (true, t.slotGone id k)
    | x => x))

/-! ## Queue pairs (R738, R739, R811) -/

/-- A queue pair context without a reserved bit or code (R738, R811). -/
def qpCtxOk (c : List Byte) : Bool :=
  decide (fld (wordAt c 0) 63 44 = 0) && decide (fld (wordAt c 0) 31 30 = 0) && decide (fld (wordAt c 0) 23 20 = 0) &&
    decide (fld (wordAt c 0) 5 4 ≠ 3) && decide (fld (wordAt c 8) 63 56 = 0) && decide (fld (wordAt c 8) 31 24 = 0) &&
    decide (fld (wordAt c 0x10) 63 42 = 0) && decide (fld (wordAt c 0x28) 63 56 = 0) && decide (fld (wordAt c 0x30) 63 16 = 0) &&
    decide (fld (wordAt c 0x38) 63 56 = 0) && decide (fld (wordAt c 0x40) 63 37 = 0) && allZero (c.drop 0x48)

/-- QP_MODIFY (R739, R801, R827). -/
def execQpModify (src : CmdSrc) (s : State) : Out State := s.live <|
  .next (s.runCmd src (· = 0x18) [0x73FFF] (fun ws w t =>
    let q := fld (ws.getD 1 0) 13 0
    let target := fld (ws.getD 1 0) 18 16
    let pg := pgRdma (q / 4096)
    let v := t.qpAt q
    if q % 4096 < 3 ∨ 4 < target then (some (.invalid pg), t)
    else
      let ok := (some (CmdRes.ok pg 0) : Option CmdRes)
      match target, v.st with
      | 0, _ => (ok, (if v.up then t.qpLeave q .reset else t).putQp q QpSt.reset)
      | 1, .reset =>
        (match t.cmdRead w (t.rf (pgRdma 0) oRdmaQpcBase 51 12 * 4096 + 128 * q) 128 with
        | (none, t) => (none, t)
        | (some (c, bad), t) =>
          if bad || !qpCtxOk c then (some (.desc pg q), t)
          else (ok, ((t.demandNow (184 + q / 4096) pgHcmd).demandBridge pgHcmd).qpInit q c))
      | 2, .init => (ok, t.qpRtr q)
      | 3, .rtr => (ok, t.qpRts q)
      | 4, .rtr => (ok, t.qpErr q)
      | 4, .rts => (ok, t.qpErr q)
      | _, st => (some (.conflict pg st.code), t)))

/-! ## Binding (R788 to R792) -/

/-- The device record in force (R900): the copy with the higher sequence number whose HMAC verifies. -/
def FlashSt.inForce (f : FlashSt) : Option (Nat × RecSt) :=
  let a := f.recs.getD 0 RecSt.reset
  let b := f.recs.getD 1 RecSt.reset
  if a.ok && (!b.ok || decide (b.seq ≤ a.seq)) then some (0, a) else if b.ok then some (1, b) else none

/-- Commit a change of the device record: it goes to the other copy, with the sequence number plus 1 (R900). -/
def State.recCommit (s : State) (f : RecSt → RecSt) : State :=
  let (i, r) := (s.flash.inForce).getD (1, RecSt.reset)
  s.setFlash { s.flash with recs := s.flash.recs.set (1 - i) { f r with seq := r.seq + 1, ok := true } }

/-- BIND (R788, R789): the digest of the requester's chain becomes the owner identity, kept in the device record. -/
def execBind (src : CmdSrc) (s : State) : Out State := s.live <|
  .next (s.runMgmt src 0x30 [] (fun _ _ t =>
    if t.host.bound then (some (.conflict pgHcmd 1), t)
    else
      let id := digestBytes (t.sessAt (cmdRing src - 64)).chain
      let t := (t.setHost { t.host with bound := true, owner := id }).setRg pgHcmd oHcmdOwnerId (wordAt id 0)
      (some (.ok pgHcmd 0), (t.recCommit (fun r => { r with owner := id })).setEvt pgHcmd 3)))

/-- UNBIND (R792): queue pairs in use other than the management ones to ERROR, requests cancelled, streams closed, rings
disabled. -/
def execUnbind (src : CmdSrc) (s : State) : Out State := s.live <|
  .next (s.runMgmt src 0x31 [] (fun _ _ t =>
    if !t.host.bound then (some (.conflict pgHcmd 0), t)
    else
      let t := t.slotsEnd (fun _ => true) stCancelled pgHcmd
      let t := (t.qps.filter (fun e => !mgmtQp e.1 && decide (e.2.st ≠ .reset))).foldl (fun u e =>
        if e.2.up then u.qpErr e.1 else u.putQp e.1 { u.qpAt e.1 with st := .error }) t
      let t := t.rings.foldl (fun u e => u.putRing e.1 { u.ringAt e.1 with ctl := setFld (u.ringAt e.1).ctl 0 0 0 }) t
      let t := ((t.setStreams []).setHost { t.host with bound := false, owner := [] }).setRg pgHcmd oHcmdOwnerId 0
      (some (.ok pgHcmd 0), (t.recCommit (fun r => { r with owner := [] })).setEvt pgHcmd 3)))

/-- DOORBELL (R795): more commands than the ring holds disable it. -/
def State.doorbell (s : State) (r : Nat) (v : Word) : State :=
  let g := { s.ringAt r with prod := fld v 31 0 }
  if 2 ^ fld g.ctl 7 4 < g.avail then (s.putRing r { g with ctl := setFld g.ctl 0 0 0 }).setEvt pgHcmd 2 else s.putRing r g

/-- DOORBELL (R795, R796): the WRITEs that arrived before it have landed when the command takes effect. -/
def execDoorbell (r : Fin 63) (v : Word) (s : State) : Out State := s.live <| .next (s.doorbell r.val v)

/-- CPL_HEAD_WRITE (R799): entries of the selected ring are consumed; waiting notifications may go. -/
def execCplHeadWrite (v : Word) (s : State) : Out State := s.live <|
  let r := s.rf pgHcmd oHcmdRingSel 5 0
  .next (s.putRing r { s.ringAt r with head := fld v 31 0 }).flushNotes

end Sys2Proof.Machine
end

