-- ==== Sys2Proof/Machine/Admit.lean ====
section
/-! DEFINITION. Admission (R685, R808, R809): LAUNCH, admission with its pins and bases (R247, R249, R625), the end of a
request, CANCEL; deadline misses (R96 to R105); the standing service (R811 to R816). -/

namespace Sys2Proof.Machine

/-! ## Launch blocks (R808) -/

/-- Bytes of a launch block (R808). -/
def launchBytes : Nat := 6208

/-- The entry of a region in a launch block. -/
def launchEnt (b : List Byte) (r : Nat) : LaunchEnt :=
  let o := 0x40 + 512 * r
  { region := r, listVa := leAt b o 8, listLen := leAt b (o + 8) 4, ctrFirst := fld (wordAt b (o + 0x10)) 11 0,
    ctrCount := fld (wordAt b (o + 0x10)) 28 16, bufs := (List.range 12).map (fun c => leAt b (o + 0x80 + 32 * c) 32) }

/-- No reserved bit of an entry is set, its counters exist, its list is aligned (R638, R808). -/
def launchEntOk (b : List Byte) (r : Nat) : Bool :=
  let o := 0x40 + 512 * r
  let w := wordAt b (o + 0x10)
  decide (leAt b (o + 12) 4 = 0) && decide (fld w 63 29 = 0) && decide (fld w 15 12 = 0) && decide (fld w 28 16 + fld w 11 0 ≤ 4096) &&
    allZero (sliceB b (o + 0x18) 0x68) && decide (leAt b o 8 % 256 = 0)

/-- The entries of a launch block that breaks nothing. -/
def launchEnts (b : List Byte) : Option (List LaunchEnt) :=
  let rs := onesBelow 12 (fld (wordAt b 0) 11 0)
  if fld (wordAt b 0) 63 12 = 0 ∧ allZero (sliceB b 8 0x38) = true ∧ rs.all (launchEntOk b) = true then some (rs.map (launchEnt b))
  else none

/-- A cluster runs walk tasks (R685): one of its Weevils holds one. -/
def State.walksOn (s : State) (r c : Nat) : Bool :=
  match s.physClu r c with
  | none => false
  | some k => (List.range 4).any (fun w => (s.wvAt (k * 4 + w)).cur.isSome || (s.wvAt (k * 4 + w)).nxt.isSome)

/-- Window buffers 192 to 255 of a cluster that runs walk tasks are not assigned (R685). -/
def State.windowsFree (s : State) (n : LaunchEnt) : Bool :=
  (List.range 12).all (fun c => decide (n.bufs.getD c 0 < 2 ^ 192) || !s.walksOn n.region c)

/-- Two launch entries share a counter or a buffer (R809). -/
def LaunchEnt.meets (a b : LaunchEnt) : Bool :=
  decide (a.region = b.region) &&
    ((decide (0 < a.ctrCount) && decide (0 < b.ctrCount) && decide (a.ctrFirst < b.ctrFirst + b.ctrCount) &&
        decide (b.ctrFirst < a.ctrFirst + a.ctrCount)) ||
      (List.range 12).any (fun c => decide (a.bufs.getD c 0 &&& b.bufs.getD c 0 ≠ 0)))

/-- Admission slots (R809). -/
def admCap : Nat := 4096

/-- Admission is CLOSED (R809, R889). -/
def State.admClosed (s : State) : Bool :=
  !s.host.bound || !(decide (s.dev.st = .early) || decide (s.dev.st = .full) || decide (s.dev.st = .degraded))

/-- Admission state, codes 0 to 3 (R809). -/
def State.admState (s : State) : Nat :=
  if s.admClosed then 3 else if s.host.inPause then 1 else if admCap ≤ s.slotsBusy.length then 2 else 0

/-- What a LAUNCH asks for (R801). -/
structure LaunchReq where
  graph    : Nat
  rt       : Bool
  abort    : Bool
  seed     : Word
  admitSt  : Word
  deadline : Word
  va       : Nat
  ring     : Nat
  cmdId    : Nat
  stream   : Option (Nat × Nat)
  deriving DecidableEq, Repr

/-- Launch a request (R809): its answer, or nothing while it waits for a paused region, a pause, or a fault. The graph and
the closed state are looked at before the block is read, the overlap after it. -/
def State.launch (s : State) (w : Who) (q : LaunchReq) : Option CmdRes × State :=
  let g := s.graphAt q.graph
  if g.st ≠ .ready then (some (.conflict pgHcmd g.st.code), s)
  else if s.admClosed then (some (.conflict pgHcmd 3), s)
  else if s.host.inPause then (none, s)
  else if admCap ≤ s.slotsBusy.length then (some (.conflict pgHcmd 2), s)
  else match s.cmdRead w q.va launchBytes with
    | (none, s) => (none, s)
    | (some (b, bad), s) =>
      match launchEnts b with
      | none => (some (.desc pgHcmd 0), s)
      | some es =>
        if bad || decide (q.va % 64 ≠ 0) || !es.all s.windowsFree then (some (.desc pgHcmd 0), s)
        else if es.any (fun e => decide ((s.regionAt e.region).st = .lost)) then (some (.conflict pgHcmd 3), s)
        else if es.any (fun e => decide ((s.regionAt e.region).st = .paused)) then (none, s)
        else if s.slotsBusy.any (fun a => a.ents.any (fun x => es.any (fun e => e.meets x))) then
          (some (.conflict pgHcmd s.admState), s)
        else match (List.range admCap).find? (fun i => (s.slotAt i).st = .free) with
          | none => (some (.conflict pgHcmd 2), s)
          | some i =>
            let s := (s.demandBridge pgHcmd).count pgHcmd oHcmdLaunches 1
            let seq := (s.rg pgHcmd oHcmdLaunches).toNat % 2 ^ 48
            let s := s.putSlot i { AdmSt.reset with
              st := .held, graph := q.graph, rt := q.rt, abort := q.abort, seed := q.seed, admitSt := q.admitSt,
              deadline := q.deadline, ents := es, reqSeq := seq, cplRing := q.ring, cmdId := q.cmdId, stream := q.stream }
            let s := s.setHost { s.host with hwm := max s.host.hwm s.slotsBusy.length }
            (some (.ok pgHcmd (seq * 2 ^ 16 + i)), s)

/-- LAUNCH (R801, R804, R809). -/
def execLaunch (src : CmdSrc) (s : State) : Out State := s.live <|
  .next (s.runCmd src (· = 1) [0x3FF, allBits, allBits, allBits, allBits] (fun ws w t =>
    let w1 := ws.getD 1 0
    t.launch w { graph := fld w1 7 0, rt := bit w1 8, abort := bit w1 9, seed := ws.getD 2 0, admitSt := ws.getD 3 0,
                 deadline := ws.getD 4 0, va := (ws.getD 5 0).toNat, ring := cmdRing src, cmdId := fld (ws.getD 0 0) 63 32,
                 stream := none }))

/-! ## The standing service (R812 to R816) -/

/-- SLOTS of a stream block (R812). -/
def stSlots (b : List Byte) : Nat := fld (wordAt b 0) 27 16
/-- VA of request slot k. -/
def stSlotVa (b : List Byte) (k : Nat) : Nat := (leAt b 0x10 8 + k * leAt b 0x18 4) % 2 ^ 64
/-- SLOT_BYTES. -/
def stSlotBytes (b : List Byte) : Nat := leAt b 0x18 4
/-- OUT_OFF. -/
def stOutOff (b : List Byte) : Nat := leAt b 0x1C 4
/-- OUT_MAX. -/
def stOutMax (b : List Byte) : Nat := leAt b 0x20 4

/-- A stream block without a broken field (R812). -/
def streamOk (b : List Byte) : Bool :=
  let w0 := wordAt b 0
  let w1 := wordAt b 8
  decide (fld w0 63 28 = 0) && decide (fld w0 15 11 = 0) && decide (1 ≤ stSlots b) && decide (fld w1 63 30 = 0) &&
    decide (fld w1 15 14 = 0) && decide (1 ≤ fld w1 29 16) && decide (fld w1 29 16 ≤ 64) && decide (stSlotBytes b % 256 = 0) &&
    decide (leAt b 0x24 4 = 0) && decide (leAt b 0x30 4 % 64 = 0) && decide (leAt b 0x34 4 = 0) &&
    (!bit w0 8 || decide (leAt b 0x40 8 ≠ 0)) && allZero (b.drop 0x48)

/-- STREAM_OPEN (R812, R816): every request slot is posted as a receive entry. -/
def execStreamOpen (src : CmdSrc) (s : State) : Out State := s.live <|
  .next (s.runCmd src (· = 0x20) [0xF, allBits] (fun ws w t =>
    let i := fld (ws.getD 1 0) 3 0
    if (t.streamAt i).st ≠ .closed then (some (.conflict pgHcmd (t.streamAt i).st.code), t)
    else match t.cmdRead w (ws.getD 2 0).toNat 128 with
      | (none, t) => (none, t)
      | (some (b, bad), t) =>
        if bad || !streamOk b then (some (.desc pgHcmd 0), t)
        else
          let g := t.graphAt (fld (wordAt b 0) 7 0)
          if g.st ≠ .ready then (some (.conflict pgHcmd g.st.code), t)
          else (some (.ok pgHcmd 0), t.putStream i ⟨.open_, b, List.replicate (stSlots b) .posted⟩)))

/-- A request slot of a stream is free of work. -/
def SvcSlot.calm : SvcSlot → Bool
  | .idle => true
  | .posted => true
  | _ => false

/-- A DRAINING stream without work is CLOSED (R816). -/
def State.streamRest (s : State) (i : Nat) : State :=
  let v := s.streamAt i
  if v.st = .draining ∧ v.slots.all SvcSlot.calm = true then s.putStream i StreamSt.reset else s

/-- STREAM_CLOSE (R816). -/
def execStreamClose (src : CmdSrc) (s : State) : Out State := s.live <|
  .next (s.runCmd src (· = 0x21) [0xF] (fun ws _ t =>
    let i := fld (ws.getD 1 0) 3 0
    let v := t.streamAt i
    if v.st ≠ .open_ then (some (.conflict pgHcmd v.st.code), t)
    else
      let slots := v.slots.map (fun x => if x = .posted then .idle else x)
      (some (.ok pgHcmd 0), (t.putStream i { v with st := .draining, slots := slots }).streamRest i)))

/-- The running core that hosts the standing loop (R926). -/
def State.svcCore (s : State) : Option (Fin 8) :=
  (List.finRange 8).find? (fun c => decide ((s.coreAt c.val).st = .running) && (s.coreAt c.val).services.testBit 0)

/-- A response message (R814). -/
def svcReply (reqId : Word) (status : Nat) (out : List Byte) : List Byte :=
  leBytes 4 0x5A475253 ++ List.replicate 4 0 ++ leBytes 8 reqId.toNat ++ leBytes 8 (status % 256) ++ leBytes 8 out.length ++ out

/-- Answer the client of a request slot and post the slot again (R814, R816). Outputs follow a status that has them; one read poisoned
is answered as poisoned, a poisoned length without bytes (DESIGN CHOICE, log entry 62). -/
def State.svcAnswerTo (s : State) (i k qp status : Nat) (outs : Bool) : State :=
  let v := s.streamAt i
  let va := stSlotVa v.block k
  let w : Who := .svc (s.svcCore.getD 4)
  let (reqId, s) := match s.cmdRead w (va + 8) 8 with
    | (some (b, _), s) => (wordAt b 0, s)
    | (none, s) => (0, s)
  let (status, out, s) :=
    if outs then
      match s.cmdRead w (va + stOutOff v.block) 8 with
      | (none, s) => (stXlatFault, [], s)
      | (some (b, bad), s) =>
        let n := (wordAt b 0).toNat
        if bad then (stPoisoned, [], s)
        else if stOutMax v.block < n then (stInvalidDesc, [], s)
        else match s.cmdRead w (va + stOutOff v.block + 8) n with
          | (none, s) => (stXlatFault, [], s)
          | (some (d, p), s) => (if p ∧ status = stOk then stPoisoned else status, d, s)
    else (status, [], s)
  let s := s.txPost qp (plainTx (.send (svcReply reqId status out) none))
  let v := s.streamAt i
  (s.putStream i { v with slots := v.slots.set k (if v.st = .open_ then .posted else .idle) }).streamRest i

/-- The first request of a stream that has landed and waits for its LAUNCH, by arrival. -/
def StreamSt.firstLanded (v : StreamSt) : Option (Nat × Nat × Nat) :=
  firstBy (fun x => [x.2.2, x.1]) ((List.range v.slots.length).filterMap (fun k =>
    match v.slots.getD k .idle with
    | .landed qp _ at_ => some (k, qp, at_)
    | _ => none))

/-- SERVICE_REQUEST (R813, R815): the standing loop launches the first landed request of a stream on ring 63, or rejects
it. One refused for want of an admission slot stays landed and is offered again. -/
def execServiceRequest (stream : Fin 16) (s : State) : Out State := s.live <|
  let i := stream.val
  let v := s.streamAt i
  match s.svcCore, v.firstLanded with
  | some c, some (k, qp, at_) =>
    let w : Who := .svc c
    let b := v.block
    let va := stSlotVa b k
    let reject (s : State) (st : Nat) : State :=
      ((s.count pgHcmd oHcmdSvcReject 1).setEvt pgHcmd 4).svcAnswerTo i k qp st false
    match s.cmdRead w va 32 with
    | (none, s) => .next (s.svcAnswerTo i k qp stXlatFault false)
    | (some (h, bad), s) =>
      if bad || decide (leAt h 0 8 ≠ 0x5A475251) || decide (stOutOff b < 32 + leAt h 0x18 4) then .next (reject s stInvalidCmd)
      else
        let w0 := wordAt b 0
        let n := s.ringAt 63
        let q : LaunchReq :=
          { graph := fld w0 7 0, rt := bit w0 8, abort := bit w0 9, seed := if bit w0 10 then wordAt h 0x10 else wordAt b 0x38,
            admitSt := 0, deadline := if bit w0 8 then word (at_ + leAt b 0x40 8) else 0,
            va := (leAt b 0x28 8 + k * leAt b 0x30 4) % 2 ^ 64, ring := 63, cmdId := k, stream := some (i, k) }
        match s.launch w q with
        | (none, s) => .next s
        | (some r, s) =>
          if r.status = stOk then
            let s := s.putRing 63 { n with reserved := n.reserved + 2 }
            let s := ((s.count pgHcmd oHcmdCmds 1).count pgHcmd oHcmdSvcReqs 1).cplOut 63 0 k r
            let v := s.streamAt i
            .next (s.putStream i { v with slots := v.slots.set k (.busy qp) })
          else
            let s := (s.putRing 63 { n with reserved := n.reserved + 1 }).count pgHcmd oHcmdCmds 1
            let s := s.cplOut 63 0 k r
            .next (if r.status = stConflict ∧ r.obj = 2 then s else s.svcAnswerTo i k qp r.status false)
  | _, _ => .next s

/-! ## The end of a request (R686, R804, R809) -/

/-- Drop the pins of a slot, one table after the other (R247, R686). false while one waits on a fault. -/
def State.dropPins (s : State) (i : Nat) (w : Who) : List (Nat × Nat) → Bool × State
  | [] => (true, s)
  | (id, k) :: ps =>
    match s.tdFind ((s.slotAt i).regions.headD 0) w id with
    | (.wait, s) => (false, s)
    | (.bad, s) => (s.putSlot i { s.slotAt i with pins := ps }).dropPins i w ps
    | (.ok d, s) =>
      match s.unpin (tdRegion d) w id k with
      | (false, s) => (false, s)
      | (true, s) => (s.putSlot i { s.slotAt i with pins := ps }).dropPins i w ps

/-- Who reads table descriptors for admission slot i: beyond the rings and sessions. -/
def admWho (i : Nat) : Who := .ring (128 + i)

/-- A deadline miss is counted once for a request (R104). -/
def State.missCount (s : State) : State := (s.count pgTime oTimeDlMiss 1).setEvt pgTime 6

/-- The request completion of a slot, and the slot FREE (R804, R807, R809, R814). A real-time request whose record is late, whatever
ended it, is missed and counted if it was not before (R99, R104, R105). -/
def State.slotFree (s : State) (i : Nat) (r : CmdRes) : State :=
  let a := s.slotAt i
  let s := s.putSlot i AdmSt.reset
  let s := (List.range 12).foldl (fun t n =>
    let d := t.dispAt n
    t.putDisp n { d with next := smapDel d.next i }) s
  let g := s.graphAt a.graph
  let s := if g.st = .retiring ∧ s.slotsBusy.all (fun b => decide (b.graph ≠ a.graph)) = true then s.putGraph a.graph GraphSt.reset
    else s
  let s := if a.rt ∧ a.missed = false ∧ a.deadline.toNat < s.ns then s.missCount else s
  let good := decide (r.status = stOk) || decide (r.status = stPoisoned)
  let s := if good then s.count pgHcmd oHcmdReqDone 1 else (s.count pgHcmd oHcmdReqFail 1).setEvt pgHcmd 0
  let s := s.cplOut a.cplRing 1 a.cmdId r
  match a.stream with
  | none => s
  | some (st, k) =>
    match (s.streamAt st).slots.getD k .idle with
    | .busy qp => s.svcAnswerTo st k qp r.status (good || (decide (r.status = stMissed) && decide (r.result % 2 = 0)))
    | _ => s

/-- A request is missed (R102 to R104, R809): under ABORT a held or running one is cancelled, under CONTINUE its transfers are served as
others' (R611); one that is ending already is counted. SOURCE names the TIME page under ABORT and the HCMD page otherwise (DESIGN CHOICE,
log entry 62). -/
def State.missReq (s : State) (i : Nat) : State :=
  let a := s.slotAt i
  let go := decide (a.st = .held) || decide (a.st = .running)
  if a.st = .free ∨ a.missed = true then s
  else
    let s := (s.putSlot i { a with missed := true, aborted := a.abort && go }).missCount
    if !a.abort then s.xferDemote i else if go then s.slotEnd i stMissed pgTime else s

/-- DEADLINE_MISS (R100): ST has passed the DEADLINE of a real-time request. -/
def execDeadlineMiss (slot : Fin 4096) (s : State) : Out State := s.live <|
  let a := s.slotAt slot.val
  .next (if a.rt = true ∧ a.deadline.toNat < s.ns then s.missReq slot.val else s)

/-- Every task of every region of a request is done (R809). -/
def State.reqDone (s : State) (i : Nat) : Bool :=
  let a := s.slotAt i
  decide (a.st = .running) && a.ents.all (fun e =>
    decide (e.listLen ≤ smapGet (fun _ => 0) (s.dispAt e.region).next i) && (s.tasksOf e.region i).isEmpty)

/-- REQUEST_COMPLETE (R105, R686, R805, R809). -/
def execRequestComplete (slot : Fin 4096) (s : State) : Out State := s.live <|
  let i := slot.val
  if s.reqDone i then
    match s.dropPins i (admWho i) (s.slotAt i).pins with
    | (false, s) => .next s
    | (true, s) =>
      let a := s.slotAt i
      let late := a.rt && decide (a.deadline.toNat < s.ns)
      if a.missed || late then .next (s.slotFree i ⟨stMissed, 2 * b2n a.poisoned, 0, pgHcmd, 0⟩)
      else .next (s.slotFree i ⟨if a.poisoned then stPoisoned else stOk, 0, 0, pgHcmd, 0⟩)
  else .next s

/-- Nothing of a request is left in any region (R600, R647, R809). -/
def State.reqDrained (s : State) (i : Nat) : Bool :=
  decide ((s.slotAt i).st = .ending) && (List.range 12).all (fun r => (s.tasksOf r i).isEmpty && (s.xfersOf r i).isEmpty) &&
    !s.batches.any (fun b => decide (b.slot = i)) && !s.swarms.any (fun w => decide (w.bag.slot = i))

/-- CANCEL_DONE (R686, R805, R809): the cancellation has drained in every region of the request. -/
def execCancelDone (slot : Fin 4096) (s : State) : Out State := s.live <|
  let i := slot.val
  if s.reqDrained i then
    match s.dropPins i (admWho i) (s.slotAt i).pins with
    | (false, s) => .next s
    | (true, s) =>
      let a := s.slotAt i
      .next (s.slotFree i ⟨a.status, if a.status = stMissed then 1 + 2 * b2n a.poisoned else 0, a.detail, a.source, a.obj⟩)
  else .next s

/-- CANCEL (R801, R809, R810). -/
def execCancel (src : CmdSrc) (s : State) : Out State := s.live <|
  .next (s.runCmd src (· = 2) [allBits ^^^ 0xF000] (fun ws _ t =>
    let w1 := ws.getD 1 0
    let i := fld w1 11 0
    let a := t.slotAt i
    if a.st = .free ∨ a.reqSeq ≠ fld w1 63 16 then (some (.conflict pgHcmd 0), t)
    else if a.st = .ending then (some (.conflict pgHcmd 3), t)
    else (some (.ok pgHcmd 0), t.slotEnd i stCancelled pgHcmd)))

/-! ## Admission (R101, R247, R249, R625, R809, R895) -/

/-- Check the tables of a graph (R249): nothing while a read waits, no refusal, or the completion of the first one
refused. -/
def State.admCheck (s : State) (r : Nat) (w : Who) : List Nat → Option (Option CmdRes) × State
  | [] => (some none, s)
  | id :: ids =>
    match s.tdFind r w id with
    | (.wait, s) => (none, s)
    | (.bad, s) => (some (some (.desc (pgEmb 0) id)), s.tblBad 0)
    | (.ok d, s) =>
      if tdState d (tdCur d) ≠ svCurrent then (some (some (.conflict (tdPage d) (tdState d (tdCur d)))), s)
      else s.admCheck r w ids

/-- Pin the CURRENT slot of each table not yet pinned (R247). false while a write waits on a fault. -/
def State.pinAll (s : State) (i r : Nat) (w : Who) : List Nat → Bool × State
  | [] => (true, s)
  | id :: ids =>
    if (s.pinOf i id).isSome then s.pinAll i r w ids
    else match s.tdFind r w id with
      | (.ok d, s) =>
        (match s.tdSetPins (tdRegion d) w id d (tdCur d) (tdPins d (tdCur d) + 1) with
        | (false, s) => (false, s)
        | (true, s) =>
          let a := s.slotAt i
          (s.putSlot i { a with pins := a.pins ++ [(id, tdCur d)] }).pinAll i r w ids)
      | (_, s) => (false, s)

/-- Record the bases of the counters a request owns in a region (R625). -/
def State.baseSet (s : State) (e : LaunchEnt) : State :=
  let b := s.syncAt e.region
  s.putSync e.region { b with base := (List.range e.ctrCount).foldl (fun m k =>
    smapSet (fun _ => 0) m (e.ctrFirst + k) (smapGet (fun _ => 0) b.ctr (e.ctrFirst + k))) b.base }

/-- The demands an admission makes (R827): its region fabrics, and the clusters it has buffers on. -/
def State.admDemand (s : State) (e : LaunchEnt) : State :=
  (List.range 12).foldl (fun t c =>
    match t.physClu e.region c with
    | some k => if e.bufs.getD c 0 = 0 then t else t.demand k pgHcmd
    | none => t) (s.demand (156 + e.region) pgHcmd)

/-- The PINS word of each table not yet pinned can be written now: every pin of an admission is then made at one instant (R247). -/
def State.pinReady (s : State) (i r : Nat) (w : Who) : List Nat → Bool × State
  | [] => (true, s)
  | id :: ids =>
    if (s.pinOf i id).isSome then s.pinReady i r w ids
    else match s.tdFind r w id with
      | (.ok d, s) =>
        (match s.xlateP (tdRegion d) ⟨word (s.tdVa id + 0x48 + 16 * tdCur d), .write, false, w⟩ with
        | (none, s) => (false, s)
        | (some _, s) => s.pinReady i r w ids)
      | (_, s) => (false, s)

/-- Admit a held request (R809): it runs, or is refused and its slot is FREE. -/
def State.admitRun (s : State) (i : Nat) : State :=
  let a := s.slotAt i
  let w := admWho i
  let r := a.regions.headD 0
  let ids := (s.graphAt a.graph).tables
  match s.admCheck r w ids with
  | (none, s) => s
  | (some (some res), s) => s.slotFree i res
  | (some none, s) =>
    match s.pinReady i r w ids with
    | (false, s) => s
    | (true, _) =>
      let s := (s.pinAll i r w ids).2
      let a := s.slotAt i
      let s := s.putSlot i { a with st := .running, admitted := s.ns }
      let s := a.ents.foldl (fun t e => (t.baseSet e).admDemand e) s
      if a.rt ∧ a.deadline.toNat ≤ s.ns then s.missReq i else s

/-- Every region a held request names is released (R895), and no pause holds admissions (R255). -/
def State.admReady (s : State) (i : Nat) : Bool :=
  let a := s.slotAt i
  decide (a.st = .held) && a.regions.all (fun r => (s.regionAt r).released) && !s.host.inPause && !s.parkedAt 12 (admWho i)

/-- A switch of a table of a request's graph is due and has not acted (R257). -/
def State.versionDue (s : State) (i : Nat) : Bool :=
  (s.time.queue ++ s.time.delivered).any (fun e => decide (e.kind = 3) && decide (e.due ≤ s.st16) &&
    (s.graphAt (s.slotAt i).graph).tables.contains (e.arg % 2 ^ 10) &&
    (match pageDomain e.target with
    | some d => decide ((s.domAt d).st = .on)
    | none => true))

/-- ADMIT (R96, R257, R809): the admission ST has come; a switch that is due goes first. -/
def execAdmitSlot (slot : Fin 4096) (s : State) : Out State := s.live <|
  let i := slot.val
  let a := s.slotAt i
  if s.admReady i && !s.versionDue i && decide (a.admitSt ≠ word allBits) && decide (a.admitSt.toNat ≤ s.ns) then .next (s.admitRun i) else .next s

end Sys2Proof.Machine
end

