-- ==== Sys2Proof/Machine/Power.lean ====
section
/-! DEFINITION. Power domains (R820 to R830), the power budget (R831 to R837), heat (R838 to R842), PMBus and the thermal
trip (R958 to R979). -/

namespace Sys2Proof.Machine

/-! ## Preconditions of an entry into RET or OFF (R827) -/

/-- A unit of a physical cluster holds a task. -/
def State.cluWorks (s : State) (c : Nat) : Bool :=
  (List.range 4).any (fun w => (s.wvAt (c * 4 + w)).cur.isSome || (s.wvAt (c * 4 + w)).nxt.isSome) ||
    !(s.matAt c).tasks.isEmpty || !(s.matAt c).bufs.isEmpty || !(s.matAt c).relay.isEmpty || !(s.gmxAt c).tasks.isEmpty ||
    !(s.vecAt c).tasks.isEmpty

/-- A scratchpad buffer of a physical cluster is assigned to a slot that is not FREE (R684). -/
def State.cluBufs (s : State) (c : Nat) : Bool :=
  s.slotsBusy.any (fun a => a.ents.any (fun e => decide (e.region = cluRegion c) &&
    (List.range 12).any (fun l => decide (s.physClu e.region l = some c) && decide (e.bufs.getD l 0 ≠ 0))))

/-- What refuses an entry into RET or OFF (R827): the refuser and its reason, none if every precondition holds. -/
def State.domHeld (s : State) (d : Nat) (off : Bool) : Option (Nat × Nat) :=
  if d < 156 then
    if s.cluWorks d then some (pgDisp (cluRegion d), 1) else if off && s.cluBufs d then some (pgHcmd, 1) else none
  else if d < 168 then
    let r := d - 156
    match (List.range 13).find? (fun k => !(decide ((s.domAt (13 * r + k)).st = .off) || decide ((s.domAt (13 * r + k)).st = .locked))) with
    | some k => some (pgPwrd (13 * r + k), 2)
    | none => if s.regionBusy r then some (pgHcmd, 1) else none
  else if d < 180 then none
  else if d < 184 then if s.rf (pgEth (d - 180)) oEthCfg 7 4 ≠ 0 then some (pgEth (d - 180), 1) else none
  else if d < 188 then
    let e := d - 184
    if (s.engQps e).any (fun x => x.2.up) || s.eth.psig.any (fun x => x.eng = e) then some (pgRdma e, 1) else none
  else if d < 196 then if (s.coreAt (d - 188)).services ≠ 0 then some (pgSvc (d - 188), 1) else none
  else if d = 196 then if s.sess.any (fun x => x.2.open_) then some (pgSec, 1) else none
  else if !s.slotsBusy.isEmpty then some (pgHcmd, 1)
  else match s.qps.find? (fun x => x.2.up) with
    | some x => some (pgRdma (x.1 / 4096), 1)
    | none => none

/-- A request the table of R824 does not accept in a settled state, or of code 3: refused by the page itself; the spec names
no reason code for it, so that the reason is a free value (assumption 44). -/
def State.domNo (s : State) (d : Nat) : State :=
  let (v, s) := s.draw
  s.domRefuse d (pgPwrd d) (v % 16) false

/-- A request of a transition (R824, R826): target 0 ON, 1 RET, 2 OFF. Whether it is accepted, and the state. -/
def State.pwrdReq (s : State) (d target : Nat) : Bool × State :=
  let enter (off : Bool) : Bool × State :=
    match s.domHeld d off with
    | some (src, why) => (false, s.domRefuse d src why false)
    | none => (true, s.domGo d (if off then .toOff else .toRet))
  match (s.domAt d).st with
  | .toRet => (false, s.domRefuse d (pgPwrd d) 3 false)
  | .toOff => (false, s.domRefuse d (pgPwrd d) 3 false)
  | .waking => (false, s.domRefuse d (pgPwrd d) 3 false)
  | .locked => (false, s.domRefuse d (pgPwrd d) 5 false)
  | .on => if target = 1 then enter false else if target = 2 then enter true else (false, s.domNo d)
  | .ret => if target = 0 then (true, s.domWaking d) else if target = 2 then enter true else (false, s.domNo d)
  | .off => if target = 0 then (true, s.domWaking d) else (false, s.domNo d)

/-- PWRD_REQ_ON (R824, R826). -/
def execPwrdReqOn (d : Fin 199) (s : State) : Out State := s.live <| .next (s.pwrdReq d.val 0).2
/-- PWRD_REQ_RET (R824, R826). -/
def execPwrdReqRet (d : Fin 199) (s : State) : Out State := s.live <| .next (s.pwrdReq d.val 1).2
/-- PWRD_REQ_OFF (R824, R826). -/
def execPwrdReqOff (d : Fin 199) (s : State) : Out State := s.live <| .next (s.pwrdReq d.val 2).2

/-- DOMAIN_DRAIN_DONE (R824, R825). -/
def execDomainDrainDone (d : Fin 199) (s : State) : Out State := s.live <|
  match (s.domAt d.val).st with
  | .toRet => .next ((s.domGo d.val .ret).count (pgPwrd d.val) oPwrdEntries 1)
  | .toOff => .next ((s.domGo d.val .off).count (pgPwrd d.val) oPwrdEntries 1)
  | _ => .next s

/-- The substitution of a region is over: it serves again unless another permanent cluster waits (R872, R874). -/
def State.substEnd (s : State) (r : Nat) : State :=
  let g := s.regionAt r
  let s := s.putRegion r { g with subst := none, st := if g.st = .paused ∧ g.waiting = [] then .serving else g.st }
  s.regionCheck r

/-- A domain that reached ON: a substituted cluster ends its region's pause (R872), its port trains (R721), its pool block takes the half rate that waits (R842). -/
def State.domAwake (s : State) (d : Nat) : State :=
  if d < 156 then if (s.regionAt (cluRegion d)).subst.any (fun x => x.2 = d) then s.substEnd (cluRegion d) else s
  else if 180 ≤ d ∧ d < 184 then s.portStart (d - 180)
  else if 168 ≤ d ∧ d < 180 then s.setPwr { s.pwr with halfPend := s.pwr.halfPend.filter (· ≠ d - 168) }
  else s

/-- DOMAIN_WAKE_DONE (R824, R825). -/
def execDomainWakeDone (d : Fin 199) (s : State) : Out State := s.live <|
  if (s.domAt d.val).st = .waking then .next ((s.domOn d.val).domAwake d.val) else .next s

/-- A READY task names a cluster, and no cluster of its mask that is ON holds an ask for it (R827); a cluster that leaves ON holds none. -/
def State.cluWanted (s : State) (c : Nat) : Bool :=
  let r := cluRegion c
  match s.logClu c with
  | none => false
  | some l => (s.dispAt r).window.any (fun e => decide (e.2.st = .ready) && kindOnCluster e.2.kind && e.2.cluMask.testBit l &&
      (s.askFor r e.2.kind e.2.cluMask).isNone)

/-- DOMAIN_DEMAND (R824, R827, R830): a cluster is demanded by a READY task, a pool block by nothing; the other demands come with their
source. -/
def execDomainDemand (d : Fin 199) (source : BitVec 16) (s : State) : Out State := s.live <|
  if d.val < 156 ∧ s.cluWanted d.val = false then .next s
  else if 168 ≤ d.val ∧ d.val < 180 then .next s
  else .next (s.demand d.val source.toNat)

/-! ## Levels (R831, R832) -/

/-- Level of a region that the three values give. -/
def PwrSt.lvl (v : PwrSt) (r : Nat) : Nat := max v.p (max (v.h.getD r 0) (v.j.getD r 0))

/-- Cause of a region's level: stack, then hot spot, then power on a tie. -/
def PwrSt.why (v : PwrSt) (r : Nat) : Nat :=
  let l := v.lvl r
  if l = 0 then 0 else if v.j.getD r 0 = l then 3 else if v.h.getD r 0 = l then 2 else 1

/-- Twelve 2-bit fields. -/
def pack2 (f : Nat → Nat) : Word := word ((List.range 12).foldl (fun n r => n + f r % 4 * 4 ^ r) 0)

/-- Every region takes the level its three values give; each change is an event (R831, R832, R844). -/
def State.relevel (s : State) : State :=
  let old := s.pwr.levels
  let new := (List.range 12).map s.pwr.lvl
  let s := s.setPwr { s.pwr with levels := new }
  let s := (s.setRg pgPwr oPwrLevel (pack2 s.pwr.lvl)).setRg pgPwr oPwrCause (pack2 s.pwr.why)
  s.setEvts pgPwr (((List.range 12).filter (fun r => old.getD r 0 ≠ new.getD r 0)).map (fun _ => 0))

/-! ## The budget (R833 to R837) -/

/-- Mean of the estimates of the last n microseconds that exist. -/
def meanOf (l : List Nat) (n : Nat) : Nat :=
  let t := l.take n
  t.foldl (· + ·) 0 / max 1 t.length

/-- BUDGET as it acts (R837). -/
def State.budget (s : State) : Nat := min 1400 (s.rf pgPwr oPwrBudget 15 0)
/-- PEAK as it acts (R837). -/
def State.peak (s : State) : Nat := min 1650 (s.rf pgPwr oPwrPeak 15 0)

/-- POWER_ESTIMATE (R833 to R837): one microsecond of the power controller. -/
def execPowerEstimate (watts : Nat) (s : State) : Out State := s.live <|
  let v := s.pwr
  let w := ((watts : Int) + v.corr).toNat
  let before := meanOf v.est 10
  let est := (w :: v.est).take 1000
  let m10 := meanOf est 10
  let m1k := meanOf est 1000
  let exceeds := decide (s.budget < m1k)
  let above := if exceeds then v.above + 1 else 0
  let below := if m1k * 16 ≤ s.budget * 15 then v.below + 1 else 0
  let hit := decide (s.peak ≤ m10) && (v.est.isEmpty || decide (before < s.peak))
  let up := b2n hit + b2n (decide (8000 ≤ above) && decide ((above - 8000) % 100 = 0))
  let down := decide (below = 10000)
  let p := min 3 (v.p + up) - b2n down
  let half := decide (p = 3) && decide (s.peak ≤ m10)
  let energy := v.energy + w
  let s := s.setPwr { v with p := p, est := est, above := above, below := if down then 0 else below, poolHalf := half,
                             energy := energy }
  let s := s.setRg pgPwr oPwrPower (word (m1k % 2 ^ 16 * 2 ^ 16 + m10 % 2 ^ 16))
  let s := s.setRg pgPwr oPwrPLevel (word (b2n half * 4 + p))
  let s := if above = 1 then s.count pgPwr oPwrExcCount 1 else s
  let s := if s.rf pgPwr oPwrExcLongest 31 0 < above then s.setRg pgPwr oPwrExcLongest (word above) else s
  let s := s.count pgPwr oPwrEnergy (energy / 1000 - v.energy / 1000)
  let s := s.count pgPwr oPwrThrottleNs (1000 * v.levels.countP (fun l => decide (0 < l)))
  let s := if hit then s.setEvt pgPwr 1 else s
  let s := if above = 8000 then s.setEvt pgPwr 2 else s
  let s := if half && !v.poolHalf then s.setEvt pgPwr 3 else s
  .next s.relevel

/-! ## PMBus (R958, R960, R972, R973) -/

/-- PMBus addresses of the regulators of the twelve rails (R958). -/
def railAddrs : List Nat := (List.range 12).map (· + 0x40)

/-- The device uses PMBus from boot step 4 on, and stops with PWR_OK (R960, R965). -/
def State.pmbusUp (s : State) : Bool := decide (4 ≤ s.dev.step) && s.pins.pwrOk

/-- Read a command of every regulator. -/
def State.pmbusAll (s : State) (c : PmbCmd) : State := railAddrs.foldl (fun t a => t.emit (.pmbus a c 0)) s

/-- PMBUS_POLL (R833, R973): every regulator is asked; the correction follows those that answered. The spec does not say how
it is computed: a free value (assumption 45). -/
def execPmbusPoll (readPin : List (Option Nat)) (s : State) : Out State := s.live <|
  if s.pmbusUp then
    let s := s.pmbusAll .readPin
    if readPin.any Option.isSome then
      let (v, s) := s.draw
      .next (s.setPwr { s.pwr with corr := signedOf 16 v })
    else .next s
  else .next s

/-- PMB_ALERT (R973): STATUS_WORD of every regulator is read, then CLEAR_FAULTS is sent. -/
def execPmbAlert (_status : List (BitVec 16)) (s : State) : Out State := s.live <|
  if s.pmbusUp then .next ((s.pmbusAll .statusWord).pmbusAll .clearFaults) else .next s

/-- Lowest and highest setpoint of an AVS rail, mV (R958). -/
def avsRange (k : Nat) : Nat × Nat := if k < 2 then (650, 850) else (700, 800)

/-- Write an AVS setpoint (R960, R972). -/
def State.avsPut (s : State) (k mv : Nat) : State :=
  let s := s.setPins { s.pins with avs := s.pins.avs.set k mv, avsAt := s.pins.avsAt.set k s.ns }
  s.emit (.pmbus (0x40 + k) .voutCommand mv)

/-- An AVS rail follows its die's temperature by at most 5 mV per 1 ms inside its range (R960). The spec gives no law: the
step is a free value (assumption 46). -/
def State.avsFollow (s : State) (k : Nat) : State :=
  if s.pmbusUp && decide (s.pins.avsAt.getD k 0 + 10 ^ 6 ≤ s.ns) then
    let (v, s) := s.draw
    let old := s.pins.avs.getD k 0
    let new := max (avsRange k).1 (min (avsRange k).2 (old + v % 11 - 5))
    if new = old then s else s.avsPut k new
  else s

/-- The power controller sets each AVS rail once after its firmware started (R960): the calibration value is the die's, a
free value of the range (assumption 46). -/
def State.avsStart (s : State) : State :=
  (List.range 4).foldl (fun t k =>
    let (v, t) := t.draw
    let r := avsRange k
    t.avsPut k (r.1 + v % (r.2 - r.1 + 1))) s

/-! ## Heat (R838 to R842) -/

/-- A signed 16-bit field of temperatures. -/
def temp16 (t : Int) : Nat := wrapInt 16 t

/-- Threshold Tk of THERM.DIE_THR in 1/16 °C, k = 1 to 3; none below T1. -/
def State.dieThr (s : State) (k : Nat) : Int := 16 * (s.rf pgTherm oThermDieThr (8 * k - 1) (8 * k - 8) : Int)

/-- Level H_r after a reading (R838). -/
def State.hotLevel (s : State) (h : Nat) (t : Int) : Nat :=
  let up := if s.dieThr 3 ≤ t then 3 else if s.dieThr 2 ≤ t then 2 else if s.dieThr 1 ≤ t then 1 else 0
  if h < up then up
  else if 0 < h ∧ t < s.dieThr h - 16 * (s.rf pgTherm oThermDieThr 31 24 : Int) then h - 1
  else h

/-- HOTSPOT_READING (R838, R847). -/
def execHotspotReading (regions : List Int) (dies : List Int) (s : State) : Out State := s.live <|
  if regions.length = 12 ∧ dies.length = 3 then
    let old := s.pwr.h
    let new := (List.range 12).map (fun r => s.hotLevel (old.getD r 0) (regions.getD r 0))
    let was := s.rg pgTherm oThermDieTemp
    let now := word (temp16 (dies.getD 2 0) * 2 ^ 32 + temp16 (dies.getD 1 0) * 2 ^ 16 + temp16 (dies.getD 0 0))
    let s := (List.range 12).foldl (fun t r => t.setRg pgTherm (oThermRegionTemp + 8 * r) (word (temp16 (regions.getD r 0)))) s
    let s := (s.setRg pgTherm oThermDieTemp now).setPwr { s.pwr with h := new }
    let s := s.setRg pgTherm oThermHLevel (pack2 (fun r => new.getD r 0))
    let s := s.setEvts pgTherm (((List.range 12).filter (fun r => old.getD r 0 ≠ new.getD r 0)).map (fun _ => 0))
    let s := (List.range 3).foldl (fun t k => if fld was (16 * k + 15) (16 * k) ≠ fld now (16 * k + 15) (16 * k) then t.avsFollow k else t) s
    .next s.relevel
  else .fault (.illFormed "HOTSPOT_READING")

/-- The joint throttle of a stack begins or ends (R839, R840, R842). -/
def State.joint (s : State) (n : Nat) (on : Bool) : State :=
  if bit (s.rg pgTherm oThermJoint) n = on then s
  else
    let off := decide ((s.domAt (168 + n)).st ≠ .on)
    let pend := s.pwr.halfPend.filter (· ≠ n)
    let s := s.setPwr { s.pwr with j := s.pwr.j.set n (if on then 2 else 0), halfPend := if on && off then pend ++ [n] else pend }
    ((s.setRf pgTherm oThermJoint n n (b2n on)).setEvt pgTherm (if on then 1 else 2)).relevel

/-- Queued commands of a stack's pseudo-channels are answered as dead (R156). -/
def State.stackDead (s : State) (n : Nat) : State := (List.range 64).foldl (fun t j => t.serveWaiting (n * 64 + j)) s

/-- A stack is lost (R868): DEGRADED with its cause, the STACK_LOST record. -/
def State.stackLost (s : State) (n : Nat) : State :=
  let k := s.stkAt n
  if k.lost then s
  else
    let s := s.putStk n { k with lost := true, returning := false }
    (s.error (pgStk n) ⟨1, true, 0x0108, pgStk n, 0, 0⟩).setCause 0 true

/-- A stack shuts down (R156, R841). -/
def State.stackShut (s : State) (n : Nat) : State :=
  let k := s.stkAt n
  if k.st = .base ∨ k.st = .full then
    let s := (s.putStk n { k with st := .shutdown }).stackDead n
    ((s.setRf pgTherm oThermShutdown n n 1).setEvt pgTherm 3).stackLost n
  else s

/-- The refresh window of a stack changes (R141, R142, R154). -/
def State.refreshWin (s : State) (n : Nat) (w16 : Bool) : State :=
  let k := s.stkAt n
  if k.window16 = w16 then s
  else
    let s := s.putStk n { k with window16 := w16 }
    let s := (List.range 64).foldl (fun t j =>
      let v := t.pchAt (n * 64 + j)
      if v.st = .retrain ∨ v.st = .margin then t else t.putPch (n * 64 + j) { v with window16 := w16 }) s
    (s.setRg (pgStk n) oStkRefresh (word (b2n w16))).setEvt (pgStk n) 1

/-- A core-die temperature of a pseudo-channel: a change of 10 °C since its last training triggers a retrain (R146). -/
def State.pchTemp (s : State) (d : Nat) (t : Int) : State :=
  let v := s.pchAt d
  let s := s.putPch d { v with tempNow := t }
  if (v.st = .base ∨ v.st = .full ∨ v.st = .retrain ∨ v.st = .margin) ∧ 160 ≤ (t - v.temp).natAbs then s.retrainTrigger d false
  else s

/-- STACK_TEMP_READING (R142, R146, R839 to R841). -/
def execStackTempReading (stk : Region) (core : List Int) (base : Int) (pchTemps : List Int) (s : State) : Out State := s.live <|
  if core.length = 16 ∧ pchTemps.length = 64 then
    let n := stk.val
    let hot := core.foldl max (core.getD 0 0)
    let was := s.rf (pgStk n) oStkTemp 31 16
    let s := s.putStk n { s.stkAt n with coreTemp := hot }
    let s := s.setRg (pgStk n) oStkTemp (word (temp16 base * 2 ^ 16 + temp16 hot))
    let s := if 16 * 85 ≤ hot then s.refreshWin n true else if hot < 16 * 82 then s.refreshWin n false else s
    let s := if 16 * 95 ≤ hot then s.joint n true else if hot < 16 * 92 then s.joint n false else s
    let s := (List.range 64).foldl (fun t j => t.pchTemp (n * 64 + j) (pchTemps.getD j 0)) s
    let s := if was ≠ temp16 base then s.avsFollow 3 else s
    .next (if 16 * 105 ≤ hot then s.stackShut n else s)
  else .fault (.illFormed "STACK_TEMP_READING")

/-- THERMAL_TRIP (R839, R888, R891, R978): the trip outputs assert and the device stops. -/
def execThermalTrip (die : Fin 3) (s : State) : Out State := s.live <|
  let s := s.setPins { s.pins with therm := true, hubTrip := s.pins.hubTrip || decide (die.val = 2) }
  if s.dev.st = .stopped then .next s else .next ((s.setCause 18 true).devGo .stopped)

end Sys2Proof.Machine
end

