-- ==== Sys2Proof/Machine/Repair.lean ====
section
/-! DEFINITION. Repair in service: training and clearing of stacks (R144 to R156, R868, R869, R991), margin sweeps (R151,
R942 to R944), patrol scrub (R855), row repair (R857 to R860), retirement of pseudo-channels (R861 to R867), substitution of
clusters (R872 to R874). -/

namespace Sys2Proof.Machine

/-! ## Stack state (R145, R152, R156, R868) -/

/-- Every pseudo-channel of a stack that is not RETIRED satisfies a test, and there is one. -/
def State.pchsAll (s : State) (n : Nat) (p : PchSt → Bool) : Bool :=
  (List.range 64).all (fun j => let v := s.pchAt (n * 64 + j); decide (v.st = .retired) || p v) &&
    (List.range 64).any (fun j => (s.pchAt (n * 64 + j)).st ≠ .retired)

/-- The per-bit rate of a stack changes (R145, R157). -/
def State.stackRate (s : State) (n rate : Nat) : State :=
  if s.rf (pgStk n) oStkRate 7 0 = rate then s else (s.setRg (pgStk n) oStkRate (word rate)).setEvt (pgStk n) 0

/-- A stack that is no longer lost; the device leaves DEGRADED when no other cause remains (R869). -/
def State.stackFound (s : State) (n : Nat) : State :=
  let k := s.stkAt n
  if k.lost then
    let s := s.putStk n { k with lost := false, returning := false }
    if (List.range 12).any (fun m => (s.stkAt m).lost) then s else s.setCause 0 false
  else s

/-- What the states of its pseudo-channels make of a stack: FULL (R156), or lost when none of them can train (R868), which
on its return is a reason of R881. -/
def State.stackCheck (s : State) (n : Nat) : State :=
  let k := s.stkAt n
  if k.st = .base ∧ s.pchsAll n PchSt.passedFull = true then
    ((s.putStk n { k with st := .full }).stackRate n 100).stackFound n
  else if s.pchsAll n (fun v => decide (v.st = .failed)) then
    if k.returning then s.replaceBoard 4 else s.stackLost n
  else s

/-- TRAIN_DONE (R152): a pass leads to BASE or FULL, the third failure in succession to FAILED; triggers that waited for the
training may start. -/
def execTrainDone (d : Pch) (pass : Bool) (s : State) : Out State := s.live <|
  let n := d.val / 64
  let v := s.pchAt d.val
  if !v.training then .next s
  else
    let mine := (s.svcIs n 0x30).any (fun f => f.pch.toNat = d.val % 64)
    let s :=
      if pass then
        let s := s.putPch d.val { v with st := if v.rate = 100 then .full else .base, training := false, fails := 0, temp := v.tempNow,
                                         window16 := (s.stkAt n).window16 }
        s.serveWaiting d.val
      else if v.fails + 1 < 3 then s.putPch d.val { v with training := false, fails := v.fails + 1 }
      else s.pchFail d.val
    let s := if mine then s.svcAnswer n 0 0 else s
    .next ((s.outNext n ((s.stkAt n).waitQ.length + 1)).stackCheck n)

/-- Whether an access key of stack memory lies in a data granule of stack n. -/
def dataKey (n k : Nat) : Bool := decide (k / 2 ^ 31 = n) && decide (k % 2 ^ 25 / 8 < dataSlots)

/-- Every data granule of a stack reads as zero, delivered clean (R991). -/
def State.stackZero (s : State) (n : Nat) : State :=
  s.setDram ⟨s.dram.cells.filter (fun e => !dataKey n (e.1 / 32)), dropKeys s.dram.poison (dataKey n)⟩

/-- STACK_CLEAR_DONE (R156, R991): every pseudo-channel has passed base training and the clearing is done; a stack that
returns from loss has been poisoned instead (R869). -/
def execStackClearDone (stk : Region) (s : State) : Out State := s.live <|
  let n := stk.val
  let k := s.stkAt n
  if k.st = .training ∧ s.pchsAll n PchSt.passedBase = true then
    let s := if k.returning then s else (s.putStk n { k with poisonAll := false }).stackZero n
    .next (((s.putStk n { s.stkAt n with st := .base }).stackRate n 32).stackCheck n)
  else .next s

/-- STACK_RETURN (R156, R869): repair is complete and power returns; every data granule is written poisoned and the stack
starts from DOWN. -/
def execStackReturn (stk : Region) (s : State) : Out State := s.live <|
  let n := stk.val
  let k := s.stkAt n
  if k.lost && !k.returning then
    let s := s.putStk n { k with st := .down, returning := true, poisonAll := true }
    let s := s.setDram { s.dram with poison := dropKeys s.dram.poison (dataKey n) }
    let s := (List.range 64).foldl (fun t j =>
      let d := n * 64 + j
      let v := t.pchAt d
      if v.st = .retired then t else t.putPch d { v with st := .untrained, fails := 0, training := false }) s
    .next ((s.setRf pgTherm oThermShutdown n n 0).stackRate n 0)
  else .next s

/-! ## Service commands of the stack-repair service -/

/-- The service writes a command flit to STK.SVC_CMD (R157). -/
def State.svcSend (s : State) (n opc pch addr arg : Nat) : State :=
  let s := s.setRg (pgStk n) oStkSvcCmdLo (word (addr % 2 ^ 16 * 2 ^ 48 + pch * 2 ^ 8 + opc))
  s.svcIssue n (word (arg * 2 ^ 16 + addr / 2 ^ 16))

/-! ## Margin sweeps (R151, R942 to R944) -/

/-- MARGIN_STATE with its counts. -/
def State.marginStat (s : State) (st swept low : Nat) : State :=
  s.setRg pgTel oTelMarginState (word (low * 2 ^ 16 + swept * 2 ^ 8 + st))

/-- Write an entry of the margining report (R943); a write that faults in translation is lost with an error (R187). -/
def State.marginEntry (s : State) (j : Nat) (w : Word) : State :=
  (s.writeVa 12 (.svc 1) false ((s.rg pgTel oTelMarginVa).toNat + 8 * j) (leBytes 8 w.toNat) false).2

/-- The report goes on at the local pseudo-channel it stands at (R942 to R944): one that is not in BASE or FULL gets an entry
of 0, the first other one is swept; after the last the report is DONE. k bounds the pseudo-channels tried. -/
def State.marginNext (s : State) : Nat → State
  | 0 => s
  | k + 1 =>
    match s.tel.margin with
    | none => s
    | some (n, kind, j) =>
      if 64 ≤ j then
        let s := s.setTel { s.tel with margin := none }
        let low := s.rf pgTel oTelMarginState 22 16
        let s := (s.marginStat 2 (s.rf pgTel oTelMarginState 14 8) low).setEvt pgTel 2
        if 0 < low then s.setEvt pgTel 3 else s
      else
        let v := s.pchAt (n * 64 + j)
        if v.st = .base ∨ v.st = .full then
          (if (s.stkAt n).svc.isSome then s else s.svcSend n (if kind = 1 then 0x32 else 0x33) j 0 0)
        else if v.st = .retrain ∨ v.st = .margin then s
        else
          let s := s.marginEntry j 0
          (s.setTel { s.tel with margin := some (n, kind, j + 1) }).marginNext k

/-- The sweep of a pseudo-channel for the report is done: its entry is written and the next one starts (R943). -/
def State.marginSwept (s : State) (n kind j : Nat) : State :=
  let d := n * 64 + j
  let e := s.rf (pgPch d) (if kind = 1 then oPchMarginT else oPchMarginV) 21 0
  let least := s.rf pgTel oTelMarginMin 7 0
  let low := decide (e % 256 < least) || decide (e / 256 % 256 < least)
  let s := s.marginEntry j (word (2 ^ 63 + b2n low * 2 ^ 62 + e))
  let swept := s.rf pgTel oTelMarginState 14 8 + 1
  let s := s.marginStat 1 swept (s.rf pgTel oTelMarginState 22 16 + b2n low)
  (s.setTel { s.tel with margin := some (n, kind, j + 1) }).marginNext 65

/-- MARGIN_STEP_DONE (R148, R151, R152): each step is an out-of-service period of its own, so that the next step waits behind
earlier triggers; the last step records the edges. -/
def execMarginStepDone (d : Pch) (found : Option MarginEdges) (s : State) : Out State := s.live <|
  let n := d.val / 64
  let j := d.val % 64
  let k := s.stkAt n
  match k.margin with
  | none => .next s
  | some (kind, svc) =>
    if (s.pchAt d.val).st ≠ .margin then .next s
    else match found with
      | none => .next ((s.putStk n { k with waitQ := k.waitQ ++ [⟨j, kind, svc⟩] }).outLeave d.val)
      | some e =>
        let s := s.putStk n { k with margin := none }
        let off := if kind = 1 then oPchMarginT else oPchMarginV
        let s := s.setRg (pgPch d.val) off (word (e.worst.toNat * 2 ^ 16 + e.hi.toNat * 2 ^ 8 + e.lo.toNat))
        let s := (s.setEvt (pgPch d.val) 5).outLeave d.val
        let s := if svc then s.svcAnswer n 0 0 else s
        match s.tel.margin with
        | some (m, _, i) => .next (if m = n ∧ i = j then s.marginSwept n kind j else s)
        | none => .next s

/-! ## Patrol scrub (R855, R856) -/

/-- Slots a scrub period covers: every slot of every pseudo-channel neither RETIRED nor FAILED (R855). -/
def State.scrubTotal (s : State) (n : Nat) : Nat :=
  2 ^ 22 * (List.range 64).countP (fun j =>
    let v := s.pchAt (n * 64 + j)
    decide (v.st ≠ .retired) && decide (v.st ≠ .failed))

/-- The next slot to scrub from a place on: pseudo-channel × 2^22 + slot, wrapping around; k bounds the pseudo-channels
passed over. -/
def State.scrubFind (s : State) (n : Nat) : Nat → Nat → Option Nat
  | 0, _ => none
  | k + 1, p =>
    let j := p / 2 ^ 22 % 64
    let v := s.pchAt (n * 64 + j)
    if v.st = .retired ∨ v.st = .failed then s.scrubFind n k ((j + 1) % 64 * 2 ^ 22) else some (p % 2 ^ 28)

/-- SCRUB_PACE (R855, R856): while the window is open, the service issues the SCRUB of the next slot. -/
def execScrubPace (stk : Region) (s : State) : Out State := s.live <|
  let n := stk.val
  let k := s.stkAt n
  let pg := pgRegion n
  if !bit (s.rg pg oRegionScrubState) 0 || k.svc.isSome || decide (s.scrubTotal n ≤ s.rf pg oRegionScrubPos 27 0) then .next s
  else match s.scrubFind n 65 k.scrubPos with
    | none => .next s
    | some p =>
      let s := s.putStk n { k with scrubPos := (p + 1) % 2 ^ 28 }
      let s := s.setRf pg oRegionScrubPos 27 0 (s.rf pg oRegionScrubPos 27 0 + 1)
      .next (s.svcSend n 0x20 (p / 2 ^ 22) (p % 2 ^ 22 * 8) 0)

/-- SCRUB_PERIOD_END (R856): a period that ends before its slots are covered sets LATE; the scrub goes on from its place. -/
def execScrubPeriodEnd (stk : Region) (s : State) : Out State := s.live <|
  let n := stk.val
  let k := s.stkAt n
  let pg := pgRegion n
  let len := max 3600 (s.rf pg oRegionScrubPeriod 31 0) * 10 ^ 9
  if s.ns < k.scrubFrom + len then .next s
  else
    let late := decide (s.rf pg oRegionScrubPos 27 0 < s.scrubTotal n)
    let s := s.putStk n { k with scrubFrom := k.scrubFrom + len }
    let s := (s.setRg pg oRegionScrubPos 0).setRf pg oRegionScrubState 1 1 (b2n late)
    .next (if late then s.setEvt pg 1 else s)

/-! ## Row repair (R857 to R860) -/

/-- Key of a DRAM row in the repair records. -/
def rowKey (pch bank row : Nat) : Nat := (pch * 64 + bank) * 2 ^ 14 + row

/-- Port ADDR of a row's first access (R114). -/
def rowAddr (bank row : Nat) : Nat := (row * 4 * 64 + bank) * 8

/-- The failing row the service takes up next: the order of R85, which is ST and then the page of the pseudo-channel. -/
def StkSt.nextFail (k : StkSt) : Option FailRow :=
  (sortBy (fun a b => decide (a.st < b.st) || (decide (a.st = b.st) && decide (a.pch < b.pch))) k.failing).head?

/-- A failing row is dealt with. -/
def StkSt.dropFail (k : StkSt) (f : FailRow) : StkSt :=
  { k with failing := k.failing.filter (fun g => !(decide (g.pch = f.pch) && decide (g.bank = f.bank) && decide (g.row = f.row))),
           repair := none }

/-- Mark a bank, and with it its pseudo-channel for retirement (R858). -/
def State.markBank (s : State) (n : Nat) (f : FailRow) : State :=
  let k := (s.stkAt n).dropFail f
  if k.marked.contains (f.pch, f.bank) then s.putStk n k
  else
    let s := s.putStk n { k with marked := k.marked ++ [(f.pch, f.bank)] }
    let d := n * 64 + f.pch
    let a := rowAddr f.bank f.row
    let s := (s.count (pgRegion n) oRegionBanksMarked 1).setEvt (pgRegion n) 2
    (s.error (pgPch d) ⟨0, true, 0x0106, pgPch d, memErrAddr d a, memErrDetail a⟩).retireNeed

/-- Entries of the row patch table (R859). -/
def patchCap : Nat := 2048

/-- ROW_REPAIR (R854, R857, R858): the service takes up a failing row and issues its PPR or PATCH, or marks the bank. -/
def execRowRepair (stk : Region) (pprLeft : Bool) (s : State) : Out State := s.live <|
  let n := stk.val
  let k := s.stkAt n
  if k.repair.isSome || k.svc.isSome then .next s
  else match k.nextFail with
    | none => .next s
    | some f =>
      let v := s.pchAt (n * 64 + f.pch)
      let step := smapGet (fun _ => 0) k.rowFails (rowKey f.pch f.bank f.row)
      if v.st = .retired ∨ v.st = .failed then .next (s.putStk n (k.dropFail f))
      else if step = 0 ∧ pprLeft = true then
        .next ((s.putStk n { k with repair := some f }).svcSend n 0x39 f.pch (rowAddr f.bank f.row) 0)
      else if step ≤ 1 then
        match (List.range patchCap).find? (fun e => !k.patch.any (fun x => x.1 = e)) with
        | some e => .next ((s.putStk n { k with repair := some f }).svcSend n 0x38 f.pch (rowAddr f.bank f.row) e)
        | none => .next (s.markBank n f)
      else .next (s.markBank n f)

/-- A row has been repaired by PPR (step 1) or PATCH (step 2): records, counts, and the answer of the command. -/
def State.rowRepaired (s : State) (n pch addr step : Nat) : State :=
  let k := s.stkAt n
  let d := n * 64 + pch
  let f : FailRow := ⟨pch, bankOf addr, rowOf addr, 0⟩
  let s := s.putStk n { k.dropFail f with rowFails := smapSet (fun _ => 0) k.rowFails (rowKey pch f.bank f.row) step }
  let pg := pgRegion n
  let s := if step = 1 then s.setRf pg oRegionRowsRepaired 31 0 (s.rf pg oRegionRowsRepaired 31 0 + 1)
    else s.setRf pg oRegionRowsRepaired 63 32 (s.rf pg oRegionRowsRepaired 63 32 + 1)
  let s := (s.setEvt pg 0).error (pgPch d) ⟨0, true, 0x0105, pgPch d, memErrAddr d addr, memErrDetail addr⟩
  s.svcAnswer n 0 0

/-- Whether a row repair of a pseudo-channel runs now, waits, or is refused: R124, R144, R152. -/
def State.repairGate (s : State) (n d : Nat) : Option State :=
  let v := s.pchAt d
  match v.st with
  | .retired =>
    let k := s.stkAt n
    some ((s.putStk n { k with repair := none }).svcConflict n)
  | .retrain => some s
  | .margin => some s
  | _ => if v.training then some s else none

/-- Rows the base die can read: not those of a FAILED or untrained pseudo-channel. -/
def State.rowLive (s : State) (d : Nat) : Bool := decide ((s.pchAt d).st ≠ .failed) && decide ((s.pchAt d).st ≠ .untrained)

/-- PPR (R120, R857, R859). -/
def execPpr (stk : Region) (errs : List AccErr) (s : State) : Out State := s.live <|
  if errsWf 32 errs then
    let n := stk.val
    match s.svcIs n 0x39 with
    | none => .next s
    | some f =>
      let d := n * 64 + f.pch.toNat
      let a := f.addr.toNat
      match s.repairGate n d with
      | some t => .next t
      | none =>
        let s := if s.rowLive d then s.rewriteRow d (bankOf a) (rowOf a) errs else s
        .next (s.rowRepaired n f.pch.toNat a 1)
  else .fault (.illFormed "PPR")

/-- The contents of a row whose patch entry another row takes: the spec states none, so every access holds free values
(assumption 47). -/
def State.rowSpoil (s : State) (d bank row : Nat) : State :=
  (rowSlots bank row).foldl (fun t x => (List.range 8).foldl (fun u i =>
    let (a, u) := u.draw
    let (b, u) := u.draw
    let (p, u) := u.draw
    u.storeAcc d (x * 8 + i) (leBytes 16 a ++ leBytes 16 b) (p.testBit 0)) t) s

/-- A patch entry names a row (R120, R157, R159, R160). -/
def State.patchPut (s : State) (n e pch bank row : Nat) : State :=
  let k := s.stkAt n
  let old := (k.patch.find? (fun x => x.1 = e)).map (·.2)
  let patch := smapIns k.patch e (pch, bank, row)
  let s := s.putStk n { k with patch := patch }
  let s := match old with
    | some (p, b, r) => if (p, b, r) ≠ (pch, bank, row) ∧ s.rowLive (n * 64 + p) = true then s.rowSpoil (n * 64 + p) b r else s
    | none => s
  if k.patch.length < 1920 ∧ 1920 ≤ patch.length then s.setEvt (pgStk n) 2 else s

/-- PATCH (R120, R857, R859). -/
def execPatch (stk : Region) (errs : List AccErr) (s : State) : Out State := s.live <|
  if errsWf 32 errs then
    let n := stk.val
    match s.svcIs n 0x38 with
    | none => .next s
    | some f =>
      let d := n * 64 + f.pch.toNat
      let a := f.addr.toNat
      match s.repairGate n d with
      | some t => .next t
      | none =>
        let s := if s.rowLive d then s.rewriteRow d (bankOf a) (rowOf a) errs else s
        let s := s.patchPut n (f.arg.toNat % 2 ^ 11) f.pch.toNat (bankOf a) (rowOf a)
        .next (s.rowRepaired n f.pch.toNat a 2)
  else .fault (.illFormed "PATCH")

/-- RETRAIN_DONE (R150, R152): a pass returns to the prior state, a third failure in succession enters FAILED. -/
def execRetrainDone (d : Pch) (pass : Bool) (s : State) : Out State := s.live <|
  let d := d.val
  let n := d / 64
  let v := s.pchAt d
  let answer (s : State) : State :=
    if (s.svcIs n 0x31).any (fun f => f.pch.toNat = d % 64) then s.svcAnswer n 0 0 else s
  if v.st ≠ .retrain then .next s
  else if pass then
    let dur := s.ns - (s.rg (pgPch d) oPchRetrainSt).toNat
    let s := s.putPch d { v with temp := v.tempNow, replays := [] }
    let s := (s.setRg (pgPch d) oPchRetrainDur (word (dur % 2 ^ 32))).setEvt (pgPch d) 1
    .next ((answer (s.count (pgStk n) oStkRetrains 1)).outLeave d)
  else if v.fails + 1 < 3 then .next (s.putPch d { v with fails := v.fails + 1 })
  else
    let s := answer (s.pchFail d)
    .next ((s.outNext n ((s.stkAt n).waitQ.length + 1)).stackCheck n)

/-! ## Retirement of a pseudo-channel (R861 to R867) -/

/-- Enter RETIRED (R152): no further data command is accepted; a sweep of it ends. -/
def State.pchRetired (s : State) (d : Nat) : State :=
  let was := (s.pchAt d).st
  let s := if was = PchState.retrain ∨ was = PchState.margin then s.outEnd d else s
  let s := s.putPch d { s.pchAt d with st := .retired, training := false }
  let s := match (s.stkAt (d / 64)).margin with
    | some (_, svc) => if was = PchState.margin then s.marginEnd (d / 64) svc else s
    | none => s
  let s := s.serveWaiting d
  (s.outNext (d / 64) ((s.stkAt (d / 64)).waitQ.length + 1)).stackCheck (d / 64)

/-- PCH_RETIRE (R120, R152, R153). -/
def execPchRetire (stk : Region) (s : State) : Out State := s.live <|
  let n := stk.val
  match s.svcIs n 0x3A with
  | none => .next s
  | some f =>
    let d := n * 64 + f.pch.toNat
    if (s.pchAt d).st = .retired then .next (s.svcConflict n) else .next ((s.pchRetired d).svcAnswer n 0 0)

/-- First RSV slot of a pseudo-channel (R132). -/
def State.rsvBase (s : State) : Nat := s.bandS + s.bandD + s.bandN

/-- Granules a retirement moves from a place on (R861): every L < S + D + N, then the RSV slots with a table entry. -/
def State.moveFrom (s : State) (d l : Nat) : Option Nat :=
  let n := s.rsvBase
  if l < n then some l
  else ((List.range (dataSlots - n)).map (· + n)).find? (fun i => decide (l ≤ i) && (s.relocOf d i).isSome)

/-- The service writes one word of its tables at a PA (R863). -/
def State.pokeWord (s : State) (pa : Nat) (v : Word) : State :=
  match s.paAcc pa with
  | some (d, a) => s.storeAcc d a (patchB (s.accData d a) (pa % 32) (leBytes 8 v.toNat)) (s.accPoison d a)
  | none => s

/-- A relocation-table entry (R861). -/
def relocWord (t : Nat × Nat) : Word := word (2 ^ 63 + t.1 * 2 ^ 32 + t.2)

/-- RSV slots that hold moved granules, by all relocation tables (R862). -/
def State.rsvTaken (s : State) : List (Nat × Nat) :=
  ((List.range 12).filter s.relocUsed).flatMap (fun i => (List.range dataSlots).filterMap (fun l => s.relocAt i l))

/-- A pseudo-channel that can take granules of d: it is in service. -/
def State.rsvLive (s : State) (d k : Nat) : Bool :=
  decide (k ≠ d) && decide ((s.pchAt k).st ≠ .retired) && decide ((s.pchAt k).st ≠ .failed) && !s.stkDead (k / 64)

/-- The lowest free RSV slot of a pseudo-channel. -/
def State.rsvSlot (s : State) (used : List (Nat × Nat)) (k : Nat) : Option Nat :=
  ((List.range (dataSlots - s.rsvBase)).map (· + s.rsvBase)).find? (fun l => !used.contains (k, l))

/-- Assign granules of d in order: each to the lowest free RSV slot of the next live pseudo-channel after the last one used,
wrapping around (R862). -/
def State.rsvAssign (s : State) (d : Nat) : List Nat → Nat → List (Nat × Nat) → List (Nat × Nat × Nat)
  | [], _, _ => []
  | l :: ls, k, used =>
    match ((List.range 768).map (fun i => (k + 1 + i) % 768)).findSome? (fun j =>
        if s.rsvLive d j then (s.rsvSlot used j).map (fun q => (j, q)) else none) with
    | none => []
    | some t => (l, t) :: s.rsvAssign d ls t.1 (t :: used)

/-- Granules of d that move: every L < S + D + N, then the RSV slots of d that hold a granule moved earlier (R861). -/
def State.rsvGranules (s : State) (d : Nat) : List Nat :=
  List.range s.rsvBase ++ ((s.rsvTaken.filter (fun t => t.1 = d)).map (·.2)).eraseDups

/-- The service's first step of a retirement (R861 to R863): d's directory entry, written where none is there, and its
table, each granule without an entry assigned to a free RSV slot. Where a new table lies is not stated (assumption 99). -/
def State.relocWrite (s : State) (d : Nat) : State :=
  let s := match s.relocEnt d with
    | some _ => s
    | none => match (List.range 12).find? (fun i => !s.relocUsed i) with
      | none => s
      | some i => (s.pokeWord (s.relocEntPa i + 8) (word (Config.relocTable d * 256))).pokeWord (s.relocEntPa i) (word (2 ^ 63 + d))
  match s.relocEnt d with
  | none => s
  | some i =>
    let ls := (s.rsvGranules d).filter (fun l => (s.relocAt i l).isNone)
    (s.rsvAssign d ls d s.rsvTaken).foldl (fun t x => t.pokeWord (s.relocPa i x.1) (relocWord x.2)) s

/-- Before the epoch of d's retirement ends, the service rewrites the entries of earlier retirements whose granules lay in
d's RSV slots (R866). -/
def State.relocRewrite (s : State) (d : Nat) : State :=
  ((List.range 12).filter (fun i => s.relocUsed i && decide (s.relocEnt d ≠ some i))).foldl (fun t i =>
    (List.range dataSlots).foldl (fun t l =>
      match s.relocAt i l with
      | some (k, q) => if k = d then (match s.relocOf d q with | some x => t.pokeWord (s.relocPa i l) (relocWord x) | none => t) else t
      | none => t) t) s

/-- The last granule has moved: earlier tables are rewritten (R866), PCH_RETIRE, a new map epoch, the reserve shrinks (R863,
R867). -/
def State.retireEnd (s : State) (r d : Nat) : State :=
  let s := ((s.relocRewrite d).putRegion r { s.regionAt r with move := none }).pchRetired d
  let s := s.error (pgPch d) ⟨0, true, 0x0107, pgPch d, memErrAddr d 0, 0⟩
  (List.range 12).foldl (fun t i =>
    let pg := pgRegion i
    let t := t.setRf pg oRegionReserveLeft 25 0 (t.rf pg oRegionReserveLeft 25 0 - 3906250)
    (t.count pg oRegionMapEpoch 1).setEvt pg 3) s

/-- MOVE_CMD (R863, R881, R883): the write starts the retirement of a pseudo-channel of the region's stack. One that cannot
start, because a retirement runs, the pseudo-channel is of another stack or RETIRED, or the reserve has no room, is refused. The
service's assignment of d's granules goes before it (R862). -/
def execMoveCmd (r : Region) (v : Word) (s : State) : Out State := s.live <|
  let d := fld v 9 0
  let g := s.regionAt r.val
  let rate := match fld v 22 16 with
    | 0 => 16
    | n => min n 64
  if g.move.isSome || decide (d / 64 ≠ r.val) || decide ((s.pchAt d).st = .retired) then .next (s.conflict (pgRegion r.val))
  else if s.rf (pgRegion r.val) oRegionReserveLeft 25 0 < 3906250 then .next (s.retireNeed.conflict (pgRegion r.val))
  else
    let s := (s.relocWrite d).putRegion r.val { g with move := some ⟨d, rate, 0, []⟩ }
    .next (if s.moveFrom d 0 = none then s.retireEnd r.val d else s)

/-- Copy one granule with its poison marks (R863); a dead source reads poisoned, a dead target takes nothing (R152). -/
def State.granuleCopy (s : State) (d l d' l' : Nat) : State :=
  (List.range 8).foldl (fun t i =>
    let ((bs, p), t) := if t.alive d then t.readAcc d (l * 8 + i) else ((t.accData d (l * 8 + i), true), t)
    if t.alive d' then t.storeAcc d' (l' * 8 + i) bs p else t) s

/-- A pseudo-channel is in a retrain or a margin step. -/
def State.pchOut (s : State) (d : Nat) : Bool := decide ((s.pchAt d).st = .retrain) || decide ((s.pchAt d).st = .margin)

/-- GRANULE_MOVE_DONE (R863, R864): the granule has taken its slot at its target; commands parked for it are forwarded. A
retrain of either end stalls it. -/
def execGranuleMoveDone (r : Region) (s : State) : Out State := s.live <|
  let g := s.regionAt r.val
  match g.move with
  | none => .next s
  | some m =>
    let t := s.relocOf m.d m.moved
    if s.pchOut m.d || t.any (fun x => s.pchOut x.1) then .next s
    else
      let s := match t with
        | some x => s.granuleCopy m.d m.moved x.1 x.2
        | none => s
      let at_ (k : Nat) : State :=
        m.parked.foldl (fun t c => t.takeUp r.val c)
          (s.putRegion r.val { s.regionAt r.val with move := some { m with moved := k, parked := [] } })
      match s.moveFrom m.d (m.moved + 1) with
      | some k => .next (at_ k)
      | none => .next ((at_ dataSlots).retireEnd r.val m.d)

/-- Nothing of a region is in flight to a retired pseudo-channel (R865). -/
def State.epochClear (s : State) (r d : Nat) : Bool :=
  (s.pchAt d).parked.isEmpty && (s.pchAt d).waiting.isEmpty &&
    !s.parts.any (fun p => decide (p.region = r) && decide (p.stk = d / 64) && !p.done)

/-- EPOCH_ADOPT (R865): the requesters of a region take up the map of every retired pseudo-channel they have nothing in flight
to. -/
def execEpochAdopt (r : Region) (s : State) : Out State := s.live <|
  let g := s.regionAt r.val
  let ds := (List.range 768).filter (fun d =>
    decide ((s.pchAt d).st = .retired) && !g.adopted.contains d && s.epochClear r.val d)
  .next (s.putRegion r.val { g with adopted := g.adopted ++ ds })

/-! ## Substitution of a cluster (R872 to R874) -/

/-- A retired cluster leaves service: its domain is LOCKED (R824, R872). -/
def State.cluRetire (s : State) (c : Nat) : State :=
  let s := (s.putClu c { s.cluAt c with st := .retired }).setEvt (pgClu c) 3
  (s.error (pgClu c) ⟨0, true, 0x0204, pgClu c, 0, 0⟩).domLock c

/-- Commit the cluster maps and the retired clusters to the repair records (R24, R857, R900). -/
def State.mapCommit (s : State) : State :=
  s.recCommit (fun x => { x with maps := (List.range 12).map (fun r => (s.regionAt r).map),
                                 gone := (List.range 156).filter (fun c => (s.cluAt c).st = .retired) })

/-- SUBST (R872, R883): acts on a PAUSED region that no slot names, for the permanent cluster taken up first and a spare of the
region; any other write does nothing. -/
def execSubst (r : Region) (v : Word) (s : State) : Out State := s.live <|
  let g := s.regionAt r.val
  let l := fld v 3 0
  let k := 13 * r.val + fld v 7 4
  match g.waiting with
  | [] => .next s
  | c :: cs =>
    if g.st = .paused ∧ g.subst = none ∧ s.regionBusy r.val = false ∧ l < 12 ∧ g.map.getD l 15 = c % 13 ∧ fld v 7 4 < 13 ∧
        (s.cluAt k).st = .spare then
      let s := s.putRegion r.val { g with map := g.map.set l (fld v 7 4), waiting := cs, subst := some (l, k) }
      let s := (s.putClu k { s.cluAt k with st := .service }).cluRetire c
      let s := s.mapCommit.setEvt (pgRegion r.val) 4
      match (s.domAt k).st with
      | .on => .next (s.substEnd r.val)
      | .waking => .next s
      | _ => .next (s.domWaking k)
    else .next s

end Sys2Proof.Machine
end

