-- ==== Sys2Proof/Machine/TimeUnit.lean ====
section
/-! DEFINITION. The time unit: sources, servo, step and holdover (R63 to R80), reads and steps of ST (R62, R73), the 1PPS
output (R971), delivery of scheduled entries (R82 to R90, R989) and what each kind of entry does. -/

namespace Sys2Proof.Machine

/-! ## Sources (R63 to R71) -/

/-- SRC_CTL (R107). -/
def State.srcCtl (s : State) : Word := s.rg pgTime oTimeSrcCtl

/-- PTP runs on a port in this domain (R64, R107). -/
def State.ptpOn (s : State) (port domain : Nat) : Bool :=
  bit s.srcCtl (4 + port) && decide (fld s.srcCtl 31 24 < 128) && decide (domain = fld s.srcCtl 31 24)

/-- Some port runs PTP. -/
def State.ptpAny (s : State) : Bool := decide (fld s.srcCtl 7 4 ≠ 0) && decide (fld s.srcCtl 31 24 < 128)

/-- Port of the cadence source (R69, R107). -/
def State.cadPort (s : State) : Option Nat :=
  let n := fld s.srcCtl 14 12
  if 1 ≤ n ∧ n ≤ 4 then some (n - 1) else none

/-- A master qualifies: two of its Announce messages came within four of its intervals, and the last is no older than three
(the standard's defaults, log entry 100). -/
def State.masterOk (s : State) (m : PtpMaster) : Bool :=
  decide (2 ≤ m.heard) && decide (s.time.st < m.heardAt + 3 * (m.interval * 2 ^ 40))

/-- The master that the best master clock algorithm selects across the enabled ports (R64): the qualified one of the best data
set. -/
def State.bestMaster (s : State) : Option PtpMaster :=
  firstBy (fun m => [m.rank, m.port, m.source]) (s.time.masters.filter (fun m => s.masterOk m && bit s.srcCtl (4 + m.port)))

/-- A message of this port and clock comes from the selected master (R64). -/
def State.isBest (s : State) (port source : Nat) : Bool := s.bestMaster.any (fun m => decide (m.port = port) && decide (m.source = source))

/-- A source whose last measurement is no older than three of its intervals: that it then qualifies is the model's choice (DESIGN
CHOICE, log entry 48; R63 does not define it). -/
def State.fresh (s : State) : Option (Nat × Nat) → Bool
  | none => false
  | some (t, i) => decide (s.time.st < t + 3 * (i * 2 ^ 40))

/-- The source in use: the first that qualifies in the order of R63, by its code of R108. -/
def State.srcNow (s : State) : Nat :=
  let pps := bit s.srcCtl 8 && s.time.ppsQual
  let ptp := s.ptpAny && s.fresh s.time.ptpAt
  if s.cadPort.isSome && s.fresh s.time.cadAt then 1
  else if ptp && pps then 2
  else if ptp then 3
  else if pps then 4
  else 0

/-! ## Servo (R72 to R75) -/

/-- Enter a synchronisation state (R75, R110). -/
def State.syncGo (s : State) (st : SyncState) : State :=
  if s.time.sync = st then s else (s.setTime { s.time with sync := st, good := 0 }).setEvt pgTime 0

/-- The servo's adjustment in ppb is within its clamp (R72). -/
def clampAdj (a : Rat) : Rat := max (-200000) (min 200000 a)

/-- Apply an adjustment to a base rate, the nominal one or the upstream device's (R70): the rate in whole units of 2^-40 ns,
rounded up or down by a free value (assumption 48), and FREQ_OFS against the nominal rate (R106). -/
def State.setRate (s : State) (base : Nat) (adj : Rat) : State :=
  let (v, s) := s.draw
  let r : Rat := (base : Rat) * (1 - adj / 1000000000)
  let n := r.floor.toNat + (if (r.floor : Rat) = r then 0 else v % 2)
  let ofs : Rat := (r / nominalRate - 1) * 1000000000
  (s.setTime { s.time with rate := n }).setRg pgTime oTimeFreqOfs (word (wrapInt 64 (ofs * 65536).floor))

/-- One run of the servo: base rate, offset in units of 2^-40 ns, interval in ns (R72). -/
def State.servo (s : State) (base : Nat) (theta : Int) (interval : Nat) : State :=
  let r : Rat := (theta : Rat) / 2 ^ 40 * 1000000000 / (max 1 interval : Nat)
  let ki := s.rf pgTime oTimeServo 7 4
  let kp := s.rf pgTime oTimeServo 3 0
  let integ := s.time.integ + r / 2 ^ ki
  (s.setTime { s.time with integ := integ }).setRate base (clampAdj (integ + r / 2 ^ kp))

/-- A step is permitted (R73). -/
def State.stepOk (s : State) : Bool :=
  bit s.srcCtl 1 && decide (s.time.sync = .acquiring) && s.time.queue.isEmpty && s.time.delivered.isEmpty && s.slotsBusy.isEmpty

/-- ST steps forward (R73): what is kept relative to ST moves with it, and measurements under way, which would span the step, are
dropped. -/
def State.stepBy (s : State) (n : Nat) : State :=
  let t := s.time
  (s.setTime { t with st := t.st + n, good := 0, twoStep := [], syncTs := [], reqTs := [], ptpTheta := t.ptpTheta + n,
                      masters := t.masters.map (fun m => { m with heardAt := m.heardAt + n }), ppsLast := t.ppsLast.map (· + n),
                      ptpAt := t.ptpAt.map (fun x => (x.1 + n, x.2)), cadAt := t.cadAt.map (fun x => (x.1 + n, x.2)),
                      lastMeas := t.lastMeas + n }).setEvt pgTime 1

/-- 1,000 ns and 4 ns in units of 2^-40 ns. -/
def ns40 (n : Nat) : Int := (n * 2 ^ 40 : Nat)

/-- A measurement of the source in use (R72 to R75): code and port of the source, base rate, offset, interval. The measurement
that leads to ACQUIRING is at once one in ACQUIRING, and the one that steps ST does not run the servo (DESIGN CHOICE, log
entry 48). -/
def State.measure (s : State) (src port base : Nat) (theta : Int) (interval : Nat) : State :=
  let t := s.time
  let s := s.setTime { t with source := src, srcPort := port, thetas := (theta :: t.thetas).take 16, lastMeas := t.st, interval := interval }
  let s := match t.sync with
    | .free => (s.setTime { s.time with integ := 0, thetas := [theta] }).syncGo .acquiring
    | .holdover => (s.setTime { s.time with thetas := [theta] }).syncGo .acquiring
    | .locked => if theta.natAbs > (ns40 1000).natAbs then s.syncGo .acquiring else s
    | .acquiring => s
  if s.time.sync = .acquiring ∧ theta < -(ns40 1000) then
    if s.stepOk then s.stepBy (-theta).toNat
    else ((s.setTime { s.time with good := 0 }).setEvt pgTime 2).servo base theta interval
  else
    let s := s.servo base theta interval
    if s.time.sync = .acquiring then
      let good := if theta.natAbs ≤ (ns40 4).natAbs then s.time.good + 1 else 0
      let s := s.setTime { s.time with good := good }
      if 16 ≤ good then s.syncGo .locked else s
    else s

/-- Offset of ST, as a signed number of 2^-40 ns, against a reference in units of 2^-16 ns. -/
def State.offset (at_ : Nat) (ref : Int) : Int := (at_ : Int) - ref * 2 ^ 24

/-- A PTP Sync exchange is complete: it is a measurement if PTP gives the phase, and gives the seconds alone when the pulse
does (R63). -/
def State.ptpSync (s : State) (port at_ : Nat) (origin : Int) (interval : Nat) : State :=
  let t := s.time
  let s := s.setTime { t with syncTs := (t.syncTs.filter (fun x => x.1 ≠ port)) ++ [((port, origin, ((at_ / 2 ^ 24 : Nat) : Int)) : Nat × Int × Int)] }
  match t.pathDelay.find? (fun x => x.1 = port) with
  | none => s
  | some (_, d) =>
    let theta := State.offset at_ (origin + d)
    let s := s.setTime { s.time with ptpAt := some (t.st, interval), ptpTheta := theta }
    if s.srcNow = 3 then s.measure 3 port nominalRate theta interval else s

/-- Path delay of a port, units of 2^-16 ns. -/
def State.setDelay (s : State) (port : Nat) (d : Int) : State :=
  s.setTime { s.time with pathDelay := (s.time.pathDelay.filter (fun x => x.1 ≠ port)) ++ [(port, d)] }

/-- Send a request for the delay of a port: the device stamps it as it leaves (R64, R65). -/
def State.askDelay (s : State) (port : Nat) (m : PtpOut) : State :=
  (s.setTime { s.time with reqTs := (s.time.reqTs.filter (fun x => x.1 ≠ port)) ++ [(port, s.st16)] }).sendOn (port * 4) 1 (.ptp port m)

/-- The delay request of the mechanism in use (R64, R107): that one goes with each Sync is the model's choice (DESIGN CHOICE, log
entry 100). -/
def State.delayAsk (s : State) (port : Nat) : State :=
  match fld s.srcCtl 3 2 with
  | 0 => s.askDelay port .delayReq
  | 1 => s.askDelay port .pdelayReq
  | _ => s

/-- An Announce message (R64): its master's entry is renewed, and entries that no longer qualify go. -/
def State.announced (s : State) (port source rank interval : Nat) : State :=
  let t := s.time
  let same (m : PtpMaster) : Bool := decide (m.port = port) && decide (m.source = source)
  let n := match t.masters.find? same with
    | some m => if t.st < m.heardAt + 4 * (interval * 2 ^ 40) then 2 else 1
    | none => 1
  let live := t.masters.filter (fun m => !same m && decide (t.st < m.heardAt + 4 * (m.interval * 2 ^ 40)))
  s.setTime { t with masters := live ++ [⟨port, source, rank, t.st, interval, n⟩] }

/-- The device answers peer-delay requests of a port: as the upstream end of a cadence link, or as a PTP port of the peer-to-peer
mechanism (R64, R69). -/
def State.peerAnswers (s : State) (port domain : Nat) : Bool :=
  bit s.srcCtl (16 + port) || (s.ptpOn port domain && decide (fld s.srcCtl 3 2 = 1))

/-- PTP_MESSAGE_RX (R64, R65): the device's own timestamps are ST as the message passes. As the upstream end of a cadence link it
sends a Sync with each answer to a peer-delay request (R69; how often is the model's choice: DESIGN CHOICE, log entry 100). -/
def execPtpMessageRx (port : Fin 4) (m : PtpMsg) (s : State) : Out State := s.live <|
  let p := port.val
  let s := s.heard (p * 4) 1 0
  let t := s.time
  match m with
  | .announce domain source rank interval =>
    if s.ptpOn p domain.toNat then .next (s.announced p source rank interval) else .next s
  | .sync domain source two origin corr interval =>
    if s.ptpOn p domain.toNat && s.isBest p source then
      if two then
        .next ((s.setTime { t with twoStep := (t.twoStep.filter (fun x => x.1 ≠ p)) ++ [(p, t.st, corr, interval)] }).delayAsk p)
      else .next ((s.ptpSync p t.st (origin + corr) interval).delayAsk p)
    else .next s
  | .followUp domain source origin corr =>
    if s.ptpOn p domain.toNat && s.isBest p source then
      match t.twoStep.find? (fun x => x.1 = p) with
      | some (_, at_, c, interval) =>
        .next ((s.setTime { t with twoStep := t.twoStep.filter (fun x => x.1 ≠ p) }).ptpSync p at_ (origin + c + corr) interval)
      | none => .next s
    else .next s
  | .delayResp domain source t4 corr =>
    if s.ptpOn p domain.toNat && s.isBest p source && decide (fld s.srcCtl 3 2 = 0) then
      match t.syncTs.find? (fun x => x.1 = p), t.reqTs.find? (fun x => x.1 = p) with
      | some (_, t1, t2), some (_, t3) => .next (s.setDelay p (((t2 - t1) + ((t4 : Int) - corr - t3)) / 2))
      | _, _ => .next s
    else .next s
  | .pdelayReq domain =>
    if s.peerAnswers p domain.toNat then
      let s := s.sendOn (p * 4) 1 (.ptp p (.pdelayResp s.st16 s.st16))
      .next (if bit s.srcCtl (16 + p) then s.sendOn (p * 4) 1 (.ptp p (.sync s.st16)) else s)
    else .next s
  | .pdelayResp domain t2 t3 corr =>
    if s.ptpOn p domain.toNat && decide (fld s.srcCtl 3 2 = 1) then
      match t.reqTs.find? (fun x => x.1 = p) with
      | some (_, t1) => .next (s.setDelay p ((((s.st16 : Int) - t1) - ((t3 : Int) - t2) - corr) / 2))
      | none => .next s
    else .next s

/-- One second and the pulse window in units of 2^-40 ns (R67, R68). -/
def sec40 : Nat := 10 ^ 9 * 2 ^ 40
/-- ±10 µs (R68). -/
def window40 : Nat := 10 ^ 4 * 2 ^ 40

/-- Distance of an instant from the nearest whole number of seconds after another, and whether it is one second or more. -/
def nearSecond (last now : Nat) : Nat × Bool :=
  let k := (now - last + sec40 / 2) / sec40
  (((now - last : Nat) - (k * sec40 : Nat) : Int).natAbs, decide (1 ≤ k))

/-- PPS_EDGE (R63, R67, R68, R970): every edge is timestamped; with PPS_IN_EN it marks a whole second, whose number comes from PTP
when PTP qualifies. -/
def execPpsEdge (s : State) : Out State := s.live <|
  let t := s.time
  let s := s.setRg pgTime oTimePpsInTs (word s.ns)
  let hit := match t.ppsLast with
    | none => true
    | some l => let (d, k) := nearSecond l t.st; k && decide (d ≤ window40)
  if !bit s.srcCtl 8 || !hit then .next s
  else
    let s := s.setTime { t with ppsLast := some t.st, ppsQual := true, ppsSeen := true }
    let src := s.srcNow
    let ref : Int := if src = 2 then ((t.st : Int) - t.ptpTheta + sec40 / 2) / sec40 * sec40 else ((t.st + sec40 / 2) / sec40 * sec40 : Nat)
    if src = 2 ∨ src = 4 then
      .next (s.measure src (if src = 2 then (s.bestMaster.map (·.port)).getD 0 else 0) nominalRate ((t.st : Int) - ref) (10 ^ 9))
    else .next s

/-- PPS_LOST (R68): no edge within the window of the expected second. -/
def execPpsLost (s : State) : Out State := s.live <|
  let t := s.time
  match t.ppsLast with
  | some l =>
    if bit s.srcCtl 8 && t.ppsQual && decide (l + sec40 + window40 < t.st) then
      .next ((s.setTime { t with ppsQual := false, ppsSeen := false }).setEvt pgTime 4)
    else .next s
  | none => .next s

/-- CADENCE_EXCHANGE (R69 to R71): the link delay is the mean of the last 64 exchanges, in symbol periods of 8/425 ns; the rate is
locked to the upstream device's (DEDUCED, log entry 100), and the next peer-delay request goes out. -/
def execCadenceExchange (port : Fin 4) (m : CadenceMsg) (s : State) : Out State := s.live <|
  let s := s.heard (port.val * 4) 1 0
  if s.cadPort = some port.val then
    let t := s.time
    let ds := (m.delaySymbols :: t.cadDelays).take 64
    let delay := ds.foldl (· + ·) 0 * 8 * 2 ^ 40 / (425 * ds.length)
    let theta : Int := (t.st : Int) - ((m.origin * 2 ^ 24 + delay : Nat) : Int)
    .next (((s.setTime { t with cadDelays := ds, cadAt := some (t.st, m.intervalNs) }).measure 1 port.val m.rate theta m.intervalNs).sendOn
      (port.val * 4) 1 (.ptp port.val .pdelayReq))
  else .next s

/-! ## Uncertainty (R76 to R79) -/

/-- UNC now, units of 2^-4 ns (R76 to R79): a bound, so that parts round up. -/
def State.unc (s : State) : Nat :=
  let t := s.time
  match t.sync with
  | .locked =>
    let m := (t.thetas.map Int.natAbs).foldl max 0
    min 0xFFFFFFFE ((m + 2 ^ 36 - 1) / 2 ^ 36 + s.rf pgTime oTimeAsym 31 0 + s.rf pgTime oTimeUncBase 31 0)
  | .holdover =>
    let dt := t.st - t.holdEntry
    min 0xFFFFFFFE (t.uncEntry + (s.rf pgTime oTimeHoldRate 31 0 * 16 * dt + sec40 - 1) / sec40)
  | _ => 0xFFFFFFFF

/-- HOLDOVER_ENTRY (R75, R78): no measurement for three intervals freezes the rate. -/
def execHoldoverEntry (s : State) : Out State := s.live <|
  let t := s.time
  if t.sync = .locked ∧ t.lastMeas + 3 * (t.interval * 2 ^ 40) ≤ t.st then
    let u := s.unc
    let s := s.setTime { t with uncEntry := u, holdEntry := t.st, source := 0, srcPort := 0 }
    .next (((s.setRate nominalRate t.integ).setEvt pgTime 3).syncGo .holdover)
  else .next s

/-- A write to SRC_CTL (R75, R107): with every source disabled the unit goes FREE. Another upstream port starts a new mean of link
delays. SOURCE, SRC_PORT and PPS_SEEN of a source disabled beside another keep their values until a measurement (DESIGN CHOICE, log
entry 48). -/
def State.srcWrite (s : State) (v : Word) : State :=
  let old := s.cadPort
  let s := s.setRg pgTime oTimeSrcCtl (v &&& 0xFF0F71FE)
  let s := if s.cadPort = old then s else s.setTime { s.time with cadDelays := [], cadAt := none }
  if s.cadPort = none ∧ s.ptpAny = false ∧ bit s.srcCtl 8 = false then
    let s := s.setTime { s.time with rate := nominalRate, source := 0, srcPort := 0, ptpAt := none, cadAt := none, ppsLast := none,
                                     ppsQual := false, ppsSeen := false, masters := [] }
    (s.setRg pgTime oTimeFreqOfs 0).syncGo .free
  else s

/-! ## ST (R62, R73, R971) -/

/-- ST_NS_READ (R62). -/
def execStNsRead (s : State) : Out State := s.live <| .next (s.setTime { s.time with frac := s.st16 % 2 ^ 16 })

/-- ST_SET (R73, R106): the written value stands for the reference. -/
def execStSet (v : Word) (s : State) : Out State := s.live <|
  let new := v.toNat * 2 ^ 40
  if s.stepOk && decide (s.time.st + 1000 * 2 ^ 40 < new) then .next (s.stepBy (new - s.time.st))
  else .next (s.setEvt pgTime 2)

/-- Width of an output pulse in ns (R109). -/
def State.ppsWidth (s : State) : Nat := min 999999999 (s.rf pgTime oTimePpsOut 31 1)

/-- PPS_OUT_PULSE (R109, R971): a pulse at each ST that is a multiple of 10^9 ns. -/
def execPpsOutPulse (s : State) : Out State := s.live <|
  if bit (s.rg pgTime oTimePpsOut) 0 ∧ s.ns % 10 ^ 9 = 0 ∧ s.ns ≠ s.time.ppsOutAt then
    .next ((s.setTime { s.time with ppsOut := s.time.ppsOut + 1, ppsOutAt := s.ns }).emit (.ppsPulse s.ppsWidth))
  else .next s

/-! ## Scheduled entries (R82 to R90, R989) -/

/-- Order in which entries act (R84). -/
def SchedEnt.before (a b : SchedEnt) : Bool := decide (a.due < b.due) || (decide (a.due = b.due) && decide (a.seq < b.seq))

/-- EVENT_DELIVERY (R82): entries within 256 ns of DUE go to their targets. -/
def execEventDelivery (s : State) : Out State := s.live <|
  let (now, later) := s.time.queue.partition s.deliverNow
  .next (s.setTime { s.time with queue := later, delivered := s.time.delivered ++ sortBy SchedEnt.before now })

/-- An entry refused by its target (R89, R989). -/
def State.schedRefuse (s : State) (e : SchedEnt) : State :=
  let s := (s.count pgTime oTimeEvtRefused 1).setRg pgTime oTimeRefusedInfo (word (e.target * 2 ^ 20 + e.kind * 2 ^ 16 + e.tag))
  (s.setEvt pgTime 8).conflict e.target

/-- An entry is held at the boundary of its target's domain until it is ON (R90), also while that domain goes to or leaves RET or
OFF (DESIGN CHOICE, log entry 48); a POWER entry never is. -/
def State.schedHeld (s : State) (e : SchedEnt) : Bool :=
  match e.kind, pageDomain e.target with
  | 4, _ => false
  | _, some d => decide ((s.domAt d).st ≠ .on)
  | _, none => false

/-- What an entry acts on: admission (LAUNCH, VERSION), barriers, a power domain, the scrub schedule. -/
def SchedEnt.group (e : SchedEnt) : Nat :=
  match e.kind with
  | 3 => 1
  | 6 => 5
  | k => k

/-- Entries of one target act in one order, an entry for the whole device being one for each region; so do LAUNCH and VERSION
entries (R84, R257). -/
def SchedEnt.sameQueue (a b : SchedEnt) : Bool :=
  decide (a.target = b.target) ||
    (decide (a.group = b.group) && (decide (a.group = 1) || decide (a.target = pgDev) || decide (b.target = pgDev)))

/-- The delivered entry of these kinds that acts now: due, not held, behind no other of its order (R83, R84, R90). -/
def State.schedNext (s : State) (p : SchedEnt → Bool) : Option SchedEnt :=
  let l := (sortBy SchedEnt.before s.time.delivered).filter (fun e => decide (e.due ≤ s.st16) && !s.schedHeld e)
  l.find? (fun e => p e && !l.any (fun x => x.before e && x.sameQueue e))

/-- The entry is no longer held. -/
def State.schedTake (s : State) (e : SchedEnt) : State :=
  s.setTime { s.time with delivered := s.time.delivered.filter (fun x => x ≠ e) }

/-- The target records the ST at which an event acted (R90). -/
def State.actedNow (s : State) (target : Nat) : State :=
  s.setTime { s.time with acted := smapSet (fun _ => 0) s.time.acted target s.st16 }

/-- Let the next entry of these kinds act: the target's effect, or nothing if the target refuses it. -/
def State.schedAct (s : State) (p : SchedEnt → Bool) (f : SchedEnt → State → Option State) : State :=
  match s.schedNext p with
  | none => s
  | some e =>
    let s := s.schedTake e
    match f e s with
    | some t => t.actedNow e.target
    | none => s.schedRefuse e

/-- LAUNCH_EVENT (R809): a slot HELD with the all-ones ADMIT_ST is admitted; while a region it names is not released it
waits for the release (R895). -/
def execLaunchEvent (s : State) : Out State := s.live <|
  .next (s.schedAct (fun e => decide (e.kind = 1)) (fun e t =>
    let i := e.arg % 2 ^ 12
    let a := t.slotAt i
    if e.arg / 2 ^ 12 ≠ 0 ∨ a.st ≠ .held ∨ a.admitSt ≠ word allBits then none
    else if t.admReady i then some (t.admitRun i)
    else some (t.putSlot i { a with admitSt := word t.ns })))

/-- BARRIER_EVENT (R657, R90): in a region whose fabric is not ON the barrier is held, in its order of entry. -/
def execBarrierEvent (s : State) : Out State := s.live <|
  .next (s.schedAct (fun e => decide (e.kind = 2)) (fun e t =>
    if e.arg / 2 ^ 12 ≠ 0 then none
    else if e.target = pgDev then
      some ((List.range 12).foldl (fun u r =>
        if (u.domAt (156 + r)).st = .on then u.barrier r e.arg
        else u.setTime { u.time with delivered := u.time.delivered ++ [{ e with target := pgDisp r }] }) t)
    else some (t.barrier (e.target % 1024) e.arg)))

/-- Who reads the descriptor for a version switch. -/
def versionWho : Who := .ring 4224

/-- Switch a table to a slot (R246, R252): CUR, and the former CURRENT slot drains. false while a write waits. -/
def State.versionSwitch (s : State) (id k : Nat) (d : List Byte) : Bool × State :=
  let r := tdRegion d
  let old := tdCur d
  match s.tdSetState r versionWho id d k svCurrent with
  | (false, s) => (false, s)
  | (true, s) =>
    let (_, s) := s.tdPut r versionWho id 0x20 (setFld (wordAt d 0x20) 2 0 k)
    if tdState d old = svCurrent then
      let n := tdPins d old
      let (_, s) := s.tdSetState r versionWho id d old (if n = 0 then svFree else svDraining)
      (true, (if n = 0 then s.slotGone id old else s).setEvt (tdPage d) 0)
    else (true, s.setEvt (tdPage d) 0)

/-- Region through which a VERSION entry reads the descriptor: that of its EMB instance, the lowest for the device (R255). -/
def SchedEnt.region (e : SchedEnt) : Nat := if e.target = pgDev then 0 else e.target % 1024

/-- A VERSION entry (R252 to R258): it goes on waiting while a read or write of the descriptor waits on a fault. `pause` is what comes
before the switch, `after` what a completed one adds, `refused` what a refused one does. -/
def State.versionAct (s : State) (p : SchedEnt → Bool) (homed : List Byte → SchedEnt → Bool) (pause refused : State → State)
    (after : SchedEnt → State → State) : State :=
  match s.schedNext p with
  | none => s
  | some e =>
    let id := e.arg % 2 ^ 10
    let k := e.arg / 2 ^ 10 % 8
    let refuse (s : State) : State := (refused (s.schedTake e)).schedRefuse e
    if s.parkedAt e.region versionWho then s
    else if e.arg / 2 ^ 13 ≠ 0 then refuse s
    else match s.tdFind e.region versionWho id with
      | (.wait, s) => s
      | (.bad, s) => refuse (s.tblBad 0)
      | (.ok d, s) =>
        if !homed d e then refuse s
        else if tdState d k ≠ svReady then refuse ((s.count (tdPage d) oEmbSlotConflict 1).setEvt (tdPage d) 5)
        else match (pause s).versionSwitch id k d with
          | (false, s) => s
          | (true, s) => after e ((s.schedTake e).actedNow e.target)

/-- VERSION_REGION_SWITCH (R252, R253, R258). -/
def execVersionRegionSwitch (s : State) : Out State := s.live <|
  .next (s.versionAct (fun e => decide (e.kind = 3) && decide (e.target ≠ pgDev)) (fun d e => decide (tdHome d = e.target % 1024))
    id id (fun e t => t.count (pgEmb (e.target % 1024)) oEmbSwitches 1))

/-- Admission pauses in every region, or resumes (R255). -/
def State.pauseSet (s : State) (on : Bool) : State := s.setHost { s.host with inPause := on }

/-- VERSION_DEVICE_SWITCH (R253 to R258): admission pauses, CUR is written, admission resumes; a write that waits on a fault leaves
the pause in force until the command is given again. The length recorded is a free value of at most 45 whole ns (assumption 49). -/
def execVersionDeviceSwitch (s : State) : Out State := s.live <|
  .next (s.versionAct (fun e => decide (e.kind = 3) && decide (e.target = pgDev)) (fun _ _ => true) (fun t => t.pauseSet true)
    (fun t => t.pauseSet false) (fun _ t =>
      let (v, t) := (t.pauseSet false).draw
      (List.range 12).foldl (fun u r => (u.setRg (pgEmb r) oEmbSwitchPauseNs (word (v % 46))).count (pgEmb r) oEmbSwitches 1) t))

/-- POWER_EVENT (R90, R826). -/
def execPowerEvent (s : State) : Out State := s.live <|
  match s.schedNext (fun e => decide (e.kind = 4)) with
  | none => .next s
  | some e =>
    let s := s.schedTake e
    if e.arg / 4 ≠ 0 then .next (s.schedRefuse e)
    else match s.pwrdReq (e.target % 1024) e.arg with
      | (true, s) => .next (s.actedNow e.target)
      | (false, s) => .next (s.schedRefuse e)

/-- Open or close the scrub window of the target's stacks (R856). -/
def State.scrubWin (s : State) (target : Nat) (v : Nat) : State :=
  (if target = pgDev then List.range 12 else [target % 1024]).foldl (fun t n => t.setRf (pgRegion n) oRegionScrubState 0 0 v) s

/-- SCRUB_OPEN (R81, R856). -/
def execScrubOpen (s : State) : Out State := s.live <|
  .next (s.schedAct (fun e => decide (e.kind = 5)) (fun e t => if e.arg ≠ 0 then none else some (t.scrubWin e.target 1)))

/-- SCRUB_CLOSE (R81, R856). -/
def execScrubClose (s : State) : Out State := s.live <|
  .next (s.schedAct (fun e => decide (e.kind = 6)) (fun e t => if e.arg ≠ 0 then none else some (t.scrubWin e.target 0)))

end Sys2Proof.Machine
end

