-- ==== Sys2Proof/Machine/Boot.lean ====
section
/-! DEFINITION. Boot (R888 to R909), firmware in service (R915 to R923), service cores and their watchdog (R53, R926), and the
reset of the device (R915, R966). -/

namespace Sys2Proof.Machine

/-! ## Items (R899 to R904) -/

/-- Key of an item slot: half h (0 A, 1 B), kind k. -/
def itemKey (h k : Nat) : Nat := h * 16 + k
/-- Bytes of the item in a slot of the flash; none where its directory entry has size 0 (R899). -/
def State.item (s : State) (h k : Nat) : List Byte := smapGet (fun _ => []) s.flash.items (itemKey h k)
/-- The flash with an item slot written. -/
def State.putItem (s : State) (h k : Nat) (b : List Byte) : State :=
  s.setFlash { s.flash with items := smapSet (fun _ => []) s.flash.items (itemKey h k) b }

/-- Offset of the payload (R901). -/
def payOff : Nat := 0x4400
/-- VERSION (R901). -/
def itVersion (b : List Byte) : Nat := leAt b 8 4
/-- SVN (R901). -/
def itSvn (b : List Byte) : Nat := leAt b 0x0C 2
/-- LENGTH (R901). -/
def itLength (b : List Byte) : Nat := leAt b 0x10 4
/-- KEY_IDX (R901). -/
def itKey (b : List Byte) : Nat := leAt b 0x18 1
/-- The payload. -/
def itPayload (b : List Byte) : List Byte := sliceB b payOff (itLength b)

/-- MAGIC, HDR_VER and KIND are correct, every reserved bit is 0, and the payload is there (R901, R902). -/
def itHeader (k : Nat) (b : List Byte) : Bool :=
  decide (leAt b 0 4 = 0x5A474649) && decide (leAt b 4 1 = 1) && decide (fld (wordAt b 0) 43 40 = k) && decide (fld (wordAt b 0) 63 44 = 0) &&
    decide (leAt b 0x0E 2 = 0) && decide (leAt b 0x14 4 = 0) && allZero (sliceB b 0x19 7) && allZero (sliceB b 0x90 0x70) &&
    decide (payOff + itLength b ≤ b.length)

/-- Role bit of the key a kind needs (R899). -/
def itRole (k : Nat) : Nat := if k = 2 then 1 else if k = 3 then 2 else 0

/-- The key an item names has the role its kind requires (R899, R902): the root key for KEYS, an entry of KEYS for the others,
no key for CERTS (R903). -/
def itKeyOk (keys : List Byte) (k : Nat) (b : List Byte) : Bool :=
  if k = 1 then decide (itKey b = 0)
  else if k = 9 then decide (itKey b = 0xFF) && allZero (sliceB b 0x100 (payOff - 0x100))
  else (List.range 16).any (fun i =>
    let e := sliceB (itPayload keys) (448 * i) 448
    decide (itKey b ≠ 0) && decide (448 * i < itLength keys) && decide (leAt e 0 1 = itKey b) && (leAt e 1 1).testBit (itRole k))

/-- MIN_SVN of a kind in a configuration payload (R907). -/
def minSvn (cfg : List Byte) (k : Nat) : Nat :=
  if k ≤ 4 then leAt cfg (0x18 + 2 * (k - 1)) 2 else if k ≤ 8 then leAt cfg (0x30 + 2 * (k - 5)) 2 else 0

/-- An item verifies under running KEYS and a CONFIG payload (R902, R903). `sig` says that both signatures and the payload hash
hold. -/
def itOk (keys cfg : List Byte) (k : Nat) (sig : Bool) (b : List Byte) : Bool :=
  itHeader k b && itKeyOk keys k b && sig && (decide (k = 9) || decide (minSvn cfg k ≤ itSvn b))

/-- Interface entries of a header: interface and level (R901). -/
def itFaces (b : List Byte) (off : Nat) : List (Nat × Nat) :=
  ((List.range 8).map (fun i => (leAt b (off + 4 * i) 2, leAt b (off + 4 * i + 2) 2))).filter (fun e => e ≠ (0, 0))

/-- A set of images of kinds 4 to 8 is tested (R904). -/
def setTested (compat : List Byte) (set : List (List Byte)) : Bool :=
  let idx := List.range 5
  idx.all (fun i => (itFaces (set.getD i []) 0x70).all (fun n => idx.any (fun j =>
    decide (j ≠ i) && (itFaces (set.getD j []) 0x50).any (fun p => decide (p.1 = n.1) && decide (n.2 ≤ p.2))))) &&
    (List.range (itLength compat / 32)).any (fun e => idx.all (fun i =>
      decide (leAt (itPayload compat) (32 * e + 4 * i) 4 = itVersion (set.getD i []))))

/-! ## Measurements (R923, R927) -/

/-- Write measurement j of an item: digest, VERSION, slot, SPDM index, ST. -/
def State.measPut (s : State) (j index slot : Nat) (b : List Byte) : State :=
  let d := digestBytes (b.take 0x100 ++ itPayload b)
  let o := oSecMeas + 64 * j
  let s := (List.range 6).foldl (fun t i => t.setRg pgSec (o + 8 * i) (wordAt d (8 * i))) s
  (s.setRg pgSec (o + 48) (word (index * 2 ^ 40 + slot * 2 ^ 32 + itVersion b))).setRg pgSec (o + 56) (word s.ns)

/-- A measurement is written again after boot (R927). -/
def State.measAgain (s : State) (j index slot : Nat) (b : List Byte) : State :=
  ((s.measPut j index slot b).count pgSec oSecMeasChg 1).setEvt pgSec 2

/-! ## Slots (R905, R928) -/

/-- State of a firmware slot. -/
def State.fwSlot (s : State) (h k : Nat) : FwSlot := smapGet (fun _ => FwSlot.empty) s.dev.slots (itemKey h k)
/-- State of a firmware slot replaced. -/
def State.putFwSlot (s : State) (h k : Nat) (v : FwSlot) : State :=
  s.setDev { s.dev with slots := smapSet (fun _ => FwSlot.empty) s.dev.slots (itemKey h k) v }

/-- Slot in use of a kind. -/
def State.useOf (s : State) (k : Nat) : Nat := b2n (s.dev.active.testBit k)
/-- The item in use of a kind. -/
def State.itemUse (s : State) (k : Nat) : List Byte := s.item (s.useOf k) k
/-- Put a slot in use. -/
def State.setUse (s : State) (k h : Nat) : State :=
  s.setDev { s.dev with active := (s.dev.active - b2n (s.dev.active.testBit k) * 2 ^ k) + h % 2 * 2 ^ k }

/-- The device record in force. -/
def State.recNow (s : State) : RecSt := ((s.flash.inForce).map (·.2)).getD RecSt.reset

/-- Choose the slot of a kind at boot (R905): the record's, or the other one; a slot that holds an item and fails is BAD. -/
def State.bootPick (s : State) (k : Nat) (ok : Nat → List Byte → Bool) : Option Nat × State :=
  let h := b2n (s.recNow.next.testBit k)
  let good (h : Nat) : Bool := !(s.item h k).isEmpty && ok h (s.item h k)
  let s := [0, 1].foldl (fun t i => if (s.item i k).isEmpty then t else t.putFwSlot i k (if good i then .staged else .bad)) s
  let pick := if good h then some h else if good (1 - h) then some (1 - h) else none
  match pick with
  | some i => (some i, (s.setUse k i).putFwSlot i k .active)
  | none => (none, s)

/-! ## Service states at boot (R888, R904, R909) -/

/-- SAFE with a cause bit. -/
def State.toSafe (s : State) (cause : Nat) : State := (s.setCause cause true).devGo .safe
/-- STOPPED with a cause bit. -/
def State.toStopped (s : State) (cause : Nat) : State := (s.setCause cause true).devGo .stopped

/-- The loader compares the leaf of CERTS with the derived key once it has both (R909). -/
def State.idCheck (s : State) : State :=
  if s.dev.id = .ready ∧ s.dev.leafOk = some false then
    let s := s.setDev { s.dev with id := .mismatch }
    if s.dev.st = .boot then s.toSafe 9 else s
  else s

/-- IDENTITY_READY (R908, R909). -/
def execIdentityReady (digest : BitVec 384) (s : State) : Out State := s.live <|
  if s.dev.id = .deriving_ then
    let s := s.setDev { s.dev with id := .ready, digest := digest.toNat }
    let b := beBytes 48 digest.toNat
    let s := (List.range 6).foldl (fun t i => t.setRg pgSec (oSecIdDigest + 8 * i) (wordAt b (8 * i))) s
    .next ((s.setEvt pgSec 0).idCheck)
  else .next s

/-! ## Boot steps (R905 to R907) -/

/-- Boot step n is completed. -/
def State.stepTo (s : State) (n : Nat) : State := (s.setDev { s.dev with step := n }).setRg pgDev oDevBootStep (word n)

/-- Step 1: the security root. -/
def State.boot1 (s : State) (f : BootFindings) : State :=
  if f.pufOk then (s.setDev { s.dev with id := .deriving_ }).stepTo 1 else s.devGo .stopped

/-- A configuration payload without a broken rule (R906, R907): bands, ID_BIND. -/
def State.cfgOk (s : State) (c : List Byte) : Bool :=
  let w := wordAt c 8
  let v := wordAt c 0x10
  decide (c.length = 0x440) && decide (fld w 21 0 + fld w 43 22 + fld v 21 0 + fld v 43 22 = 3906250) &&
    (allZero (sliceB c 0x20 16) || decide (sliceB c 0x20 16 = (beBytes 48 s.dev.digest).take 16))

/-- Some CONFIG in the flash is bound to a device (R906). -/
def State.cfgBound (s : State) : Bool := [0, 1].any (fun h => !allZero (sliceB (itPayload (s.item h 3)) 0x20 16))

/-- Step 2: the boot ROM verifies KEYS, COMPAT, CONFIG and LOADER. While a CONFIG is bound it needs the identity. -/
def State.boot2 (s : State) (f : BootFindings) : State :=
  if s.cfgBound && decide (s.dev.id = .deriving_) then s
  else
    let recs := (List.range 2).map (fun i => { s.flash.recs.getD i RecSt.reset with ok := f.recordOk.contains i })
    let s := s.setFlash { s.flash with recs := recs }
    let owner := s.recNow.owner
    let s := (s.setHost { s.host with bound := !owner.isEmpty, owner := owner }).setRg pgHcmd oHcmdOwnerId (wordAt owner 0)
    let sig (h k : Nat) : Bool := (if h = 0 then f.sigOkA else f.sigOkB).contains k
    let (keys, s) := s.bootPick 1 (fun h b => itOk [] [] 1 (sig h 1) b)
    let kb := s.itemUse 1
    let (cfg, s) := s.bootPick 3 (fun h b => itOk kb (itPayload b) 3 (sig h 3) b && s.cfgOk (itPayload b))
    let cb := itPayload (s.itemUse 3)
    let (loader, s) := s.bootPick 4 (fun h b => itOk kb cb 4 (sig h 4) b)
    let (compat, s) := s.bootPick 2 (fun h b => itOk kb cb 2 (sig h 2) b)
    if keys = none ∨ loader = none then s.toStopped 16
    else if cfg = none then s.toStopped 17
    else if itSvn kb < minSvn cb 1 then s.toStopped 16
    else
      let s := s.setDev { s.dev with untested := compat.isNone }
      let s := ((s.measPut 0 1 (s.useOf 1) kb).measPut 2 3 (s.useOf 3) (s.itemUse 3)).measPut 3 4 (s.useOf 4) (s.itemUse 4)
      (if compat.isSome then s.measPut 1 2 (s.useOf 2) (s.itemUse 2) else s).stepTo 2

/-- Registers, VLAN and DHCP enables of a link from its part of the configuration (R719, R726, R770, R907). -/
def State.cfgLink (s : State) (c : List Byte) (l : Nat) : State :=
  let o := 0x40 + 64 * l
  let w0 := wordAt c o
  let w1 := wordAt c (o + 8)
  let w4 := wordAt c (o + 32)
  let s := s.setLinkRg l oEthMac (word (fld w0 47 0))
  let s := s.setEth { s.eth with vlans := smapSet (fun _ => 0) s.eth.vlans l (if bit w0 60 then fld w0 59 48 + 1 else 0) }
  let s := s.setEth { s.eth with dhcp := smapSet (fun _ => 0) s.eth.dhcp l (fld w0 62 61) }
  let s := if bit w1 40 then
      s.setLinkRg l oEthIpv4 (word (2 ^ 40 + fld w1 39 32 * 2 ^ 32 + ofBe (sliceB c (o + 8) 4))) else s
  if bit w4 8 then
    ((s.setLinkRg l oEthIpv6Hi (wordAt c (o + 16))).setLinkRg l oEthIpv6Lo (wordAt c (o + 24))).setLinkRg l oEthIpv6Info
      (word (2 ^ 8 + fld w4 7 0))
  else s.putLink l (s.linkAt l).linkLocal

/-- A page's RWL fields become read-only (R779). -/
def State.commit (s : State) (pg : Nat) : State := s.setRf pg oPageCtl 0 0 1

/-- Step 3: the boot ROM applies CONFIG, commits its pages, and starts LOADER on service core 0. -/
def State.boot3 (s : State) : State :=
  let c := itPayload (s.itemUse 3)
  let w := wordAt c 8
  let v := wordAt c 0x10
  let gone := (List.range 768).countP (fun d => (s.pchAt d).st = .retired)
  let s := (s.setRg pgDev oDevDevNum (word (leAt c 0 2 % 2 ^ 12))).commit pgDev
  let s := (List.range 12).foldl (fun t n =>
    let pg := pgStk n
    let t := ((t.setRg pg oStkBandSpread (word (fld w 21 0))).setRg pg oStkBandDieloc (word (fld w 43 22))).setRg pg oStkBandNear (word (fld v 21 0))
    let t := (t.setRg pg oStkBandRsv (word (fld v 43 22))).commit pg
    t.setRg (pgRegion n) oRegionReserveLeft (word (768 * fld v 43 22 - 3906250 * gone))) s
  let s := (List.range 16).foldl (fun t l => t.cfgLink c l) s
  let s := (List.range 4).foldl (fun t p => t.commit (pgEth p)) s
  let s := s.putCore 0 { s.coreAt 0 with st := .running }
  (s.setDev { s.dev with started := true }).stepTo 3

/-- Version and slot a service core runs (R926). -/
def State.coreImage (s : State) (c h : Nat) : State :=
  (s.setDev { s.dev with image := smapSet (fun _ => 0) s.dev.image c h }).setRg (pgSvc c) oSvcImage (word (h * 2 ^ 32 + itVersion (s.item h 5)))

/-- The images of kinds 4 to 8 in use. -/
def State.setUsed (s : State) : List (List Byte) := (List.range 5).map (fun i => s.itemUse (4 + i))

/-- Enable and train the links of a port in its MODE: the loader brings the port up (R905, assumption 50). -/
def State.portBring (s : State) (p : Nat) : State :=
  let s := if s.rf (pgEth p) oEthCfg 7 4 = 0 then s.setRf (pgEth p) oEthCfg 7 4 1 else s
  s.portStart p

/-- Step 4: the loader loads SVC, BASE, ETH and PMC and looks the set up (R904). -/
def State.boot4 (s : State) (f : BootFindings) : State :=
  let sig (h k : Nat) : Bool := (if h = 0 then f.sigOkA else f.sigOkB).contains k
  let kb := s.itemUse 1
  let cb := itPayload (s.itemUse 3)
  let (found, s) := [5, 6, 7, 8].foldl (fun (x : Bool × State) k =>
    let (p, t) := x.2.bootPick k (fun h b => itOk kb cb k (sig h k) b)
    (x.1 && p.isSome, t)) (true, s)
  let s := s.measPut 4 5 (s.useOf 8) (s.itemUse 8)
  let s := (List.range 8).foldl (fun t c => (t.coreImage c (t.useOf 5)).measPut (5 + c) (16 + c) (t.useOf 5) (t.itemUse 5)) s
  let s := (List.range 12).foldl (fun t n =>
    (t.setDev { t.dev with image := smapSet (fun _ => 0) t.dev.image (16 + n) (t.useOf 6) }).measPut (13 + n) (32 + n) (t.useOf 6) (t.itemUse 6)) s
  let s := (List.range 4).foldl (fun t p =>
    (t.setDev { t.dev with image := smapSet (fun _ => 0) t.dev.image (32 + p) (t.useOf 7) }).measPut (25 + p) (48 + p) (t.useOf 7) (t.itemUse 7)) s
  let s := s.stepTo 4
  if s.dev.untested || !found || !setTested (s.itemUse 2) s.setUsed then (s.setDev { s.dev with untested := true }).toSafe 8
  else (s.avsStart).portBring 0

/-- Services the loader places on a core (R926). -/
def bootServices (c : Nat) : Nat :=
  match c with
  | 0 => 16
  | 1 => 8
  | 2 => 2
  | 3 => 4
  | 4 => 1
  | _ => 0

/-- A port has a link UP. -/
def State.portUp (s : State) (p : Nat) : Bool := (List.range 4).any (fun k => (s.linkAt (4 * p + k)).st = .up)

/-- A port is retired: its domain is LOCKED (R878). -/
def State.portGone (s : State) (p : Nat) : Bool := decide ((s.domAt (180 + p)).st = .locked)

/-- The port boot needs has a link UP (R893): port 0, or the lowest-numbered one that trains where port 0 is retired. -/
def State.bootPort (s : State) : Bool := s.portUp 0 || (s.portGone 0 && [1, 2, 3].any s.portUp)

/-- Step 5: services are placed, CERTS is loaded (R909), the other ports train. -/
def State.boot5 (s : State) (f : BootFindings) : State :=
  if s.bootPort then
    let s := (List.range 8).foldl (fun t c =>
      t.putCore c { t.coreAt c with st := .running, services := bootServices c }) s
    let sig (h : Nat) : Bool := (if h = 0 then f.sigOkA else f.sigOkB).contains 9
    let (certs, s) := s.bootPick 9 (fun h b => itOk [] [] 9 (sig h) b)
    let s := s.setDev { s.dev with leafOk := some (certs.isSome && f.leafOk) }
    ([1, 2, 3].foldl (fun t p => t.portBring p) (s.stepTo 5)).idCheck
  else s

/-- Every region is released or LOST. -/
def State.regionsDone (s : State) : Bool :=
  (List.range 12).all (fun r => (s.regionAt r).released || decide ((s.regionAt r).st = .lost))
/-- Every stack serves in one of two states, or is lost. -/
def State.stacksDone (s : State) (full : Bool) : Bool :=
  (List.range 12).all (fun n => let k := s.stkAt n; k.lost || decide (k.st = .full) || (!full && decide (k.st = .base)))
/-- Every configured port is UP or retired. -/
def State.portsDone (s : State) : Bool :=
  (List.range 4).all (fun p => decide (s.rf (pgEth p) oEthCfg 7 4 = 0) || s.portUp p || s.portGone p)

/-- BOOT_STEP_DONE (R905): the step after the last completed one ends with what its checks found. -/
def execBootStepDone (f : BootFindings) (s : State) : Out State := s.live <|
  let boot := decide (s.dev.st = .boot)
  match s.dev.step with
  | 0 => .next (if boot then s.boot1 f else s)
  | 1 => .next (if boot then s.boot2 f else s)
  | 2 => .next (if boot then s.boot3 else s)
  | 3 => .next (if boot then s.boot4 f else s)
  | 4 => .next (if boot then s.boot5 f else s)
  | 5 => .next (if s.regionsDone && s.stacksDone false then s.stepTo 6 else s)
  | 6 => .next (if s.stacksDone true && s.portsDone then s.stepTo 7 else s)
  | _ => .next s

/-- ENTER_EARLY (R888, R893). -/
def execEnterEarly (s : State) : Out State := s.live <|
  if s.dev.st = .boot ∧ 5 ≤ s.dev.step ∧ s.dev.id = .ready ∧ s.dev.untested = false ∧ s.bootPort = true then .next (s.devGo .early)
  else .next s

/-- ENTER_FULL (R888, R890). -/
def execEnterFull (s : State) : Out State := s.live <|
  if s.dev.st = .early ∧ s.regionsDone = true ∧ s.stacksDone true = true ∧ s.portsDone = true then
    .next (s.devGo (if s.degrading then .degraded else .full))
  else .next s

/-! ## Regions (R24, R894) -/

/-- The map of a region in the repair records; without one the clusters stand in order and the last is the spare
(assumption 51). -/
def State.mapOf (s : State) (r : Nat) : List Nat := s.recNow.maps.getD r (List.range 12)

/-- Clusters of a released region: mapped ones serve, retired ones are LOCKED, the others are spares in OFF (R24, R872,
R885). -/
def State.cluSetup (s : State) (r : Nat) : State :=
  (List.range 13).foldl (fun t k =>
    let c := 13 * r + k
    if (t.regionAt r).map.contains k then t.putClu c { t.cluAt c with st := .service }
    else if s.recNow.gone.contains c then (t.putClu c { t.cluAt c with st := .retired }).domGo c .locked
    else (t.putClu c { t.cluAt c with st := .spare }).domGo c .off) s

/-- REGION_RELEASE (R894, R905): regions in ascending order; one whose self-test fails is LOST. -/
def execRegionRelease (r : Region) (pass : Bool) (s : State) : Out State := s.live <|
  let g := s.regionAt r.val
  let mine := decide (4 ≤ s.dev.step) && !g.released && decide (g.st ≠ .lost) &&
    (List.range r.val).all (fun q => (s.regionAt q).released || decide ((s.regionAt q).st = .lost)) &&
    (decide (s.dev.st = .boot) || decide (s.dev.st = .early))
  if !mine then .next s
  else if pass then
    let s := (s.putRegion r.val { g with released := true, map := s.mapOf r.val }).cluSetup r.val
    .next (s.setEvt pgDev 1)
  else .next (s.regionLost r.val)

/-! ## FWM (R916 to R922, R928) -/

/-- FWM state: IDLE 0, WRITING 1, ACTIVATING 2 (R928). -/
def State.fwmState (s : State) : Nat := if s.dev.pendW.isSome then 1 else if s.dev.rollout.isSome then 2 else 0

/-- Note a refusal in LAST_REFUSE (R928). -/
def State.fwmLast (s : State) (k reason : Nat) : State := s.setRg pgFwm oFwmLastRefuse (word (reason * 16 + k))

/-- A command refused per R917 or R919. -/
def State.fwmRefuse (s : State) (k reason : Nat) : State := ((s.fwmLast k reason).count pgFwm oFwmRefused 1).setEvt pgFwm 2

/-- The images a new one of kind k would join: those of the record's next boot (R904, R916). -/
def State.joinSet (s : State) (k : Nat) (b : List Byte) (pick : Nat → Nat) : List (List Byte) :=
  (List.range 5).map (fun i => if 4 + i = k then b else s.item (pick (4 + i)) (4 + i))

/-- COMPAT against which a set is looked up: a new COMPAT counts itself. -/
def State.joinCompat (s : State) (k : Nat) (b : List Byte) : List Byte := if k = 2 then b else s.itemUse 2

/-- The set an item would join is tested (R904, R916). In SAFE, where every activation waits for the next boot (R921), the other
staged images may be part of it. -/
def State.joinTested (s : State) (k : Nat) (b : List Byte) : Bool :=
  let next := s.recNow.next
  let ok (m : Nat) : Bool := setTested (s.joinCompat k b) (s.joinSet k b (fun j =>
    let h := b2n (next.testBit j)
    if m.testBit (j - 4) && (decide (s.fwSlot (1 - h) j = .staged) || decide (s.fwSlot (1 - h) j = .untested)) then 1 - h else h))
  if s.dev.st = .safe then (List.range 32).any ok else ok 0

/-- The inactive slot of a kind. -/
def State.idleSlot (s : State) (k : Nat) : Nat := 1 - s.useOf k

/-- Look every STAGED or UNTESTED slot up again (R918). -/
def State.restage (s : State) : State :=
  (List.range 10).foldl (fun t k =>
    let h := t.idleSlot k
    if t.fwSlot h k = .staged ∨ t.fwSlot h k = .untested then
      t.putFwSlot h k (if t.joinTested k (t.item h k) then .staged else .untested)
    else t) s

/-- FW_WRITE (R915, R916): a bad item is refused and its slot is BAD; a good one is written, and the command completes when the
flash has it. -/
def execFwWrite (src : CmdSrc) (sigOk : Bool) (s : State) : Out State := s.live <|
  .next (s.runMgmt src 0x38 [0xF, allBits, 0xFFFFFFFF] (fun ws w t =>
    let k := fld (ws.getD 1 0) 3 0
    if t.fwmState ≠ 0 then (some (.conflict pgFwm t.fwmState), t.fwmRefuse k 3)
    else if k = 0 ∨ 9 < k then (some (.invalid pgFwm), t)
    else match t.cmdRead w (ws.getD 2 0).toNat (fld (ws.getD 3 0) 31 0) with
      | (none, t) => (none, t)
      | (some (b, bad), t) =>
        if !bad && itOk (t.itemUse 1) (itPayload (t.itemUse 3)) k sigOk b then
          let t := t.setDev { t.dev with pendW := some (k, b, cmdRing src, fld (ws.getD 0 0) 63 32) }
          (none, t.setPins { t.pins with spiWp := true })
        else (some (.desc pgFwm 0), (t.putFwSlot (t.idleSlot k) k .bad).fwmLast k 4)))

/-- FW_WRITE_COMPLETE (R916): the item and its directory entry have been written and read back. -/
def execFwWriteComplete (readBackOk : Bool) (s : State) : Out State := s.live <|
  match s.dev.pendW with
  | none => .next s
  | some (k, b, ring, cmdId) =>
    let h := s.idleSlot k
    let s := (s.setDev { s.dev with pendW := none }).setPins { s.pins with spiWp := false }
    let s := (s.putItem h k b).count pgHcmd oHcmdCmds 1
    if readBackOk then
      let s := s.putFwSlot h k (if s.joinTested k b then .staged else .untested)
      let s := if s.dev.st = .safe then s.restage else s
      .next (((s.count pgFwm oFwmWrites 1).setEvt pgFwm 0).cplOut ring 0 cmdId (.ok pgFwm 0))
    else .next (((s.putFwSlot h k .bad).fwmLast k 4).cplOut ring 0 cmdId (.desc pgFwm 0))

/-- The record names a slot for the next boot, and with `now` as the active one too (R900, R918). -/
def State.recSlot (s : State) (k h : Nat) (now : Bool) : State :=
  let put (v : Nat) : Nat := (v - b2n (v.testBit k) * 2 ^ k) + h % 2 * 2 ^ k
  s.recCommit (fun r => { r with next := put r.next, active := if now then put r.active else r.active })

/-- The parts a rollout moves, in order: service cores 0 to 7, base dies 16 to 27, ports 32 to 35 (R918). -/
def State.rollParts (s : State) (k : Nat) : List Nat :=
  if k = 5 then (List.range 8).filter (fun c => (s.coreAt c).st ≠ .off ∧ (s.coreAt c).st ≠ .retired)
  else if k = 6 then (List.range 12).map (· + 16)
  else ((List.range 4).filter (fun p => !s.portGone p)).map (· + 32)

/-- PROGRESS (R928). -/
def State.rollShow (s : State) : State :=
  match s.dev.rollout with
  | some x => s.setRg pgFwm oFwmProgress (word (x.total * 2 ^ 16 + x.done * 2 ^ 8 + x.kind))
  | none => s.setRg pgFwm oFwmProgress 0

/-- Services move off a core to the lowest-numbered other core in service, which wakes for them (R53, R827, R918). -/
def State.coreMove (s : State) (c : Nat) : State :=
  let v := s.coreAt c
  match (List.range 8).find? (fun d => decide (d ≠ c) && decide ((s.coreAt d).st = .running)) with
  | some d =>
    if v.services = 0 then s
    else
      let w := s.coreAt d
      ((s.putCore c { v with services := 0 }).putCore d { w with services := w.services ||| v.services }).demand (188 + d) pgFwm
  | none => s

/-- A part starts to reload: a core restarts, a port's links go DOWN (R918). -/
def State.partStart (s : State) (x : Nat) : State :=
  if x < 8 then
    let s := s.coreMove x
    ((s.putCore x { s.coreAt x with st := .restarting, fails := 0 }).count (pgSvc x) oSvcRestarts 1).setEvt (pgSvc x) 0
  else if 32 ≤ x then (List.range 4).foldl (fun t l => t.linkDown ((x - 32) * 4 + l)) s
  else s

/-- A part runs an image: measurement, IMAGE, a port trains again (R918, R923). -/
def State.partRun (s : State) (x h : Nat) : State :=
  let s := s.setDev { s.dev with image := smapSet (fun _ => 0) s.dev.image x h }
  if x < 8 then
    let s := (s.coreImage x h).measAgain (5 + x) (16 + x) h (s.item h 5)
    if (s.coreAt x).st = .restarting then s.putCore x { s.coreAt x with st := .running } else s
  else if x < 32 then s.measAgain (x - 3) (x + 16) h (s.item h 6)
  else (s.measAgain (x - 7) (x + 16) h (s.item h 7)).portStart (x - 32)

/-- An activation ends in success (R918, R928). -/
def State.rollEnd (s : State) (k : Nat) : State :=
  let h := s.idleSlot k
  let s := s.setDev { s.dev with rollout := none }
  let s := ((s.putFwSlot (1 - h) k .staged).putFwSlot h k .active).setUse k h
  ((s.restage.rollShow).count pgFwm oFwmActivations 1).setEvt pgFwm 1

/-- An activation fails (R920): the record goes back, the parts moved return to the old image, the new slot is BAD. -/
def State.rollFail (s : State) (x : Rollout) : State :=
  let h := s.idleSlot x.kind
  let parts := (s.rollParts x.kind).take (x.done + 1)
  let s := parts.foldl (fun t p => if smapGet (fun _ => 0) t.dev.image p = h ∨ (t.coreAt p).st = .restarting ∧ p < 8 ∨ 32 ≤ p then t.partRun p (1 - h) else t) s
  let s := (s.recSlot x.kind (1 - h) true).putFwSlot h x.kind .bad
  ((s.setDev { s.dev with rollout := none }).rollShow.count pgFwm oFwmActFail 1).setEvt pgFwm 3

/-- COMPAT takes effect at once (R918): its measurement, and every slot is looked up again. -/
def State.compatUse (s : State) : State :=
  let h := s.idleSlot 2
  let s := ((s.putFwSlot (1 - h) 2 .staged).putFwSlot h 2 .active).setUse 2 h
  (((s.measAgain 1 2 h (s.item h 2)).restage).count pgFwm oFwmActivations 1).setEvt pgFwm 1

/-- Kinds that activate only at the next boot (R918). -/
def bootOnly (k : Nat) : Bool := decide (k = 1) || decide (k = 3) || decide (k = 4) || decide (k = 8) || decide (k = 9)

/-- FW_ACTIVATE (R917 to R921): accepted or refused at once. -/
def execFwActivate (src : CmdSrc) (s : State) : Out State := s.live <|
  .next (s.runMgmt src 0x39 [0x1F] (fun ws _ t =>
    let k := fld (ws.getD 1 0) 3 0
    let later := bit (ws.getD 1 0) 4 || decide (t.dev.st = .safe)
    let h := t.idleSlot k
    let v := t.fwSlot h k
    if k = 0 ∨ 9 < k then (some (.invalid pgFwm), t)
    else if t.fwmState ≠ 0 then (some (.conflict pgFwm t.fwmState), t.fwmRefuse k 3)
    else if v ≠ .staged then (some (.conflict pgFwm v.code), t.fwmRefuse k (if v = .untested then 1 else 2))
    else if later then (some (.ok pgFwm 0), t.recSlot k h false)
    else if bootOnly k then (some (.conflict pgFwm v.code), t.fwmRefuse k 2)
    else if k = 2 then
      if setTested (t.item h 2) t.setUsed then (some (.ok pgFwm 0), (t.recSlot k h true).compatUse)
      else (some (.conflict pgFwm FwSlot.untested.code), t.fwmRefuse k 1)
    else
      let parts := t.rollParts k
      let t := (t.recSlot k h true).setDev { t.dev with rollout := some ⟨k, 0, parts.length, 1 - h⟩ }
      let t := t.rollShow
      (some (.ok pgFwm 0), match parts with
        | [] => t.rollEnd k
        | x :: _ => t.partStart x)))

/-- ACTIVATION_PART_DONE (R918, R920). -/
def execActivationPartDone (rep : PartReport) (s : State) : Out State := s.live <|
  match s.dev.rollout with
  | none => .next s
  | some x =>
    let parts := s.rollParts x.kind
    match rep, parts[x.done]? with
    | .ready, some p =>
      let s := s.partRun p (s.idleSlot x.kind)
      let s := (s.setDev { s.dev with rollout := some { x with done := x.done + 1 } }).rollShow
      .next (match parts[x.done + 1]? with
        | some q => s.partStart q
        | none => s.rollEnd x.kind)
    | .ready, none => .next (s.rollEnd x.kind)
    | .failed, _ => .next (s.rollFail x)

/-! ## Service cores (R53, R920, R922, R926) -/

/-- SVC_WATCHDOG (R53): the core is reset and its services restart on it, those of a retired core on another; the second failure on a new image fails the
activation (R920). -/
def execSvcWatchdog (core : Fin 8) (s : State) : Out State := s.live <|
  let c := core.val
  let v := s.coreAt c
  let pg := pgSvc c
  if v.st = .off ∨ (v.st = .retired ∧ v.services = 0) ∨ s.ns < (s.rg pg oSvcHeartbeat).toNat + max 1000 (s.rf pg oSvcWdog 31 0) * 1000 then .next s
  else
    let st := if v.st = .retired then .retired else .restarting
    let s := (s.putCore c { v with st := st, fails := v.fails + 1 }).error pg ⟨2, false, 0x0501, pg, 0, 0⟩
    let s := (s.count pg oSvcRestarts 1).setEvt pg 0
    let s := s.setRg pg oSvcHeartbeat (word s.ns)
    if v.st = .retired then .next (s.coreMove c)
    else match s.dev.rollout with
    | some x =>
      if x.kind = 5 ∧ 2 ≤ v.fails + 1 ∧ (smapGet (fun _ => 0) s.dev.image c = s.idleSlot 5 ∨ (s.rollParts 5)[x.done]? = some c) then
        .next (s.rollFail x)
      else .next s
    | none => .next s

/-- CORE_RESTART_DONE (R53, R926): the services resume from their last committed records. -/
def execCoreRestartDone (core : Fin 8) (s : State) : Out State := s.live <|
  let c := core.val
  let v := s.coreAt c
  let rolling := s.dev.rollout.any (fun x => decide (x.kind = 5) && decide ((s.rollParts 5)[x.done]? = some c))
  if v.st = .restarting ∧ rolling = false then
    .next ((s.putCore c { v with st := .running }).setRg (pgSvc c) oSvcHeartbeat (word s.ns))
  else .next s

/-! ## STOP and RESET (R888, R915) -/

/-- STOP (R888, R915). -/
def execStop (src : CmdSrc) (s : State) : Out State := s.live <|
  .next (s.runMgmt src 0x3A [] (fun _ _ t =>
    if t.dev.st = .stopped then (some (.conflict pgDev 5), t)
    else (some (.ok pgDev 0), t.toStopped 19)))

/-- What a stack keeps over a reset: the repair records, which the service commits to flash (R857, R900). -/
def StkSt.keep (k : StkSt) : StkSt := { StkSt.reset with patch := k.patch, rowFails := k.rowFails, marked := k.marked }

/-- The device is reset and held (R965, R966): its flash, its pins, the repair records, retired pseudo-channels and the private
area of the stacks remain (R991); what the model has sent and its queue of commands are no part of the device. -/
def State.resetAll (s : State) (cause : Nat) : State :=
  let z := (List.range 12).foldl (fun t n => t.stackZero n) s
  { State.reset with
    pending := s.pending
    flash := s.flash
    dram := z.dram
    out := s.out
    free := s.free
    stk := (s.stk.map (fun e => (e.1, e.2.keep))).filter (fun e => e.2 ≠ StkSt.reset)
    pch := (s.pch.filter (fun e => e.2.st = .retired)).map (fun e => (e.1, { PchSt.reset with st := .retired }))
    pins := { s.pins with held := true, cause := cause, spiQuad := false, spiWp := false, avs := PinSt.reset.avs, avsAt := PinSt.reset.avsAt } }

/-- RESET (R915, R924): the completion leaves, then the device is reset with cause 2. -/
def execReset (src : CmdSrc) (s : State) : Out State := s.live <|
  let t := s.runMgmt src 0x3B [] (fun _ _ t => (some (.ok pgDev 0), t.setPins { t.pins with held := true }))
  .next (if t.pins.held then t.resetAll 2 else t)

/-- The pins once the device leaves reset (R966): RESET_N has been high for 1 µs, every reference clock is detected, and a
test instruction that acts only in reset acts as BYPASS (R977). -/
def PinSt.release (p : PinSt) : PinSt :=
  { p with held := false, resetN := true, clk100 := [true, true, true], clkEth := [true, true, true, true],
           jtag := match p.jtag with
             | .extest => .bypass
             | .clamp => .bypass
             | .highz => .bypass
             | i => i }

/-- The boot ROM reads the flash's SFDP table, then goes to quad I/O DTR (R974). -/
def State.spiStart (s : State) : State :=
  let s := (s.emit (.spi false)).emit (.spi true)
  s.setPins { s.pins with spiQuad := true }

/-- RESET_RELEASE (R61, R888, R924, R966, R974): RESET_N and the clocks allow it and PWR_OK is high: the device enters BOOT, ST counts
from 0, and the boot ROM opens the flash. -/
def execResetRelease (s : State) : Out State :=
  if s.pins.held && s.pins.pwrOk then
    .next ((s.setPins s.pins.release).setRg pgDev oDevResetCause (word s.pins.cause)).spiStart
  else .next s

end Sys2Proof.Machine
end

