-- ==== Sys2Proof/Machine/Spdm.lean ====
section
/-! DEFINITION. SPDM (R910 to R914, R923): the messages the responder supports, their order, sessions. The fields of the
standard that the spec does not restate are not modelled; a response carries its code and the data the spec names. -/

namespace Sys2Proof.Machine

/-- SPDM connection of a port. -/
def State.connAt (s : State) (p : Nat) : SpdmConn := smapGet (fun _ => SpdmConn.reset) s.conns p
/-- SPDM connection replaced. -/
def State.putConn (s : State) (p : Nat) (v : SpdmConn) : State := s.setConns (smapSet (fun _ => SpdmConn.reset) s.conns p v)
/-- Session of a source. -/
def spdmSess : SpdmSrc → Option Nat
  | .plain _ => none
  | .secured k => some k.val

/-- Answer a message (R910, R927). -/
def State.spdmSay (s : State) (src : SpdmSrc) (code : Nat) (data : List Byte) : State :=
  (s.count pgSec oSecSpdmMsgs 1).emit (.spdm (spdmSess src) code data)

/-- Answer with ERROR and an error code: 0x01 InvalidRequest, 0x03 Busy, 0x04 UnexpectedRequest. -/
def State.spdmErr (s : State) (src : SpdmSrc) (e : Nat) : State := (s.count pgSec oSecSpdmErr 1).spdmSay src 0x7F [BitVec.ofNat 8 e]

/-- A message is accepted where it stands: on a plain connection in one of these phases, in a session that is established. -/
def State.spdmReady (s : State) (src : SpdmSrc) (p : Nat → Bool) : Bool :=
  match src with
  | .plain q => p (s.connAt q.val).phase
  | .secured k => (s.sessAt k.val).open_ && (s.sessAt k.val).finished

/-- Answer a message that needs a negotiated connection. -/
def State.spdmAfter (s : State) (src : SpdmSrc) (f : State → State) : State :=
  if s.spdmReady src (fun n => decide (n = 3)) then f s else s.spdmErr src 4

/-- Certificate chain of slot 0: the CERTS item in use (R898, R910). -/
def State.certChain (s : State) : List Byte := itPayload (s.itemUse 9)

/-- GET_VERSION (R910): version 1.3; the negotiation of the connection starts anew. -/
def execGetVersion (src : SpdmSrc) (s : State) : Out State := s.live <|
  match src with
  | .plain p => .next ((s.putConn p.val ⟨1⟩).spdmSay src 0x04 [0x13])
  | .secured _ => .next (s.spdmErr src 4)

/-- GET_CAPABILITIES (R910). -/
def execGetCapabilities (src : SpdmSrc) (s : State) : Out State := s.live <|
  match src with
  | .plain p =>
    if (s.connAt p.val).phase = 1 then .next ((s.putConn p.val ⟨2⟩).spdmSay src 0x61 []) else .next (s.spdmErr src 4)
  | .secured _ => .next (s.spdmErr src 4)

/-- NEGOTIATE_ALGORITHMS (R910): the only algorithms are RSAPSS-3072, SHA-384, secp384r1 and AES-256-GCM. -/
def execNegotiateAlgorithms (src : SpdmSrc) (offered : Bool) (s : State) : Out State := s.live <|
  match src with
  | .plain p =>
    if (s.connAt p.val).phase ≠ 2 then .next (s.spdmErr src 4)
    else if offered then .next ((s.putConn p.val ⟨3⟩).spdmSay src 0x63 [])
    else .next (s.spdmErr src 1)
  | .secured _ => .next (s.spdmErr src 4)

/-- GET_DIGESTS (R910): slot 0 alone. -/
def execGetDigests (src : SpdmSrc) (s : State) : Out State := s.live <|
  .next (s.spdmAfter src (fun t => t.spdmSay src 0x01 (digestBytes t.certChain)))

/-- GET_CERTIFICATE (R910): a portion of the chain of slot 0. -/
def execGetCertificate (src : SpdmSrc) (slot : Byte) (offset len : BitVec 16) (s : State) : Out State := s.live <|
  .next (s.spdmAfter src (fun t =>
    if slot ≠ 0 ∨ t.certChain.length ≤ offset.toNat then t.spdmErr src 1
    else t.spdmSay src 0x02 ((t.certChain.drop offset.toNat).take len.toNat)))

/-- CHALLENGE (R910): the answer is signed with the identity key, on the crypto block (R827). -/
def execChallenge (src : SpdmSrc) (slot : Byte) (s : State) : Out State := s.live <|
  .next (s.spdmAfter src (fun t =>
    if slot ≠ 0 then t.spdmErr src 1
    else
      let t := t.demandNow 196 pgSec
      let d := digestBytes t.certChain
      t.spdmSay src 0x03 (d ++ Config.sign d)))

/-- Measurement j as the SEC page holds it (R927). -/
def State.measAt (s : State) (j : Nat) : List Byte := (List.range 6).flatMap (fun i => leBytes 8 (s.rg pgSec (oSecMeas + 64 * j + 8 * i)).toNat)

/-- Entry of an SPDM index (R923). -/
def measEntry (i : Nat) : Option Nat :=
  if 1 ≤ i ∧ i ≤ 5 then some (i - 1)
  else if 16 ≤ i ∧ i ≤ 23 then some (i - 11)
  else if 32 ≤ i ∧ i ≤ 43 then some (i - 19)
  else if 48 ≤ i ∧ i ≤ 51 then some (i - 23)
  else none

/-- Every measurement index in order (R923). -/
def measIndices : List Nat := (List.range 52).filter (fun i => (measEntry i).isSome)

/-- Measurement value type of an index (R923): mutable firmware, firmware configuration, freeform manifest. -/
def measType (i : Nat) : Nat := if i = 3 then 3 else if i = 1 ∨ i = 2 then 4 else 1

/-- One measurement block: index, type, digest. -/
def State.measBlock (s : State) (i : Nat) : List Byte :=
  BitVec.ofNat 8 i :: BitVec.ofNat 8 (measType i) :: s.measAt ((measEntry i).getD 0)

/-- GET_MEASUREMENTS (R923): index 0 asks for their number, 0xFF for all of them. -/
def execGetMeasurements (src : SpdmSrc) (index : Byte) (s : State) : Out State := s.live <|
  .next (s.spdmAfter src (fun t =>
    let i := index.toNat
    if i = 0 then t.spdmSay src 0x60 [BitVec.ofNat 8 measIndices.length]
    else if i = 255 then t.spdmSay src 0x60 (measIndices.flatMap t.measBlock)
    else if (measEntry i).isSome then t.spdmSay src 0x60 (t.measBlock i)
    else t.spdmErr src 1))

/-- Sessions that are open (R912, R927). -/
def State.sessOpen (s : State) : Nat := (List.range 4).countP (fun k => (s.sessAt k).open_)

/-- KEY_EXCHANGE (R910, R912, R914): a fifth session is answered Busy; the crypto block wakes (R827). -/
def execKeyExchange (src : SpdmSrc) (slot : Byte) (mutualAuth : Bool) (s : State) : Out State := s.live <|
  match src with
  | .secured _ => .next (s.spdmErr src 4)
  | .plain _ =>
    .next (s.spdmAfter src (fun t =>
      if slot ≠ 0 then t.spdmErr src 1
      else match (List.range 4).find? (fun k => !(t.sessAt k).open_) with
        | none => t.spdmErr src 3
        | some k =>
          let t := t.demandNow 196 pgSec
          let t := t.putSess k { SessSt.reset with open_ := true, auth := mutualAuth, beat := t.ns }
          t.spdmSay src 0x64 (BitVec.ofNat 8 k :: Config.sign (digestBytes t.certChain))))

/-- FINISH (R910, R914): a session that asked for mutual authentication stands only if the requester's chain verified. -/
def execFinish (src : SpdmSrc) (session : Fin 4) (verified : Bool) (chain : List Byte) (s : State) : Out State := s.live <|
  let v := s.sessAt session.val
  if !v.open_ || v.finished then .next (s.spdmErr src 4)
  else if v.auth && !verified then
    let s := (s.putSess session.val SessSt.reset).count pgSec oSecAuthFail 1
    .next ((s.setEvt pgSec 1).spdmErr src 1)
  else
    let s := s.putSess session.val { v with finished := true, verified := v.auth && verified, chain := if v.auth then chain else [] }
    .next (s.spdmSay src 0x65 [])

/-- A message of an established session. -/
def State.inSession (s : State) (k : Fin 4) (code : Nat) (f : SessSt → SessSt) : State :=
  let v := s.sessAt k.val
  if v.open_ && v.finished then (s.putSess k.val (f v)).spdmSay (.secured k) code [] else s.spdmErr (.secured k) 4

/-- HEARTBEAT (R910). -/
def execHeartbeat (session : Fin 4) (s : State) : Out State := s.live <|
  .next (s.inSession session 0x68 (fun v => { v with beat := s.ns }))

/-- KEY_UPDATE (R910). -/
def execKeyUpdate (session : Fin 4) (s : State) : Out State := s.live <|
  .next (s.inSession session 0x69 (fun v => { v with keys := v.keys + 1 }))

/-- END_SESSION (R792, R910): the end of a session does not unbind the device. -/
def execEndSession (session : Fin 4) (s : State) : Out State := s.live <| .next (s.inSession session 0x6C (fun _ => SessSt.reset))

end Sys2Proof.Machine
end

