-- ==== Sys2Proof/Machine/Telemetry.lean ====
section
/-! DEFINITION. The event log (R933 to R937, R1001), telemetry records (R938 to R941), the start of a margining report
(R942). -/

namespace Sys2Proof.Machine

/-! ## The event log -/

/-- Entries the log's ring holds: LOG_LOG acts as 8 to 20 (R954). -/
def State.logCap (s : State) : Nat := 2 ^ max 8 (min 20 (s.rf pgTel oTelLogLog 4 0))

/-- Entries written and not consumed (R937). -/
def State.logHeld (s : State) : Nat := (s.rg pgTel oTelLogTail - s.rg pgTel oTelLogHead).toNat

/-- The entry that is written next: least in ST, then source, then the order in which it was produced (R935). -/
def logFirst (q : List LogEnt) : Option LogEnt :=
  q.foldl (fun m e =>
    match m with
    | none => some e
    | some x => if before85 (e.time, e.src) (x.time, x.src) then some e else some x) none

/-- ST of an entry in ns. -/
def LogEnt.st (e : LogEnt) : Nat := e.time / 2 ^ 40

/-- What becomes of a write of the log: written, translation faults, or it waits at a stack port. -/
inductive LogRes where
  | ok
  | fault
  | wait
  deriving DecidableEq, Repr

/-- Write an entry at the tail of the ring (R933, R1001); a fault of translation opens no record. -/
def State.logPut (s : State) (ws : List Word) : LogRes × State :=
  let tail := s.rg pgTel oTelLogTail
  let va := s.rf pgTel oTelLogBase 51 5 * 32 + 32 * (tail.toNat % s.logCap)
  match s.xlate 12 ⟨word va, .write, false, .log⟩ with
  | (.pa a, s) =>
    if s.paServes 12 pgTel a then (.ok, (s.writePa 12 pgTel a (wordsBytes ws) false).count pgTel oTelLogTail 1) else (.wait, s)
  | (.poison, s) => (.ok, (s.count (pgXlat 12) oXlatPoisonAcc 1).count pgTel oTelLogTail 1)
  | (.fault _ _ _, s) => (.fault, s)
  | (.wait, s) => (.wait, s)

/-- Drop an entry (R937, R1001). -/
def State.logDrop (s : State) (e : LogEnt) : State :=
  let t := s.tel
  let s := s.setTel { t with dropped := t.dropped + 1, dropA := if t.dropped = 0 then e.st else t.dropA, dropB := e.st }
  (s.count pgTel oTelLogLost 1).setEvt pgTel 1

/-- The LOST entry: the number of entries dropped, ST of the first and of the last (R937). -/
def TelSt.lostWords (t : TelSt) : List Word :=
  [word t.dropA, word (3 * 2 ^ 60 + pgTel * 2 ^ 32), word t.dropped, word t.dropB]

/-- The LOST entry is due and the ring has space (R937). -/
def State.lostDue (s : State) : Bool := decide (s.tel.dropped ≠ 0) && decide (s.logHeld < s.logCap)

/-- LOG_WRITE (R933 to R937, R1001): the LOST entry that is due, or else, and where that faults, the next entry once 4,000 ns have
passed since its ST. An entry whose write waits at its stack port stays. -/
def execLogWrite (s : State) : Out State := s.live <|
  if !bit (s.rg pgTel oTelCtl) 1 then .next s
  else match (if s.lostDue then s.logPut s.tel.lostWords else (.fault, s)) with
    | (.ok, s) => .next (s.setTel { s.tel with dropped := 0 })
    | (.wait, s) => .next s
    | (.fault, s) =>
      match logFirst s.tel.logQ with
      | none => .next s
      | some e =>
        if s.ns < e.st + 4000 then .next s
        else
          let t := s.setTel { s.tel with logQ := s.tel.logQ.erase e }
          if t.logCap ≤ t.logHeld then .next (t.logDrop e)
          else match t.logPut [word e.st, e.w1, e.w2, e.w3] with
            | (.ok, t) => .next t
            | (.fault, t) => .next (t.logDrop e)
            | (.wait, t) => .next (t.setTel { t.tel with logQ := s.tel.logQ })

/-! ## Telemetry streaming -/

/-- Sampling period, ns: at least 10,000 (R954). -/
def State.telPeriod (s : State) : Nat := max 10000 (s.rf pgTel oTelPeriod 31 0)

/-- Counters selected, at most 256 (R954). -/
def State.telCount (s : State) : Nat := min 256 (s.rf pgTel oTelSelCount 8 0)

/-- Bytes of a record: 32 + 8 × SEL_COUNT rounded up to 64 (R939). -/
def State.telRecBytes (s : State) : Nat := (32 + 8 * s.telCount + 63) / 64 * 64

/-- The value of the counter that SEL n names (R938, R954). -/
def State.telValue (s : State) (n : Nat) : Word :=
  let v := s.rg pgTel (oTelSel + 8 * n)
  s.rg (fld v 31 16) (oCntVal (fld v 2 0))

/-- A record of boundary b (R939). -/
def State.telRecord (s : State) (b : Nat) : List Byte :=
  let head := leBytes 8 b ++ leBytes 8 (s.rg pgTel oTelSeq).toNat ++ leBytes 2 s.telCount ++ List.replicate 14 0
  let body := head ++ wordsBytes ((List.range s.telCount).map s.telValue)
  body ++ List.replicate (s.telRecBytes - body.length) 0

/-- Where the record goes in the remote ring (R939). -/
def State.telVa (s : State) : Word :=
  s.rg pgTel oTelRva + word ((s.rg pgTel oTelSeq).toNat % 2 ^ s.rf pgTel oTelRkey 35 32 * s.telRecBytes)

/-- TELEMETRY_SAMPLE (R938 to R940): at a boundary not yet sampled. While the previous record is on its way, or the queue pair
cannot send, the sample is skipped. -/
def execTelemetrySample (s : State) : Out State := s.live <|
  let b := s.ns / s.telPeriod * s.telPeriod
  let q := s.rf pgTel oTelQp 13 0
  if !bit (s.rg pgTel oTelCtl) 0 || decide (b ≤ s.tel.lastB) then .next s
  else
    let rec_ := s.telRecord b
    let va := s.telVa
    let skip := s.tel.flight || decide ((s.qpAt q).st ≠ .rts)
    let s := (s.setTel { s.tel with lastB := b, flight := s.tel.flight || !skip }).count pgTel oTelSeq 1
    if skip then .next ((s.count pgTel oTelSkipped 1).setEvt pgTel 0)
    else .next (s.txPost q { plainTx (.write va (s.rf pgTel oTelRkey 31 0) rec_ none) with pages := true })

/-! ## Margining reports -/

/-- MARGIN_CMD (R942, R954): the report of a stack starts; while one is running, and for a stack that does not exist, the
write has no effect. -/
def execMarginCmd (v : Word) (s : State) : Out State := s.live <|
  if s.tel.margin.isSome then .next (s.conflict pgTel)
  else if 12 ≤ fld v 3 0 then .next s
  else
    let s := s.setTel { s.tel with margin := some (fld v 3 0, if bit v 4 then 2 else 1, 0) }
    .next ((s.marginStat 1 0 0).marginNext 65)

end Sys2Proof.Machine
end

