-- ==== Sys2Proof/Machine/Debug.lean ====
section
/-! DEFINITION. Debug mode (R945 to R953): halts, steps and resumes of walker contexts, held units, and leaving debug mode. -/

namespace Sys2Proof.Machine

/-- The physical cluster that DBG.CLU_SEL names (R956). -/
def State.dbgClu (s : State) : Nat := s.rf pgDbg oDbgCluSel 7 0

/-- The selected cluster is in debug mode (R945). -/
def State.dbgOn (s : State) : Bool := decide (s.dbgClu < 156) && s.dbg.mode.contains s.dbgClu

/-- The result of the last CTX_CMD (R956). -/
def State.dbgResult (s : State) (k : Nat) : State := s.setDbg { s.dbg with result := k }

/-- A refused command (R945, R951). -/
def State.dbgDeny (s : State) : State := ((s.dbgResult 4).count pgDbg oDbgDenied 1).setEvt pgDbg 2

/-- The Weevil number of Weevil wv of the selected cluster. -/
def State.dbgWv (s : State) (wv : Fin 4) : Nat := s.dbgClu * 4 + wv.val

/-- CTX_CMD names a context (R956). -/
def State.dbgName (s : State) (w i : Nat) : State := s.setDbg { s.dbg with last := some (w, i) }

/-- Halt a context (R316, R946): a FREE, draining or halted one stays as it is. A step in progress ends (R953). -/
def State.dbgHalt (s : State) (w i : Nat) : State :=
  let c := ctxRef w i
  let x := s.ctxAt c
  if x.st = .free ∨ x.st = .drain ∨ x.st = .halted then s
  else
    let s := s.setDbg { s.dbg with step := s.dbg.step.filter (fun e => e ≠ (w, i)) }
    ((s.putCtx c { x with st := .halted, prior := x.st }).count pgDbg oDbgHalts 1).setEvt pgDbg 0

/-- Resume a halted context to its prior state (R316); one that took its exception or lost its last request meanwhile goes on
as that state says. -/
def State.dbgResume (s : State) (w i : Nat) : State :=
  let c := ctxRef w i
  let x := s.ctxAt c
  if x.st ≠ .halted then s
  else if x.prior = .except ∧ x.reqs.isEmpty = true then (s.putCtx c CtxSt.reset).wFreed w
  else
    let s := s.putCtx c { x with st := x.prior }
    s.putWv w { s.wvAt w with gated := false }

/-- HALT (R316, R945, R946, R951). -/
def execHalt (wv : Fin 4) (ctx : Fin 512) (all : Bool) (s : State) : Out State := s.live <|
  let w := s.dbgWv wv
  let s := s.dbgName w ctx.val
  if s.dbgOn = false then .next s.dbgDeny
  else if all then
    .next (((s.wvAt w).ctxs.foldl (fun t e => t.dbgHalt w e.1) s).dbgResult 0)
  else if ((s.wvAt w).ctxAt ctx.val).st = .drain then .next s.dbgDeny
  else .next ((s.dbgHalt w ctx.val).dbgResult 0)

/-- RESUME (R316, R945). -/
def execResume (wv : Fin 4) (ctx : Fin 512) (all : Bool) (s : State) : Out State := s.live <|
  let w := s.dbgWv wv
  let s := s.dbgName w ctx.val
  if s.dbgOn = false then .next s.dbgDeny
  else if all then
    .next (((s.wvAt w).ctxs.foldl (fun t e => t.dbgResume w e.1) s).dbgResult 0)
  else .next ((s.dbgResume w ctx.val).dbgResult 0)

/-- STEP (R945, R947, R951): a HALTED context returns to its prior state until it has issued one instruction. -/
def execStep (wv : Fin 4) (ctx : Fin 512) (s : State) : Out State := s.live <|
  let w := s.dbgWv wv
  let s := s.dbgName w ctx.val
  if s.dbgOn = false then .next s.dbgDeny
  else
    let st := ((s.wvAt w).ctxAt ctx.val).st
    if st = .drain then .next s.dbgDeny
    else if st = .halted then
      let s := (s.dbgResult 0).setDbg { (s.dbgResult 0).dbg with step := s.dbg.step ++ [(w, ctx.val)] }
      .next (s.dbgResume w ctx.val)
    else .next (s.dbgResult 0)

/-- HALT_UNITS (R945, R949). -/
def execHaltUnits (s : State) : Out State := s.live <|
  if s.dbgOn = false then .next s.dbgDeny
  else
    let u := s.dbg.units
    .next ((s.setDbg { s.dbg with units := if u.contains s.dbgClu then u else u ++ [s.dbgClu] }).dbgResult 0)

/-- RESUME_UNITS (R945, R949). -/
def execResumeUnits (s : State) : Out State := s.live <|
  if s.dbgOn = false then .next s.dbgDeny
  else .next ((s.setDbg { s.dbg with units := s.dbg.units.filter (· ≠ s.dbgClu) }).dbgResult 0)

/-- Resume everything a cluster holds halted (R952). -/
def State.dbgFree (s : State) (c : Nat) : State :=
  let s := (List.range 4).foldl (fun t k => (t.wvAt (c * 4 + k)).ctxs.foldl (fun u e => u.dbgResume (c * 4 + k) e.1) t) s
  s.setDbg { s.dbg with units := s.dbg.units.filter (· ≠ c), step := s.dbg.step.filter (fun e => e.1 / 4 ≠ c) }

/-- DBG_MODE_WRITE (R945, R952). -/
def execDbgModeWrite (v : Word) (s : State) : Out State := s.live <|
  let c := s.dbgClu
  if 156 ≤ c then .next s
  else if bit v 0 then
    .next (s.setDbg { s.dbg with mode := if s.dbg.mode.contains c then s.dbg.mode else s.dbg.mode ++ [c] })
  else
    let s := s.dbgFree c
    .next (s.setDbg { s.dbg with mode := s.dbg.mode.filter (· ≠ c) })

end Sys2Proof.Machine
end

