-- ==== Sys2Proof/Machine/Pins.lean ====
section
/-! DEFINITION. Pins (R964 to R979): power good, reset, reference clocks, the test port. -/

namespace Sys2Proof.Machine

/-- PWR_OK_FALL (R965, R969, R978): the device holds itself in reset with the cause power-on; the trip outputs release. -/
def execPwrOkFall (s : State) : Out State :=
  let s := s.resetAll 0
  .next (s.setPins { s.pins with pwrOk := false, therm := false, hubTrip := false })

/-- PWR_OK_RISE (R966): the device waits in reset for RESET_N and the clocks. -/
def execPwrOkRise (s : State) : Out State := .next (s.setPins { s.pins with pwrOk := true })

/-- RESET_N_LOW (R924, R966): accepted only while PWR_OK is high; a device that runs is reset with cause 1. -/
def execResetNLow (s : State) : Out State :=
  if s.pins.pwrOk = false then .next s
  else
    let s := if s.pins.held then s else s.resetAll 1
    .next (s.setPins { s.pins with resetN := false })

/-- REFCLK_ETH_LOSS (R969): every link of the port goes DOWN. -/
def execRefclkEthLoss (port : Fin 4) (s : State) : Out State :=
  let s := s.setPins { s.pins with clkEth := s.pins.clkEth.set port.val false }
  .next (if s.pins.held then s else (List.range 4).foldl (fun t k => t.linkDown (port.val * 4 + k)) s)

/-- REFCLK_LOSS (R966, R969): acts as RESET_N falling; a device that runs is reset with cause 3. -/
def execRefclkLoss (k : Fin 3) (s : State) : Out State :=
  let s := if s.pins.held then s else s.resetAll 3
  .next (s.setPins { s.pins with clk100 := s.pins.clk100.set k.val false })

/-- The SYS_READY output (R967). -/
def State.sysReady (s : State) : Bool :=
  !s.pins.held && (decide (s.dev.st = .early) || decide (s.dev.st = .full) || decide (s.dev.st = .degraded))

/-- The device identification code of the test port (R976). -/
def idcode : Nat := 0xB124033F

/-- TEST_PORT_INSTRUCTION (R976, R977): EXTEST, CLAMP and HIGHZ act only while RESET_N is low and as BYPASS otherwise; none
reaches state of the device. -/
def execTestPortInstruction (i : JtagInstr) (s : State) : Out State :=
  let act : JtagInstr := match i with
    | .extest => if s.pins.resetN then .bypass else .extest
    | .clamp => if s.pins.resetN then .bypass else .clamp
    | .highz => if s.pins.resetN then .bypass else .highz
    | j => j
  let s := s.setPins { s.pins with jtag := act }
  .next (if act = .idcode then s.emit (.jtag idcode) else s)

end Sys2Proof.Machine
end

