-- ==== Sys2Proof/Machine/Views.lean ====
section
/-! DEFINITION. Reads of the control window (R9, R775 to R787): registers that show state held elsewhere are computed when they
are read; every other register is stored. -/

namespace Sys2Proof.Machine

/-! ## The page header (R779, R780) -/

/-- The physical cluster a CLU, WLK, MAT, GMX or VEC page belongs to. -/
def pageClu (pg : Nat) : Option Nat :=
  let i := pg % 1024
  match pg / 1024 with
  | 0x09 => some i
  | 0x0A => some (i / 4)
  | 0x0B => some i
  | 0x0C => some i
  | 0x0D => some i
  | _ => none

/-- PAGE_ID (R780). -/
def State.pageId (s : State) (pg : Nat) : Word :=
  let logical := match pageClu pg with
    | some c => (match s.logClu c with
      | some l => cluRegion c * 12 + l
      | none => 0xFF)
    | none => 0xFF
  word (0xB0 * 2 ^ 56 + logical * 2 ^ 48 + 2 ^ 32 + pg)

/-- The page has RWL fields (R780). -/
def pageRwl (pg : Nat) : Bool := (regRows (pg / 1024)).any (·.rwl)

/-- PAGE_CAP (R780): eight counters, and the number of EVT_STATUS bits defined. -/
def pageCap (pg : Nat) : Word :=
  word (b2n (pageRwl pg) * 2 ^ 16 + 8 * 2 ^ 8 + (List.range 64).countP (fun b => (evtMask (pg / 1024)).testBit b))

/-- WLK.PAGE_STATE (R362). -/
def State.wlkState (s : State) (w : Nat) : Nat :=
  let v := s.wvAt w
  let live := v.ctxs.filter (fun e => e.2.st ≠ .free)
  if v.cur.isNone && v.nxt.isNone then 0
  else if !live.isEmpty && live.all (fun e => decide (e.2.st = .halted)) then 3
  else if v.gated then 2 else 1

/-- A region has a request admitted or held (R668). -/
def State.regionAdmitted (s : State) (r : Nat) : Bool :=
  s.slots.any (fun e => (decide (e.2.st = .running) || decide (e.2.st = .ending)) && e.2.regions.contains r)

/-- PAGE_STATE (R779), as each block's chapter defines it; 0 for the blocks that define none. -/
def State.pageState (s : State) (pg : Nat) : Nat :=
  let i := pg % 1024
  match pg / 1024 with
  | 0x01 => s.dev.st.code
  | 0x02 => s.time.sync.code
  | 0x03 => s.pwr.p
  | 0x04 => (s.domAt i).st.code
  | 0x05 => b2n (!((s.pwr.h ++ s.pwr.j).all (· == 0)))
  | 0x08 =>
    let g := s.regionAt i
    if g.st = .serving ∧ g.move.isSome = true then 2 else g.st.code
  | 0x09 => (s.cluAt i).st.code
  | 0x0A => s.wlkState i
  | 0x0B => if s.dbg.units.contains i then 2 else b2n (!(s.matAt i).tasks.isEmpty)
  | 0x0C => if s.dbg.units.contains i then 2 else b2n (!(s.gmxAt i).tasks.isEmpty)
  | 0x10 => b2n ((s.cometAt i).slots.any (fun e => decide (e.2.st ≠ .free)))
  | 0x11 => b2n (!(s.dispAt i).window.isEmpty || s.regionAdmitted i)
  | 0x12 => b2n (!(s.syncAt i).waits.isEmpty)
  | 0x18 => (s.stkAt i).st.code
  | 0x19 => (s.pchAt i).st.code
  | 0x1A => if s.host.inPause then 2 else b2n (!(s.embAt i).tasks.isEmpty || !(s.embAt i).bags.isEmpty)
  | 0x1B => b2n (s.migOn i)
  | 0x20 => if (List.range 4).any (fun k => decide ((s.linkAt (i * 4 + k)).st = .up)) then 2 else 0
  | 0x21 => b2n ((s.engQps i).any (fun e => e.2.up))
  | 0x22 => b2n s.host.bound
  | 0x28 => (s.coreAt i).st.code
  | 0x29 => s.dev.id.code
  | 0x2A => s.fwmState
  | 0x30 => b2n (bit (s.rg pgTel oTelCtl) 0)
  | 0x31 => b2n s.snap.isSome
  | 0x3F => b2n (!s.dbg.mode.isEmpty)
  | _ => 0

/-! ## Block registers that show state -/

/-- TIME (R62, R106, R108). -/
def State.viewTime (s : State) (off : Nat) : Option Word :=
  let t := s.time
  match off with
  | 0x200 => some (word s.ns)
  | 0x208 => some (word t.frac)
  | 0x220 => some (word (t.source * 2 ^ 8 + t.srcPort * 2 ^ 4 + b2n t.ppsSeen * 2 ^ 3 + t.sync.code))
  | 0x228 => some (word s.unc)
  | 0x268 => some (word (schedCap - t.queue.length))
  | 0x270 => some (match t.queue with
    | [] => word (2 ^ 64 - 1)
    | e :: es => word ((es.foldl (fun m x => min m x.due) e.due) / 2 ^ 16))
  | _ => none

/-- STK (R157, R859). -/
def State.viewStk (s : State) (n off : Nat) : Option Word :=
  match off with
  | 0x250 => some (word (s.stkAt n).patch.length)
  | 0x290 => some (word (b2n (s.stkAt n).svc.isSome))
  | _ => none

/-- PCH (R159). -/
def State.viewPch (s : State) (d off : Nat) : Option Word :=
  match off with
  | 0x200 => some (word (setFld (setFld (s.rg (pgPch d) oPchQocc) 7 0 (s.slotsUsed d)) 24 16 (min 511 (s.pchAt d).parked.length)).toNat)
  | 0x238 => some (word ((s.stkAt (d / 64)).patch.countP (fun e => decide (e.2.1 = d % 64))))
  | _ => none

/-- XLAT (R198). -/
def State.viewXlat (s : State) (u off : Nat) : Option Word :=
  match off with
  | 0x280 => some (word ((s.xlatAt u).recs.countP (fun e => e.2.valid)))
  | 0x288 => some (word (s.xlatAt u).walksAct)
  | _ => none

/-- Words of the fault records of a unit (R183): slot i at 0x400 + 32 i. -/
def State.viewFault (s : State) (u off : Nat) : Option Word :=
  if 0x400 ≤ off ∧ off < 0xC00 then some (((s.xlatAt u).recAt ((off - 0x400) / 32)).words.getD ((off - 0x400) / 8 % 4) 0)
  else none

/-- EMB (R273). -/
def State.viewEmb (s : State) (r off : Nat) : Option Word :=
  match off with
  | 0x2A0 => some (word (s.parts.countP (fun p => decide (p.region = r) && decide (p.opc = 0x10) && p.sent)))
  | 0x2A8 => some (word (s.embAt r).cache.length)
  | _ => none

/-- MIG (R312). -/
def State.viewMig (s : State) (n off : Nat) : Option Word :=
  let m := s.migAt n
  match off with
  | 0x238 => some (word (s.migPoolFree n))
  | 0x240 => some (word m.epoch)
  | 0x270 => some (word (s.migActive n))
  | 0x278 => some (word m.hold.length)
  | 0x2A0 => some (word (s.readsOf n (fun e => decide (e < m.epoch))))
  | _ => none

/-- Contexts of a Weevil in a state. -/
def WvSt.inState (v : WvSt) (st : CtxState) : Nat :=
  if st = .free then 512 - v.ctxs.countP (fun e => decide (e.2.st ≠ .free)) else v.ctxs.countP (fun e => decide (e.2.st = st))

/-- WLK (R363). -/
def State.viewWlk (s : State) (w off : Nat) : Option Word :=
  let v := s.wvAt w
  let four (a b c d : CtxState) : Word :=
    word (v.inState a + v.inState b * 2 ^ 16 + v.inState c * 2 ^ 32 + v.inState d * 2 ^ 48)
  match off with
  | 0x200 => some (four .free .ready .waitMem .waitCtr)
  | 0x208 => some (four .parked .halted .except .drain)
  | 0x210 => some (word (b2n v.nxt.isSome * 2 + b2n v.cur.isSome))
  | 0x218 => some (match v.cur with
    | some t => word (t.n - t.given)
    | none => 0)
  | 0x238 => some (word v.used)
  | _ => none

/-- VEC (R471). -/
def State.viewVec (s : State) (c off : Nat) : Option Word :=
  match off with
  | 0x240 => some (word (accPerLane - s.accUsed c))
  | 0x288 => some (word (s.swarms.countP (fun w => decide (w.ctx.clu.val = c))))
  | _ => none

/-- MAT (R504, R523): DBG_DATA reads 0 outside debug mode. -/
def State.viewMat (s : State) (c off : Nat) : Option Word :=
  match off with
  | 0x200 => some (word (s.matAt c).tasks.length)
  | 0x208 => some (word (s.matAt c).halves)
  | 0x280 => some (if s.dbg.mode.contains c then s.rg (pgMat c) oMatDbgData else 0)
  | _ => none

/-- GMX (R570). -/
def State.viewGmx (s : State) (c off : Nat) : Option Word :=
  if off = 0x200 then some (word (s.gmxAt c).tasks.length) else none

/-- The row whose position a transfer shows (R594, R615). -/
def XferSt.shown (x : XferSt) : Nat :=
  if x.st = .halted then x.saved.getD x.prefix_ else min x.prefix_ (x.total - 1)

/-- COMET (R615). -/
def State.viewComet (s : State) (r off : Nat) : Option Word :=
  let c := s.cometAt r
  let x := s.xferAt r (s.rf (pgComet r) oCometPosSel 9 0)
  let i (k : Nat) : Nat := if x.st = .free then 0 else x.index x.shown k
  if 0x600 ≤ off ∧ off < 0x800 then
    let q := c.queue ((off - 0x600) / 8)
    some (word (q.countP (fun e => decide (e.2.st = .active)) * 2 ^ 16 + q.length))
  else match off with
    | 0x218 => some (word (c.slots.countP (fun e => decide (e.2.st ≠ .free))))
    | 0x220 => some (word (c.waitGranules * 2 ^ 32 + (c.slots.map (fun e => e.2.granules)).foldl (· + ·) 0 * 2 ^ 16 +
        (c.slots.map (fun e => e.2.flight)).foldl (· + ·) 0))
    | 0x298 => some (word (x.queue * 2 ^ 8 + x.st.code))
    | 0x2A0 => some (word (i 2 * 2 ^ 32 + i 1))
    | 0x2A8 => some (word (i 4 * 2 ^ 32 + i 3))
    | _ => none

/-- DEADLINE of the first real-time ready task (R648, R669). -/
def State.rtFirst (s : State) (r : Nat) : Word :=
  let ready := ((s.dispAt r).window.filter (fun e => decide (e.2.st = .ready))).map (·.2.slot) ++ (s.dispAt r).pieces.map (·.slot)
  let rt := ready.filter (fun k => (s.slotAt k).rt && !(s.slotAt k).missed)
  match rt.map (fun k => (s.slotAt k).deadline.toNat) with
  | [] => word (2 ^ 64 - 1)
  | d :: ds => word (ds.foldl min d)

/-- DISP (R669). -/
def State.viewDisp (s : State) (r off : Nat) : Option Word :=
  let d := s.dispAt r
  let n (k : Nat) : Nat := (s.readyOf r k).length
  let t := smapGet (fun _ => TaskSt.reset) d.window (s.rf (pgDisp r) oDispTaskSel 10 0)
  match off with
  | 0x200 => some (word (d.hwm * 2 ^ 16 + d.window.length))
  | 0x208 => some (word (n 3 * 2 ^ 48 + n 2 * 2 ^ 32 + n 1 * 2 ^ 16 + n 0))
  | 0x210 => some (word (d.pieces.length * 2 ^ 32 + (n 5 + n 6) * 2 ^ 16 + n 4))
  | 0x218 => some (word d.asks.length)
  | 0x260 => some (word (t.pos * 2 ^ 32 + t.slot * 2 ^ 16 + t.kind * 2 ^ 12 + t.flags * 2 ^ 8 + fld (wordAt t.hdr 0) 46 44 * 2 ^ 4 + t.st.code))
  | 0x268 => some (word t.since)
  | 0x270 => some (s.rtFirst r)
  | _ => none

/-- Waits on a counter in release order (R631, R672). -/
def SyncSt.waitsOn (b : SyncSt) (c : Nat) : List WaitEnt :=
  sortBy (fun v w => keyLt [v.expect, v.seq] [w.expect, w.seq]) (b.waits.filter (fun w => w.ctr = c))

/-- SYNC (R672). -/
def State.viewSync (s : State) (r off : Nat) : Option Word :=
  let b := s.syncAt r
  let c := s.rf (pgSync r) oSyncCtrSel 11 0
  let on := b.waitsOn c
  let sel := on[s.rf (pgSync r) oSyncWaitSel 15 0]?
  let info (f : WaitEnt → Nat) : Option Word := some (match sel with
    | some w => word (f w)
    | none => 0)
  match off with
  | 0x210 => some (word (s.ctrAt r c))
  | 0x218 => some (word (s.baseAt r c))
  | 0x230 => some (word (b.hwm * 2 ^ 16 + b.waits.length))
  | 0x278 => some (word on.length)
  | 0x288 => info (fun w =>
      let (src, detail) := waiterInfo w.waiter
      let kind := match w.waiter with
        | .walker _ => 0
        | .transfer _ _ => 1
        | .task _ _ _ => 2
      2 ^ 63 + kind * 2 ^ 60 + src * 2 ^ 32 + detail)
  | 0x290 => info (fun w => w.expect)
  | 0x298 => info (fun w => w.dead)
  | 0x2A0 => info (fun w => w.reg)
  | _ => none

/-- Registers of a port that show the link selected by LINK_SEL (R770). -/
def ethLinkReg (off : Nat) : Bool := decide (0x218 ≤ off) && decide (off ≤ 0x2C0) && decide (off ≠ 0x2B8)

/-- ETH (R770): frames sent are counted apart from the link registers. -/
def State.viewEth (s : State) (p off : Nat) : Option Word :=
  let l := p * 4 + s.rf (pgEth p) oEthLinkSel 1 0
  if off = 0x208 then
    some (word (((List.range 4).map (fun k => (s.linkAt (p * 4 + k)).st.code * 2 ^ (4 * k))).foldl (· + ·) 0))
  else if off = 0x258 then some (word (s.framesOut l))
  else if ethLinkReg off then some (s.linkRg l off) else none

/-- RDMA (R773). -/
def State.viewRdma (s : State) (e off : Nat) : Option Word :=
  let v := s.qpAt (e * 4096 + s.rf (pgRdma e) oRdmaQpSel 11 0)
  match off with
  | 0x218 => some (word ((s.engQps e).countP (fun x => x.2.up)))
  | 0x220 => some (word (((s.engQps e).map (fun x => x.2.sigLent)).foldl (· + ·) 0 * 2 ^ 16 + s.eth.psig.countP (fun x => decide (x.eng = e))))
  | 0x2B0 => some (word (v.rate * 2 ^ 16 + v.st.code))
  | 0x2B8 => some (word ((v.wsnTx + 1) % 2 ^ 32 * 2 ^ 32 + v.landed % 2 ^ 32))
  | 0x2C0 => some (if v.st = .rts then word (v.sigTx * 2 ^ 16 + (v.credits - v.unacked.length)) else 0)
  | _ => none

/-- HCMD (R818): the ring registers show the ring selected by RING_SEL. -/
def State.viewHcmd (s : State) (off : Nat) : Option Word :=
  let g := s.ringAt (s.rf pgHcmd oHcmdRingSel 5 0)
  let a := s.slotAt (s.rf pgHcmd oHcmdSlotSel 11 0)
  let mask (st : StreamState) : Nat :=
    ((List.range 16).map (fun i => if (s.streamAt i).st = st then 2 ^ i else 0)).foldl (· + ·) 0
  match off with
  | 0x210 => some g.ctl
  | 0x218 => some g.cmdBase
  | 0x220 => some g.cplVa
  | 0x228 => some g.cplRkey
  | 0x230 => some (word (g.written % 2 ^ 32 * 2 ^ 32 + g.taken % 2 ^ 32))
  | 0x238 => some (word g.head)
  | 0x248 => some (word (s.host.hwm * 2 ^ 16 + s.admState * 2 ^ 14 + s.slotsBusy.length))
  | 0x280 => some (word (s.graphs.countP (fun e => decide (e.2.st ≠ .empty))))
  | 0x288 => some (word (mask .draining * 2 ^ 16 + mask .open_))
  | 0x2A8 => some (word (a.reqSeq * 2 ^ 16 + a.graph * 2 ^ 8 + a.st.code))
  | _ => none

/-- Granules of d moved when the move stands at a place: those below it, and of its RSV slots those that held a granule (R861, R883). -/
def State.movedCount (s : State) (d l : Nat) : Nat :=
  min l s.rsvBase + (List.range (l - s.rsvBase)).countP (fun i => (s.relocOf d (s.rsvBase + i)).isSome)

/-- REGION (R24, R852, R863, R882, R883). -/
def State.viewRegion (s : State) (r off : Nat) : Option Word :=
  let g := s.regionAt r
  match off with
  | 0x220 => some (word (((List.range 12).map (fun i => g.map.getD i 15 * 2 ^ (4 * i))).foldl (· + ·) 0))
  | 0x240 => some (match g.move with
    | some m => word (2 ^ 63 + m.d * 2 ^ 32 + s.movedCount m.d m.moved)
    | none => 0)
  | 0x268 => some (word ((List.range 64).countP (fun j => decide ((s.pchAt (r * 64 + j)).st = .retired))))
  | 0x278 => some (word (s.stkAt r).recur.length)
  | _ => none

/-- DEV (R924). -/
def State.viewDev (s : State) (off : Nat) : Option Word :=
  let mask (n : Nat) (f : Nat → Bool) : Nat := ((List.range n).map (fun i => if f i then 2 ^ i else 0)).foldl (· + ·) 0
  if off = 0x218 then
    some (word (mask 4 (fun p => decide (s.pageState (pgEth p) = 2)) * 2 ^ 32 + mask 12 (fun n => decide ((s.stkAt n).st = .full)) * 2 ^ 16 +
      mask 12 (fun r => (s.regionAt r).released)))
  else none

/-- FWM (R928). -/
def State.viewFwm (s : State) (off : Nat) : Option Word :=
  let slot (h k : Nat) : Word :=
    let b := s.item h k
    if b.isEmpty then 0 else word (itSvn b * 2 ^ 40 + (s.fwSlot h k).code * 2 ^ 32 + itVersion b)
  if 0x310 ≤ off ∧ off < 0x3A0 then some (slot ((off - 0x310) / 8 % 2) ((off - 0x310) / 16 + 1))
  else match off with
    | 0x200 => some (word s.dev.active)
    | 0x208 => some (word s.recNow.next)
    | 0x218 =>
      let b := s.itemUse 2
      some (if b.isEmpty then 0 else word (itLength b / 32 * 2 ^ 32 + itVersion b))
    | _ => none

/-- The value selected by REG_SEL for the context last named (R950, R956): of a HALTED context only. -/
def State.dbgReg (s : State) : Word :=
  match s.dbg.last with
  | none => 0
  | some (w, i) =>
    let x := (s.wvAt w).ctxAt i
    if x.st ≠ .halted then 0
    else
      let k := s.rf pgDbg oDbgRegSel 5 0
      if k < 32 then x.reg k
      else match k with
        | 32 => word x.p
        | 33 => word (x.pc % 1024)
        | 34 => word (((List.range 32).map (fun i => if x.pending.contains i then 2 ^ i else 0)).foldl (· + ·) 0)
        | 35 => word x.pos
        | _ => 0

/-- CTX_STATUS (R956). -/
def State.dbgStatus (s : State) : Word :=
  let (st, prior) := match s.dbg.last with
    | some (w, i) => let x := (s.wvAt w).ctxAt i; (x.st.code, x.prior.code)
    | none => (0, 0)
  word (prior * 2 ^ 8 + st * 2 ^ 4 + s.dbg.result * 2 + b2n (!s.dbg.step.isEmpty))

/-- DBG (R956). -/
def State.viewDbg (s : State) (off : Nat) : Option Word :=
  let map_ (a : Nat) : Word := word (((List.range 64).map (fun i => if s.dbg.mode.contains (a + i) then 2 ^ i else 0)).foldl (· + ·) 0)
  match off with
  | 0x208 => some (word (b2n (s.dbg.mode.contains s.dbgClu)))
  | 0x210 => some (map_ 0)
  | 0x218 => some (map_ 64)
  | 0x220 => some (map_ 128)
  | 0x230 => some s.dbgStatus
  | 0x240 => some s.dbgReg
  | _ => none

/-- A block register that shows state held elsewhere. -/
def State.view (s : State) (pg off : Nat) : Option Word :=
  let i := pg % 1024
  match pg / 1024 with
  | 0x01 => s.viewDev off
  | 0x02 => s.viewTime off
  | 0x08 => s.viewRegion i off
  | 0x0A => s.viewWlk i off
  | 0x0B => s.viewMat i off
  | 0x0C => s.viewGmx i off
  | 0x0D => s.viewVec i off
  | 0x10 => s.viewComet i off
  | 0x11 => s.viewDisp i off
  | 0x12 => s.viewSync i off
  | 0x13 => (s.viewXlat i off).or (s.viewFault i off)
  | 0x18 => s.viewStk i off
  | 0x19 => s.viewPch i off
  | 0x1A => s.viewEmb i off
  | 0x1B => s.viewMig i off
  | 0x20 => s.viewEth i off
  | 0x21 => s.viewRdma i off
  | 0x22 => s.viewHcmd off
  | 0x28 => if off = 0x210 then some (word (s.coreAt i).services) else none
  | 0x29 => if off = 0x200 then some (word s.sessOpen) else none
  | 0x2A => s.viewFwm off
  | 0x30 => if off = 0x228 then some (word s.telRecBytes) else none
  | 0x3F => s.viewDbg off
  | _ => none

/-- A page exists (R776, R787). -/
def pageExists (pg : Nat) : Bool := decide (pg % 1024 < pageInstances (pg / 1024))

/-- The value an 8-byte read of the control window answers (R776). -/
def State.regValue (s : State) (pg off : Nat) : Word :=
  if !pageExists pg then 0
  else match off with
    | 0x000 => s.pageId pg
    | 0x008 => pageCap pg
    | 0x018 => word (s.pageState pg)
    | _ => (s.view pg off).getD (s.rg pg off)

/-- A read of the control window (R62, R775 to R777): a read of ST_NS latches ST_FRAC, no other read changes a register. -/
def State.regRead (s : State) (pg off : Nat) : Word × State :=
  (s.regValue pg off, if pg = pgTime ∧ off = 0x200 then s.setTime { s.time with frac := s.st16 % 2 ^ 16 } else s)

end Sys2Proof.Machine
end

