-- ==== Sys2Proof/Machine/Resume.lean ====
section
/-! DEFINITION. Resumption of faulted requests (R182, R186, R188) and the paging service's page-in (R196): what each
requester does when its parked request is translated anew or ended. The command rows stand in Window.lean. -/

namespace Sys2Proof.Machine

/-! ## RETRY -/

/-- A parked request has been translated: its requester goes on by its own rules (R188). A requester not named here runs
its access again with its next row, a move of a row with its next step. -/
def State.resumed (s : State) (q : XReq) : State :=
  match q.who with
  | .walker c _ => s.wRetry c
  | .program c w =>
    let n := c.val * 4 + w.val
    let v := s.wvAt n
    ((v.cur.toList ++ v.nxt.toList).filter (fun t => !t.loaded)).foldl (fun t u => t.walkLoad n u.entry) s
  | .comet r slot row => s.xferRetry r.val slot row
  | .engine r k => if 2 ^ 20 ≤ k then s.pump (k - 2 ^ 20) else if k = 2 ^ 17 then s.releaseGone r.val else s
  | .rdma p m => if m % 2 = 0 then s.rdResume p ((s.qpAt p).rdHeld.length) else s
  | _ => s

/-- A request found at fault again is parked again, a walker's with its context (R186, R316). -/
def State.refault (s : State) (q : XReq) : State :=
  match q.who with
  | .walker c req => s.wPark c req
  | _ => s

/-- Translate a request anew: it is granted and its requester goes on, or it faults again (R186), or it waits at the unit
while a table read waits at its stack port. -/
def State.retryReq (s : State) (u : Nat) (q : XReq) : State :=
  match s.xlate u q with
  | (.fault k l e, s) => (s.xfault u q k l e).refault q
  | (.wait, s) => s.grant u q .wait
  | (r, s) => (s.grant u q r).resumed q

/-- RESUME with RETRY of a valid slot: VALID clears and every parked request is translated anew. -/
def State.retrySlot (s : State) (u i : Nat) : State :=
  let x := s.xlatAt u
  let r := x.recAt i
  r.parked.foldl (fun t q => t.retryReq u q) (s.putXlat u (x.putRec i { r with valid := false, parked := [] }))

/-- Retry every record of a page on every unit (R196). -/
def State.retryPage (s : State) (va bits : Nat) : State :=
  (List.range 13).foldl (fun s u => (s.recsOf u va bits).foldl (fun t i => t.retrySlot u i) s) s

/-- FAULT_STALL_RETRY (R182): the oldest stalled request is taken again once a record slot and a walk are free; the
stalled order is kept. -/
def State.stallRetry (s : State) (u : Nat) : State :=
  let x := s.xlatAt u
  match x.stalled with
  | [] => s
  | q :: rest =>
    if (List.range 64).all (fun i => (x.recAt i).valid) ∨ walkCap ≤ x.walksAct then s
    else (s.putXlat u { x with stalled := rest }).retryReq u q

/-! ## ABORT -/

/-- End a task for a translation fault of its unit (R186). -/
def State.taskXlat (s : State) (r e source : Nat) : State := s.taskFail r e stXlatFault source 0

/-- End a LOOKUP or UPDATE task: its bags and what it waits for go with it. -/
def State.embXlat (s : State) (r e : Nat) : State :=
  match s.embTake r e with
  | (true, s) => s.taskXlat r e (pgEmb r)
  | (false, s) => s.failReq (s.taskAt r e).slot stXlatFault (pgEmb r) 0

/-- End a request of a context outside the walker with the translation exception (R360). -/
def State.wXlat (s : State) (c : CtxRef) (req va : Nat) : State :=
  match (s.ctxAt c).reqs.find? (fun q => q.id = req) with
  | some q => s.wExcReq c q 0x05 va
  | none => s

/-- End a bag (R186): its request ends with the translation-fault status, a walker's with its exception. -/
def State.bagXlat (s : State) (r id va : Nat) : State :=
  match s.bagAt r id with
  | none => s
  | some b =>
    match b.owner with
    | .task e => s.embXlat r e
    | .walker c req => (s.dropBag r id).wXlat c req va
    | .piece w _ =>
      let s := s.dropBag r id
      match s.swarmAt w with
      | none => s
      | some x => (s.wXlat x.ctx x.req va).swarmCancel x

/-- End what an embedding engine asked outside a bag: a task's descriptor, or the RUPDs of a batch. -/
def State.engineXlat (s : State) (r k : Nat) : State :=
  if k < 2 ^ 16 then s.embXlat r k
  else match s.batchAt (k - 2 ^ 20) with
    | some b => if 2 ^ 20 ≤ k then s.failReq b.slot stXlatFault (pgEmb r) 0 else s
    | none => s

/-- End the GMX task whose digest flush waits. -/
def State.gmxXlat (s : State) (c : Nat) : State :=
  match (s.gmxAt c).tasks.find? (fun t => t.part.isSome) with
  | some t => (s.gmxDrop c t.entry).taskXlat (cluRegion c) t.entry (pgGmx c)
  | none => s

/-- End the walk tasks of a Weevil whose program is not loaded. -/
def State.programXlat (s : State) (w : Nat) : State :=
  let v := s.wvAt w
  ((v.cur.toList ++ v.nxt.toList).filter (fun t => !t.loaded)).foldl (fun t u =>
    (t.putWv w ((t.wvAt w).retire u.entry).assign).taskXlat (cluRegion (w / 4)) u.entry (pgWlk w)) s

/-- End a message of a queue pair (R186, R742): a request it received is refused with a remote access NAK and goes with
those behind it, a response it waited to store puts it into ERROR. -/
def State.rdmaXlat (s : State) (q m : Nat) : State :=
  if m % 2 = 0 then s.qpErr q
  else match s.eth.rxHeld.find? (fun x => x.qp = q) with
    | none => s
    | some x =>
      let s := s.setEth { s.eth with rxHeld := s.eth.rxHeld.filter (fun y => y.qp ≠ q) }
      (s.putQp q { s.qpAt q with rqPsn := x.psn }).sendNak q x.psn .remoteAccess

/-- End the next command of a ring with the translation-fault status (R800, R804). -/
def State.ringXlat (s : State) (r : Fin 64) : State :=
  let g := s.ringAt r.val
  let ws := match (s.ringPeek r.val).1 with
    | some (ws, _) => ws
    | none => []
  let n := cmdNeed (cmdOpc ws)
  if g.avail = 0 ∨ g.cplFree < n then s
  else
    let s := s.putRing r.val { g with taken := (g.taken + 1) % 2 ^ 32, reserved := g.reserved + n }
    s.cmdDone (.ring r) ws ⟨stXlatFault, 0, 0, pgHcmd, 0⟩

/-- End the waiting command of a management session with the translation-fault status (R186, R805). -/
def State.sessXlat (s : State) (k : Fin 4) : State :=
  match (s.sessAt k.val).held with
  | [] => s
  | ws => s.cmdDone (.mgmt k ws) ws ⟨stXlatFault, 0, 0, pgHcmd, 0⟩

/-- End what asked under a ring's name: a command, an admission slot, a version switch. -/
def State.ringNameXlat (s : State) (k : Nat) : State :=
  if h : k < 64 then s.ringXlat ⟨k, h⟩
  else if h : k - 64 < 4 then s.sessXlat ⟨k - 64, h⟩
  else if k < 128 then s
  else if k < 4224 then s.slotEnd (k - 128) stXlatFault pgHcmd
  else match s.schedNext (fun e => decide (e.kind = 3)) with
    | some e => (if e.target = pgDev then (s.schedTake e).pauseSet false else s.schedTake e).schedRefuse e
    | none => s

/-- A parked request ends as its requester defines (R186). -/
def State.abortReq (s : State) (q : XReq) : State :=
  match q.who with
  | .walker c req => s.wAbort c req q.va.toNat
  | .program c w => s.programXlat (c.val * 4 + w.val)
  | .comet r slot row => s.xferAbort r.val slot row
  | .bag r b => s.bagXlat r.val b q.va.toNat
  | .engine r k => s.engineXlat r.val k
  | .matrix c => s.gmxXlat c.val
  | .rdma p m => s.rdmaXlat p m
  | .list slot r => s.listAbort slot r.val
  | .ring k => s.ringNameXlat k
  | .svc _ => s
  | .log => s

/-- RESUME with ABORT of a valid slot (R186). -/
def State.abortSlot (s : State) (u i : Nat) : State :=
  let x := s.xlatAt u
  let r := x.recAt i
  r.parked.foldl (fun t q => t.abortReq q) (s.putXlat u (x.putRec i { r with valid := false, parked := [] }))

/-- A write to XLAT.RESUME (R186, R188): a slot without a record is refused. -/
def State.resumeSlot (s : State) (u i : Nat) (abort : Bool) : State :=
  if !((s.xlatAt u).recAt i).valid then s.setEvt (pgXlat u) 4
  else if abort then s.abortSlot u i else s.retrySlot u i

/-! ## The paging service (R194 to R197) -/

/-- Whether a queue pair may send a message at once: it sends, nothing waits before it, its credits and its link allow it. -/
def State.txReady (s : State) (q : Nat) (m : TxMsg) : Bool := (s.qpAt q).txWait.isEmpty && (s.qpAt q).mayTx m && s.qpLinkUp q

/-- A READ sent and answered: its PSNs are taken, and nothing waits for it any more. -/
def State.txAnswered (s : State) (q : Nat) (m : TxMsg) : State :=
  let s := s.txNow q m
  s.putQp q { s.qpAt q with unacked := (s.qpAt q).unacked.dropLast }

/-- An eviction of a page that is under way. -/
def State.evictAt (s : State) (va : Nat) : Option EvictSt := s.pager.outs.find? (fun e => decide (lvlBase va e.lvl = e.va))

/-- The page at va takes its data in a free frame (R196): an RDMA READ of the copy its backing entry names, posted and
answered with these bytes, the leaf naming the frame with REMOTE and D clear, and every record of the page retried. Nothing
happens where the leaf is not of this size and REMOTE, no valid copy stands behind its TAG (R194), the frame is not a free one
of the pool (R195), an eviction of the page is not over, or a stack port or the queue pair does not serve. -/
def State.pageInAt (s : State) (va frame : Nat) (data : List Byte) : State :=
  match s.leafAt va with
  | none => s
  | some (lvl, e, epa) =>
    let bits := lvlBits lvl
    let n := 2 ^ bits / 32
    let src := s.pagerSrc
    match s.backPa (fld e 47 16) with
    | none => s
    | some bpa =>
      if bit e 6 = false ∨ data.length ≠ 2 ^ bits ∨ s.inPool frame bits = false ∨ s.frameFree frame bits = false ∨
          (s.evictAt va).isSome = true ∨ s.paServes 12 src epa = false ∨ s.paServes 12 src (bpa / 32 * 32) = false ∨
          s.rangeServes frame n = false then s
      else
        match s.backRead bpa with
        | (none, s) => s
        | (some b, s) =>
          let m := plainTx (.read b.raddr b.rkey (2 ^ bits))
          if b.valid = false ∨ s.txReady b.qp m = false then s
          else
            let s := ((s.txAnswered b.qp m).setFrame frame bits true).writePage n frame data
            let e' := (setFld (setFld e 55 10 0) 41 16 (frame / 2 ^ 16)) &&& ~~~(bitW 6 ||| bitW 8)
            (s.putLeaf epa e').retryPage va bits

/-- WRITEs of a queue pair that are not acknowledged. -/
def QpSt.writesOut (v : QpSt) : Nat := (v.unacked ++ v.txWait).countP (fun m => m.op.isWrite)

/-- The WRITE that a queue pair numbered k has been acknowledged. -/
def QpSt.writeDone (v : QpSt) (k : Nat) : Bool := decide (k ≤ v.wsnTx - v.writesOut)

/-- An unframed WRITE that read a poisoned source (R755): no packet is sent, the engine counts it, and the queue pair is to
enter ERROR. -/
def State.writePoison (s : State) (q : Nat) : State := (s.count (pgRdma (q / 4096)) oRdmaPoison 1).setEvt (pgRdma (q / 4096)) 4

/-- An eviction changed, or ended. -/
def State.putEvict (s : State) (va : Nat) (e : Option EvictSt) : State :=
  s.setPager { s.pager with outs := s.pager.outs.filter (fun o => o.va ≠ va) ++ e.toList }

/-- Begin an eviction (R197): the leaf takes its REMOTE form with the TAG, and the page is invalidated. The sweep goes on behind
the victim's frame. It waits while the invalidation queue is full. -/
def State.evictBegin (s : State) (va tag : Nat) : State :=
  match s.leafAt va with
  | none => s
  | some (lvl, e, epa) =>
    let bits := lvlBits lvl
    let frame := ptePa e
    if bit e 6 = true ∨ 1 < lvl ∨ s.inPool frame bits = false ∨ invCap ≤ s.invQ.length ∨ (s.backPa tag).isNone = true ∨
        s.paServes 12 s.pagerSrc epa = false then s
    else
      let e' := (setFld (setFld e 55 10 0) 47 16 tag &&& ~~~(bitW 8)) ||| bitW 6
      let s := s.putLeaf epa e'
      let s := s.invAccept false lvl (lvlBase va lvl)
      let s := s.putEvict (lvlBase va lvl) (some ⟨lvlBase va lvl, lvl, frame, bit e 8, tag, s.rg (pgXlat 0) oXlatInvIssued, none⟩)
      s.setPager { s.pager with hand := frame + 2 ^ bits }

/-- The frame of an eviction is free. -/
def State.evictEnd (s : State) (o : EvictSt) : State := (s.putEvict o.va none).setFrame o.frame (lvlBits o.lvl) false

/-- Go on with an eviction (R197): once INV_DONE has reached its ticket, a clean frame is free and a dirty one is written to its
copy; when that WRITE is acknowledged the copy is valid and the frame free. A frame that reads poisoned is not sent, and its
queue pair enters ERROR (R755). -/
def State.evictGo (s : State) (o : EvictSt) : State :=
  match s.backPa o.tag with
  | none => s
  | some bpa =>
    let n := 2 ^ lvlBits o.lvl / 32
    if (s.rg (pgXlat 0) oXlatInvDone).toNat < o.ticket.toNat then s
    else if o.dirty = false then s.evictEnd o
    else if s.paServes 12 s.pagerSrc (bpa / 32 * 32) = false ∨ s.rangeServes o.frame n = false then s
    else match o.wb with
      | some (q, k) => if (s.qpAt q).up && (s.qpAt q).writeDone k then (s.backMark bpa true).evictEnd o else s
      | none =>
        match s.backRead bpa with
        | (none, s) => s
        | (some b, s) =>
          if (s.qpAt b.qp).st ≠ .rts then s
          else
            let ((bs, bad), s) := s.readPage n o.frame
            if bad then (s.writePoison b.qp).qpErr b.qp
            else
              let s := s.txPost b.qp (plainTx (.write b.raddr b.rkey bs none))
              s.putEvict o.va (some { o with wb := some (b.qp, (s.qpAt b.qp).wsnTx) })

/-- One step of an eviction: it begins, or goes on. -/
def State.evictAct (s : State) (va tag : Nat) : State :=
  match s.evictAt va with
  | some o => s.evictGo o
  | none => s.evictBegin va tag

end Sys2Proof.Machine
end

