-- ==== Sys2Proof/Machine/Pages.lean ====
section
/-! DEFINITION. Writes of the control window (R9, R12, R775 to R786, R930, R931): the common header of a page, and for each
block the registers whose write does more than set their bits. -/

namespace Sys2Proof.Machine

/-- The state a meaning leaves; one that stops leaves the state as it was. -/
def State.runOut (s : State) (o : Out State) : State :=
  match o with
  | .next t => t
  | _ => s

/-- The page of a reference (R9, R10). -/
def pageOf (p : PageRef) : Nat := p.ty.toNat * 1024 + p.inst.toNat

/-! ## The common header (R779 to R786) -/

/-- Bits of a mask, ascending. -/
def bitsSet (m : Word) : List Nat := (List.range 64).filter (fun b => bit m b)

/-- A hardware set that meets a software clear of one bit (R785, R786): the bit stays 1, EVT_COLLIDE counts it, and it posts a
notification when it is enabled, be it by its rise or by the collision. -/
def State.evtCollide (s : State) (pg b : Nat) : State :=
  let rose := !bit (s.rg pg oEvtStatus) b
  let s := s.setEvt pg b
  let s := s.setRg pg oEvtCollide (s.rg pg oEvtCollide + 1)
  if bit (s.rg pg oEvtEnable) b && !rose then s.notify pg else s

/-- A write of EVT_STATUS (R785): bits written 1 clear, but for those that hardware sets in the same cycle. -/
def State.evtClear (s : State) (pg : Nat) (v collide : Word) : State :=
  let v := v &&& word (evtMask (pg / 1024))
  let s := s.setRg pg oEvtStatus (s.rg pg oEvtStatus &&& ~~~(v &&& ~~~collide))
  (bitsSet (v &&& collide)).foldl (fun t b => t.evtCollide pg b) s

/-- A write of EVT_SET (R779, R786, R1000); a read of it answers 0 (DESIGN CHOICE, log entry 102). -/
def State.evtTest (s : State) (pg : Nat) (v : Word) : State := s.setEvts pg (bitsSet (v &&& word (evtMask (pg / 1024))))

/-- SOURCE codes of R930 that a page's counter can hold. -/
def srcDefined (ty c : Nat) : Bool :=
  decide (c ≤ 6) || (decide (0x100 ≤ c) && decide (c < 0x140)) || (decide (0x400 ≤ c) && decide (c < 0x408)) ||
    (decide (0x200 ≤ c) && decide (c < 0x300) && (match regRow ty (0x200 + 8 * (c - 0x200)) with
      | some r => r.count
      | none => false))

/-- A write of CNT_SEL i (R782, R930, R931): an undefined code stores 0, CNT_VAL is left as it is. -/
def State.cntSelect (s : State) (pg i : Nat) (v : Word) : State :=
  let c := fld v 15 0
  s.setRg pg (oCntSel i) (word (b2n (bit v 63) * 2 ^ 63 + if srcDefined (pg / 1024) c then c else 0))

/-- A write of CNT_VAL i (R784): the counts of the same cycle are added. -/
def State.cntStore (s : State) (pg i : Nat) (v counted : Word) : State := s.setRg pg (oCntVal i) (v + counted)

/-- A write of PAGE_CTL (R780): COMMIT is set, never cleared. -/
def State.pageCommit (s : State) (pg : Nat) (v : Word) : State := s.setRg pg oPageCtl (s.rg pg oPageCtl ||| (v &&& 1))

/-- A write of word 0 of an error record (R781): a clear of VALID zeroes every word of the record. -/
def State.errClear (s : State) (pg : Nat) (last : Bool) (v : Word) : State :=
  if bit v 63 then
    let s := s.setErrKeys (smapSet (fun _ => (0, 0)) s.errKeys (pg * 2 + b2n last) (0, 0))
    (List.range 8).foldl (fun t k => t.setRg pg ((if last then oErrLast else oErrFirst) + 8 * k) 0) s
  else s

/-- A clear of VALID in the cycle in which a record arrives (R781, R785): the record, the last one entered, is kept; it is the first since
the clear, and EVT_COLLIDE counts it. -/
def State.errKeep (s : State) (pg : Nat) (last : Bool) : State :=
  let s :=
    if last then s.setRg pg (oErrLast + 32) 1
    else
      let t := s.setErrKeys (smapSet (fun _ => (0, 0)) s.errKeys (pg * 2) (s.errKey pg 1))
      (List.range 8).foldl (fun t k => t.setRg pg (oErrFirst + 8 * k) (if k = 4 then 0 else s.rg pg (oErrLast + 8 * k))) t
  s.setRg pg oEvtCollide (s.rg pg oEvtCollide + 1)

/-- A write of word 0 of an error record, with whether a record arrives in its cycle (R781, R785). -/
def State.errWrite (s : State) (pg : Nat) (last : Bool) (v : Word) (collide : Bool) : State :=
  if collide && bit v 63 && bit (s.rg pg oErrLast) 63 then s.errKeep pg last else s.errClear pg last v

/-- A write of the header of a page (R779). -/
def State.headWrite (s : State) (pg off : Nat) (v : Word) : State :=
  if off = oPageCtl then s.pageCommit pg v
  else if off = oEvtStatus then s.evtClear pg v 0
  else if off = oEvtEnable then s.setRg pg off (v &&& word (evtMask (pg / 1024)))
  else if off = oEvtSet then s.evtTest pg v
  else if off = oErrFirst then s.errClear pg false v
  else if off = oErrLast then s.errClear pg true v
  else if 0x100 ≤ off ∧ off < 0x180 then
    if off % 16 = 0 then s.cntSelect pg ((off - 0x100) / 16) v else s.cntStore pg ((off - 0x100) / 16) v 0
  else s

/-! ## Block registers (R12) -/

/-- A write that only sets bits: the writable bits of an RW register, of an RWL register until COMMIT, on the instance that
has them; every other register ignores it (R12, R777). -/
def State.rwWrite (s : State) (pg off : Nat) (v : Word) : State :=
  match regRow (pg / 1024) off with
  | none => s
  | some r =>
    if r.w = 0 ∨ (r.rwl = true ∧ bit (s.rg pg oPageCtl) 0 = true) ∨ r.inst.any (fun i => i ≠ pg % 1024) = true then s
    else s.setRg pg off ((s.rg pg off &&& ~~~(word r.w)) ||| (v &&& word r.w))

/-- TIME. -/
def State.wrTime (s : State) (off : Nat) (v : Word) : State :=
  if off = oTimeStSet then s.runOut (execStSet v s)
  else if off = oTimeSrcCtl then s.srcWrite v
  else s.rwWrite pgTime off v

/-- PWR: BUDGET and PEAK act as their ceilings at most (R837); that they then read back as these is the model's choice (DESIGN CHOICE,
log entry 102). -/
def State.wrPwr (s : State) (off : Nat) (v : Word) : State :=
  if off = oPwrBudget then s.setRg pgPwr off (word (min 1400 (fld v 15 0)))
  else if off = oPwrPeak then s.setRg pgPwr off (word (min 1650 (fld v 15 0)))
  else s.rwWrite pgPwr off v

/-- PWRD: REQ asks for a state (R826). -/
def State.wrPwrd (s : State) (d off : Nat) (v : Word) : State :=
  if off = oPwrdReq then (s.pwrdReq d (fld v 1 0)).2 else s.rwWrite (pgPwrd d) off v

/-- THERM: a DIE_THR that breaks T1 < T2 < T3 ≤ 115 is ignored (R838). -/
def State.wrTherm (s : State) (off : Nat) (v : Word) : State :=
  if off = oThermDieThr ∧ ¬ (fld v 7 0 < fld v 15 8 ∧ fld v 15 8 < fld v 23 16 ∧ fld v 23 16 ≤ 115) then s
  else s.rwWrite pgTherm off v

/-- WLK: VALID of an exception record is cleared by a write of 1 (R359). -/
def State.wrWlk (s : State) (w off : Nat) (v : Word) : State :=
  if 0x300 ≤ off ∧ off < 0x400 ∧ off % 32 = 0 ∧ bit v 63 = true then s.setRg (pgWlk w) off (s.rg (pgWlk w) off &&& ~~~(bitW 63))
  else s.rwWrite (pgWlk w) off v

/-- REGION: SUBST and MOVE_CMD act (R872, R863). -/
def State.wrRegion (s : State) (r off : Nat) (v : Word) : State :=
  if off = oRegionSubst then s.runOut (execSubst (Fin.ofNat 12 r) v s)
  else if off = oRegionMoveCmd then s.runOut (execMoveCmd (Fin.ofNat 12 r) v s)
  else s.rwWrite (pgRegion r) off v

/-- SYNC: the counters are set and incremented, a default timeout of 0 acts as 1 (R624, R665, R672). -/
def State.wrSync (s : State) (r off : Nat) (v : Word) : State :=
  if off = oSyncCtrInc then s.runOut (execCtrIncWrite (Fin.ofNat 12 r) v s)
  else if off = oSyncCtrSet then s.runOut (execCtrSetWrite (Fin.ofNat 12 r) v s)
  else if off = oSyncDefTimeout then s.setRg (pgSync r) off (word (max 1 (fld v 31 0)))
  else s.rwWrite (pgSync r) off v

/-- XLAT (R176, R186, R992). -/
def State.wrXlat (s : State) (u off : Nat) (v : Word) : State :=
  if off = oXlatRoot then (if u = 0 then s.runOut (execXlatRootWrite v s) else s)
  else if off = oXlatInvCmd then s.runOut (execInvCmd (Fin.ofNat 13 u) v s)
  else if off = oXlatResume then s.resumeSlot u (fld v 5 0) (bit v 6)
  else s.rwWrite (pgXlat u) off v

/-- EMB: the descriptor array is one for the device (R201, R204). -/
def State.wrEmb (s : State) (r off : Nat) (v : Word) : State :=
  if off = oEmbTblBase then s.runOut (execTblBaseWrite (Fin.ofNat 12 r) v s)
  else if off = oEmbTblCount then s.runOut (execTblCountWrite (Fin.ofNat 12 r) v s)
  else if off = oEmbTblInv then s.runOut (execTblInv (Fin.ofNat 12 r) v s)
  else s.rwWrite (pgEmb r) off v

/-- Registers of a link that may be written, with their bits (R770). -/
def linkWritable (off : Nat) : Option Nat :=
  if off = oEthPfcThr then some (2 ^ 32 - 1) else if off = oEthDiscCtl then some (2 ^ 18 - 1) else none

/-- ETH: CFG acts, the registers of the selected link are its own (R720, R770). Disabling discovery on a link that is UP
sends the message that says so (R731). -/
def State.wrEth (s : State) (p off : Nat) (v : Word) : State :=
  if off = oEthCfg then s.runOut (execEthCfgWrite (Fin.ofNat 4 p) v s)
  else if ethLinkReg off then
    match linkWritable off with
    | none => s
    | some m =>
      let l := p * 4 + s.rf (pgEth p) oEthLinkSel 1 0
      let was := bit (s.linkRg l oEthDiscCtl) 16
      let s := if off = oEthDiscCtl ∧ was = true ∧ bit v 16 = false ∧ (s.linkAt l).st = .up then s.discSend l 3 false else s
      s.setLinkRg l off (v &&& word m)
  else s.rwWrite (pgEth p) off v

/-- HCMD: the registers of the selected ring, while it is disabled (R818); CPL_HEAD and the doorbells (R795, R799). -/
def State.wrHcmd (s : State) (off : Nat) (v : Word) : State :=
  let r := s.rf pgHcmd oHcmdRingSel 5 0
  let g := s.ringAt r
  let ring (h : RingSt) : State := if bit g.ctl 0 then s.conflict pgHcmd else s.putRing r h
  if off = oHcmdRingCtl then ring { g with ctl := v &&& word 0x3FFF0FF3 }
  else if off = oHcmdCmdBase then ring { g with cmdBase := v &&& word (2 ^ 52 - 2 ^ 12) }
  else if off = oHcmdCplVa then ring { g with cplVa := v }
  else if off = oHcmdCplRkey then ring { g with cplRkey := v &&& word (2 ^ 32 - 1) }
  else if off = oHcmdCplHead then s.runOut (execCplHeadWrite v s)
  else if off = oHcmdNotify then (s.rwWrite pgHcmd off v).flushNotes
  else if oHcmdDoorbell ≤ off ∧ off < oHcmdDoorbell + 8 * 63 then s.doorbell ((off - oHcmdDoorbell) / 8) v
  else s.rwWrite pgHcmd off v

/-- The registers of a stream that may change only while it is off (R941). -/
def telLocked (off : Nat) : Bool :=
  [oTelPeriod, oTelQp, oTelRva, oTelRkey, oTelSelCount].contains off || (decide (oTelSel ≤ off) && decide (off < oTelSel + 8 * 256))

/-- TEL (R938, R941, R942, R954, R1001): the stream starts behind the present boundary; what the log has not written goes
when it is switched off. -/
def State.wrTel (s : State) (off : Nat) (v : Word) : State :=
  if off = oTelCtl then
    let on := bit (s.rg pgTel oTelCtl) 0
    let s := s.rwWrite pgTel off v
    let s := if bit v 0 && !on then s.setTel { s.tel with lastB := s.ns / s.telPeriod * s.telPeriod } else s
    if bit v 1 then s else s.setTel { s.tel with logQ := [] }
  else if off = oTelMarginCmd then s.runOut (execMarginCmd v s)
  else if off = oTelLogLog then s.setRg pgTel off (word (max 8 (min 20 (fld v 4 0))))
  else if telLocked off && bit (s.rg pgTel oTelCtl) 0 then s.conflict pgTel
  else s.rwWrite pgTel off v

/-- DBG (R945, R956): CTX_CMD is decoded by OP; a reserved OP does nothing. -/
def State.wrDbg (s : State) (off : Nat) (v : Word) : State :=
  let wv : Fin 4 := Fin.ofNat 4 (fld v 4 3)
  let ctx : Fin 512 := Fin.ofNat 512 (fld v 13 5)
  if off = oDbgMode then s.runOut (execDbgModeWrite v s)
  else if off = oDbgCtxCmd then
    match fld v 2 0 with
    | 1 => s.runOut (execHalt wv ctx (bit v 14) s)
    | 2 => s.runOut (execResume wv ctx (bit v 14) s)
    | 3 => s.runOut (execStep wv ctx s)
    | 4 => s.runOut (execHaltUnits s)
    | 5 => s.runOut (execResumeUnits s)
    | _ => s
  else s.rwWrite pgDbg off v

/-- A write of a block register. -/
def State.blockWrite (s : State) (pg off : Nat) (v : Word) : State :=
  let i := pg % 1024
  match pg / 1024 with
  | 0x02 => s.wrTime off v
  | 0x03 => s.wrPwr off v
  | 0x04 => s.wrPwrd i off v
  | 0x05 => s.wrTherm off v
  | 0x08 => s.wrRegion i off v
  | 0x0A => s.wrWlk i off v
  | 0x0B => if off = oMatDbgSel then s.runOut (execDbgSelWrite (Fin.ofNat 156 i) v s) else s.rwWrite pg off v
  | 0x0C => if off = oGmxDigClr then s.runOut (execDigClrWrite (Fin.ofNat 156 i) v s) else s.rwWrite pg off v
  | 0x12 => s.wrSync i off v
  | 0x13 => s.wrXlat i off v
  | 0x18 => if off = oStkSvcCmdHi then s.svcIssue i v else s.rwWrite pg off v
  | 0x1A => s.wrEmb i off v
  | 0x20 => s.wrEth i off v
  | 0x22 => s.wrHcmd off v
  | 0x30 => s.wrTel off v
  | 0x31 => if off = oLedgerSnapCmd then s.runOut (execSnapCmd v s) else s.rwWrite pg off v
  | 0x3F => s.wrDbg off v
  | _ => s.rwWrite pg off v

/-- An 8-byte write of the control window (R775, R776). -/
def State.regWrite (s : State) (pg off : Nat) (v : Word) : State :=
  if !pageExists pg then s else if off < 0x200 then s.headWrite pg off v else s.blockWrite pg off v

/-! ## The rows of the header -/

/-- Run a write on a page that exists; one to any other has no effect (R776). -/
def State.onPage (s : State) (p : PageRef) (f : Nat → State) : Out State :=
  if pageExists (pageOf p) then .next (f (pageOf p)) else .next s

/-- EVT_STATUS_CLEAR (R785). -/
def execEvtStatusClear (p : PageRef) (v collide : Word) (s : State) : Out State := s.live <| s.onPage p (fun pg => s.evtClear pg v collide)

/-- EVT_SET_WRITE (R786). -/
def execEvtSetWrite (p : PageRef) (v : Word) (s : State) : Out State := s.live <| s.onPage p (fun pg => s.evtTest pg v)

/-- CNT_SEL_WRITE (R931). -/
def execCntSelWrite (p : PageRef) (i : Fin 8) (v : Word) (s : State) : Out State := s.live <| s.onPage p (fun pg => s.cntSelect pg i.val v)

/-- CNT_VAL_WRITE (R784). -/
def execCntValWrite (p : PageRef) (i : Fin 8) (v counted : Word) (s : State) : Out State := s.live <|
  s.onPage p (fun pg => s.cntStore pg i.val v counted)

/-- PAGE_CTL_COMMIT (R780). -/
def execPageCtlCommit (p : PageRef) (v : Word) (s : State) : Out State := s.live <| s.onPage p (fun pg => s.pageCommit pg v)

/-- ERR_VALID_CLEAR (R781, R785): `last.collide` says that the last record entered arrives in the cycle of the clear. -/
def execErrValidClear (p : PageRef) (last : ErrSel) (v : Word) (s : State) : Out State :=
  s.live <| s.onPage p (fun pg => s.errWrite pg last.last v last.collide)

end Sys2Proof.Machine
end

