-- ==== Sys2Proof/Machine/Rx.lean ====
section
/-! DEFINITION. The responder (R734 to R747, R756 to R764, R811, R813): requests received on a queue pair, their checks, the
accesses they make, frames and signals, acknowledgements. -/

namespace Sys2Proof.Machine

/-! ## Answers -/

/-- What running a received request comes to. -/
inductive RxRes where
  | done
  | wait
  | nak (k : NakKind)
  deriving DecidableEq, Repr

/-- Who makes the accesses of a received request of a queue pair. -/
def rxWho (q : Nat) : Who := .rdma q 1

/-- The PSN of a message's last packet (R733). -/
def State.lastPsn (s : State) (q psn : Nat) (op : TxOp) : Nat := (psn + txPackets (qpMtu (s.qpAt q).ctx) op - 1) % 2 ^ 24

/-! ## Memory regions (R740 to R743) -/

/-- A memory region entry permits an access (R742): index and key of the rkey, protection domain, permission, extent. -/
def mrAllows (e : List Byte) (rkey pd perm va len : Nat) : Bool :=
  let w2 := wordAt e 0x10
  let w3 := wordAt e 0x18
  bit w3 0 && decide (fld w2 7 0 = rkey % 256) && decide (fld w2 19 8 = pd) && bit w3 perm &&
    decide (fld (wordAt e 0) 51 0 ≤ va) && decide (va + len ≤ fld (wordAt e 0) 51 0 + (wordAt e 8).toNat)

/-- The bit of word 3 that permits a request (R740). -/
def TxOp.perm : TxOp → Nat
  | .read _ _ _ => 1
  | .write _ _ _ _ => 2
  | _ => 3

/-- Address and rkey of a request. -/
def TxOp.target : TxOp → Nat × Nat
  | .write va k _ _ => (va.toNat, k)
  | .read va k _ => (va.toNat, k)
  | .fetchAdd va k _ => (va.toNat, k)
  | .cmpSwap va k _ _ => (va.toNat, k)
  | .send _ _ => (0, 0)

/-- What the check of an access answers: refused, waiting, the control window, or memory with its FRAMED bit. -/
inductive MrRes where
  | bad
  | wait
  | window
  | mem (framed : Bool)
  deriving DecidableEq, Repr

/-- Check a request against the memory region it names (R741 to R743, R775). -/
def State.mrCheck (s : State) (q : Nat) (op : TxOp) : MrRes × State :=
  let (va, rkey) := op.target
  let v := s.qpAt q
  if 2 ^ 24 ≤ rkey then (.bad, s)
  else if rkey / 256 = 0 then
    (if v.owner && decide (rkey = 0) && decide (op.perm ≠ 3) && decide (va + op.bytes ≤ 2 ^ 28) && decide (va % 8 = 0) &&
        decide (op.bytes % 8 = 0) then .window else .bad, s)
  else match s.readVa 12 (rxWho q) true (s.rf (pgRdma 0) oRdmaMrBase 51 12 * 4096 + 32 * (rkey / 256)) 32 with
    | (none, s) => (.wait, s)
    | (some (e, ps), s) =>
      (if !ps.any id && mrAllows e rkey (fld (wordAt v.ctx 0) 19 8) op.perm va op.bytes then .mem (bit (wordAt e 0x18) 4) else .bad, s)

/-! ## The control window by RDMA (R743, R775) -/

/-- Write aligned words of the control window, ascending. -/
def State.windowWrite (s : State) (va : Nat) : List Word → State
  | [] => s
  | w :: ws => (s.regWrite (va / 4096) (va % 4096) w).windowWrite (va + 8) ws

/-- Read n aligned words of the control window, ascending. -/
def State.windowRead (s : State) (va : Nat) : Nat → List Byte × State
  | 0 => ([], s)
  | n + 1 =>
    let (w, s) := s.regRead (va / 4096) (va % 4096)
    let (rest, s) := s.windowRead (va + 8) n
    (leBytes 8 w.toNat ++ rest, s)

/-- Words of a byte string. -/
def wordsOf (bs : List Byte) : List Word := (List.range (bs.length / 8)).map (fun i => wordAt bs (8 * i))

/-! ## Frames (R756, R761 to R763) -/

/-- The header of a frame is good: HCRC, VER, reserved bits, TYPE, EFMT and LEN (R762). -/
def frameHdrOk (d : List Byte) : Bool :=
  let lo := wordAt d 0
  let hi := wordAt d 8
  decide (16 ≤ d.length) && decide (crc16 (d.take 14) = fld hi 63 48) && decide (fld lo 15 8 = 1) && decide (fld lo 31 28 = 0) &&
    decide (fld hi 7 1 = 0) && decide (2 ≤ fld lo 7 0) && decide (fld lo 7 0 ≤ 4) && decide (fld hi 15 8 ≤ 5) &&
    decide (fld lo 63 32 = d.length - 16)

/-- The body of an AREA frame is a compressed area of that length whose tiles are consistent (R536, R537, R539, R762): it is
read as a consumer that expects its own TR, TC and the header's EFMT reads it. -/
def State.frameArea (s : State) (efmt : Nat) (body : List Byte) : Bool :=
  let w := wordAt body 0
  let t := fld w 10 0 * fld w 21 11
  decide (fld w 55 32 = body.length) && decide (1 ≤ t) && decide (t ≤ 1024) && decide (body.length ≤ spadBytes) &&
    (((s.spadWr 0 0 body false).areaRead 0 0 (fld w 10 0) (fld w 21 11) efmt).bad).isNone

/-- A frame passes the checks of R762. -/
def State.frameOk (s : State) (d : List Byte) : Bool :=
  frameHdrOk d &&
    (bit (wordAt d 8) 0 || (match fld (wordAt d 0) 7 0 with
      | 2 => s.frameArea (fld (wordAt d 8) 15 8) (d.drop 16)
      | 3 =>
        let cols := fld (wordAt d 8) 31 16
        decide (cols % 4 = 0) && decide (fld (wordAt d 8) 47 32 % 4 = 0) && decide (4 ≤ cols) &&
          decide ((d.length - 16) % (cols * (blockBytes (fld (wordAt d 8) 15 8) / 64)) = 0)
      | _ => true))

/-- The frame says that every access of it is poisoned (R756, R762). -/
def framePoison (d : List Byte) : Bool := frameHdrOk d && bit (wordAt d 8) 0

/-- A frame has failed (R763): counted; its queue pair enters ERROR after the NAK. -/
def State.frameFail (s : State) (q psn : Nat) : State :=
  let pg := pgRdma (q / 4096)
  (((s.count pg oRdmaFrameBad 1).setEvt pg 2).sendNak q psn .remoteOp).qpErr q

/-! ## READ, WRITE, atomics (R742 to R745, R747, R763) -/

/-- An RDMA access met poison (R745). -/
def State.rxPoison (s : State) (q : Nat) : State :=
  let pg := pgRdma (q / 4096)
  (s.count pg oRdmaPoison 1).setEvt pg 4

/-- A WRITE has landed and is acknowledged (R660, R661). -/
def State.rxLanded (s : State) (q last : Nat) : State :=
  (s.putQp q { s.qpAt q with landed := (s.qpAt q).landed + 1 }).sendAck q last

/-- A WRITE (R742, R743, R762, R763). -/
def State.rxWrite (s : State) (q psn : Nat) (op : TxOp) (data : List Byte) : RxRes × State :=
  let last := s.lastPsn q psn op
  match s.mrCheck q op with
  | (.bad, s) => (.nak .remoteAccess, s)
  | (.wait, s) => (.wait, s)
  | (.window, s) => (.done, (s.windowWrite op.target.1 (wordsOf data)).rxLanded q last)
  | (.mem framed, s) =>
    match s.writeVa 12 (rxWho q) true op.target.1 data (framed && framePoison data) with
    | (false, s) => (.wait, s)
    | (true, s) => (.done, if framed && !s.frameOk data then s.frameFail q psn else s.rxLanded q last)

/-- A READ (R742, R743, R745): its response acknowledges what came before it. -/
def State.rxRead (s : State) (q psn : Nat) (op : TxOp) : RxRes × State :=
  let answer (s : State) (d : List Byte) : RxRes × State :=
    (.done, (s.putQp q { s.qpAt q with lastAck := s.lastPsn q psn op }).sendQp q (txPackets (qpMtu (s.qpAt q).ctx) op) (.resp q psn d))
  match s.mrCheck q op with
  | (.bad, s) => (.nak .remoteAccess, s)
  | (.wait, s) => (.wait, s)
  | (.window, s) => let (d, s) := s.windowRead op.target.1 (op.bytes / 8); answer s d
  | (.mem _, s) =>
    match s.readVa 12 (rxWho q) true op.target.1 op.bytes with
    | (none, s) => (.wait, s)
    | (some (d, ps), s) => if ps.any id then (.nak .remoteOp, s.rxPoison q) else answer s d

/-- What an atomic makes of the word it finds (R744). -/
def TxOp.rmw (op : TxOp) (w : Word) : Word :=
  match op with
  | .fetchAdd _ _ a => w + a
  | .cmpSwap _ _ c x => if w = c then x else w
  | _ => w

/-- An atomic (R744): one read-modify-write at the stack port, its result kept for duplicates (R747). -/
def State.rxAtomic (s : State) (q psn : Nat) (op : TxOp) : RxRes × State :=
  if op.target.1 % 8 ≠ 0 then (.nak .invalid, s)
  else match s.mrCheck q op with
    | (.bad, s) => (.nak .remoteAccess, s)
    | (.wait, s) => (.wait, s)
    | (.window, s) => (.nak .remoteAccess, s)
    | (.mem _, s) =>
      match s.rmwVa 12 (rxWho q) true op.target.1 op.rmw with
      | (none, s) => (.wait, s)
      | (some (old, p), s) =>
        if p then (.nak .remoteOp, s.rxPoison q)
        else
          let v := s.qpAt q
          let d := leBytes 8 old.toNat
          let l := v.atomics ++ [(psn, d)]
          (.done, (s.putQp q { v with atomics := l.drop (l.length - 16), lastAck := psn }).sendQp q 1 (.resp q psn d))

/-! ## SEND (R811, R813) -/

/-- A SEND has landed: its counter rises and it is acknowledged (R811). -/
def State.rxSent (s : State) (q last : Nat) : State :=
  let c := ctrOp (fld (wordAt (s.qpAt q).ctx 0x40) 31 16)
  (s.issueInc c.1 c.2 1).sendAck q last

/-- A SEND to a stream: it lands at the start of the lowest posted slot (R813). -/
def State.rxStream (s : State) (q last : Nat) (data : List Byte) : RxRes × State :=
  let i := fld (wordAt (s.qpAt q).ctx 0x40) 35 32
  let v := s.streamAt i
  match findIdx (fun x => decide (x = SvcSlot.posted)) v.slots with
  | none => (.nak .rnr, s)
  | some k =>
    if stSlotBytes v.block < data.length then (.nak .invalid, s)
    else match s.writeVa 12 (rxWho q) true (stSlotVa v.block k) data false with
      | (false, s) => (.wait, s)
      | (true, s) =>
        let v := s.streamAt i
        (.done, (s.putStream i { v with slots := v.slots.set k (.landed q data.length s.ns) }).rxSent q last)

/-- A SEND takes the next posted receive entry (R811). -/
def State.rxEntry (s : State) (q last : Nat) (data : List Byte) : RxRes × State :=
  let v := s.qpAt q
  let c := wordAt v.ctx 0x38
  if fld c 55 52 = 0 ∨ v.rqPosted ≤ v.rqNext then (.nak .rnr, s)
  else match s.readVa 12 (rxWho q) true (fld c 51 0 + 16 * (v.rqNext % 2 ^ fld c 55 52)) 16 with
    | (none, s) => (.wait, s)
    | (some (e, ps), s) =>
      if ps.any id then (.nak .remoteOp, s.rxPoison q)
      else if leAt e 8 4 < data.length then (.nak .invalid, s)
      else match s.writeVa 12 (rxWho q) true (fld (wordAt e 0) 51 0) data false with
        | (false, s) => (.wait, s)
        | (true, s) => (.done, (s.putQp q { s.qpAt q with rqNext := v.rqNext + 1 }).rxSent q last)

/-! ## Signals (R659, R663, R664, R757, R758) -/

/-- A signal passes the checks of R758 that its bytes decide. -/
def signalOk (d : List Byte) : Bool :=
  let lo := wordAt d 0
  let hi := wordAt d 8
  let b := wordAt d 16
  let n := fld b 50 48
  decide (24 ≤ d.length) && decide (crc16 (d.take 14) = fld hi 63 48) && decide (fld lo 15 8 = 1) && decide (fld lo 7 0 = 1) &&
    decide (fld lo 31 28 = 0) && decide (fld hi 47 0 = 0) && decide (fld b 63 51 = 0) && decide (fld b 15 12 ≤ 11) && decide (n ≤ 4) &&
    decide (fld lo 63 32 = 8 + 8 * n) && decide (d.length = 24 + 8 * n) &&
    (List.range n).all (fun j => decide (fld (wordAt d (24 + 8 * j)) 63 46 = 0))

/-- A remote increment (R663, R664, R758): it takes a pending-signal entry, or is discarded with an error; either way its
credit is no longer lent. A full table holds the sender back. -/
def State.rxSignal (s : State) (q last : Nat) (d : List Byte) : RxRes × State :=
  let e := q / 4096
  let pg := pgRdma e
  let v := s.qpAt q
  if !v.sigEn || !signalOk d then
    let s := if v.sigEn then s.putQp q { v with sigLent := v.sigLent - 1, sigOwed := v.sigOwed + 1 } else s
    let s := (s.count pg oRdmaSigBad 1).setEvt pg 1
    (.done, (s.error pg (contained 0x0402 pg (word q) 0)).sendAck q last)
  else if psigCap ≤ s.eth.psig.countP (fun x => decide (x.eng = e)) then (.nak .rnr, s)
  else
    let b := wordAt d 16
    let x : PSig :=
      { eng := e, id := s.eth.nextSig, qp := q, region := fld b 15 12, ctr := fld b 11 0, amount := fld b 47 16,
        cov := (List.range (fld b 50 48)).map (fun j => (fld (wordAt d (24 + 8 * j)) 45 32, fld (wordAt d (24 + 8 * j)) 31 0)),
        bar := v.landed }
    let s := s.setEth { s.eth with psig := s.eth.psig ++ [x], nextSig := s.eth.nextSig + 1 }
    let s := s.putQp q { v with sigLent := v.sigLent - 1 }
    (.done, (s.count pg oRdmaSigRx 1).sendAck q last)

/-- A SEND, or SEND with immediate (R757, R811): the signal immediate makes it a remote increment. SPDM messages of a management
queue pair are commands of their own; here they are acknowledged (R736). -/
def State.rxSend (s : State) (q psn : Nat) (op : TxOp) (data : List Byte) (imm : Option Nat) : RxRes × State :=
  let last := s.lastPsn q psn op
  if mgmtQp q then (.done, s.sendAck q last)
  else if imm = some sigImm then s.rxSignal q last data
  else if bit (wordAt (s.qpAt q).ctx 0x40) 36 then s.rxStream q last data
  else s.rxEntry q last data

/-! ## Order (R746, R747) -/

/-- Execute a received request (R734). A management queue pair serves SENDs alone (R736). -/
def State.rxRun (s : State) (x : RxMsg) : RxRes × State :=
  match x.op with
  | .send d imm => s.rxSend x.qp x.psn x.op d imm
  | .write _ _ d _ => if mgmtQp x.qp then (.nak .invalid, s) else s.rxWrite x.qp x.psn x.op d
  | .read _ _ _ => if mgmtQp x.qp then (.nak .invalid, s) else s.rxRead x.qp x.psn x.op
  | _ => if mgmtQp x.qp then (.nak .invalid, s) else s.rxAtomic x.qp x.psn x.op

/-- A refused request is expected again, and those behind it are forgotten: the requester goes back to it (R748). -/
def State.rxNak (s : State) (x : RxMsg) (k : NakKind) : State :=
  let s := s.setEth { s.eth with rxHeld := s.eth.rxHeld.filter (fun y => y.qp ≠ x.qp) }
  (s.putQp x.qp { s.qpAt x.qp with rqPsn := x.psn }).sendNak x.qp x.psn k

/-- Execute the requests a queue pair holds, in order, up to one that waits on a fault (R186, R746); n bounds them. -/
def State.rxDrain (s : State) (q : Nat) : Nat → State
  | 0 => s
  | n + 1 =>
    match s.eth.rxHeld.find? (fun x => x.qp = q) with
    | none => s
    | some x =>
      if s.parkedAt 12 (rxWho q) then s
      else match s.rxRun x with
        | (.wait, s) => s
        | (.done, s) => (s.setEth { s.eth with rxHeld := s.eth.rxHeld.erase x }).rxDrain q n
        | (.nak k, s) => s.rxNak x k

/-- Execute what can be executed on every queue pair, and tell the senders about the buffer (R722, R746). -/
def State.rxDrainAll (s : State) : State :=
  if s.eth.rxHeld.isEmpty then s
  else
    let qs := (s.eth.rxHeld.map (·.qp)).dedup
    let n := s.eth.rxHeld.length
    let s := qs.foldl (fun t q => t.rxDrain q n) s
    (List.range 4).foldl (fun t p => t.pfcCheck p) s

/-- Requests of the requester that are commands again: the effect of a command that may free a parked request. -/
def State.thenRx (s : State) : Out State := .next s.rxDrainAll

/-- A congestion mark (R764): the sender gets a CNP unless one left within CNP_GAP. -/
def State.rxMarked (s : State) (q : Nat) : State :=
  let e := q / 4096
  let s := s.linkCount (s.qpLink q) oEthEcnCeRx 1
  let v := s.qpAt q
  if v.cnpAt.any (fun t => decide (s.ns < t + 1000 * s.rf (pgRdma e) oRdmaRcParam 47 40)) then s
  else ((s.putQp q { v with cnpAt := some s.ns }).count (pgRdma e) oRdmaCnpTx 1).sendQp q 1 (.cnp q)

/-- Payload bytes a request carries. -/
def TxOp.payload : TxOp → Nat
  | .write _ _ d _ => d.length
  | .send d _ => d.length
  | _ => 0

/-- Packets a request arrives in. -/
def State.rxPackets (s : State) (q : Nat) (op : TxOp) : Nat := max 1 ((op.payload + qpMtu (s.qpAt q).ctx - 1) / qpMtu (s.qpAt q).ctx)

/-- A duplicate (R747): a WRITE or SEND is acknowledged again, a READ executed again, an atomic answered from the cache. What is
still held waits for its own answer. -/
def State.rxDup (s : State) (x : RxMsg) : State :=
  let s := s.count (pgRdma (x.qp / 4096)) oRdmaDupRx (s.rxPackets x.qp x.op)
  if s.eth.rxHeld.any (fun y => decide (y.qp = x.qp) && decide (y.psn = x.psn)) then s
  else match x.op with
    | .write _ _ _ _ => s.sendAck x.qp (s.qpAt x.qp).lastAck
    | .send _ _ => s.sendAck x.qp (s.qpAt x.qp).lastAck
    | .read _ _ _ =>
      if s.parkedAt 12 (rxWho x.qp) then s
      else
        let ack := (s.qpAt x.qp).lastAck
        match s.rxRun x with
        | (.nak k, s) => s.sendNak x.qp x.psn k
        | (.wait, s) => s
        | (.done, s) => s.putQp x.qp { s.qpAt x.qp with lastAck := ack }
    | _ => match (s.qpAt x.qp).atomics.find? (fun a => a.1 = x.psn) with
      | some a => s.sendQp x.qp 1 (.resp x.qp x.psn a.2)
      | none => s

/-- The expected request (R746): the messages of a queue pair are counted as they arrive and executed in order. One that must
wait in a full buffer is dropped where its priority has no PFC (R723). -/
def State.rxNext (s : State) (x : RxMsg) : State :=
  let e := x.qp / 4096
  let held := s.eth.rxHeld.any (fun y => y.qp = x.qp)
  if held && decide (2 ^ 21 < s.rxBytes e + x.op.bytes) && !bit (s.rg (pgEth e) oEthCfg) (8 + s.rf (pgEth e) oEthCfg 18 16) then
    s.linkCount (s.qpLink x.qp) oEthDrop 1
  else
    let v := s.qpAt x.qp
    let s := s.putQp x.qp { v with rqPsn := (v.rqPsn + txPackets (qpMtu v.ctx) x.op) % 2 ^ 24 }
    let s := (s.count (pgRdma e) oRdmaRxMsgs 1).count (pgRdma e) oRdmaRxBytes x.op.payload
    s.setEth { s.eth with rxHeld := s.eth.rxHeld ++ [x] }

/-- A request arrives on a link that is UP (R736, R746, R747, R770): duplicates and gaps are told by its PSN. A queue pair that is
not connected, and the first two of an engine, take none. -/
def State.rxArrive (s : State) (h : RxHdr) (op : TxOp) : Out State :=
  let q := h.qp.val
  let x : RxMsg := ⟨q, h.psn.toNat, h.ce, op⟩
  if (s.linkAt (s.qpLink q)).st ≠ .up then .next s
  else
    let s := s.heard (s.qpLink q) (s.rxPackets q op) op.payload
    let s := if h.ce then s.rxMarked q else s
    let v := s.qpAt q
    let gap := (x.psn + 2 ^ 24 - v.rqPsn) % 2 ^ 24
    if v.up = false ∨ q % 4096 < 2 then .next s
    else if gap = 0 then (s.rxNext x).thenRx
    else if 2 ^ 23 ≤ gap then (s.rxDup x).thenRx
    else .next (s.sendNak q v.rqPsn .sequence)

/-! ## The rows -/

/-- RX_SEND (R734, R811). -/
def execRxSend (h : RxHdr) (payload : List Byte) (s : State) : Out State := s.live <| s.rxArrive h (.send payload none)

/-- RX_SEND_IMM (R757). -/
def execRxSendImm (h : RxHdr) (imm : BitVec 32) (payload : List Byte) (s : State) : Out State := s.live <|
  s.rxArrive h (.send payload (some imm.toNat))

/-- REMOTE_INCREMENT_RX (R663): the SEND with the signal immediate. -/
def execRemoteIncrementRx (h : RxHdr) (payload : List Byte) (s : State) : Out State := s.live <| s.rxArrive h (.send payload (some sigImm))

/-- RX_WRITE (R742). -/
def execRxWrite (h : RxHdr) (va : Word) (rkey : BitVec 32) (data : List Byte) (s : State) : Out State := s.live <|
  s.rxArrive h (.write va rkey.toNat data none)

/-- RX_WRITE_IMM (R660, R734): a WRITE; it takes no receive entry, which R811 gives to SENDs. -/
def execRxWriteImm (h : RxHdr) (imm : BitVec 32) (va : Word) (rkey : BitVec 32) (data : List Byte) (s : State) : Out State := s.live <|
  s.rxArrive h (.write va rkey.toNat data (some imm.toNat))

/-- RX_READ (R745). -/
def execRxRead (h : RxHdr) (va : Word) (rkey : BitVec 32) (len : Nat) (s : State) : Out State := s.live <|
  s.rxArrive h (.read va rkey.toNat len)

/-- RX_FETCH_ADD (R744). -/
def execRxFetchAdd (h : RxHdr) (va : Word) (rkey : BitVec 32) (add : Word) (s : State) : Out State := s.live <|
  s.rxArrive h (.fetchAdd va rkey.toNat add)

/-- RX_CMP_SWAP (R744). -/
def execRxCmpSwap (h : RxHdr) (va : Word) (rkey : BitVec 32) (cmp swap : Word) (s : State) : Out State := s.live <|
  s.rxArrive h (.cmpSwap va rkey.toNat cmp swap)

end Sys2Proof.Machine
end

