-- ==== Sys2Proof/Machine/Tick.lean ====
section
/-! DEFINITION. What one clock cycle of the hub die does of itself (R54, R55). -/

namespace Sys2Proof.Machine

/-- One hub-die cycle: ST advances by the rate (R55); ST stands still while the device is held in reset (R58). -/
def State.tick (s : State) : State :=
  if s.pins.held then s else s.setTime { s.time with st := (s.time.st + s.time.rate) % 2 ^ 104 }

end Sys2Proof.Machine
end

