-- ==== Sys2Proof/Machine/Window.lean ====
section
/-! DEFINITION. Register writes as commands (R12), and the resumption of faulted requests (R182, R186, R196). Each may let
received requests go on that waited on a fault. -/

namespace Sys2Proof.Machine

/-- REGISTER_WRITE (R9, R12, R775, R776): an aligned 8-byte word of the control window; an access that is not aligned acts
on no word. -/
def execRegisterWrite (addr : BitVec 28) (v : Word) (s : State) : Out State := s.live <|
  if addr.toNat % 8 ≠ 0 then .next s
  else (s.regWrite (addr.toNat / 4096) (addr.toNat % 4096) v).thenRx

/-- FAULT_STALL_RETRY (R182). -/
def execFaultStallRetry (u : Fin 13) (s : State) : Out State := s.live <| (s.stallRetry u.val).thenRx

/-- RESUME_RETRY (R186, R188). -/
def execResumeRetry (u : Fin 13) (slot : Fin 64) (s : State) : Out State := s.live <| (s.resumeSlot u.val slot.val false).thenRx

/-- RESUME_ABORT (R186, R188). -/
def execResumeAbort (u : Fin 13) (slot : Fin 64) (s : State) : Out State := s.live <| (s.resumeSlot u.val slot.val true).thenRx

/-- PAGE_IN (R196): the data are one page of 64 KiB or 2 MiB. -/
def execPageIn (va : Word) (frame : BitVec 42) (data : List Byte) (s : State) : Out State := s.live <|
  if data.length = 2 ^ 16 ∨ data.length = 2 ^ 21 then (s.pageInAt va.toNat frame.toNat data).thenRx
  else .fault (.illFormed "PAGE_IN")

/-- PAGE_EVICT (R197): the eviction of a page begins; the same command goes on with it once its invalidation is complete, and
again once its write-back is acknowledged. -/
def execPageEvict (va : Word) (tag : BitVec 32) (s : State) : Out State := s.live <| (s.evictAct va.toNat tag.toNat).thenRx

end Sys2Proof.Machine
end

