-- ==== Sys2Proof/Machine/Dispatch.lean ====
section
/-! DEFINITION. Dispatch: one arm per command. -/

namespace Sys2Proof.Machine

/-- The effect of a command on everything but the queue of waiting commands. -/
def exec (i : Instr) (s : State) : Host.Outcome State Fault Refusal :=
  match i with
  | .ptpMessageRx port m => Sys2Proof.Machine.execPtpMessageRx port m s
  | .ppsEdge => Sys2Proof.Machine.execPpsEdge s
  | .ppsLost => Sys2Proof.Machine.execPpsLost s
  | .cadenceExchange port m => Sys2Proof.Machine.execCadenceExchange port m s
  | .holdoverEntry => Sys2Proof.Machine.execHoldoverEntry s
  | .stNsRead => Sys2Proof.Machine.execStNsRead s
  | .stSet v => Sys2Proof.Machine.execStSet v s
  | .ppsOutPulse => Sys2Proof.Machine.execPpsOutPulse s
  | .eventDelivery => Sys2Proof.Machine.execEventDelivery s
  | .launchEvent => Sys2Proof.Machine.execLaunchEvent s
  | .barrierEvent => Sys2Proof.Machine.execBarrierEvent s
  | .versionRegionSwitch => Sys2Proof.Machine.execVersionRegionSwitch s
  | .versionDeviceSwitch => Sys2Proof.Machine.execVersionDeviceSwitch s
  | .powerEvent => Sys2Proof.Machine.execPowerEvent s
  | .scrubOpen => Sys2Proof.Machine.execScrubOpen s
  | .scrubClose => Sys2Proof.Machine.execScrubClose s
  | .deadlineMiss slot => Sys2Proof.Machine.execDeadlineMiss slot s
  | .rd stk f errs => Sys2Proof.Machine.execRd stk f errs s
  | .wr stk f => Sys2Proof.Machine.execWr stk f s
  | .wrm stk f => Sys2Proof.Machine.execWrm stk f s
  | .flitFence stk f => Sys2Proof.Machine.execFlitFence stk f s
  | .gpool stk f => Sys2Proof.Machine.execGpool stk f s
  | .gpoolRow stk f => Sys2Proof.Machine.execGpoolRow stk f s
  | .poolLaneDone stk tag => Sys2Proof.Machine.execPoolLaneDone stk tag s
  | .rupd stk f => Sys2Proof.Machine.execRupd stk f s
  | .scrub stk errs => Sys2Proof.Machine.execScrub stk errs s
  | .train stk => Sys2Proof.Machine.execTrain stk s
  | .retrain stk => Sys2Proof.Machine.execRetrain stk s
  | .marginT stk => Sys2Proof.Machine.execMarginT stk s
  | .marginV stk => Sys2Proof.Machine.execMarginV stk s
  | .patch stk errs => Sys2Proof.Machine.execPatch stk errs s
  | .ppr stk errs => Sys2Proof.Machine.execPpr stk errs s
  | .pchRetire stk => Sys2Proof.Machine.execPchRetire stk s
  | .responseFlit stk => Sys2Proof.Machine.execResponseFlit stk s
  | .replay stk path => Sys2Proof.Machine.execReplay stk path s
  | .trainDone d pass => Sys2Proof.Machine.execTrainDone d pass s
  | .retrainDone d pass => Sys2Proof.Machine.execRetrainDone d pass s
  | .marginStepDone d found => Sys2Proof.Machine.execMarginStepDone d found s
  | .stackTempReading stk core base pchTemps => Sys2Proof.Machine.execStackTempReading stk core base pchTemps s
  | .refresh d bank => Sys2Proof.Machine.execRefresh d bank s
  | .stackClearDone stk => Sys2Proof.Machine.execStackClearDone stk s
  | .stackPortTrained stk => Sys2Proof.Machine.execStackPortTrained stk s
  | .svcCmdHiWrite stk v => Sys2Proof.Machine.execSvcCmdHiWrite stk v s
  | .slotGrant d => Sys2Proof.Machine.execSlotGrant d s
  | .translate u q => Sys2Proof.Machine.execTranslate u q s
  | .walkReadReturn u walk => Sys2Proof.Machine.execWalkReadReturn u walk s
  | .dBitCompareDone u walk => Sys2Proof.Machine.execDBitCompareDone u walk s
  | .xlatRootWrite v => Sys2Proof.Machine.execXlatRootWrite v s
  | .invCmd u v => Sys2Proof.Machine.execInvCmd u v s
  | .invDone => Sys2Proof.Machine.execInvDone s
  | .resumeRetry u slot => Sys2Proof.Machine.execResumeRetry u slot s
  | .resumeAbort u slot => Sys2Proof.Machine.execResumeAbort u slot s
  | .faultStallRetry u => Sys2Proof.Machine.execFaultStallRetry u s
  | .pageIn va frame data => Sys2Proof.Machine.execPageIn va frame data s
  | .pageEvict va tag => Sys2Proof.Machine.execPageEvict va tag s
  | .tblBaseWrite r v => Sys2Proof.Machine.execTblBaseWrite r v s
  | .tblCountWrite r v => Sys2Proof.Machine.execTblCountWrite r v s
  | .tblInv r v => Sys2Proof.Machine.execTblInv r v s
  | .lookup r => Sys2Proof.Machine.execLookup r s
  | .accReserve r bag => Sys2Proof.Machine.execAccReserve r bag s
  | .bagFinish r bag => Sys2Proof.Machine.execBagFinish r bag s
  | .lookupDone r task => Sys2Proof.Machine.execLookupDone r task s
  | .update r => Sys2Proof.Machine.execUpdate r s
  | .updateBatchDone batch => Sys2Proof.Machine.execUpdateBatchDone batch s
  | .loadWindowBoundary => Sys2Proof.Machine.execLoadWindowBoundary s
  | .loadReportRx n from_ => Sys2Proof.Machine.execLoadReportRx n from_ s
  | .migrationDecision n => Sys2Proof.Machine.execMigrationDecision n s
  | .dirBroadcastApply n mv => Sys2Proof.Machine.execDirBroadcastApply n mv s
  | .dirBroadcastAck mv => Sys2Proof.Machine.execDirBroadcastAck mv s
  | .moveFencesDone mv => Sys2Proof.Machine.execMoveFencesDone mv s
  | .moveCopyWritten mv => Sys2Proof.Machine.execMoveCopyWritten mv s
  | .switchDrained mv => Sys2Proof.Machine.execSwitchDrained mv s
  | .moveAbort mv => Sys2Proof.Machine.execMoveAbort mv s
  | .holdQueueRelease r => Sys2Proof.Machine.execHoldQueueRelease r s
  | .dataArrival c req e => Sys2Proof.Machine.execDataArrival c req e s
  | .weevilGate clu wv => Sys2Proof.Machine.execWeevilGate clu wv s
  | .walkerBagQueueFree r => Sys2Proof.Machine.execWalkerBagQueueFree r s
  | .wNop c => Sys2Proof.Machine.execWNop c s
  | .wAdd c => Sys2Proof.Machine.execWAdd c s
  | .wSub c => Sys2Proof.Machine.execWSub c s
  | .wMul c => Sys2Proof.Machine.execWMul c s
  | .wMulhu c => Sys2Proof.Machine.execWMulhu c s
  | .wAnd c => Sys2Proof.Machine.execWAnd c s
  | .wOr c => Sys2Proof.Machine.execWOr c s
  | .wXor c => Sys2Proof.Machine.execWXor c s
  | .wShl c => Sys2Proof.Machine.execWShl c s
  | .wShr c => Sys2Proof.Machine.execWShr c s
  | .wSar c => Sys2Proof.Machine.execWSar c s
  | .wMinu c => Sys2Proof.Machine.execWMinu c s
  | .wMaxu c => Sys2Proof.Machine.execWMaxu c s
  | .wSel c => Sys2Proof.Machine.execWSel c s
  | .wAddi c => Sys2Proof.Machine.execWAddi c s
  | .wMuli c => Sys2Proof.Machine.execWMuli c s
  | .wAndi c => Sys2Proof.Machine.execWAndi c s
  | .wOri c => Sys2Proof.Machine.execWOri c s
  | .wXori c => Sys2Proof.Machine.execWXori c s
  | .wShli c => Sys2Proof.Machine.execWShli c s
  | .wShri c => Sys2Proof.Machine.execWShri c s
  | .wMovi c => Sys2Proof.Machine.execWMovi c s
  | .wMovhi c => Sys2Proof.Machine.execWMovhi c s
  | .wSari c => Sys2Proof.Machine.execWSari c s
  | .wCmp c => Sys2Proof.Machine.execWCmp c s
  | .wCmpi c => Sys2Proof.Machine.execWCmpi c s
  | .wPlog c => Sys2Proof.Machine.execWPlog c s
  | .wMovs c => Sys2Proof.Machine.execWMovs c s
  | .wLea c => Sys2Proof.Machine.execWLea c s
  | .wIdx c => Sys2Proof.Machine.execWIdx c s
  | .wLd c => Sys2Proof.Machine.execWLd c s
  | .wSt c => Sys2Proof.Machine.execWSt c s
  | .wLds c e => Sys2Proof.Machine.execWLds c e s
  | .wSts c e => Sys2Proof.Machine.execWSts c e s
  | .wGather c => Sys2Proof.Machine.execWGather c s
  | .wPut c => Sys2Proof.Machine.execWPut c s
  | .wFence c => Sys2Proof.Machine.execWFence c s
  | .wDeg c => Sys2Proof.Machine.execWDeg c s
  | .wSample c => Sys2Proof.Machine.execWSample c s
  | .wPf c => Sys2Proof.Machine.execWPf c s
  | .wGrl c => Sys2Proof.Machine.execWGrl c s
  | .wGrn c => Sys2Proof.Machine.execWGrn c s
  | .wSadd c => Sys2Proof.Machine.execWSadd c s
  | .wSclose c => Sys2Proof.Machine.execWSclose c s
  | .wCinc c => Sys2Proof.Machine.execWCinc c s
  | .wCwait c => Sys2Proof.Machine.execWCwait c s
  | .wRand c => Sys2Proof.Machine.execWRand c s
  | .wBr c => Sys2Proof.Machine.execWBr c s
  | .wEnd c => Sys2Proof.Machine.execWEnd c s
  | .wTrap c => Sys2Proof.Machine.execWTrap c s
  | .undefinedOpcode c => Sys2Proof.Machine.execUndefinedOpcode c s
  | .heldException c => Sys2Proof.Machine.execHeldException c s
  | .moments clu => Sys2Proof.Machine.execMoments clu s
  | .swarmPiece r => Sys2Proof.Machine.execSwarmPiece r s
  | .swarmSetRx clu => Sys2Proof.Machine.execSwarmSetRx clu s
  | .matrixTask clu e => Sys2Proof.Machine.execMatrixTask clu e s
  | .taskEndDrain clu => Sys2Proof.Machine.execTaskEndDrain clu s
  | .outputPath clu => Sys2Proof.Machine.execOutputPath clu s
  | .dbgSelWrite clu v => Sys2Proof.Machine.execDbgSelWrite clu v s
  | .relayChunkRx clu => Sys2Proof.Machine.execRelayChunkRx clu s
  | .relayCreditReturn clu => Sys2Proof.Machine.execRelayCreditReturn clu s
  | .unitGate clu u => Sys2Proof.Machine.execUnitGate clu u s
  | .compress clu => Sys2Proof.Machine.execCompress clu s
  | .digest clu => Sys2Proof.Machine.execDigest clu s
  | .expand clu => Sys2Proof.Machine.execExpand clu s
  | .digClrWrite clu v => Sys2Proof.Machine.execDigClrWrite clu v s
  | .transferPost r => Sys2Proof.Machine.execTransferPost r s
  | .transferActivate r q => Sys2Proof.Machine.execTransferActivate r q s
  | .rowDelivered r slot row => Sys2Proof.Machine.execRowDelivered r slot row s
  | .transferHalt r slot => Sys2Proof.Machine.execTransferHalt r slot s
  | .transferDrainDone r slot => Sys2Proof.Machine.execTransferDrainDone r slot s
  | .counterIncrement r ctr => Sys2Proof.Machine.execCounterIncrement r ctr s
  | .waitRelease r => Sys2Proof.Machine.execWaitRelease r s
  | .waitReoffer r => Sys2Proof.Machine.execWaitReoffer r s
  | .waitTimeout r wait => Sys2Proof.Machine.execWaitTimeout r wait s
  | .ctrSetWrite r v => Sys2Proof.Machine.execCtrSetWrite r v s
  | .ctrIncWrite r v => Sys2Proof.Machine.execCtrIncWrite r v s
  | .taskEntryRead r => Sys2Proof.Machine.execTaskEntryRead r s
  | .ask clu u => Sys2Proof.Machine.execAsk clu u s
  | .taskDeliver r k => Sys2Proof.Machine.execTaskDeliver r k s
  | .signalTask r => Sys2Proof.Machine.execSignalTask r s
  | .remoteIncrementRx h payload => Sys2Proof.Machine.execRemoteIncrementRx h payload s
  | .pendingSignalApply e entry => Sys2Proof.Machine.execPendingSignalApply e entry s
  | .snapCmd v => Sys2Proof.Machine.execSnapCmd v s
  | .snapshotLatch => Sys2Proof.Machine.execSnapshotLatch s
  | .snapshotDone => Sys2Proof.Machine.execSnapshotDone s
  | .ethCfgWrite port v => Sys2Proof.Machine.execEthCfgWrite port v s
  | .linkTrained l => Sys2Proof.Machine.execLinkTrained l s
  | .linkLoss l => Sys2Proof.Machine.execLinkLoss l s
  | .linkRetryTimer l => Sys2Proof.Machine.execLinkRetryTimer l s
  | .pfcFrameRx port mask quanta => Sys2Proof.Machine.execPfcFrameRx port mask quanta s
  | .pfcStorm port prio => Sys2Proof.Machine.execPfcStorm port prio s
  | .neighborPacketRx l p => Sys2Proof.Machine.execNeighborPacketRx l p s
  | .addrChange l a => Sys2Proof.Machine.execAddrChange l a s
  | .discoveryAnnounce l => Sys2Proof.Machine.execDiscoveryAnnounce l s
  | .discoveryQueryRx l own => Sys2Proof.Machine.execDiscoveryQueryRx l own s
  | .discoveryQueryAnswer l => Sys2Proof.Machine.execDiscoveryQueryAnswer l s
  | .discoveryRx l payload => Sys2Proof.Machine.execDiscoveryRx l payload s
  | .cmReq m => Sys2Proof.Machine.execCmReq m s
  | .cmRep m => Sys2Proof.Machine.execCmRep m s
  | .cmRtu m => Sys2Proof.Machine.execCmRtu m s
  | .cmRej m => Sys2Proof.Machine.execCmRej m s
  | .cmDreq m => Sys2Proof.Machine.execCmDreq m s
  | .cmDrep m => Sys2Proof.Machine.execCmDrep m s
  | .rxSend h payload => Sys2Proof.Machine.execRxSend h payload s
  | .rxSendImm h imm payload => Sys2Proof.Machine.execRxSendImm h imm payload s
  | .rxWrite h va rkey data => Sys2Proof.Machine.execRxWrite h va rkey data s
  | .rxWriteImm h imm va rkey data => Sys2Proof.Machine.execRxWriteImm h imm va rkey data s
  | .rxRead h va rkey len => Sys2Proof.Machine.execRxRead h va rkey len s
  | .rxFetchAdd h va rkey add => Sys2Proof.Machine.execRxFetchAdd h va rkey add s
  | .rxCmpSwap h va rkey cmp swap => Sys2Proof.Machine.execRxCmpSwap h va rkey cmp swap s
  | .ackRx qp psn credits => Sys2Proof.Machine.execAckRx qp psn credits s
  | .nakRx qp psn k => Sys2Proof.Machine.execNakRx qp psn k s
  | .ackTimeout qp => Sys2Proof.Machine.execAckTimeout qp s
  | .creditAck qp => Sys2Proof.Machine.execCreditAck qp s
  | .wqeWrite qp => Sys2Proof.Machine.execWqeWrite qp s
  | .wqeWriteImm qp => Sys2Proof.Machine.execWqeWriteImm qp s
  | .wqeSend qp => Sys2Proof.Machine.execWqeSend qp s
  | .wqeSendImm qp => Sys2Proof.Machine.execWqeSendImm qp s
  | .wqeRead qp => Sys2Proof.Machine.execWqeRead qp s
  | .wqeFetchAdd qp => Sys2Proof.Machine.execWqeFetchAdd qp s
  | .wqeCmpSwap qp => Sys2Proof.Machine.execWqeCmpSwap qp s
  | .wqeSignal qp => Sys2Proof.Machine.execWqeSignal qp s
  | .wqeComplete qp => Sys2Proof.Machine.execWqeComplete qp s
  | .cnpRx qp => Sys2Proof.Machine.execCnpRx qp s
  | .ratePeriod e => Sys2Proof.Machine.execRatePeriod e s
  | .evtStatusClear p v collide => Sys2Proof.Machine.execEvtStatusClear p v collide s
  | .evtSetWrite p v => Sys2Proof.Machine.execEvtSetWrite p v s
  | .cntSelWrite p k v => Sys2Proof.Machine.execCntSelWrite p k v s
  | .cntValWrite p k v counted => Sys2Proof.Machine.execCntValWrite p k v counted s
  | .pageCtlCommit p v => Sys2Proof.Machine.execPageCtlCommit p v s
  | .errValidClear p last v => Sys2Proof.Machine.execErrValidClear p last v s
  | .registerWrite addr v => Sys2Proof.Machine.execRegisterWrite addr v s
  | .doorbell r v => Sys2Proof.Machine.execDoorbell r v s
  | .cplHeadWrite v => Sys2Proof.Machine.execCplHeadWrite v s
  | .nopCommand src => Sys2Proof.Machine.execNopCommand src s
  | .launch src => Sys2Proof.Machine.execLaunch src s
  | .cancel src => Sys2Proof.Machine.execCancel src s
  | .sched src => Sys2Proof.Machine.execSched src s
  | .schedCancel src => Sys2Proof.Machine.execSchedCancel src s
  | .graphLoad src => Sys2Proof.Machine.execGraphLoad src s
  | .graphUnload src => Sys2Proof.Machine.execGraphUnload src s
  | .slotLoadBegin src => Sys2Proof.Machine.execSlotLoadBegin src s
  | .slotLoadEnd src => Sys2Proof.Machine.execSlotLoadEnd src s
  | .slotLoadAbort src => Sys2Proof.Machine.execSlotLoadAbort src s
  | .slotFree src => Sys2Proof.Machine.execSlotFree src s
  | .qpModify src => Sys2Proof.Machine.execQpModify src s
  | .streamOpen src => Sys2Proof.Machine.execStreamOpen src s
  | .streamClose src => Sys2Proof.Machine.execStreamClose src s
  | .bind src => Sys2Proof.Machine.execBind src s
  | .unbind src => Sys2Proof.Machine.execUnbind src s
  | .fwWrite src sigOk => Sys2Proof.Machine.execFwWrite src sigOk s
  | .fwActivate src => Sys2Proof.Machine.execFwActivate src s
  | .stop src => Sys2Proof.Machine.execStop src s
  | .reset src => Sys2Proof.Machine.execReset src s
  | .admitSlot slot => Sys2Proof.Machine.execAdmitSlot slot s
  | .requestComplete slot => Sys2Proof.Machine.execRequestComplete slot s
  | .cancelDone slot => Sys2Proof.Machine.execCancelDone slot s
  | .serviceRequest stream => Sys2Proof.Machine.execServiceRequest stream s
  | .getVersion src => Sys2Proof.Machine.execGetVersion src s
  | .getCapabilities src => Sys2Proof.Machine.execGetCapabilities src s
  | .negotiateAlgorithms src offered => Sys2Proof.Machine.execNegotiateAlgorithms src offered s
  | .getDigests src => Sys2Proof.Machine.execGetDigests src s
  | .getCertificate src slot offset len => Sys2Proof.Machine.execGetCertificate src slot offset len s
  | .challenge src slot => Sys2Proof.Machine.execChallenge src slot s
  | .getMeasurements src index => Sys2Proof.Machine.execGetMeasurements src index s
  | .keyExchange src slot mutualAuth => Sys2Proof.Machine.execKeyExchange src slot mutualAuth s
  | .finish src session verified chain => Sys2Proof.Machine.execFinish src session verified chain s
  | .heartbeat session => Sys2Proof.Machine.execHeartbeat session s
  | .keyUpdate session => Sys2Proof.Machine.execKeyUpdate session s
  | .endSession session => Sys2Proof.Machine.execEndSession session s
  | .pwrdReqOn d => Sys2Proof.Machine.execPwrdReqOn d s
  | .pwrdReqRet d => Sys2Proof.Machine.execPwrdReqRet d s
  | .pwrdReqOff d => Sys2Proof.Machine.execPwrdReqOff d s
  | .domainDrainDone d => Sys2Proof.Machine.execDomainDrainDone d s
  | .domainWakeDone d => Sys2Proof.Machine.execDomainWakeDone d s
  | .domainDemand d source => Sys2Proof.Machine.execDomainDemand d source s
  | .powerEstimate watts => Sys2Proof.Machine.execPowerEstimate watts s
  | .pmbusPoll readPin => Sys2Proof.Machine.execPmbusPoll readPin s
  | .pmbAlert status => Sys2Proof.Machine.execPmbAlert status s
  | .hotspotReading regions dies => Sys2Proof.Machine.execHotspotReading regions dies s
  | .thermalTrip die => Sys2Proof.Machine.execThermalTrip die s
  | .scrubPace stk => Sys2Proof.Machine.execScrubPace stk s
  | .scrubPeriodEnd stk => Sys2Proof.Machine.execScrubPeriodEnd stk s
  | .rowRepair stk pprLeft => Sys2Proof.Machine.execRowRepair stk pprLeft s
  | .moveCmd r v => Sys2Proof.Machine.execMoveCmd r v s
  | .granuleMoveDone r => Sys2Proof.Machine.execGranuleMoveDone r s
  | .epochAdopt r => Sys2Proof.Machine.execEpochAdopt r s
  | .stackReturn stk => Sys2Proof.Machine.execStackReturn stk s
  | .subst r v => Sys2Proof.Machine.execSubst r v s
  | .loopbackDone l badLanes => Sys2Proof.Machine.execLoopbackDone l badLanes s
  | .svcWatchdog core => Sys2Proof.Machine.execSvcWatchdog core s
  | .resetRelease => Sys2Proof.Machine.execResetRelease s
  | .enterEarly => Sys2Proof.Machine.execEnterEarly s
  | .enterFull => Sys2Proof.Machine.execEnterFull s
  | .regionRelease r pass => Sys2Proof.Machine.execRegionRelease r pass s
  | .identityReady digest => Sys2Proof.Machine.execIdentityReady digest s
  | .activationPartDone rep => Sys2Proof.Machine.execActivationPartDone rep s
  | .logWrite => Sys2Proof.Machine.execLogWrite s
  | .telemetrySample => Sys2Proof.Machine.execTelemetrySample s
  | .marginCmd v => Sys2Proof.Machine.execMarginCmd v s
  | .halt wv ctx all => Sys2Proof.Machine.execHalt wv ctx all s
  | .resume wv ctx all => Sys2Proof.Machine.execResume wv ctx all s
  | .step wv ctx => Sys2Proof.Machine.execStep wv ctx s
  | .haltUnits => Sys2Proof.Machine.execHaltUnits s
  | .resumeUnits => Sys2Proof.Machine.execResumeUnits s
  | .dbgModeWrite v => Sys2Proof.Machine.execDbgModeWrite v s
  | .pwrOkRise => Sys2Proof.Machine.execPwrOkRise s
  | .pwrOkFall => Sys2Proof.Machine.execPwrOkFall s
  | .resetNLow => Sys2Proof.Machine.execResetNLow s
  | .refclkEthLoss port => Sys2Proof.Machine.execRefclkEthLoss port s
  | .refclkLoss k => Sys2Proof.Machine.execRefclkLoss k s
  | .bootStepDone f => Sys2Proof.Machine.execBootStepDone f s
  | .fwWriteComplete readBackOk => Sys2Proof.Machine.execFwWriteComplete readBackOk s
  | .coreRestartDone core => Sys2Proof.Machine.execCoreRestartDone core s
  | .linkTrainingFailure l => Sys2Proof.Machine.execLinkTrainingFailure l s
  | .fecUncorrectableCodeword l => Sys2Proof.Machine.execFecUncorrectableCodeword l s
  | .pfcPauseExpiry port prio => Sys2Proof.Machine.execPfcPauseExpiry port prio s
  | .rdmaReadResponseRx qp data => Sys2Proof.Machine.execRdmaReadResponseRx qp data s
  | .testPortInstruction k => Sys2Proof.Machine.execTestPortInstruction k s

end Sys2Proof.Machine
end

