-- ==== Sys2Proof/Safety.lean ====
section
/-! DEFINITION. The terms of the claims: a command that completes and what its next state holds, the sound form of the
block's stores, and a safe run. -/

namespace Sys2Proof

/-- A command completes at a state, and its next state satisfies a property. -/
def Completes (i : Instr) (s : Machine.State) (p : Machine.State → Prop) : Prop := ∃ t, Machine.exec i s = .next t ∧ p t

/-- The device is not held in reset: its commands take effect (R966). -/
def Machine.State.awake (s : Machine.State) : Prop := s.pins.held = false

/-- Only what books an event changed: registers and error keys, the event log, waiting notifications, the rings and queue
pairs that carry completions, what left the block with its frame counts, and the count of free values. -/
def Booked (s t : Machine.State) : Prop :=
  t = { s with regs := t.regs, errKeys := t.errKeys, tel := t.tel, host := t.host, rings := t.rings, qps := t.qps, served := t.served, frames := t.frames, out := t.out, free := t.free }

/-- A data command offered at port n is served at once: no pool header is open, the flit is its requester's, which does not stall,
its fields and address are accepted, it is not parked, the stack and the pseudo-channel are FULL, no granule of the region is on the
move, no earlier command stands before it, and its granules are where its address says (R120, R121, R125 to R128, R152, R864). -/
def Machine.State.servesNow (s : Machine.State) (n : Nat) (c : Machine.SlotCmd) : Prop :=
  (s.stkAt n).gp = none ∧ s.portOwn n c.opc c.f = true ∧ s.parkFull n c.f.src = false ∧ Machine.portFieldsOk c.opc c.f = true ∧
    Machine.portAddrOk c.opc c.f = true ∧ s.mustPark n c = false ∧ (s.stkAt n).st = .full ∧ (s.stkAt n).lost = false ∧
    (s.regionAt n).move = none ∧ s.takeBehind n (n * 64 + c.f.pch.toNat) c = false ∧
    (∀ l ∈ s.cmdGranules n c, s.serveAt (n * 64 + c.f.pch.toNat) l = (n * 64 + c.f.pch.toNat, l)) ∧
    (s.pchAt (n * 64 + c.f.pch.toNat)).st = .full ∧ (s.pchAt (n * 64 + c.f.pch.toNat)).training = false

/-- A context issues the word w next: it is its turn, it is READY, no exception held, the word at its program counter is w, unpoisoned,
legal and not blocked, its guard holds, and the context is not under STEP (R29, R316, R368, R375 to R380, R426, R947). -/
def Machine.State.issues (s : Machine.State) (c : CtxRef) (w : Word) : Prop :=
  (s.wvAt (Machine.ctxWv c)).turn c.ctx.val = true ∧ (s.ctxAt c).st = .ready ∧ (s.ctxAt c).held = none ∧ (s.wvAt (Machine.ctxWv c)).wordOf (s.ctxAt c) = some (w, false) ∧
    Machine.wIllegal w = false ∧ (s.wvAt (Machine.ctxWv c)).blocked (s.ctxAt c) = false ∧ Machine.wGuard (s.ctxAt c) w = true ∧
    s.dbg.step.contains (Machine.ctxWv c, c.ctx.val) = false

/-- A request without a congestion mark counted on its link (R770). -/
def Machine.State.rxCounted (s : Machine.State) (q : Nat) (op : Machine.TxOp) : Machine.State :=
  (s.linkCount (s.qpLink q) Machine.oEthRxFrames (s.rxPackets q op)).linkCount (s.qpLink q) Machine.oEthRxBytes op.payload

/-- The queue pair of a header takes requests, its link is UP, and the header carries no congestion mark (R736, R770). -/
def Machine.State.takesRx (s : Machine.State) (h : RxHdr) : Prop :=
  (s.linkAt (s.qpLink h.qp.val)).st = .up ∧ h.ce = false ∧ 2 ≤ h.qp.val % 4096 ∧ (s.qpAt h.qp.val).up = true

/-- A source gives its next command, of one opcode and not poisoned, and the state in which it is taken (R794, R797 to R799, R914). -/
def Machine.State.offers (s : Machine.State) (src : CmdSrc) (opc : Nat) (ws : List Word) (z : Machine.State) : Prop :=
  s.cmdTake src (fun o => decide (o = opc)) = (some (ws, false), z)

/-- The stores of a state have their canonical form: the bytes and marks of the stacks, of the scratchpads and of the private
memory rise by key, and list nothing that an unlisted key reads as. -/
def Machine.State.memSound (s : Machine.State) : Prop :=
  Machine.smapWf (fun _ => (0 : Byte)) s.dram.cells = true ∧ Machine.smapWf s.poisonDef s.dram.poison = true ∧
    s.spad.wf = true ∧ s.store.wf = true

/-- k steps run without a fault or a refusal. -/
def Safe (k : Nat) (s : Machine.State) : Prop := ∃ t, Host.Core.run core k s = .next t

end Sys2Proof
end

