-- ==== Sys2Proof/Certificates/Slice0/Obligations.lean ====
section
/-! DEFINITION. The statements for the provers. -/

open Sys2Proof Sys2Proof.Machine

/-! ## The block as a whole -/

/-- The front command of the queue runs with the rest of the queue; on an empty queue one hub cycle passes. -/
def Obligations.StepRunsFrontCommand : Prop :=
  ∀ (c : Instr) (rest : List Instr) (s : State),
    (s.pending = c :: rest → step s = exec c (s.setPending rest)) ∧ (s.pending = [] → step s = .next s.tick)

/-- No well-formed command is refused or faults. An ill-formed command stops with the name of its row (log entry 88). A register access that
is not aligned acts on no word (R775). -/
def Obligations.WellFormedCommandsComplete : Prop :=
  (∀ (i : Instr) (s : State), i.wf = true → ∃ t, exec i s = .next t) ∧
  ((∀ n f errs (s : State), s.awake → (Instr.rd n f errs).wf = false → exec (.rd n f errs) s = .fault (.illFormed "RD")) ∧
  (∀ n f (s : State), s.awake → (Instr.wr n f).wf = false → exec (.wr n f) s = .fault (.illFormed "WR")) ∧
  (∀ n f (s : State), s.awake → (Instr.wrm n f).wf = false → exec (.wrm n f) s = .fault (.illFormed "WRM")) ∧
  (∀ n f (s : State), s.awake → (Instr.rupd n f).wf = false → exec (.rupd n f) s = .fault (.illFormed "RUPD")) ∧
  (∀ a v (s : State), a.toNat % 8 ≠ 0 → exec (.registerWrite a v) s = .next s))

/-- A device held in reset takes nothing but its pins. -/
def Obligations.HeldDeviceTakesOnlyPins : Prop :=
  ∀ (i : Instr) (s : State), s.pins.held = true →
    (match i with
      | .pwrOkRise => True
      | .pwrOkFall => True
      | .resetNLow => True
      | .resetRelease => True
      | .refclkEthLoss _ => True
      | .refclkLoss _ => True
      | .testPortInstruction _ => True
      | _ => exec i s = .next s)

/-- The walk-program instruction word: decoding the encoding of a well-formed instruction gives the instruction. The other direction: every
word of 64 bits is the encoding of what it decodes to. -/
def Obligations.WalkWordsAreEncodings : Prop :=
  (∀ i : WInstr, i.wf = true → wDecode (wEncode i) = i) ∧
  (∀ w : BitVec 64, wEncode (wDecode w) = w)

/-! ## System time -/

/-- PTP messages (R64, R65): Announces and the master they lead to, the two steps of a Sync exchange, the link delay from the device's own
timestamps. That a delay request goes with each Sync is the model's choice (log entry 100). The pulse input, the cadence source and the
loss of sources (R68 to R71, R75, R970): the rate of a cadence measurement starts from the upstream device's. -/
def Obligations.TimeUnitMeasures : Prop :=
  ((∀ (p : Fin 4) (dom : Byte) source rank i (s : State), s.awake → s.ptpOn p.val dom.toNat = true →
    s.time.masters.find? (fun m => decide (m.port = p.val) && decide (m.source = source)) = none →
    Completes (.ptpMessageRx p (.announce dom source rank i)) s (fun t =>
      t = (s.heard (p.val * 4) 1 0).setTime { s.time with masters := t.time.masters } ∧
      (⟨p.val, source, rank, s.time.st, i, 1⟩ : PtpMaster) ∈ t.time.masters)) ∧
  (∀ (p : Fin 4) (dom : Byte) source rank i m (s : State), s.awake → s.ptpOn p.val dom.toNat = true →
    s.time.masters.find? (fun m => decide (m.port = p.val) && decide (m.source = source)) = some m →
    s.time.st < m.heardAt + 4 * (i * 2 ^ 40) →
    Completes (.ptpMessageRx p (.announce dom source rank i)) s (fun t =>
      t = (s.heard (p.val * 4) 1 0).setTime { s.time with masters := t.time.masters } ∧
      (⟨p.val, source, rank, s.time.st, i, 2⟩ : PtpMaster) ∈ t.time.masters)) ∧
  (∀ (s : State) b, s.bestMaster = some b → b ∈ s.time.masters ∧ s.masterOk b = true ∧ bit s.srcCtl (4 + b.port) = true ∧
    ∀ m ∈ s.time.masters, s.masterOk m = true → bit s.srcCtl (4 + m.port) = true → b.rank ≤ m.rank) ∧
  (∀ (p : Fin 4) (dom : Byte) source origin corr interval (s : State), s.awake → s.ptpOn p.val dom.toNat = true →
    s.isBest p.val source = true →
    exec (.ptpMessageRx p (.sync dom source true origin corr interval)) s =
      .next (((s.heard (p.val * 4) 1 0).setTime { s.time with twoStep := s.time.twoStep.filter (fun x => x.1 ≠ p.val) ++
        [(p.val, s.time.st, corr, interval)] }).delayAsk p.val)) ∧
  (∀ (p : Fin 4) (dom : Byte) source origin corr interval (s : State), s.awake → s.ptpOn p.val dom.toNat = true →
    s.isBest p.val source = true →
    exec (.ptpMessageRx p (.sync dom source false origin corr interval)) s =
      .next (((s.heard (p.val * 4) 1 0).ptpSync p.val s.time.st (origin + corr) interval).delayAsk p.val)) ∧
  (∀ (p : Fin 4) (dom : Byte) source origin corr e (s : State), s.awake → s.ptpOn p.val dom.toNat = true →
    s.isBest p.val source = true → s.time.twoStep.find? (fun x => x.1 = p.val) = some e →
    exec (.ptpMessageRx p (.followUp dom source origin corr)) s =
      .next (((s.heard (p.val * 4) 1 0).setTime { s.time with twoStep := s.time.twoStep.filter (fun x => x.1 ≠ p.val) }).ptpSync p.val e.2.1
        (origin + e.2.2.1 + corr) e.2.2.2)) ∧
  (∀ (p : Fin 4) (dom : Byte) source t4 corr e r (s : State), s.awake → s.ptpOn p.val dom.toNat = true →
    s.isBest p.val source = true → fld s.srcCtl 3 2 = 0 →
    s.time.syncTs.find? (fun x => x.1 = p.val) = some e → s.time.reqTs.find? (fun x => x.1 = p.val) = some r →
    exec (.ptpMessageRx p (.delayResp dom source t4 corr)) s =
      .next ((s.heard (p.val * 4) 1 0).setDelay p.val (((e.2.2 - e.2.1) + ((t4 : Int) - corr - r.2)) / 2))) ∧
  (∀ (p : Fin 4) (dom : Byte) t2 t3 corr r (s : State), s.awake → s.ptpOn p.val dom.toNat = true → fld s.srcCtl 3 2 = 1 →
    s.time.reqTs.find? (fun x => x.1 = p.val) = some r →
    exec (.ptpMessageRx p (.pdelayResp dom t2 t3 corr)) s =
      .next ((s.heard (p.val * 4) 1 0).setDelay p.val ((((s.st16 : Int) - r.2) - ((t3 : Int) - t2) - corr) / 2))) ∧
  (∀ (p : Fin 4) (dom : Byte) (s : State), s.awake → bit s.srcCtl (16 + p.val) = true →
    exec (.ptpMessageRx p (.pdelayReq dom)) s =
      .next (((s.heard (p.val * 4) 1 0).sendOn (p.val * 4) 1 (.ptp p.val (.pdelayResp s.st16 s.st16))).sendOn (p.val * 4) 1
        (.ptp p.val (.sync ((s.heard (p.val * 4) 1 0).sendOn (p.val * 4) 1 (.ptp p.val (.pdelayResp s.st16 s.st16))).st16))))) ∧
  ((∀ (s : State) u, s.awake → bit s.srcCtl 8 = true → s.time.ppsLast = none →
    u = (s.setRg pgTime oTimePpsInTs (word s.ns)).setTime { s.time with ppsLast := some s.time.st, ppsQual := true, ppsSeen := true } →
    (u.srcNow = 4 → exec .ppsEdge s =
      .next (u.measure 4 0 nominalRate ((s.time.st : Int) - ((s.time.st + sec40 / 2) / sec40 * sec40 : Nat)) (10 ^ 9))) ∧
    (u.srcNow ≠ 2 → u.srcNow ≠ 4 → exec .ppsEdge s = .next u)) ∧
  (∀ (s : State), s.awake → bit s.srcCtl 8 = false → exec .ppsEdge s = .next (s.setRg pgTime oTimePpsInTs (word s.ns))) ∧
  (∀ (s : State) l, s.awake → bit s.srcCtl 8 = true → s.time.ppsLast = some l → s.time.ppsQual = true → l + sec40 + window40 < s.time.st →
    exec .ppsLost s = .next ((s.setTime { s.time with ppsQual := false, ppsSeen := false }).setEvt pgTime 4)) ∧
  (∀ (p : Fin 4) (m : CadenceMsg) (s : State), s.awake → s.cadPort = some p.val →
    exec (.cadenceExchange p m) s =
      .next ((((s.heard (p.val * 4) 1 0).setTime { s.time with cadDelays := (m.delaySymbols :: s.time.cadDelays).take 64, cadAt := some (s.time.st, m.intervalNs) }).measure
        1 p.val m.rate ((s.time.st : Int) - ((m.origin * 2 ^ 24 + ((m.delaySymbols :: s.time.cadDelays).take 64).foldl (· + ·) 0 * 8 * 2 ^ 40 /
          (425 * ((m.delaySymbols :: s.time.cadDelays).take 64).length) : Nat) : Int)) m.intervalNs).sendOn (p.val * 4) 1
        (.ptp p.val .pdelayReq))) ∧
  (∀ (s : State), s.awake → s.time.sync = .locked → s.time.lastMeas + 3 * (s.time.interval * 2 ^ 40) ≤ s.time.st →
    Completes .holdoverEntry s (fun t => t.time.sync = .holdover ∧ t.time.uncEntry = s.unc ∧ t.time.holdEntry = s.time.st ∧ t.time.st = s.time.st)))

/-- Reads and steps of ST, and the pulse output (R62, R73, R109, R971). -/
def Obligations.TimeReadsAndSteps : Prop :=
  (∀ (s : State), s.awake → exec .stNsRead s = .next (s.setTime { s.time with frac := s.st16 % 2 ^ 16 })) ∧
  (∀ (v : Word) (s : State), s.awake → s.stepOk = true → s.time.st + 1000 * 2 ^ 40 < v.toNat * 2 ^ 40 →
    Completes (.stSet v) s (fun t => t.time.st = v.toNat * 2 ^ 40 ∧ bit (t.rg pgTime oEvtStatus) 1 = true)) ∧
  (∀ (v : Word) (s : State), s.awake → s.stepOk = false →
    Completes (.stSet v) s (fun t => t.time = s.time ∧ bit (t.rg pgTime oEvtStatus) 2 = true)) ∧
  (∀ (s : State), s.awake → bit (s.rg pgTime oTimePpsOut) 0 = true → s.ns % 10 ^ 9 = 0 → s.ns ≠ s.time.ppsOutAt →
    exec .ppsOutPulse s = .next ((s.setTime { s.time with ppsOut := s.time.ppsOut + 1, ppsOutAt := s.ns }).emit
      (.ppsPulse (min 999999999 (s.rf pgTime oTimePpsOut 31 1)))))

/-- Entries whose DUE is at most 256 ns ahead (times in units of 2^-16 ns) leave the queue for their targets, in order of DUE; the others
stay, and nothing else changes (R82). -/
def Obligations.ScheduledDelivery : Prop :=
  ∀ s : State, s.awake →
    Completes .eventDelivery s (fun t =>
      t.time.queue = s.time.queue.filter (fun e => decide (s.st16 + 256 * 2 ^ 16 < e.due)) ∧
      t.time.delivered = s.time.delivered ++ sortBy SchedEnt.before (s.time.queue.filter (fun e => decide (e.due ≤ s.st16 + 256 * 2 ^ 16))) ∧
      t = s.setTime { s.time with queue := t.time.queue, delivered := t.time.delivered })

/-- What an entry does when it acts: a launch, a barrier, a power request, a scrub window, a version switch; it leaves the time unit and the
ST at which it acted is recorded (R83, R90, R657, R809, R826, R856). -/
def Obligations.ScheduledEntriesAct : Prop :=
  (∀ (s : State) e, s.awake → s.schedNext (fun x => decide (x.kind = 1)) = some e → e.arg < 2 ^ 12 →
    ((s.schedTake e).slotAt e.arg).st = .held → ((s.schedTake e).slotAt e.arg).admitSt = word allBits → (s.schedTake e).admReady e.arg = true →
    exec .launchEvent s = .next (((s.schedTake e).admitRun e.arg).actedNow e.target)) ∧
  (∀ (s : State) e, s.awake → s.schedNext (fun x => decide (x.kind = 2)) = some e → e.arg < 2 ^ 12 → e.target ≠ pgDev →
    exec .barrierEvent s = .next (((s.schedTake e).barrier (e.target % 1024) e.arg).actedNow e.target)) ∧
  (∀ (s : State) e t, s.awake → s.schedNext (fun x => decide (x.kind = 4)) = some e → e.arg < 4 →
    (s.schedTake e).pwrdReq (e.target % 1024) e.arg = (true, t) → exec .powerEvent s = .next (t.actedNow e.target)) ∧
  (∀ (s : State) e, s.awake → s.schedNext (fun x => decide (x.kind = 5)) = some e → e.arg = 0 →
    exec .scrubOpen s = .next (((s.schedTake e).scrubWin e.target 1).actedNow e.target)) ∧
  (∀ (s : State) e, s.awake → s.schedNext (fun x => decide (x.kind = 6)) = some e → e.arg = 0 →
    exec .scrubClose s = .next (((s.schedTake e).scrubWin e.target 0).actedNow e.target)) ∧
  (∀ (s : State) e, s.awake → s.schedNext (fun x => decide (x.kind = 5)) = some e → e.arg ≠ 0 →
    exec .scrubOpen s = .next ((s.schedTake e).schedRefuse e)) ∧
  (∀ (s : State) e d z y, s.awake → s.schedNext (fun x => decide (x.kind = 3) && decide (x.target ≠ pgDev)) = some e → e.target ≠ pgDev →
    e.arg < 2 ^ 13 → s.parkedAt (e.target % 1024) versionWho = false → s.tdFind (e.target % 1024) versionWho (e.arg % 2 ^ 10) = (.ok d, z) →
    tdHome d = e.target % 1024 → tdState d (e.arg / 2 ^ 10 % 8) = svReady →
    z.versionSwitch (e.arg % 2 ^ 10) (e.arg / 2 ^ 10 % 8) d = (true, y) →
    exec .versionRegionSwitch s = .next (((y.schedTake e).actedNow e.target).count (pgEmb (e.target % 1024)) oEmbSwitches 1)) ∧
  (∀ (s : State) e d z y, s.awake → s.schedNext (fun x => decide (x.kind = 3) && decide (x.target = pgDev)) = some e → e.target = pgDev →
    e.arg < 2 ^ 13 → s.parkedAt 0 versionWho = false → s.tdFind 0 versionWho (e.arg % 2 ^ 10) = (.ok d, z) →
    tdState d (e.arg / 2 ^ 10 % 8) = svReady → (z.pauseSet true).versionSwitch (e.arg % 2 ^ 10) (e.arg / 2 ^ 10 % 8) d = (true, y) →
    exec .versionDeviceSwitch s = .next ((List.range 12).foldl (fun u r => (u.setRg (pgEmb r) oEmbSwitchPauseNs
      (word ((((y.schedTake e).actedNow e.target).pauseSet false).draw.1 % 46))).count (pgEmb r) oEmbSwitches 1)
      (((y.schedTake e).actedNow e.target).pauseSet false).draw.2)) ∧
  (∀ (s : State) e d z y, s.awake → s.schedNext (fun x => decide (x.kind = 3) && decide (x.target = pgDev)) = some e → e.target = pgDev →
    e.arg < 2 ^ 13 → s.parkedAt 0 versionWho = false → s.tdFind 0 versionWho (e.arg % 2 ^ 10) = (.ok d, z) →
    tdState d (e.arg / 2 ^ 10 % 8) = svReady → (z.pauseSet true).versionSwitch (e.arg % 2 ^ 10) (e.arg / 2 ^ 10 % 8) d = (false, y) →
    exec .versionDeviceSwitch s = .next y)

/-! ## Stack ports (R111 to R160) -/

/-- A data command that its port serves at once (R120, R125, R128): it is executed and answered, and the high-water marks follow. A data
command with fields the base die does not accept, or with an address outside the data granules, is answered REFUSED and changes no byte
(R120, R114). -/
def Obligations.DataCommandsServed : Prop :=
  ((∀ (n : Region) f errs (s : State), s.awake → (Instr.rd n f errs).wf = true → s.servesNow n.val ⟨0x01, f, errs⟩ →
    exec (.rd n f errs) s = .next (((s.portSent n.val f).serveData n.val ⟨0x01, f, errs⟩ (n.val * 64 + f.pch.toNat) f.addr.toNat).slotMarks
      (n.val * 64 + f.pch.toNat))) ∧
  (∀ (n : Region) f (s : State), s.awake → (Instr.wr n f).wf = true → s.servesNow n.val ⟨0x02, f, []⟩ →
    exec (.wr n f) s = .next (((s.portSent n.val f).serveData n.val ⟨0x02, f, []⟩ (n.val * 64 + f.pch.toNat) f.addr.toNat).slotMarks
      (n.val * 64 + f.pch.toNat))) ∧
  (∀ (n : Region) f (s : State), s.awake → (Instr.wrm n f).wf = true → s.servesNow n.val ⟨0x03, f, []⟩ →
    exec (.wrm n f) s = .next (((s.portSent n.val f).serveData n.val ⟨0x03, f, []⟩ (n.val * 64 + f.pch.toNat) f.addr.toNat).slotMarks
      (n.val * 64 + f.pch.toNat))) ∧
  (∀ (n : Region) f (s : State), s.awake → (Instr.flitFence n f).wf = true → s.servesNow n.val ⟨0x08, f, []⟩ →
    exec (.flitFence n f) s = .next (((s.portSent n.val f).respond n.val (plainResp f 0 0 true)).slotMarks (n.val * 64 + f.pch.toNat)))) ∧
  ((∀ (n : Region) f (s : State), s.awake → (Instr.wr n f).wf = true → (s.stkAt n.val).gp = none → s.portOwn n.val 0x02 f = true →
    s.parkFull n.val f.src = false →
    portFieldsOk 0x02 f = false →
    exec (.wr n f) s = .next ((s.portSent n.val f).portRefuse n.val f) ∧ ((s.portSent n.val f).portRefuse n.val f).dram = s.dram) ∧
  (∀ (n : Region) f (s : State), s.awake → (Instr.wr n f).wf = true → (s.stkAt n.val).gp = none → s.portOwn n.val 0x02 f = true →
    s.parkFull n.val f.src = false →
    portFieldsOk 0x02 f = true → portAddrOk 0x02 f = false →
    exec (.wr n f) s = .next (((s.portSent n.val f).setEvt (pgStk n.val) 5).portRefuse n.val f) ∧
      (((s.portSent n.val f).setEvt (pgStk n.val) 5).portRefuse n.val f).dram = s.dram))

/-- A WR that is served puts its bytes and its POISON mark in its accesses, and changes no other byte of any stack. A WRM that is served on
cells without an error writes the bytes its mask names and keeps the others; the access is poisoned if it was or the flit is. -/
def Obligations.WritesLand : Prop :=
  (∀ (n : Region) f (s : State), s.awake → (Instr.wr n f).wf = true → s.servesNow n.val ⟨0x02, f, []⟩ →
    Completes (.wr n f) s (fun t =>
      t.dram.bytes (accByte (n.val * 64 + f.pch.toNat) f.addr.toNat) (32 * f.count.toNat) = f.data ∧
      (∀ i, i < f.count.toNat → t.accPoison (n.val * 64 + f.pch.toNat) (f.addr.toNat + i) = f.poison) ∧
      (∀ b, b < accByte (n.val * 64 + f.pch.toNat) f.addr.toNat ∨
          accByte (n.val * 64 + f.pch.toNat) f.addr.toNat + 32 * f.count.toNat ≤ b → t.dram.byte b = s.dram.byte b) ∧
      t.spad = s.spad ∧ t.store = s.store)) ∧
  (∀ (n : Region) f (s : State), s.awake → (Instr.wrm n f).wf = true → s.servesNow n.val ⟨0x03, f, []⟩ →
    s.cellErr (n.val * 64 + f.pch.toNat) f.addr.toNat = [] →
    Completes (.wrm n f) s (fun t =>
      (∀ i, i < 32 → t.dram.byte (accByte (n.val * 64 + f.pch.toNat) f.addr.toNat + i) =
        if f.arg.toNat.testBit i then f.data.getD i 0 else s.dram.byte (accByte (n.val * 64 + f.pch.toNat) f.addr.toNat + i)) ∧
      t.accPoison (n.val * 64 + f.pch.toNat) f.addr.toNat = (s.accPoison (n.val * 64 + f.pch.toNat) f.addr.toNat || f.poison) ∧
      (∀ b, b < accByte (n.val * 64 + f.pch.toNat) f.addr.toNat ∨ accByte (n.val * 64 + f.pch.toNat) f.addr.toNat + 32 ≤ b →
        t.dram.byte b = s.dram.byte b)))

/-- A RD that is served without an error of the DRAM interface or of its cells answers with the stored bytes and their POISON marks, and
changes no byte. -/
def Obligations.ReadReturnsStored : Prop :=
  ∀ (n : Region) f (s : State), s.awake → (Instr.rd n f []).wf = true → s.servesNow n.val ⟨0x01, f, []⟩ →
    (∀ i, i < f.count.toNat → s.cellErr (n.val * 64 + f.pch.toNat) (f.addr.toNat + i) = []) →
    Completes (.rd n f []) s (fun t =>
      (t.stkAt n.val).resp = (s.stkAt n.val).resp ++
        [{ rsp := 1, pch := f.pch.toNat, tag := f.tag.toNat, src := f.src, state := 0, slot := true, poison := poisonMask ((List.range f.count.toNat).map (fun i => s.accPoison (n.val * 64 + f.pch.toNat) (f.addr.toNat + i))), data := s.dram.bytes (accByte (n.val * 64 + f.pch.toNat) f.addr.toNat) (32 * f.count.toNat) }] ∧
      t.dram = s.dram)

/-! ## Pins (R957 to R978) -/

/-- The canonical form of the stores holds after reset, and every command of a stack keeps it: data commands, a granted slot, the scrub, the
two row repairs and the return of a lost stack. -/
def Obligations.StackCommandsKeepMemory : Prop :=
  State.reset.memSound ∧
  ∀ (i : Instr) (s t : State), s.memSound → exec i s = .next t →
    (match i with
      | .rd _ _ _ => t.memSound
      | .wr _ _ => t.memSound
      | .wrm _ _ => t.memSound
      | .flitFence _ _ => t.memSound
      | .slotGrant _ => t.memSound
      | .scrub _ _ => t.memSound
      | .ppr _ _ => t.memSound
      | .patch _ _ => t.memSound
      | .stackReturn _ => t.memSound
      | _ => True)

/-! ## Stack ports (R111 to R160) -/

/-- The decoder of an access corrects every error of one symbol, and tells a stored poison mark from data (R138, R139). -/
def Obligations.DecoderCorrectsOneSymbol : Prop :=
  (∀ (p : Nat) (m : Byte), p < 36 → m ≠ 0 → rsDecode false (List.replicate p 0 ++ [m]) = .fixed p m.toNat) ∧
  (∀ (data : List Byte) (p : Nat) (m : Byte), p < 36 → m ≠ 0 → data.length = 32 →
    rsData data (List.replicate p 0 ++ [m]) (.fixed p m.toNat) = data) ∧
  rsDecode false [] = .clean ∧ rsDecode true [] = .poison

/-- The interleave places different granules in different places, whatever the band sizes: two physical addresses that the mapping sends to
one granule of one pseudo-channel name the same granule (R133). -/
def Obligations.InterleaveInjective : Prop :=
  ∀ (bS bD bN pa pb : Nat) (x : Nat × Nat), paMap bS bD bN pa = some x → paMap bS bD bN pb = some x → pa / 2 ^ 8 % 2 ^ 34 = pb / 2 ^ 8 % 2 ^ 34

/-- Slots and parking (R127), the port's own events (R156), refresh (R141, R150) and replays (R118, R146). -/
def Obligations.PortHousekeeping : Prop :=
  (∀ (d : Pch) c cs (s : State), s.awake → (s.pchAt d.val).parked = c :: cs → (s.stkAt (d.val / 64)).st = .full → s.slotsUsed d.val < slotCap →
    exec (.slotGrant d) s = .next (((s.putPch d.val { s.pchAt d.val with parked := cs }).takeUp (d.val / 64) c).slotMarks d.val)) ∧
  (∀ (n : Region) (s : State), s.awake → (s.stkAt n.val).st = .down →
    exec (.stackPortTrained n) s = .next (s.putStk n.val { s.stkAt n.val with st := .training })) ∧
  (∀ (d : Pch) (b : Fin 64) (s : State), s.awake → (s.stkAt (d.val / 64)).st = .full → (s.pchAt d.val).st = .full →
    exec (.refresh d b) s =
      .next (s.putPch d.val { s.pchAt d.val with refreshed := smapSet (fun _ => 0) (s.pchAt d.val).refreshed b.val s.ns })) ∧
  (∀ (d : Pch) (b : Fin 64) (s : State), s.awake → (s.stkAt (d.val / 64)).st = .full → (s.pchAt d.val).st = .retrain →
    (s.pchAt d.val).postponed.contains b.val = false →
    exec (.refresh d b) s = .next (s.putPch d.val { s.pchAt d.val with postponed := (s.pchAt d.val).postponed ++ [b.val] })) ∧
  (∀ (n : Region) (s : State), s.awake → exec (.replay n .command) s = .next (s.count (pgStk n.val) oStkLinkRetry 1)) ∧
  (∀ (n : Region) (s : State), s.awake → exec (.replay n .response) s = .next (s.count (pgStk n.val) oStkLinkRetry 1)) ∧
  (∀ (n : Region) (j : Fin 64) (s : State), s.awake →
    ((s.pchAt (n.val * 64 + j.val)).replays.filter (fun t => decide (s.ns - t ≤ 10 ^ 6))).length < 16 →
    exec (.replay n (.slice j)) s = .next ((s.count (pgStk n.val) oStkLinkRetry 1).putPch (n.val * 64 + j.val)
      { s.pchAt (n.val * 64 + j.val) with replays :=
        s.ns :: (s.pchAt (n.val * 64 + j.val)).replays.filter (fun t => decide (s.ns - t ≤ 10 ^ 6)) }))

/-- Service commands at their stack (R120, R146, R151 to R153, R158): one outstanding command, executed and answered, or CONFLICT. -/
def Obligations.ServiceCommands : Prop :=
  (∀ (n : Region) v (s : State), s.awake → exec (.svcCmdHiWrite n v) s = .next (s.svcIssue n.val v)) ∧
  (∀ (n : Region) errs f (s : State), s.awake → (Instr.scrub n errs).wf = true → s.svcIs n.val 0x20 = some f →
    (s.pchAt (n.val * 64 + f.pch.toNat)).st = .full → (s.pchAt (n.val * 64 + f.pch.toNat)).training = false →
    exec (.scrub n errs) s = .next ((s.scrubSlot (n.val * 64 + f.pch.toNat) (f.addr.toNat / 8) errs).svcAnswer n.val 0 0)) ∧
  (∀ (n : Region) f (s : State), s.awake → s.svcIs n.val 0x30 = some f → (s.pchAt (n.val * 64 + f.pch.toNat)).st = .base →
    f.arg.toNat % 256 = 100 → (s.pchAt (n.val * 64 + f.pch.toNat)).training = false →
    exec (.train n) s =
      .next (s.putPch (n.val * 64 + f.pch.toNat) { s.pchAt (n.val * 64 + f.pch.toNat) with training := true, rate := 100 })) ∧
  (∀ (n : Region) f (s : State), s.awake → s.svcIs n.val 0x30 = some f → (s.pchAt (n.val * 64 + f.pch.toNat)).st = .full →
    exec (.train n) s = .next (s.svcConflict n.val)) ∧
  (∀ (n : Region) f (s : State), s.awake → s.svcIs n.val 0x31 = some f → (s.pchAt (n.val * 64 + f.pch.toNat)).st = .full →
    exec (.retrain n) s = .next (s.retrainTrigger (n.val * 64 + f.pch.toNat) true)) ∧
  (∀ (n : Region) f (s : State), s.awake → s.svcIs n.val 0x32 = some f → (s.stkAt n.val).margin = none →
    exec (.marginT n) s = .next (s.marginCmdOp n.val 1 f)) ∧
  (∀ (n : Region) f (s : State), s.awake → s.svcIs n.val 0x33 = some f → (s.stkAt n.val).margin = none →
    exec (.marginV n) s = .next (s.marginCmdOp n.val 2 f)) ∧
  (∀ (n : Region) errs f (s : State), s.awake → (Instr.patch n errs).wf = true → s.svcIs n.val 0x38 = some f →
    s.repairGate n.val (n.val * 64 + f.pch.toNat) = none → s.rowLive (n.val * 64 + f.pch.toNat) = true →
    exec (.patch n errs) s = .next ((((s.rewriteRow (n.val * 64 + f.pch.toNat) (bankOf f.addr.toNat) (rowOf f.addr.toNat) errs).patchPut n.val
      (f.arg.toNat % 2 ^ 11) f.pch.toNat (bankOf f.addr.toNat) (rowOf f.addr.toNat))).rowRepaired n.val f.pch.toNat f.addr.toNat 2)) ∧
  (∀ (n : Region) errs f (s : State), s.awake → (Instr.ppr n errs).wf = true → s.svcIs n.val 0x39 = some f →
    s.repairGate n.val (n.val * 64 + f.pch.toNat) = none → s.rowLive (n.val * 64 + f.pch.toNat) = true →
    exec (.ppr n errs) s = .next ((s.rewriteRow (n.val * 64 + f.pch.toNat) (bankOf f.addr.toNat) (rowOf f.addr.toNat) errs).rowRepaired
      n.val f.pch.toNat f.addr.toNat 1)) ∧
  (∀ (n : Region) f (s : State), s.awake → s.svcIs n.val 0x3A = some f → (s.pchAt (n.val * 64 + f.pch.toNat)).st ≠ .retired →
    exec (.pchRetire n) s = .next ((s.pchRetired (n.val * 64 + f.pch.toNat)).svcAnswer n.val 0 0))

/-! ## Translation (R161 to R200) -/

/-- The leaf checks of R174, R184 and R192 in their order, and the entries of R167 to R169 that no walk follows. Translations and walks
(R171, R172, R169, R175, R179, R182, R993). -/
def Obligations.TranslationSteps : Prop :=
  ((∀ t q, ptePermits t.entry q = false → leafCheck t q = .fault fPerm t.lvl t.entry) ∧
  (∀ t q, ptePermits t.entry q = true → bit t.entry 6 = true → leafCheck t q = .fault fNonres t.lvl t.entry) ∧
  (∀ t q, ptePermits t.entry q = true → bit t.entry 6 = false → bit t.entry 7 = true → leafCheck t q = .poison) ∧
  (∀ t q, ptePermits t.entry q = true → bit t.entry 6 = false → bit t.entry 7 = false →
    leafCheck t q = .pa (ptePa t.entry + q.va.toNat % 2 ^ lvlBits t.lvl)) ∧
  (∀ (e : Word) l, bit e 0 = false → pteKind e l = .invalid) ∧
  (∀ (e : Word), bit e 0 = true → bit e 1 = true → pteKind e 3 = .malformed) ∧
  (∀ (e : Word), bit e 0 = true → bit e 1 = false → pteKind e 0 = .malformed) ∧
  (∀ (e : Word) l, bit e 0 = true → fld e 15 10 ≠ 0 → pteKind e l = .malformed)) ∧
  ((∀ (u : Fin 13) q t z (s : State), s.awake → (whoUnit q.who).getD u.val = u.val → q.va.toNat < 2 ^ 52 →
    bit (s.rg (pgXlat 0) oXlatRoot) 0 = true → s.tlbLook u.val q = (some t, z) →
    exec (.translate u q) s = .next (z.serveLeaf u.val t q)) ∧
  (∀ (u : Fin 13) q z (s : State), s.awake → (whoUnit q.who).getD u.val = u.val → q.va.toNat < 2 ^ 52 →
    bit (s.rg (pgXlat 0) oXlatRoot) 0 = true → s.tlbLook u.val q = (none, z) →
    findIdx (fun w => w.dset = none && w.reqs.any (fun r => z.samePage r.va.toNat q.va.toNat)) (z.xlatAt u.val).walks = none →
    (32 ≤ (z.xlatAt u.val).walksAct →
      exec (.translate u q) s = .next (z.putXlat u.val { z.xlatAt u.val with stalled := (z.xlatAt u.val).stalled ++ [q] })) ∧
    ((z.xlatAt u.val).walksAct < 32 → exec (.translate u q) s =
      .next (z.putXlat u.val { z.xlatAt u.val with nextWalk := (z.xlatAt u.val).nextWalk + 1, walks := (z.xlatAt u.val).walks ++ [⟨(z.xlatAt u.val).nextWalk, [q], (z.walkStart u.val q.va.toNat).1, (z.walkStart u.val q.va.toNat).2, none, false, 0⟩] }))) ∧
  (∀ (u : Fin 13) q (s : State), s.awake → (whoUnit q.who).getD u.val = u.val → q.va.toNat < 2 ^ 52 →
    bit (s.rg (pgXlat 0) oXlatRoot) 0 = false → exec (.translate u q) s = .next (s.xfault u.val q fNotMapped 3 0)) ∧
  (∀ (u : Fin 13) k w q l tb z (s : State), s.awake → (s.xlatAt u.val).walks.find? (fun w => w.id = k && w.dset = none) = some w →
    w.reqs.head? = some q → w.restart = false → bit (s.rg (pgXlat 0) oXlatRoot) 0 = true →
    s.walkStep u.val (whoSource q.who) q.va.toNat w.lvl w.tbl = (.next l tb, z) →
    exec (.walkReadReturn u k) s = .next (z.walkTo u.val k l tb)) ∧
  (∀ (u : Fin 13) k w q leaf z (s : State), s.awake → (s.xlatAt u.val).walks.find? (fun w => w.id = k && w.dset = none) = some w →
    w.reqs.head? = some q → w.restart = false → bit (s.rg (pgXlat 0) oXlatRoot) 0 = true →
    s.walkStep u.val (whoSource q.who) q.va.toNat w.lvl w.tbl = (.leaf leaf, z) →
    exec (.walkReadReturn u k) s = .next (w.reqs.foldl (fun s q => s.serveLeaf u.val leaf q) (z.walkDrop u.val k))) ∧
  (∀ (u : Fin 13) k w q (s : State), s.awake → (s.xlatAt u.val).walks.find? (fun w => w.id = k && w.dset = none) = some w →
    w.reqs.head? = some q → w.restart = true → bit (s.rg (pgXlat 0) oXlatRoot) 0 = true →
    (0 < w.after → exec (.walkReadReturn u k) s = .next s) ∧
    (w.after = 0 → exec (.walkReadReturn u k) s =
      .next (s.walkTo u.val k (s.walkStart u.val q.va.toNat).1 (s.walkStart u.val q.va.toNat).2))) ∧
  (∀ (u : Fin 13) k w leaf q qs z (s : State), s.awake → (s.xlatAt u.val).walks.find? (fun w => w.id = k) = some w →
    w.dset = some leaf → w.reqs = q :: qs → w.restart = false → s.paServes u.val (whoSource q.who) leaf.epa = true →
    (s.walkDrop u.val k).setD u.val (whoSource q.who) leaf = (.set, z) →
    exec (.dBitCompareDone u k) s = .next ((z.tlbFill u.val q { leaf with entry := leaf.entry ||| bitW 8 }).grant u.val q
      (.pa (ptePa leaf.entry + q.va.toNat % 2 ^ lvlBits leaf.lvl)))) ∧
  (∀ (u : Fin 13) q rest (s : State), s.awake → (s.xlatAt u.val).stalled = q :: rest →
    (List.range 64).all (fun i => ((s.xlatAt u.val).recAt i).valid) = false → (s.xlatAt u.val).walksAct < 32 →
    exec (.faultStallRetry u) s =
      .next ((s.putXlat u.val { s.xlatAt u.val with stalled := rest }).retryReq u.val q).rxDrainAll))

/-- A request whose address has a bit above 51 set faults NONCANON at level 3 in a record of its own that parks it; DETAIL is what R183
gives its requester (R161, R180, R183). -/
def Obligations.NoncanonicalFaults : Prop :=
  ∀ (u : Fin 13) q (s : State), s.awake → (whoUnit q.who).getD u.val = u.val → 2 ^ 52 ≤ q.va.toNat → whoSvc q.who = none →
    (∀ i, i < 64 → ((s.xlatAt u.val).recAt i).valid = false) →
    Completes (.translate u q) s (fun t => ∃ d : Nat,
      (t.xlatAt u.val).recAt 0 = { valid := true, lvl := 3, acc := q.acc, kind := fNoncanon, va := q.va.toNat % 2 ^ 52, waiters := 0, source := whoSource q.who, detail := d, st := s.ns, entry := 0, parked := [q] } ∧
      (∀ e, whoDetail q.who = (e, 0) → d = e % 2 ^ 32) ∧
      t.dram = s.dram ∧ (t.xlatAt u.val).tlb = (s.xlatAt u.val).tlb)

/-- A write of XLAT.ROOT empties the caches of every unit, restarts its walks, and leaves the fault records, the invalidation queue and its
two counts; it reads back with its reserved bits zero on every page (R992). -/
def Obligations.RootWriteEmptiesCaches : Prop :=
  ∀ (v : Word) (s : State), s.awake → Completes (.xlatRootWrite v) s (fun t => ∀ u, u < 13 →
    (t.xlatAt u).tlb = [] ∧ (t.xlatAt u).micro = [] ∧ (t.xlatAt u).wc = [] ∧
    (t.xlatAt u).walks = (s.xlatAt u).walks.map (fun w => { w with restart := true }) ∧
    (t.xlatAt u).recs = (s.xlatAt u).recs ∧ t.rg (pgXlat u) oXlatRoot = v &&& word (2 ^ 42 - 2 ^ 16 + 1) ∧
    t.invQ = s.invQ ∧ t.rg (pgXlat u) oXlatInvIssued = s.rg (pgXlat u) oXlatInvIssued ∧ t.rg (pgXlat u) oXlatInvDone = s.rg (pgXlat u) oXlatInvDone)

/-- An accepted invalidation leaves no cached leaf that it covers in any unit, keeps every leaf that it does not cover, and enters the queue
last with the requests it waits for; one that is not accepted sets the events of the rules it breaks (R176 to R178). INV_DONE ends the
oldest when none of those lacks its slot, and the walks that waited for it count it off (R179). -/
def Obligations.InvalidationCovers : Prop :=
  (∀ (u : Fin 13) (v : Word) (s : State), s.awake → (fld v 55 54 ≠ 3 ∨ bit v 56 = true) → s.invQ.length < invCap →
    Completes (.invCmd u v) s (fun t => ∃ i : InvEnt,
      i = ⟨bit v 56, fld v 55 54, lvlBase (fld v 51 16 * 2 ^ 16) (fld v 55 54),
        s.invHold ⟨bit v 56, fld v 55 54, lvlBase (fld v 51 16 * 2 ^ 16) (fld v 55 54), []⟩⟩ ∧
      t.invQ = s.invQ ++ [i] ∧ ∀ w, w < 13 →
        (t.xlatAt w).tlb = (s.xlatAt w).tlb.filter (fun e => !i.covers e.va (lvlBits e.lvl)) ∧
        (t.xlatAt w).micro = (s.xlatAt w).micro.filter (fun e => !i.covers e.2.va (lvlBits e.2.lvl)) ∧
        (t.xlatAt w).recs = (s.xlatAt w).recs)) ∧
  (∀ (u : Fin 13) (v : Word) (s : State), s.awake → (fld v 55 54 ≠ 3 ∨ bit v 56 = true) → invCap ≤ s.invQ.length →
    exec (.invCmd u v) s = .next (s.setEvt (pgXlat u.val) 3)) ∧
  (∀ (u : Fin 13) (v : Word) (s : State), s.awake → fld v 55 54 = 3 → bit v 56 = false → s.invQ.length < invCap →
    exec (.invCmd u v) s = .next (s.setEvt (pgXlat u.val) 5)) ∧
  (∀ i q (s : State), s.awake → s.invQ = i :: q → i.hold.any (fun h => s.slotless h.1 h.2) = false →
    exec .invDone s = .next (((s.setInvQ q).allXlat (fun x => { x with walks := x.walks.map (fun w =>
      { w with after := w.after - 1 }) })).invCount oXlatInvDone)) ∧
  (∀ i q (s : State), s.awake → s.invQ = i :: q → i.hold.any (fun h => s.slotless h.1 h.2) = true → exec .invDone s = .next s)

/-- Resumption of a fault record, and the paging service's exchanges of a leaf: the copy read into a free frame and every record of its page
retried; the leaf of a victim, its invalidation, the frame of a clean page free once that is complete (R186, R188, R194 to R197). -/
def Obligations.ResumptionAndPaging : Prop :=
  (∀ (u : Fin 13) (i : Fin 64) (s : State), s.awake → ((s.xlatAt u.val).recAt i.val).valid = true →
    exec (.resumeRetry u i) s = .next (s.retrySlot u.val i.val).rxDrainAll) ∧
  (∀ (u : Fin 13) (i : Fin 64) (s : State), s.awake → ((s.xlatAt u.val).recAt i.val).valid = true →
    exec (.resumeAbort u i) s = .next (s.abortSlot u.val i.val).rxDrainAll) ∧
  (∀ (u : Fin 13) (i : Fin 64) (s : State), s.awake → ((s.xlatAt u.val).recAt i.val).valid = false →
    exec (.resumeRetry u i) s = .next (s.setEvt (pgXlat u.val) 4).rxDrainAll ∧
    exec (.resumeAbort u i) s = .next (s.setEvt (pgXlat u.val) 4).rxDrainAll) ∧
  (∀ (va : Word) (frame : BitVec 42) data lvl e epa bpa b z (s : State), s.awake → s.leafAt va.toNat = some (lvl, e, epa) → bit e 6 = true →
    data.length = 2 ^ lvlBits lvl → (lvl = 0 ∨ lvl = 1) → s.backPa (fld e 47 16) = some bpa →
    s.inPool frame.toNat (lvlBits lvl) = true → s.frameFree frame.toNat (lvlBits lvl) = true → s.evictAt va.toNat = none →
    s.paServes 12 s.pagerSrc epa = true → s.paServes 12 s.pagerSrc (bpa / 32 * 32) = true →
    s.rangeServes frame.toNat (2 ^ lvlBits lvl / 32) = true → s.backRead bpa = (some b, z) → b.valid = true →
    z.txReady b.qp (plainTx (.read b.raddr b.rkey (2 ^ lvlBits lvl))) = true →
    exec (.pageIn va frame data) s = .next ((((((z.txAnswered b.qp (plainTx (.read b.raddr b.rkey (2 ^ lvlBits lvl)))).setFrame frame.toNat
      (lvlBits lvl) true).writePage (2 ^ lvlBits lvl / 32) frame.toNat data).putLeaf epa
      (setFld (setFld e 55 10 0) 41 16 (frame.toNat / 2 ^ 16) &&& ~~~(bitW 6 ||| bitW 8))).retryPage va.toNat (lvlBits lvl)).rxDrainAll)) ∧
  (∀ (va : Word) (tag : BitVec 32) lvl e epa z (s : State), s.awake → s.evictAt va.toNat = none →
    s.leafAt va.toNat = some (lvl, e, epa) → bit e 6 = false → lvl ≤ 1 → s.inPool (ptePa e) (lvlBits lvl) = true →
    s.invQ.length < invCap → (s.backPa tag.toNat).isSome = true → s.paServes 12 s.pagerSrc epa = true →
    z = ((s.putLeaf epa ((setFld (setFld e 55 10 0) 47 16 tag.toNat &&& ~~~(bitW 8)) ||| bitW 6)).invAccept false lvl (lvlBase va.toNat lvl)) →
    exec (.pageEvict va tag) s = .next (z.setPager { z.pager with
        outs := z.pager.outs.filter (fun o => o.va ≠ lvlBase va.toNat lvl) ++
          [⟨lvlBase va.toNat lvl, lvl, ptePa e, bit e 8, tag.toNat, z.rg (pgXlat 0) oXlatInvIssued, none⟩],
        hand := ptePa e + 2 ^ lvlBits lvl }).rxDrainAll) ∧
  (∀ (va : Word) (tag : BitVec 32) o bpa (s : State), s.awake → s.evictAt va.toNat = some o → s.backPa o.tag = some bpa →
    o.ticket.toNat ≤ (s.rg (pgXlat 0) oXlatInvDone).toNat → o.dirty = false →
    exec (.pageEvict va tag) s = .next (s.evictEnd o).rxDrainAll)

/-! ## The embedding engine: tables, look-ups, bags (R201 to R275) -/

/-- The table registers of R201, R204 and R273: one value for the twelve instances, and a descriptor that leaves every cache. Look-up
descriptors (R213, R214): the checked descriptor gives the engine its bags; one that fails its checks ends with INVALID_DESC; the last
output ends it. Bags (R237, R442, R995): a bag starts with its lists read and its rows located; it waits for accumulators; its sums are
written and it leaves; one whose table is no longer usable is refused. -/
def Obligations.LookupsAndBags : Prop :=
  ((∀ (r : Region) (v : Word) (s : State), s.awake → Completes (.tblBaseWrite r v) s (fun t => ∀ k, k < 12 →
    t.rg (pgEmb k) oEmbTblBase = v &&& word (2 ^ 52 - 2 ^ 8))) ∧
  (∀ (r : Region) (v : Word) (s : State), s.awake → Completes (.tblCountWrite r v) s (fun t => ∀ k, k < 12 →
    t.rg (pgEmb k) oEmbTblCount = word (min 1024 (fld v 10 0)))) ∧
  (∀ (r : Region) (v : Word) (s : State), s.awake → Completes (.tblInv r v) s (fun t => ∀ k, k < 12 →
    (t.embAt k).cache = (s.embAt k).cache.filter (fun c => c.1 ≠ fld v 9 0) ∧ (t.embAt k).tasks = (s.embAt k).tasks))) ∧
  ((∀ (r : Region) x d ver z (s : State), s.awake → (s.embAt r.val).tasks.find? (fun x => !x.update && !x.started) = some x →
    s.parkedAt r.val (.engine r x.entry) = false → lkOk (s.taskAt r.val x.entry).payload 0 = true →
    s.tdRead r.val (.engine r x.entry) (lkTable (s.taskAt r.val x.entry).payload) = (.ok d, z) →
    lkOk (s.taskAt r.val x.entry).payload (tdFmt d) = true → lkOp (s.taskAt r.val x.entry).payload = 0 →
    z.pinUse r.val (s.taskAt r.val x.entry).slot (lkTable (s.taskAt r.val x.entry).payload) d = .ok ver →
    exec (.lookup r) s = .next (z.lookupGo r.val x.entry ver [])) ∧
  (∀ (r : Region) x (s : State), s.awake → (s.embAt r.val).tasks.find? (fun x => !x.update && !x.started) = some x →
    s.parkedAt r.val (.engine r x.entry) = false → lkOk (s.taskAt r.val x.entry).payload 0 = false →
    exec (.lookup r) s = .next ((s.taskFail r.val x.entry stInvalidDesc (pgEmb r.val) 0).embDrop r.val x.entry)) ∧
  (∀ (r : Region) e (s : State), s.awake → (s.embAt r.val).tasks.any (fun x => decide (x.entry = e) && !x.update && x.started) = true →
    (s.embAt r.val).bags.any (fun b => b.owner = .task e) = false → ((s.embDrop r.val e).taskAt r.val e).st = .running →
    exec (.lookupDone r e) s =
      .next (((s.embDrop r.val e).issueInc r.val (lkDone (s.taskAt r.val e).payload) 1).taskDone r.val e))) ∧
  ((∀ (r : Region) i b d z l bad z' loc z'' t (s : State), s.awake → s.bagAt r.val i = some b → b.started = false → s.parkedAt r.val (.bag r i) = false →
    s.tdRead r.val (.bag r i) b.table = (.ok d, z) → b.op = 0 → z.accFits b.clu 0 = true → z.bagLists r.val b = (some (l, bad), z') →
    z'.locRows r.val (.bag r i) d b.ver (l.filter (fun x => idxKind d b.ver b.idx64 b.pad x.1 = .keep)) = (some loc, z'') →
    z''.bagStart r.val b d (l.map (·.1)) bad (l.filter (fun x => idxKind d b.ver b.idx64 b.pad x.1 = .keep)) loc = some t →
    exec (.accReserve r i) s = .next t) ∧
  (∀ (r : Region) i b d z e (s : State), s.awake → s.bagAt r.val i = some b → b.started = false → s.parkedAt r.val (.bag r i) = false →
    s.tdRead r.val (.bag r i) b.table = (.ok d, z) → b.op ≠ 0 → b.fast = false → b.owner = .task e → z.accFits b.clu (tdDim d) = false →
    exec (.accReserve r i) s = .next (z.count (pgVec b.clu) oVecAccWait 1)) ∧
  (∀ (r : Region) i b d z z' e (s : State), s.awake → s.bagAt r.val i = some b → b.started = true → s.bagBusy r.val i = false →
    s.parkedAt r.val (.bag r i) = false → b.owner = .task e → s.tdRead r.val (.bag r i) b.table = (.ok d, z) →
    z.bagWrite r b d = (true, z') → exec (.bagFinish r i) s = .next (z'.dropBag r.val i)) ∧
  (∀ (r : Region) i b z (s : State), s.awake → s.bagAt r.val i = some b → b.started = false → s.parkedAt r.val (.bag r i) = false →
    s.tdRead r.val (.bag r i) b.table = (.bad, z) → exec (.accReserve r i) s = .next (z.bagBad r.val b)))

/-- GPOOL and its rows (R121, R225, R228, R829): the header opens the job, each row joins it, and the complete job is answered, raw while
the pool block is not ON. That a row with no GPOOL open is answered REFUSED is the model's choice (log entry 91). The oldest response
leaves a stack and frees its slot (R123, R125): data that no engine waits for are handed out. -/
def Obligations.PoolJobs : Prop :=
  ((∀ (n : Region) f (s : State), s.awake → (Instr.gpool n f).wf = true → (s.stkAt n.val).gp = none → s.portOwn n.val 0x10 f = true →
    (s.stkAt n.val).pools.any (fun j => j.f.tag = f.tag) = false → s.parkFull n.val f.src = false → portFieldsOk 0x10 f = true →
    exec (.gpool n f) s = .next ((s.portSent n.val f).putStk n.val { (s.portSent n.val f).stkAt n.val with gp := some (f.tag.toNat, f.count.toNat), pools := ((s.portSent n.val f).stkAt n.val).pools ++ [⟨f, [], []⟩] })) ∧
  (∀ (n : Region) f (s : State), s.awake → (Instr.gpoolRow n f).wf = true → (s.stkAt n.val).gp = none →
    exec (.gpoolRow n f) s = .next (s.portRefuse n.val f)) ∧
  (∀ (n : Region) f left (s : State), s.awake → (Instr.gpoolRow n f).wf = true → (s.stkAt n.val).gp = some (f.tag.toNat, left) → 1 < left →
    s.parts.find? (fun p => decide (p.stk = n.val) && decide (p.opc = 0x10) && decide (p.flit.tag.toNat = f.tag.toNat) && p.sent) = none →
    s.parkFull n.val f.src = false → portFieldsOk 0x11 f = true → portAddrOk 0x11 f = true →
    exec (.gpoolRow n f) s = .next ((s.putStk n.val { s.stkAt n.val with gp := some (f.tag.toNat, left - 1), pools := (s.stkAt n.val).pools.map (fun j => if j.f.tag = f.tag then { j with want := j.want ++ [f] } else j) }).portTake n.val
        ⟨0x11, f, []⟩)) ∧
  (∀ (n : Region) tag j (s : State), s.awake → (s.stkAt n.val).pools.find? (fun j => j.f.tag = tag) = some j →
    j.want.length = j.f.count.toNat → j.rows.length = j.want.length →
    exec (.poolLaneDone n tag) s = .next ((j.answer (s.gpPooled n.val j.f) (s.gpCols n.val j.f)).foldl (fun t a => t.respond n.val a)
      ((s.putStk n.val { s.stkAt n.val with pools := (s.stkAt n.val).pools.filter (fun i => i.f.tag ≠ tag) }).setParts
        (s.parts.map (fun p => if p.stk = n.val ∧ p.opc = 0x10 ∧ p.flit = j.f then { p with pooled := s.gpPooled n.val j.f } else p))))) ∧
  (∀ (n : Region) tag j (s : State), s.awake → (s.stkAt n.val).pools.find? (fun j => j.f.tag = tag) = some j →
    j.want.length = j.f.count.toNat → j.rows.length = j.want.length → (s.domAt (168 + n.val)).st ≠ .on →
    Completes (.poolLaneDone n tag) s (fun t => (t.stkAt n.val).resp =
      (s.stkAt n.val).resp ++ j.want.map (fun f => dataResp { f with tag := j.f.tag } (j.accsOf f) false)))) ∧
  (∀ (n : Region) x rest (s : State), s.awake → (s.stkAt n.val).resp = x :: rest → s.parts = [] →
    exec (.responseFlit n) s = .next ((s.putStk n.val { s.stkAt n.val with resp := rest }).emit (.portData n.val x.tag x.data x.poison)))

/-! ## Row updates and row migration (R260 to R310) -/

/-- Row updates: a RUPD that is served updates its row in place and is answered (R267); an access that reads poisoned is not modified
(R990). Update descriptors and their batches (R260, R270, R303). -/
def Obligations.RowUpdates : Prop :=
  ((∀ (n : Region) f (s : State), s.awake → (Instr.rupd n f).wf = true → s.servesNow n.val ⟨0x18, f, []⟩ → s.parts = [] →
    exec (.rupd n f) s = .next (((s.portSent n.val f).serveData n.val ⟨0x18, f, []⟩ (n.val * 64 + f.pch.toNat) f.addr.toNat).slotMarks
      (n.val * 64 + f.pch.toNat))) ∧
  (∀ (s : State) d fmt uop cols opnd a, (uop = 2 ∨ uop = 3) → s.accPoison d a = true →
    s.cellErr d a = [] → (s.rupdRun d fmt uop cols opnd false 1 0 a).dram = s.dram) ∧
  (∀ (s : State) d fmt cols opnd p a, (s.rupdRun d fmt 1 cols opnd p 1 0 a).accData d a = sliceB opnd 0 32 ∧
    (s.rupdRun d fmt 1 cols opnd p 1 0 a).accPoison d a = p)) ∧
  ((∀ (r : Region) x (s : State), s.awake → (s.embAt r.val).tasks.find? (fun x => x.update && !x.started) = some x →
    s.parkedAt r.val (.engine r x.entry) = false → upOk (s.taskAt r.val x.entry).payload = false →
    exec (.update r) s = .next ((s.taskFail r.val x.entry stInvalidDesc (pgEmb r.val) 0).embDrop r.val x.entry)) ∧
  (∀ (r : Region) x d z ver z' is z'' es z3 rows hits (s : State), s.awake →
    (s.embAt r.val).tasks.find? (fun x => x.update && !x.started) = some x →
    s.parkedAt r.val (.engine r x.entry) = false → upOk (s.taskAt r.val x.entry).payload = true →
    s.tdRead r.val (.engine r x.entry) (upTable (s.taskAt r.val x.entry).payload) = (.ok d, z) →
    upOp (s.taskAt r.val x.entry).payload ≠ 1 →
    z.upTarget r.val (s.taskAt r.val x.entry).slot (s.taskAt r.val x.entry).payload d = .ok ver →
    z.readList r.val (.engine r x.entry) (wordAt (s.taskAt r.val x.entry).payload 8).toNat
      (if upIdx64 (s.taskAt r.val x.entry).payload then 8 else 4) (upCount (s.taskAt r.val x.entry).payload) = (some is, z') →
    (∀ i ∈ is, i.2 = false ∧
      idxKind d ver (upIdx64 (s.taskAt r.val x.entry).payload) (some (upPad (s.taskAt r.val x.entry).payload)) i.1 = .keep) →
    z'.updRead r.val (.engine r x.entry) (wordAt (s.taskAt r.val x.entry).payload 0x10).toNat
      (fld (wordAt (s.taskAt r.val x.entry).payload 0x18) 31 0) (tblRowBytes (tdFmt d) (tdDim d))
      (((List.range is.length).zip is).map (fun x => (x.1, x.2.1))) = (some es, z'') →
    z''.mergeAll r.val (.engine r x.entry) d (s.taskAt r.val x.entry).payload ver [] [] es = (some (rows, hits), z3) →
    exec (.update r) s = .next ((z3.idxDrops r.val 0 0).updGo r.val x.entry ver d rows hits es)) ∧
  (∀ i b c (s : State), s.awake → s.batchAt i = some b → b.closed = true → s.parkedAt b.region (batchWho b) = false →
    (s.pump i).batchAt i = some c → (s.pump i).batchQuiet c = true →
    exec (.updateBatchDone i) s = .next ((s.pump i).batchDone c)) ∧
  (∀ (r : Region) w b d z pl x y z1 z2 (s : State), s.awake → (s.migAt r.val).hold = [w] → s.moveOf w.table w.ver w.row = none →
    s.batchAt w.batch = some b → s.tdRead b.region (batchWho b) w.table = (.ok d, z) → z.moveOf w.table w.ver w.row = none →
    z.rowPlace w.m (mergeWho w.m b.id) d w.ver w.row = (some (pl, x, y), z1) → z1.rupdIssue b w d pl none = (true, z2) → w.sadd = none →
    z2.batches.filter (fun c => c.todo.any (fun x => x.m = r.val)) = [] →
    exec (.holdQueueRelease r) s =
      .next (z2.putMig r.val { z2.migAt r.val with hold := (z2.migAt r.val).hold.erase w })) ∧
  (∀ (r : Region) w b d z v pa z2 (s : State), s.awake → (s.migAt r.val).hold = [w] → s.moveOf w.table w.ver w.row = some v →
    v.phase = .copy → v.frame = some pa → s.batchAt w.batch = some b → s.tdRead b.region (batchWho b) w.table = (.ok d, z) →
    z.moveOf w.table w.ver w.row = some v → z.rupdIssue b w d (.copy pa) (some v.id) = (true, z2) → w.sadd = none →
    z2.batches.filter (fun c => c.todo.any (fun x => x.m = r.val)) = [] →
    exec (.holdQueueRelease r) s =
      .next (z2.putMig r.val { z2.migAt r.val with hold := (z2.migAt r.val).hold.erase w })))

/-- The load windows and reports, and the decision, of R278 to R286: a report in time joins those of its boundary, the twelfth gives the
load that goes to every other engine, and a late one is missing. -/
def Obligations.MigrationDecisions : Prop :=
  (∀ (s : State), s.awake → exec .loadWindowBoundary s = .next ((List.range 12).foldl (fun t k => t.migBoundary k) s)) ∧
  (∀ (n k : Region) q (s : State), s.awake → (s.migAt n.val).inbox.find? (fun r => r.from_ = k.val) = some q → q.bound = (s.migAt n.val).bound →
    s.ns ≤ q.bound + 2000 → (s.migAt n.val).decided = false → q.fwd = false → (s.migAt n.val).rpts.any (fun x => x.from_ = q.from_) = false →
    (s.migAt n.val).rpts.length < 11 →
    exec (.loadReportRx n k) s = .next (s.putMig n.val { s.migAt n.val with inbox := (s.migAt n.val).inbox.erase q, rpts := (s.migAt n.val).rpts ++ [q] })) ∧
  (∀ (n k : Region) q (s : State), s.awake → (s.migAt n.val).inbox.find? (fun r => r.from_ = k.val) = some q → q.bound = (s.migAt n.val).bound →
    s.ns ≤ q.bound + 2000 → (s.migAt n.val).decided = false → q.fwd = true →
    exec (.loadReportRx n k) s = .next (s.putMig n.val { s.migAt n.val with inbox := (s.migAt n.val).inbox.erase q, loads := (s.migAt n.val).loads ++ [(q.from_, q.load)] })) ∧
  (∀ (n k : Region) q (s : State), s.awake → (s.migAt n.val).inbox.find? (fun r => r.from_ = k.val) = some q → q.bound = (s.migAt n.val).bound →
    s.ns ≤ q.bound + 2000 → (s.migAt n.val).decided = false → q.fwd = false → (s.migAt n.val).rpts.any (fun x => x.from_ = q.from_) = false →
    (s.migAt n.val).rpts.length = 11 →
    Completes (.loadReportRx n k) s (fun t => (t.migAt n.val).rpts = (s.migAt n.val).rpts ++ [q] ∧
      (t.migAt n.val).loads = (s.migAt n.val).loads ++
        [(n.val, (((s.migAt n.val).rpts ++ [q]).map (fun r => r.load)).foldl (· + ·) 0)] ∧
      ∀ m, m < 12 → m ≠ n.val → (t.migAt m).inbox = (s.migAt m).inbox ++ [{ from_ := n.val, fwd := true, bound := q.bound, load := (((s.migAt n.val).rpts ++ [q]).map (fun r => r.load)).foldl (· + ·) 0, cands := [] }])) ∧
  (∀ (n k : Region) q (s : State), s.awake → (s.migAt n.val).inbox.find? (fun r => r.from_ = k.val) = some q → q.bound + 2000 < s.ns →
    exec (.loadReportRx n k) s = .next (s.putMig n.val { s.migAt n.val with inbox := (s.migAt n.val).inbox.erase q })) ∧
  (∀ (n : Region) (s : State), s.awake → s.migOn n.val = true → (s.migAt n.val).decided = false → (s.migAt n.val).bound ≠ 0 →
    (s.migAt n.val).bound + 2000 ≤ s.ns → 12 ≤ (s.migAt n.val).rpts.length →
    (migPairs (s.rf (pgMig n.val) oMigThresh 7 0) (s.rf (pgMig n.val) oMigThresh 15 8)
      ((List.range 12).filterMap (fun k => (s.migLoad n.val k).map (fun l => (k, l))))) = [] →
    s.migCands n.val = [] → bit (s.rg (pgMig n.val) oMigCtl) 1 = false → (s.migAt n.val).copies.any (fun c => c.gone) = false →
    Completes (.migrationDecision n) s (fun t => (t.migAt n.val).decided = true ∧
      t.rg (pgMig n.val) oMigLoad = word ((s.migLoad n.val n.val).getD 0) ∧ t.moves = s.moves ∧ t.dram = s.dram))

/-- The steps of one row move (R291 to R301): start, fence, copy, switch, drain, free, and its abort. -/
def Obligations.RowMoveSteps : Prop :=
  (∀ (n : Region) i v (s : State), s.awake → s.moveAt i = some v → v.acks.contains n.val = true → v.phase ≠ .switch →
    exec (.dirBroadcastApply n i) s = .next ((s.dirDrop n.val v.entVa).putMove { v with acks := v.acks.filter (fun k => k ≠ n.val) })) ∧
  (∀ (n : Region) i v (s : State), s.awake → s.moveAt i = some v → v.acks.contains n.val = true → v.phase = .switch →
    (s.migAt n.val).epoch < 7 →
    exec (.dirBroadcastApply n i) s = .next (((s.putMig n.val { s.migAt n.val with epoch := (s.migAt n.val).epoch + 1 }).dirDrop n.val
      v.entVa).putMove { v with acks := v.acks.filter (fun k => k ≠ n.val), epochs := v.epochs ++ [(n.val, (s.migAt n.val).epoch)] })) ∧
  (∀ i v z (s : State), s.awake → s.moveAt i = some v → v.acks = [] → v.phase = .start → s.moveFences v = some z →
    exec (.dirBroadcastAck i) s = .next (z.putMove { v with phase := .fence })) ∧
  (∀ i v (s : State), s.awake → s.moveAt i = some v → v.acks = [] → v.phase = .freed → exec (.dirBroadcastAck i) s = .next (s.moveEnd v)) ∧
  (∀ i v (s : State), s.awake → s.moveAt i = some v → v.acks = [] → v.phase = .last → exec (.dirBroadcastAck i) s = .next (s.moveOver v)) ∧
  (∀ i v z (s : State), s.awake → s.moveAt i = some v → v.phase = .fence → s.moveFenced v = false → v.copied = 0 →
    (s.migAt v.n).copied + v.pieces ≤ s.rf (pgMig v.n) oMigCopyBudget 31 0 → s.parkedAt v.n (migWho v.n) = false →
    s.movePieces v v.pieces 0 = (v.pieces, z) →
    exec (.moveFencesDone i) s = .next ((z.putMig v.n { z.migAt v.n with copied := (z.migAt v.n).copied + v.pieces }).putMove
      { v with copied := v.pieces, phase := .copy })) ∧
  (∀ i v z (s : State), s.awake → s.moveAt i = some v → v.phase = .copy → s.moveHeld v = false →
    s.entWrite v.n v.entVa ((entState v.ent 3).set 3 (v.ent.getD 3 0 + 1)) = (true, z) →
    exec (.moveCopyWritten i) s = .next (z.putMove { v with ent := (entState v.ent 3).set 3 (v.ent.getD 3 0 + 1), phase := .switch, acks := List.range 12, epochs := [] })) ∧
  (∀ i v z (s : State), s.awake → s.moveAt i = some v → v.phase = .drain →
    v.epochs.any (fun e => s.readsOf e.1 (fun k => decide (k ≤ e.2)) ≠ 0) = false →
    s.entWrite v.n v.entVa [setFld (setFld (v.ent.getD 0 0) 63 61 4) 60 60 (b2n v.home), v.ent.getD 2 0, v.ent.getD 2 0, v.ent.getD 3 0] =
      (true, z) →
    exec (.switchDrained i) s = .next ((z.freeOld v).putMove { v with ent := [setFld (setFld (v.ent.getD 0 0) 63 61 4) 60 60 (b2n v.home), v.ent.getD 2 0, v.ent.getD 2 0, v.ent.getD 3 0], frame := none, phase := .freed, acks := List.range 12 })) ∧
  (∀ i v z (s : State), s.awake → s.moveAt i = some v → v.phase = .copy → s.moveDead v = true →
    s.entWrite v.n v.entVa (if v.old.isNone then [0, 0, 0, 0] else entState v.ent 1) = (true, z) →
    exec (.moveAbort i) s = .next ((((((z.unsendGated v).setParts ((z.unsendGated v).parts.filter (fun p => p.owner ≠ .move i))).putMove
      { v with frame := none, phase := .last, acks := List.range 12 }).heldGo v).count (pgMig v.n) oMigMovesAborted 1).setEvt (pgMig v.n) 1))

/-! ## Walk programs (R311 to R428) -/

/-- Register instructions (R379, R382): the word issued gives gD its result, computed from the registers, the immediate and the special
values, and the program counter goes on. -/
def Obligations.RegisterInstructions : Prop :=
  (∀ (c : CtxRef) w (s : State) e, s.awake → s.issues c w →
    e ∈ ([(0x01, .wAdd c, fun a b => a + b), (0x02, .wSub c, fun a b => a - b), (0x03, .wMul c, fun a b => a * b),
      (0x04, .wMulhu c, fun a b => word (a.toNat * b.toNat / 2 ^ 64)), (0x05, .wAnd c, fun a b => a &&& b), (0x06, .wOr c, fun a b => a ||| b),
      (0x07, .wXor c, fun a b => a ^^^ b), (0x08, .wShl c, fun a b => a <<< (b.toNat % 64)), (0x09, .wShr c, fun a b => a >>> (b.toNat % 64)),
      (0x0A, .wSar c, fun a b => a.sshiftRight (b.toNat % 64)), (0x0B, .wMinu c, fun a b => if a.ult b then a else b),
      (0x0C, .wMaxu c, fun a b => if a.ult b then b else a)] : List (Nat × Instr × (Word → Word → Word))) →
    wOpc w = e.1 → exec e.2.1 s =
      .next ((s.wSetD c (s.ctxAt c) w (e.2.2 ((s.ctxAt c).reg (wA w)) ((s.ctxAt c).reg (wB w)))).wTurn c)) ∧
  (∀ (c : CtxRef) w (s : State) e, s.awake → s.issues c w →
    e ∈ ([(0x10, .wAddi c, fun a i => a + i), (0x11, .wMuli c, fun a i => a * i), (0x12, .wAndi c, fun a i => a &&& i),
      (0x13, .wOri c, fun a i => a ||| i), (0x14, .wXori c, fun a i => a ^^^ i), (0x15, .wShli c, fun a _ => a <<< (wImm w % 64)),
      (0x16, .wShri c, fun a _ => a >>> (wImm w % 64)), (0x17, .wMovi c, fun _ i => i),
      (0x18, .wMovhi c, fun _ _ => setFld ((s.ctxAt c).reg (wD w)) 63 32 (wImm w)),
      (0x19, .wSari c, fun a _ => a.sshiftRight (wImm w % 64)), (0x1D, .wMovs c, fun _ _ => s.wSpecial c (s.ctxAt c) (wSub9 w % 16)),
      (0x20, .wLea c, fun a i => a + ((s.ctxAt c).reg (wB9 w) <<< (wSub9 w % 16)) + i),
      (0x21, .wIdx c, fun a _ => a + (s.ctxAt c).reg (wB9 w) * word (wImm w))] : List (Nat × Instr × (Word → Word → Word))) →
    wOpc w = e.1 → exec e.2.1 s = .next ((s.wSetD c (s.ctxAt c) w (e.2.2 ((s.ctxAt c).reg (wA w)) (wSext w))).wTurn c)) ∧
  (∀ (c : CtxRef) w (s : State), s.awake → s.issues c w → wOpc w = 0x0D → exec (.wSel c) s = .next ((s.wSetD c (s.ctxAt c) w
    (if (s.ctxAt c).pred (wSub w % 8) then (s.ctxAt c).reg (wA w) else (s.ctxAt c).reg (wB w))).wTurn c))

/-- Predicate and control instructions (R379, R381, R421 to R423, R426). An instruction whose guard fails does nothing but advance (R376),
and a word no instruction has raises ILLEGAL (R375, R379). -/
def Obligations.PredicateAndControl : Prop :=
  ((∀ (c : CtxRef) w (s : State), s.awake → s.issues c w → wOpc w = 0x1A → exec (.wCmp c) s = .next ((s.wNext c ((s.ctxAt c).setPred (wD w)
    (wCond (wSub w % 8) ((s.ctxAt c).reg (wA w)) ((s.ctxAt c).reg (wB w))))).wTurn c)) ∧
  (∀ (c : CtxRef) w (s : State), s.awake → s.issues c w → wOpc w = 0x1B → exec (.wCmpi c) s = .next ((s.wNext c ((s.ctxAt c).setPred (wD w)
    (wCond (wSub9 w % 8) ((s.ctxAt c).reg (wA w)) (wSext w)))).wTurn c)) ∧
  (∀ (c : CtxRef) w (s : State), s.awake → s.issues c w → wOpc w = 0x1C → exec (.wPlog c) s = .next ((s.wNext c ((s.ctxAt c).setPred (wD w)
    (wPlogOp (wSub w % 4) ((s.ctxAt c).pred (wA w)) ((s.ctxAt c).pred (wB w))))).wTurn c)) ∧
  (∀ (c : CtxRef) w (s : State), s.awake → s.issues c w → wOpc w = 0x00 → exec (.wNop c) s = .next ((s.wNext c (s.ctxAt c)).wTurn c)) ∧
  (∀ (c : CtxRef) w (s : State), s.awake → s.issues c w → wOpc w = 0x2E → exec (.wFence c) s = .next ((s.wNext c (s.ctxAt c)).wTurn c)) ∧
  (∀ (c : CtxRef) w (s : State) t, s.awake → s.issues c w → wOpc w = 0x50 → (s.wvAt (ctxWv c)).taskOf (s.ctxAt c) = some t → wTarget w < t.len →
    exec (.wBr c) s = .next ((s.wGo c (s.ctxAt c) (wTarget w)).wTurn c)) ∧
  (∀ (c : CtxRef) w (s : State), s.awake → s.issues c w → wOpc w = 0x51 →
    exec (.wEnd c) s = .next ((((s.putCtx c CtxSt.reset).count (pgWlk (ctxWv c)) oWlkIssued 1).wFreed (ctxWv c)).wTurn c)) ∧
  (∀ (c : CtxRef) w (s : State), s.awake → s.issues c w → wOpc w = 0x52 →
    exec (.wTrap c) s = .next ((s.wTake c (0x80 + wImm w % 128) 0 (s.ctxAt c).pc).wTurn c)) ∧
  (∀ (c : CtxRef) k a p (s : State), s.awake → (s.wvAt (ctxWv c)).turn c.ctx.val = true → (s.ctxAt c).st = .ready → (s.ctxAt c).held = some (k, a, p) →
    s.dbg.step.contains (ctxWv c, c.ctx.val) = false → exec (.heldException c) s = .next ((s.wTake c k a p).wTurn c)) ∧
  (∀ (c : CtxRef) w (s : State), s.awake → (s.wvAt (ctxWv c)).turn c.ctx.val = true → (s.ctxAt c).st = .ready → (s.ctxAt c).held = none →
    (s.wvAt (ctxWv c)).wordOf (s.ctxAt c) = some (w, false) → wDefined (wOpc w) = false →
    s.dbg.step.contains (ctxWv c, c.ctx.val) = false → exec (.undefinedOpcode c) s = .next ((s.wTake c 0x01 0 (s.ctxAt c).pc).wTurn c))) ∧
  ((∀ (c : CtxRef) w (s : State), s.awake → (s.wvAt (ctxWv c)).turn c.ctx.val = true → (s.ctxAt c).st = .ready → (s.ctxAt c).held = none →
    (s.wvAt (ctxWv c)).wordOf (s.ctxAt c) = some (w, false) → wIllegal w = false → (s.wvAt (ctxWv c)).blocked (s.ctxAt c) = false →
    wGuard (s.ctxAt c) w = false → s.dbg.step.contains (ctxWv c, c.ctx.val) = false → wOpc w = 0x01 →
    exec (.wAdd c) s = .next ((s.wNext c (s.ctxAt c)).wTurn c)) ∧
  (∀ (c : CtxRef) w (s : State), s.awake → (s.wvAt (ctxWv c)).turn c.ctx.val = true → (s.ctxAt c).st = .ready → (s.ctxAt c).held = none →
    (s.wvAt (ctxWv c)).wordOf (s.ctxAt c) = some (w, false) → wIllegal w = true → wOpc w = 0x01 →
    s.dbg.step.contains (ctxWv c, c.ctx.val) = false → exec (.wAdd c) s = .next ((s.wTake c 0x01 0 (s.ctxAt c).pc).wTurn c)) ∧
  (∀ w : Word, wDefined (wOpc w) = false → wIllegal w = true) ∧
  (∀ w : Word, bit w 55 = false → fld w 54 51 ≠ 0 → wIllegal w = true))

/-- What an instruction that writes gD leaves (R368, R379): the result in gD, every other register and the predicates as before, the program
counter one further, every other context, the stacks' bytes and the scratchpads as before. -/
def Obligations.RegisterWriteFrame : Prop :=
  ∀ (c : CtxRef) w (s : State) (v : Word), (s.ctxAt c).st = .ready → ∀ t, t = (s.wSetD c (s.ctxAt c) w v).wTurn c →
    (t.ctxAt c).reg (wD w) = v ∧ (∀ r, r ≠ wD w → (t.ctxAt c).reg r = (s.ctxAt c).reg r) ∧ (t.ctxAt c).p = (s.ctxAt c).p ∧
    (t.ctxAt c).pc = (s.ctxAt c).pc + 1 ∧ (t.ctxAt c).reqs = (s.ctxAt c).reqs ∧ (∀ d, d ≠ c → t.ctxAt d = s.ctxAt d) ∧
    t.dram = s.dram ∧ t.spad = s.spad ∧ t.xlat = s.xlat

/-- Exceptions of a context without requests (R359, R427, R428): the record, the count and the event; the position ends. -/
def Obligations.ExceptionRecord : Prop :=
  ∀ (c : CtxRef) k a p (s : State), s.awake → (s.wvAt (ctxWv c)).turn c.ctx.val = true → (s.ctxAt c).st = .ready → (s.ctxAt c).held = some (k, a, p) →
    (s.ctxAt c).reqs ≠ [] → s.dbg.step.contains (ctxWv c, c.ctx.val) = false →
    Completes (.heldException c) s (fun t =>
      (t.ctxAt c).st = .except ∧ (t.ctxAt c).held = none ∧ (t.ctxAt c).reqs = (s.ctxAt c).reqs ∧
      t.rg (pgWlk (ctxWv c)) (0x300 + 32 * s.rf (pgWlk (ctxWv c)) oWlkExcNext 2 0) =
        word (2 ^ 63 + p % 1024 * 2 ^ 48 + k % 256 * 2 ^ 40 + c.ctx.val) ∧
      t.rg (pgWlk (ctxWv c)) (0x300 + 32 * s.rf (pgWlk (ctxWv c)) oWlkExcNext 2 0 + 24) = word (a % 2 ^ 52) ∧
      t.rg (pgWlk (ctxWv c)) oWlkExcNext = word ((s.rf (pgWlk (ctxWv c)) oWlkExcNext 2 0 + 1) % 8) ∧ t.dram = s.dram ∧ t.spad = s.spad)

/-- Instructions that send requests (R384 to R393, R400, R407, R409, R415): with aligned operands in range the request enters the miss
table; a misaligned address raises MISALIGN. -/
def Obligations.RequestInstructions : Prop :=
  (∀ (c : CtxRef) w (s : State), s.awake → s.issues c w → wOpc w = 0x28 → (wAddr (s.ctxAt c) w).toNat % wSize w = 0 →
    exec (.wLd c) s = .next (((s.wReq c (s.ctxAt c) (.ld (wAddr (s.ctxAt c) w).toNat (wSize w) (wSub9 w / 4 % 2 = 1) (wD w))).count
      (pgWlk (ctxWv c)) oWlkLoads 1).wTurn c)) ∧
  (∀ (c : CtxRef) w (s : State), s.awake → s.issues c w → wOpc w = 0x29 → (wAddr (s.ctxAt c) w).toNat % wSize w = 0 →
    exec (.wSt c) s = .next ((s.wReq c (s.ctxAt c) (.st (wAddr (s.ctxAt c) w).toNat (leBytes (wSize w) ((s.ctxAt c).reg (wD w)).toNat))).wTurn c)) ∧
  (∀ (c : CtxRef) w (s : State), s.awake → s.issues c w → wOpc w = 0x28 → (wAddr (s.ctxAt c) w).toNat % wSize w ≠ 0 →
    exec (.wLd c) s = .next ((s.wTake c 0x03 (wAddr (s.ctxAt c) w).toNat (s.ctxAt c).pc).wTurn c)) ∧
  (∀ (c : CtxRef) w k (s : State), s.awake → s.issues c w → wOpc w = 0x2C → spadOperand c ((s.ctxAt c).reg (wB w)) (wBlock w) = some k →
    ((s.ctxAt c).reg (wA w)).toNat % 32 = 0 → k % 32 = 0 →
    exec (.wGather c) s = .next ((s.wReq c (s.ctxAt c) (.gather ((s.ctxAt c).reg (wA w)).toNat k (wSub w % 64 + 1) 0)).wTurn c)) ∧
  (∀ (c : CtxRef) w k (s : State), s.awake → s.issues c w → wOpc w = 0x2D → spadOperand c ((s.ctxAt c).reg (wB w)) (wBlock w) = some k →
    ((s.ctxAt c).reg (wA w)).toNat % 32 = 0 → k % 32 = 0 →
    exec (.wPut c) s = .next ((s.wReq c (s.ctxAt c)
      (.put ((s.ctxAt c).reg (wA w)).toNat (s.spadRd c.clu.val k (wBlock w)) (s.spadMarks c.clu.val k (wBlock w)))).wTurn c)) ∧
  (∀ (c : CtxRef) w (s : State), s.awake → s.issues c w → wOpc w = 0x30 → ((s.ctxAt c).reg (wA w)).toNat % 64 = 0 →
    exec (.wDeg c) s = .next ((s.wReq c (s.ctxAt c) (.deg ((s.ctxAt c).reg (wA w)).toNat ((s.ctxAt c).reg (wB w)).toNat (wD w))).wTurn c)) ∧
  (∀ (c : CtxRef) w b (s : State), s.awake → s.issues c w → wOpc w = 0x31 → bit w 8 = false → spadOperand c ((s.ctxAt c).reg (wF w)) 1 = some b →
    ((s.ctxAt c).reg (wA w)).toNat % 64 = 0 → ((s.ctxAt c).reg (wF w)).toNat % 32 = 0 →
    exec (.wSample c) s = .next ((s.wReq c (s.ctxAt c) (.sample ((s.ctxAt c).reg (wA w)).toNat ((s.ctxAt c).reg (wB w)).toNat
      (wSub w % 64 + 1) (wSub w / 64 % 4) (fld ((s.ctxAt c).reg (wC w)) 31 0) ((s.ctxAt c).reg (wE w)).toNat
      ((s.ctxAt c).reg (wF w)).toNat none (wD w))).wTurn c)) ∧
  (∀ (c : CtxRef) w (s : State), s.awake → s.issues c w → wOpc w = 0x38 → grCheck c (s.ctxAt c) w false = none →
    exec (.wGrl c) s = .next ((((s.wReq c (s.ctxAt c) (.grl w (grOps (s.ctxAt c) w) false)).count (pgWlk (ctxWv c)) oWlkGrBags 1).grSend c
      ⟨(s.ctxAt c).next, (s.ctxAt c).pc, .grl w (grOps (s.ctxAt c) w) false, []⟩).wTurn c)) ∧
  (∀ (c : CtxRef) w (s : State), s.awake → s.issues c w → wOpc w = 0x39 → grCheck c (s.ctxAt c) w true = none →
    exec (.wGrn c) s = .next (((s.wReq c (s.ctxAt c) (.grn w (grOps (s.ctxAt c) w) false)).count (pgWlk (ctxWv c)) oWlkGrBags 1).wTurn c)) ∧
  (∀ (c : CtxRef) w b (s : State), s.awake → s.issues c w → wOpc w = 0x3A → spadOperand c ((s.ctxAt c).reg (wC w)) 1 = some b →
    ((s.ctxAt c).reg (wA w)).toNat % 64 = 0 → ((s.ctxAt c).reg (wC w)).toNat % 32 = 0 →
    exec (.wSadd c) s = .next ((s.wReq c (s.ctxAt c) (.sadd ((s.ctxAt c).reg (wA w)).toNat ((s.ctxAt c).reg (wB w)).toNat
      ((s.ctxAt c).reg (wC w)).toNat (wMv w))).wTurn c)) ∧
  (∀ (c : CtxRef) w (s : State), s.awake → s.issues c w → wOpc w = 0x3B → ((s.ctxAt c).reg (wA w)).toNat % 64 = 0 →
    exec (.wSclose c) s = .next ((s.wReq c (s.ctxAt c) (.sclose ((s.ctxAt c).reg (wA w)).toNat)).wTurn c)) ∧
  (∀ (c : CtxRef) w (s : State), s.awake → s.issues c w → wOpc w = 0x40 → wCtrOk ((s.ctxAt c).reg (wA w)) = true →
    exec (.wCinc c) s = .next (((s.wReq c (s.ctxAt c) (.cinc (fld ((s.ctxAt c).reg (wA w)) 15 12) (fld ((s.ctxAt c).reg (wA w)) 11 0)
      (wImm w) false)).wCincs c).wTurn c))

/-- Scratchpad accesses, prefetch, counter waits and random numbers (R352, R383, R390, R396, R417). Every call of the generator answers four
words of 32 bits, whatever its key and counter (R701 to R703). -/
def Obligations.ImmediateInstructions : Prop :=
  ((∀ (c : CtxRef) w b (s : State), s.awake → s.issues c w → wOpc w = 0x2A → spadOperand c (wAddr (s.ctxAt c) w) (wSize w) = some b →
    b % wSize w = 0 → s.spadPoison c.clu.val b (wSize w) = false →
    exec (.wLds c .none) s = .next ((s.wSetD c (s.ctxAt c) w
      (wExtend (wSize w) (wSub9 w / 4 % 2 = 1) (ofLe (s.spadRd c.clu.val b (wSize w))))).wTurn c)) ∧
  (∀ (c : CtxRef) w b (s : State), s.awake → s.issues c w → wOpc w = 0x2A → spadOperand c (wAddr (s.ctxAt c) w) (wSize w) = some b →
    b % wSize w = 0 → s.spadPoison c.clu.val b (wSize w) = true →
    exec (.wLds c .none) s = .next ((s.wNext c ((s.ctxAt c).hold 0x0A (b / 32 * 32) (s.ctxAt c).pc)).wTurn c)) ∧
  (∀ (c : CtxRef) w b (s : State), s.awake → s.issues c w → wOpc w = 0x2B → spadOperand c (wAddr (s.ctxAt c) w) (wSize w) = some b →
    b % wSize w = 0 →
    exec (.wSts c .none) s = .next (((s.spadWr c.clu.val b (leBytes (wSize w) ((s.ctxAt c).reg (wD w)).toNat) false).wNext c (s.ctxAt c)).wTurn c)) ∧
  (∀ (c : CtxRef) w z (s : State), s.awake → s.issues c w → wOpc w = 0x32 → ((s.ctxAt c).reg (wA w)).toNat % 64 = 0 →
    s.prefetch c ((s.ctxAt c).reg (wA w)).toNat ((s.ctxAt c).reg (wB w)).toNat = (true, z) →
    exec (.wPf c) s = .next ((z.wNext c (s.ctxAt c)).wTurn c)) ∧
  (∀ (c : CtxRef) w z (s : State), s.awake → s.issues c w → wOpc w = 0x41 → wCtrOk ((s.ctxAt c).reg (wA w)) = true →
    s.waitOffer (fld ((s.ctxAt c).reg (wA w)) 15 12) (.walker c) (fld ((s.ctxAt c).reg (wA w)) 11 0) ((s.ctxAt c).reg (wB w)).toNat
      (wSub w) = (true, z) → exec (.wCwait c) s = .next ((z.wNext c (s.ctxAt c)).wTurn c)) ∧
  (∀ (c : CtxRef) w z (s : State), s.awake → s.issues c w → wOpc w = 0x41 → wCtrOk ((s.ctxAt c).reg (wA w)) = true →
    s.waitOffer (fld ((s.ctxAt c).reg (wA w)) 15 12) (.walker c) (fld ((s.ctxAt c).reg (wA w)) 11 0) ((s.ctxAt c).reg (wB w)).toNat
      (wSub w) = (false, z) →
    exec (.wCwait c) s = .next (((z.putCtx c { s.ctxAt c with st := .waitCtr }).count (pgWlk (ctxWv c)) oWlkIssued 1).wTurn c)) ∧
  (∀ (c : CtxRef) w t ws (s : State), s.awake → s.issues c w → wOpc w = 0x48 → (s.wvAt (ctxWv c)).taskOf (s.ctxAt c) = some t →
    ws = philox t.seed.toNat (fld ((s.ctxAt c).reg (wA w)) 31 0) ((s.ctxAt c).reg (wB w)).toNat (fld ((s.ctxAt c).reg (wC w)) 31 0) →
    exec (.wRand c) s = .next (((s.wNext c (((s.ctxAt c).setReg (wD w) (word (ws.getD 0 0 + ws.getD 1 0 * 2 ^ 32))).setReg (wD w + 1)
      (word (ws.getD 2 0 + ws.getD 3 0 * 2 ^ 32)))).count (pgWlk (ctxWv c)) oWlkPhiloxCalls 1).wTurn c))) ∧
  (∀ seed stream elem call, (philox seed stream elem call).length = 4 ∧ ∀ v ∈ philox seed stream elem call, v < 2 ^ 32)

/-- Arrivals at a context, the queue for walker bags and the issue clock (R316, R318, R322, R351, R355). -/
def Obligations.WalkerArrivals : Prop :=
  (∀ (c : CtxRef) n r va size sext d z bs (s : State), s.awake → (s.ctxAt c).reqs.find? (fun r => r.id = n) = some r →
    r.op = .ld va size sext d → s.parkedAt (cluRegion c.clu.val) (.walker c n) = false → (s.ctxAt c).mayArrive r = true →
    s.saddOut (c, n) = false → (s.ctxAt c).isOver = false → r.id = n →
    s.readVa1 (cluRegion c.clu.val) ⟨word va, .read, false, .walker c n⟩ size = (some (bs, false), z) →
    exec (.dataArrival c n .none) s = .next (z.wComplete c n (fun x => x.setReg d (wExtend size sext (ofLe bs))))) ∧
  (∀ (c : CtxRef) n r va size sext d z (s : State), s.awake → (s.ctxAt c).reqs.find? (fun r => r.id = n) = some r →
    r.op = .ld va size sext d → s.parkedAt (cluRegion c.clu.val) (.walker c n) = false → (s.ctxAt c).mayArrive r = true →
    s.saddOut (c, n) = false → (s.ctxAt c).isOver = false → r.id = n →
    s.readVa1 (cluRegion c.clu.val) ⟨word va, .read, false, .walker c n⟩ size = (none, z) →
    exec (.dataArrival c n .none) s = .next (z.wPark c n)) ∧
  (∀ (clu : Clu) (wv : Fin 4) (s : State), s.awake → (s.wvAt (clu.val * 4 + wv.val)).ctxs.any (fun e => e.2.st = .ready) = false →
    exec (.weevilGate clu wv) s = .next (s.putWv (clu.val * 4 + wv.val) { s.wvAt (clu.val * 4 + wv.val) with gated := true })) ∧
  (∀ (r : Region) c q rest (s : State), s.awake →
    (s.wv.filter (fun e => decide (cluRegion (e.1 / 4) = r.val))).flatMap (fun e =>
      e.2.ctxs.flatMap (fun x => (x.2.reqs.filter (fun q => q.op.unsent && !x.2.isOver &&
        !s.parkedAt r.val (.walker (ctxRef e.1 x.1) q.id))).map (fun q => (ctxRef e.1 x.1, q)))) = (c, q) :: rest →
    s.grQueued r.val < walkerBags → exec (.walkerBagQueueFree r) s = .next (s.grSend c q))

/-! ## Counters, waits, dispatch (R617 to R667) -/

/-- Increments of one counter that arrive together are added, and the sum stays at 2^64 − 1 (R619, R622): the counter's new value, every
other counter of the bank and its base as before, the increments of other counters still on their way. -/
def Obligations.CounterIncrementsSum : Prop :=
  ∀ (r : Region) (c : Fin 4096) (s : State), s.awake → (s.syncAt r.val).incQ.any (fun i => i.ctr = c.val) = true →
    Completes (.counterIncrement r c) s (fun t =>
      t.ctrAt r.val c.val = min (s.ctrAt r.val c.val +
        (((s.syncAt r.val).incQ.filter (fun i => i.ctr = c.val)).map (fun i => i.amount)).foldl (· + ·) 0) (2 ^ 64 - 1) ∧
      (∀ k, k ≠ c.val → t.ctrAt r.val k = s.ctrAt r.val k) ∧ (∀ k, t.baseAt r.val k = s.baseAt r.val k) ∧
      (t.syncAt r.val).incQ = (s.syncAt r.val).incQ.filter (fun i => i.ctr ≠ c.val) ∧
      (∀ q, q ≠ r.val → t.syncAt q = s.syncAt q) ∧ t.dram = s.dram)

/-- Software writes of a counter (R624, R665). Waits leave the bank when they are due, when their time has passed, and enter it when there
is room (R629 to R635). -/
def Obligations.WaitsAndCounterWrites : Prop :=
  ((∀ (r : Region) (v : Word) (s : State), s.awake →
    ((s.syncAt r.val).waits ++ (s.syncAt r.val).held).any (fun w => w.ctr = s.rf (pgSync r.val) oSyncCtrSel 11 0) = false →
    s.ctrOwned r.val (s.rf (pgSync r.val) oSyncCtrSel 11 0) = false →
    exec (.ctrSetWrite r v) s = .next (s.putCtr r.val (s.rf (pgSync r.val) oSyncCtrSel 11 0) v.toNat)) ∧
  (∀ (r : Region) (v : Word) (s : State), s.awake →
    ((s.syncAt r.val).waits ++ (s.syncAt r.val).held).any (fun w => w.ctr = s.rf (pgSync r.val) oSyncCtrSel 11 0) = true →
    exec (.ctrSetWrite r v) s = .next ((s.count (pgSync r.val) oSyncSetRefused 1).setEvt (pgSync r.val) 3)) ∧
  (∀ (r : Region) (v : Word) (s : State), s.awake → fld v 63 32 ≠ 0 →
    exec (.ctrIncWrite r v) s = .next (s.putSync r.val { s.syncAt r.val with incQ := (s.syncAt r.val).incQ ++ [⟨fld v 11 0, fld v 63 32, none⟩] }))) ∧
  ((∀ (r : Region) ws (s : State), s.awake → ws = takeDue 16 ((s.syncAt r.val).waits.filter (fun w => w.due.isSome)) →
    exec (.waitRelease r) s = .next (ws.foldl (fun t w => t.waitMet w.waiter)
      ((s.putSync r.val { s.syncAt r.val with waits := (s.syncAt r.val).waits.filter (fun w => !ws.any (fun v => v.seq = w.seq)) }).count (pgSync r.val) oSyncReleases ws.length))) ∧
  (∀ l : List WaitEnt, (takeDue 16 l).length ≤ 16 ∧ ∀ w ∈ takeDue 16 l, w ∈ l) ∧
  (∀ (r : Region) (s : State), s.awake → exec (.waitReoffer r) s = .next (s.reoffer r.val (s.syncAt r.val).held.length)) ∧
  (∀ (r : Region) n w (s : State), s.awake → ((s.syncAt r.val).waits ++ (s.syncAt r.val).held).find? (fun w => w.seq = n) = some w →
    w.due = none → w.dead < s.ns →
    exec (.waitTimeout r n) s = .next ((((((s.putSync r.val { s.syncAt r.val with waits := (s.syncAt r.val).waits.filter (fun v => v.seq ≠ n), held := (s.syncAt r.val).held.filter (fun v => v.seq ≠ n) }).error
        (pgSync r.val) (contained 0x0302 (waiterInfo w.waiter).1 (word (r.val * 2 ^ 12 + w.ctr)) 0)).setRg (pgSync r.val) oSyncToDetail
          (word (waiterInfo w.waiter).2)).count (pgSync r.val) oSyncTimeouts 1).setEvt (pgSync r.val) 0).waitLost w.waiter r.val w.ctr)))

/-- The dispatcher reads entries, answers asks, delivers tasks and runs SIGNAL tasks (R644, R647, R651 to R655). -/
def Obligations.DispatchSteps : Prop :=
  (∀ (r : Region) slot n k (s : State), s.awake → s.nextList r.val = some (slot, n, k) → (s.dispAt r.val).freeEntry = none →
    exec (.taskEntryRead r) s = .next ((s.count (pgDisp r.val) oDispWinFullCyc 1).setEvt (pgDisp r.val) 3)) ∧
  (∀ (r : Region) slot n k e bs ps z u v (s : State), s.awake → s.nextList r.val = some (slot, n, k) → (s.dispAt r.val).freeEntry = some e →
    s.parkedAt r.val (.list slot r) = false → s.readVa r.val (.list slot r) false (n.listVa + 256 * k) 256 = (some (bs, ps), z) →
    ps.any id = false → taskEntryOk bs = true →
    u = z.putDisp r.val { z.dispAt r.val with next := smapSet (fun _ => 0) (z.dispAt r.val).next slot (k + 1), last := slot } →
    v = u.putTask r.val e { st := .pending, slot := slot, kind := leAt bs 0 8 / 2 ^ 60, hdr := sliceB bs 0 64, payload := u.taskPayload r.val bs, flags := 0, pos := k, since := u.ns, readyAt := 0 } →
    exec (.taskEntryRead r) s = .next (((List.range 3).foldl (fun s i => s.taskWait r e i)
      (v.putDisp r.val { v.dispAt r.val with hwm := max (v.dispAt r.val).hwm (v.dispAt r.val).window.length })).taskCheck r.val e)) ∧
  (∀ (clu : Clu) (k : UnitKind) l (s : State), s.awake → s.logClu clu.val = some l → s.unitAccepts clu.val k = true →
    (s.dispAt (cluRegion clu.val)).asks.contains (clu.val, k) = false → (s.domAt clu.val).st = .on →
    s.readyFirst (cluRegion clu.val) (unitKindCode k) (fun t => t.cluMask.testBit l) = none →
    exec (.ask clu k) s = .next (s.putDisp (cluRegion clu.val) { s.dispAt (cluRegion clu.val) with asks := (s.dispAt (cluRegion clu.val)).asks ++ [(clu.val, k)] })) ∧
  (∀ (clu : Clu) (k : UnitKind) l e t (s : State), s.awake → s.logClu clu.val = some l → s.unitAccepts clu.val k = true →
    (s.dispAt (cluRegion clu.val)).asks.contains (clu.val, k) = false → (s.domAt clu.val).st = .on →
    s.readyFirst (cluRegion clu.val) (unitKindCode k) (fun t => t.cluMask.testBit l) = some (e, t) →
    exec (.ask clu k) s = .next (s.deliverTo (cluRegion clu.val) e (unitKindCode k) clu.val k)) ∧
  (∀ (r : Region) (s : State), s.awake → exec (.taskDeliver r .walk) s = .next (s.deliverClu r.val 0) ∧
    exec (.taskDeliver r .matrix) s = .next (s.deliverClu r.val 1) ∧ exec (.taskDeliver r .gmx) s = .next (s.deliverClu r.val 2) ∧
    exec (.taskDeliver r .moments) s = .next (s.deliverClu r.val 3) ∧ exec (.taskDeliver r .lookup) s = .next (s.deliverEmb r.val 5) ∧
    exec (.taskDeliver r .update) s = .next (s.deliverEmb r.val 6)) ∧
  (∀ (r : Region) e t (s : State), s.awake → s.readyFirst r.val 7 (fun _ => true) = some (e, t) →
    exec (.signalTask r) s = .next (((s.issueInc (ctrOp (fld (t.hw 0x38) 15 0)).1 (ctrOp (fld (t.hw 0x38) 15 0)).2
      (fld (t.hw 0x38) 63 32)).count (pgDisp r.val) oDispTasksDone 1).taskFree r.val e)) ∧
  (∀ (clu : Clu) (s : State), s.awake → (s.dispAt (cluRegion clu.val)).asks.contains (clu.val, .gmx) = true → (s.gmxAt clu.val).tasks = [] →
    exec (.unitGate clu .gmx) s = .next (s.putGmx clu.val { s.gmxAt clu.val with gated := true })) ∧
  (∀ (clu : Clu) (s : State), s.awake → (s.dispAt (cluRegion clu.val)).asks.contains (clu.val, .firefly) = true → (s.vecAt clu.val).tasks = [] →
    exec (.unitGate clu .firefly) s = .next (s.putVec clu.val { s.vecAt clu.val with gated := true }))

/-! ## Units of a cluster (R429 to R570) -/

/-- The matrix unit (R481, R501, R504, R507). The relay between matrix units (R515 to R518). -/
def Obligations.MatrixUnit : Prop :=
  ((∀ (clu : Clu) t z (s : State), s.awake → z = s.matAccept clu.val (s.matAt clu.val).tasks.length → z.dbg.units.contains clu.val = false →
    (z.matAt clu.val).tasks.find? (fun t => t.canIssue) = some t → (z.matAt clu.val).tasks.find? (fun u => u.entry = t.entry) = some t →
    exec (.matrixTask clu .none) s = .next (z.matIssue clu.val t)) ∧
  (∀ (clu : Clu) t (s : State), s.awake → (s.matAt clu.val).tasks.find? (fun t => t.issued) = some t → (s.matAt clu.val).bufs.length < 2 →
    exec (.taskEndDrain clu) s = .next ((s.putMat clu.val { s.matAt clu.val with tasks := (s.matAt clu.val).tasks.filter (fun u => u.entry ≠ t.entry), bufs := (s.matAt clu.val).bufs ++ [t] }).count
        (pgMat clu.val) oMatDrains 1)) ∧
  (∀ (clu : Clu) t (s : State), s.awake → (s.matAt clu.val).tasks.find? (fun t => t.issued) = some t → 2 ≤ (s.matAt clu.val).bufs.length →
    exec (.taskEndDrain clu) s = .next (s.count (pgVec clu.val) oVecDrainbufWait 1)) ∧
  (∀ (clu : Clu) (v : Word) (s : State), s.awake → s.dbg.mode.contains clu.val = false →
    exec (.dbgSelWrite clu v) s = .next ((s.count (pgMat clu.val) oMatDbgDenied 1).setEvt (pgMat clu.val) 4)) ∧
  (∀ (clu : Clu) (v : Word) t x (s : State), s.awake → s.dbg.mode.contains clu.val = true →
    ((s.matAt clu.val).tasks.filter (fun t => !t.sums.isEmpty))[fld v 28 20]? = some t → t.sums[fld v 10 0]? = some x →
    exec (.dbgSelWrite clu v) s = .next (((s.setRg (pgMat clu.val) oMatDbgSel (word (fld v 28 20 * 2 ^ 20 + fld v 10 0))).count
      (pgMat clu.val) oMatDrains 1).setRg (pgMat clu.val) oMatDbgData (word (2 ^ 63 + x)))) ∧
  (∀ (clu : Clu) t rest rs z u (s : State), s.awake → (s.matAt clu.val).bufs = t :: rest →
    rs = (List.range t.sums.length).map (fun n => mxWritten t.body (s.slotAt t.slot).seed.toNat n (t.sums.getD n 0)) →
    z = ((List.range (mxTm t.body)).foldl (fun s i => s.mxRowOut clu.val t.body rs t.bad i) s).mxOutCount clu.val t.body rs →
    t.bad.any id = false →
    u = (z.issueInc (cluRegion clu.val) (fld (wordAt t.body 0x38) 11 0) 1).count (pgMat clu.val) oMatTasksDone 1 →
    u.relayClear clu.val t = true →
    exec (.outputPath clu) s = .next ((u.putMat clu.val { s.matAt clu.val with bufs := rest }).matEnd clu.val t)) ∧
  (∀ (clu : Clu) (s : State), s.awake → (s.dispAt (cluRegion clu.val)).asks.contains (clu.val, .mantis) = true → (s.matAt clu.val).tasks = [] →
    (s.matAt clu.val).bufs = [] → (s.matAt clu.val).relay = [] →
    exec (.unitGate clu .mantis) s = .next (s.putMat clu.val { s.matAt clu.val with gated := true }))) ∧
  ((∀ (clu : Clu) (s : State), s.awake → exec (.relayCreditReturn clu) s = .next ((s.relaySend clu.val relayCap).relayEnds clu.val)) ∧
  (∀ (clu : Clu) k ch q t (s : State), s.awake → s.relayKey clu.val = some k → s.relayAt k = ch :: q → (s.matAt clu.val).tasks = [t] →
    t.sums ≠ [] → mxRelay t.body = true → mxId t.body = ch.id → t.chunks.contains ch.n = false → mxFwd t.body = false →
    exec (.relayChunkRx clu) s = .next ((((s.putRelay k q).spadArea clu.val ((mxArea t.body 0x10).1 + 2048 * ch.n) ch.data ch.bad).count
      (pgMat clu.val) oMatRelayIn ch.data.length).matUpd clu.val t.entry (fun t =>
        { t with chunks := t.chunks ++ [ch.n], toSend := if mxFwd t.body then t.toSend ++ [ch.n] else t.toSend }))))

/-- The gradient unit (R541, R553 to R556, R565). -/
def Obligations.GradientUnit : Prop :=
  (∀ (clu : Clu) t ds z (s : State), s.awake → s.gmxTake clu 1 = some t → t.part = none → s.denseTiles clu.val t.body t.slot = (ds, z) →
    exec (.digest clu) s = .next (z.gmxFinish clu t (tilesCrc t.body (ds.map (·.1))) (ds.any (·.2)))) ∧
  (∀ (clu : Clu) t crc bad (s : State), s.awake → s.gmxTake clu 0 = some t → t.part = some (crc, bad) →
    exec (.compress clu) s = .next (s.gmxFinish clu t crc bad)) ∧
  (∀ (clu : Clu) t ds z packs u (s : State), s.awake → s.gmxTake clu 0 = some t → t.part = none → s.denseTiles clu.val t.body t.slot = (ds, z) →
    packs = ds.map (fun d => (tilePack (gxFmt t.body) d.1 d.2, d.2)) →
    u = (((((z.areaWrite clu.val t.body packs).count (pgGmx clu.val) oGmxTilesOut ds.length).count (pgGmx clu.val) oGmxEscapes
      (packs.countP (fun x => decide (x.1.length = tileDense (gxFmt t.body) + 8)))).count (pgGmx clu.val) oGmxBytesDense
        (ds.length * tileDense (gxFmt t.body))).count (pgGmx clu.val) oGmxBytesComp
          (8 * mapEnd ds.length + (packs.map (fun x => x.1.length)).foldl (· + ·) 0)) →
    exec (.compress clu) s = .next (u.gmxFinish clu t (tilesCrc t.body (ds.map (·.1))) (ds.any (·.2)))) ∧
  (∀ (clu : Clu) t g z (s : State), s.awake → s.gmxTake clu 2 = some t → t.part = none →
    g = s.areaRead clu.val (gxArea t.body) (gxTr t.body) (gxTc t.body) (gxFmt t.body) → g.bad.isSome = true →
    z = s.areaCount clu.val g (gxArea t.body) →
    exec (.expand clu) s = .next ((z.gmxDrop clu.val t.entry).taskFail (cluRegion clu.val) t.entry stTileCheck (pgGmx clu.val)
      (z.rg (pgGmx clu.val) oGmxBadInfo).toNat)) ∧
  (∀ (clu : Clu) t g z (s : State), s.awake → s.gmxTake clu 2 = some t → t.part = none →
    g = s.areaRead clu.val (gxArea t.body) (gxTr t.body) (gxTc t.body) (gxFmt t.body) → g.bad = none →
    g.tiles.any (fun x => x.poison) = false →
    z = ((List.range g.tiles.length).foldl (fun s k => s.tileWrite clu.val t.body k (g.tiles.getD k (TileGot.poisoned 0)).dense false)
      (s.areaCount clu.val g (gxArea t.body))).count (pgGmx clu.val) oGmxBlocksPresent
        ((g.tiles.map (fun x => popCount16 x.mask)).foldl (· + ·) 0) →
    exec (.expand clu) s = .next (z.gmxFinish clu t (tilesCrc t.body (g.tiles.map (·.dense))) false)) ∧
  (∀ (clu : Clu) (v : Word) (s : State), s.awake → exec (.digClrWrite clu v) s =
    .next ((List.range 8).foldl (fun t i => if bit v i then t.digClear clu.val i else t) s))

/-- Moments and swarms of the vector unit (R446 to R465). -/
def Obligations.MomentsAndSwarms : Prop :=
  (∀ (clu : Clu) t ts k ms z (s : State), s.awake → (s.vecAt clu.val).tasks = t :: ts → moFieldsOk t.body = true →
    s.moCounts clu.val t.body = some k → moRows t.body + k ≤ 2 ^ 42 → ms = (List.range (moCols t.body)).map (s.moCol clu.val t.body) →
    moExport t.body = false → ms.any (fun m => m.bad) = false →
    z = ((s.momCount clu.val t.body ms).momWrites clu.val (s.slotAt t.slot).seed.toNat t.body ms (moRows t.body + k)
      ((List.range 4).filter (fun i => bit (wordAt t.body 0) (6 + i))) 0) →
    exec (.moments clu) s = .next ((((z.count (pgVec clu.val) oVecMoments 1).vecDrop clu.val t.entry).issueInc (cluRegion clu.val)
      (fld (wordAt t.body 0x30) 11 0) 1).taskDone (cluRegion clu.val) t.entry)) ∧
  (∀ (clu : Clu) t ts (s : State), s.awake → (s.vecAt clu.val).tasks = t :: ts → moFieldsOk t.body = false →
    exec (.moments clu) s = .next ((s.vecDrop clu.val t.entry).taskFail (cluRegion clu.val) t.entry stInvalidDesc (pgVec clu.val) 0)) ∧
  (∀ (r : Region) t w sets (s : State), s.awake →
    s.lookupNext r.val = some (.inr t) → s.swarmAt t.bag = some w → w.sets.any (fun u => u.clu = t.clu) = false →
    sets = (w.sets ++ [swarmSet t.clu w.dim w.bag.fast]).map (fun u => if u.clu = t.clu then { u with pieces := u.pieces + 1 } else u) →
    exec (.swarmPiece r) s = .next (((((s.putDisp r.val { s.dispAt r.val with pieces := (s.dispAt r.val).pieces.filter (fun p => !(decide (p.bag = t.bag) && decide (p.piece = t.piece))) }).putSwarm
        { w with sets := sets }).addBag r.val (pieceBag { w with sets := sets } t)).count (pgVec t.clu) oVecSwarmPieces 1).swarmsGive)) ∧
  (∀ (clu : Clu) w t rest total u (s : State), s.awake → s.swarms.find? (fun w => decide (w.ctx.clu = clu) && !w.ship.isEmpty) = some w →
    w.ship = t :: rest → w.total = none → w.bag.fast = true → total = (swarmSet clu.val w.dim true).join t →
    u = { w with ship := rest, total := some total, recv := w.recv + t.pieces } → w.recv + t.pieces < w.k →
    exec (.swarmSetRx clu) s = .next ((s.count (pgVec clu.val) oVecXpIn t.acc.length).putSwarm u))

/-! ## Transfers (R572 to R616) and the ledger (R668 to R690) -/

/-- The transfer engine (R572 to R616): posted transfers, activation, rows issued in Comet's order and a row delivered or stopped by a
fault, the halt, the end of a drain. -/
def Obligations.TransferSteps : Prop :=
  (∀ (r : Region) (s : State), s.awake → exec (.transferPost r) s = .next (s.xferPost r.val)) ∧
  (∀ (r : Region) (q : Fin 64) e (s : State), s.awake → bit (s.rg (pgComet r.val) (oCometQctl + 8 * q.val)) 16 = true →
    (((s.cometAt r.val).queue q.val).take (s.qDepth r.val q.val)).find? (fun e => e.2.st = .queued) = some e →
    exec (.transferActivate r q) s = .next (s.xferStart r e.1)) ∧
  (∀ (r : Region) (i : Fin 1024) row z (s : State), s.awake → (s.xferAt r.val i.val).st = .active →
    row < (s.xferAt r.val i.val).total → (s.xferAt r.val i.val).prefix_ ≤ row → (s.xferAt r.val i.val).rows.contains row = false →
    (s.xferAt r.val i.val).saved = none → z = s.rowIssue r i.val row →
    (∀ b, (z.xferAt r.val i.val).waitMet = true → (z.xferAt r.val i.val).bufs.find? (fun b => b.row = row) = some b →
      exec (.rowDelivered r i row) s = .next (z.rowDeliver r i.val b)) ∧
    ((z.xferAt r.val i.val).waitMet = false ∨ (z.xferAt r.val i.val).bufs.find? (fun b => b.row = row) = none →
      exec (.rowDelivered r i row) s = .next z)) ∧
  (∀ (r : Region) i b z u (s : State), s.xferRow r i b = (true, z) →
    u = (z.putXfer r.val i (XferSt.advance { z.xferAt r.val i with
      rows := (z.xferAt r.val i).rows ++ [b.row]
      bufs := (z.xferAt r.val i).bufs.filter (fun c => c.row ≠ b.row) } ((z.xferAt r.val i).rows.length + 2))) →
    s.rowDeliver r i b = (u.count (pgComet r.val) oCometRows 1).xferSignal r.val i (z.xferAt r.val i).prefix_) ∧
  (∀ (r : Region) i b z (s : State), s.xferRow r i b = (false, z) → s.rowDeliver r i b = z.rowFault r i b.row) ∧
  (∀ (r : Region) (i : Fin 1024) k (s : State), s.awake → (s.xferAt r.val i.val).st = .active → (s.xferAt r.val i.val).saved = some k →
    ((s.xferAt r.val i.val).waitMet = true → (s.xferAt r.val i.val).bufs = []) →
    exec (.transferHalt r i) s = .next (((s.putXfer r.val i.val { s.xferAt r.val i.val with st := .halted, next := k, rows := (s.xferAt r.val i.val).rows.filter (fun j => decide (j < k)) }).count (pgComet r.val) oCometHalts 1).setEvt
        (pgComet r.val) 0)) ∧
  (∀ (r : Region) (i : Fin 1024) (s : State), s.awake → (s.xferAt r.val i.val).st = .draining → (s.xferAt r.val i.val).ended = 0 →
    exec (.transferDrainDone r i) s =
      .next ((s.count (pgComet r.val) oCometCancelRd (s.xferAt r.val i.val).flight).xferCancelled r.val i.val))

/-- A snapshot of the ledger is armed once, latched at its time, and published (R679 to R682, R688). -/
def Obligations.LedgerSnapshot : Prop :=
  (∀ (v : Word) (s : State), s.awake → s.snap = none → bit v 0 = true →
    exec (.snapCmd v) s = .next ((s.setSnap (some ⟨max (s.rg pgLedger oLedgerSnapAt).toNat (s.ns + 1000), none⟩)).setRg
      pgLedger oLedgerSnapStatus 1)) ∧
  (∀ (v : Word) (s : State), s.awake → s.snap.isSome = true → exec (.snapCmd v) s = .next (s.setEvt pgLedger 3)) ∧
  (∀ (s : State) t, s.awake → s.snap = some ⟨t, none⟩ → t ≤ s.ns → exec .snapshotLatch s = .next (s.setSnap (some ⟨t, some s.books⟩))) ∧
  (∀ (s : State) t, s.awake → s.snap = some ⟨t, none⟩ → s.ns < t → exec .snapshotLatch s = .next s) ∧
  (∀ (s : State) t bs, s.awake → s.snap = some ⟨t, some bs⟩ →
    Completes .snapshotDone s (fun u => u.snap = none ∧ u.rg pgLedger oLedgerSnapStatus = 2 ∧ u.rg pgLedger oLedgerSnapSt = word t))

/-! ## Pins (R957 to R978) -/

/-- A write of ETH.CFG takes effect only while every link of the port is DOWN; at any other time it changes nothing and counts a
STATE_CONFLICT (R720). -/
def Obligations.EthCfgOnlyWhileDown : Prop :=
  ∀ (p : Fin 4) (v : Word) (s : State), s.awake →
    ((∀ k, k < 4 → (s.linkAt (p.val * 4 + k)).st = .down) → Completes (.ethCfgWrite p v) s (fun t =>
      t.rg (pgEth p.val) oEthCfg = v &&& word ethCfgMask ∧ t.dram = s.dram)) ∧
    ((∃ k, k < 4 ∧ (s.linkAt (p.val * 4 + k)).st ≠ .down) → Completes (.ethCfgWrite p v) s (fun t =>
      t = s.conflict (pgEth p.val) ∧ t.eth = s.eth ∧ t.rg (pgEth p.val) oEthCfg = s.rg (pgEth p.val) oEthCfg))

/-! ## Ethernet links (R716 to R733, R875 to R880) -/

/-- Links come up and go down (R720, R721, R768, R875 to R878). Pauses by priority (R722 to R724). -/
def Obligations.LinkStates : Prop :=
  ((∀ (p : Fin 4) (v : Word) (s : State), s.awake → (∀ k, k < 4 → (s.linkAt (p.val * 4 + k)).st = .down) → (s.domAt (180 + p.val)).st = .on →
    exec (.ethCfgWrite p v) s = .next ((s.setRg (pgEth p.val) oEthCfg (v &&& word ethCfgMask)).portStart p.val)) ∧
  (∀ (p : Fin 4) (v : Word) k (s : State), s.awake → k < 4 → (s.linkAt (p.val * 4 + k)).st ≠ .down →
    exec (.ethCfgWrite p v) s = .next (s.conflict (pgEth p.val))) ∧
  (∀ (l : Fin 16) (s : State), s.awake → (s.linkAt l.val).st = .training →
    exec (.linkTrained l) s = .next ((((s.putLink l.val { s.linkAt l.val with st := .up, fails := 0, fec := [] }).setEvt
      (pgEth (l.val / 4)) 0).announce l.val).drainPort (l.val / 4))) ∧
  (∀ (l : Fin 16) (s : State), s.awake → exec (.linkLoss l) s = .next (s.linkDown l.val)) ∧
  (∀ (l : Fin 16) (s : State), s.awake → (s.linkAt l.val).st = .down → (s.linkAt l.val).fails < 3 → s.linkWanted l.val = true →
    (∀ t, (s.linkAt l.val).downAt = some t → t + 10 ^ 7 ≤ s.ns) →
    exec (.linkRetryTimer l) s = .next (s.putLink l.val { s.linkAt l.val with st := .training })) ∧
  (∀ (l : Fin 16) (s : State), s.awake → (s.linkAt l.val).st = .training → (s.linkAt l.val).fails ≠ 4 →
    exec (.linkTrainingFailure l) s = .next ((s.linkDown l.val).putLink l.val { (s.linkDown l.val).linkAt l.val with fails := (s.linkAt l.val).fails + 1 })) ∧
  (∀ (l : Fin 16) (s : State), s.awake → (s.linkAt l.val).st = .up →
    ((s.linkAt l.val).fec ++ [s.ns]).countP (fun t => s.ns < t + 10 ^ 9) ≤ 16 →
    exec (.fecUncorrectableCodeword l) s = .next ((((s.putLink l.val { s.linkAt l.val with fec := ((s.linkAt l.val).fec ++ [s.ns]).filter (fun t => s.ns < t + 10 ^ 9) }).linkCount l.val oEthFecUncorr 1).linkCount l.val
        oEthFcsErr 1).setEvt (pgEth (l.val / 4)) 2)) ∧
  (∀ (l : Fin 16) (s : State), s.awake → (s.linkAt l.val).fails = 3 →
    exec (.loopbackDone l 0) s = .next (s.putLink l.val { s.linkAt l.val with fails := 4 }))) ∧
  ((∀ (p : Fin 4) (mask : Byte) q (s : State), s.awake → q.length = 8 →
    exec (.pfcFrameRx p mask q) s = .next (((onesBelow 8 (mask.toNat &&& s.rf (pgEth p.val) oEthCfg 15 8)).foldl
      (fun t i => t.pauseOne p.val i (q.getD i 0).toNat) ((s.heard (p.val * 4) 1 0).linkCount (p.val * 4) oEthPfcRx 1)).drainPort p.val)) ∧
  (∀ (p : Fin 4) (i : Fin 8) (s : State), s.awake → exec (.pfcPauseExpiry p i) s = .next ((s.setEth { s.eth with pauses := s.eth.pauses.filter (fun x => !(decide (x.port = p.val) && decide (x.prio = i.val) && decide (x.until_ ≤ s.ns))) }).drainPort
      p.val)) ∧
  (∀ (p : Fin 4) (i : Fin 8) x (s : State), s.awake → s.eth.pauses = [x] → x.port = p.val → x.prio = i.val → x.storm = false →
    s.ns < x.until_ → x.since + 10 ^ 8 ≤ s.ns →
    exec (.pfcStorm p i) s = .next (((s.setEth { s.eth with pauses := [{ x with storm := true }] }).linkCount (p.val * 4)
      oEthPfcStorm 1).setEvt (pgEth p.val) 3)))

/-- Neighbours, addresses and discovery (R726 to R732). -/
def Obligations.NeighborsAndDiscovery : Prop :=
  (∀ (l : Fin 16) a (s : State), s.awake → (s.linkAt l.val).st = .up → s.ownV4 l.val a.toNat = true →
    exec (.neighborPacketRx l (.arp a)) s = .next ((s.heard l.val 1 0).sendOn l.val 1 (.neighbor l.val 0))) ∧
  (∀ (l : Fin 16) a (s : State), s.awake → (s.linkAt l.val).st = .up → s.ownV4 l.val a.toNat = false →
    exec (.neighborPacketRx l (.arp a)) s = .next ((s.heard l.val 1 0).linkCount l.val oEthDrop 1)) ∧
  (∀ (l : Fin 16) (a : AddrInfo) (s : State), s.awake → a.source = 2 → (smapGet (fun _ => 0) s.eth.dhcp l.val).testBit (b2n a.ipv6) = true →
    s.addrSource l.val a.ipv6 ≠ 1 → (s.addrWrite l.val a).linkAt l.val ≠ s.linkAt l.val →
    exec (.addrChange l a) s = .next ((((s.addrWrite l.val a).qpErrAll (fun q => decide ((s.addrWrite l.val a).qpLink q = l.val))).setEvt (pgEth (l.val / 4)) 4).announce
      l.val)) ∧
  (∀ (l : Fin 16) (s : State), s.awake → (s.linkAt l.val).annAt + max 100 (fld (s.linkRg l.val oEthDiscCtl) 15 0) * 1000000 ≤ s.ns →
    exec (.discoveryAnnounce l) s = .next (s.announce l.val)) ∧
  (∀ (l : Fin 16) (s : State), s.awake → (s.linkAt l.val).st = .up →
    exec (.discoveryQueryRx l false) s = .next (s.setEth { s.eth with queries := s.eth.queries ++ [(l.val, s.ns + s.rf pgDev oDevDevNum 11 0 % 64 * 100000)] })) ∧
  (∀ (l : Fin 16) q (s : State), s.awake → s.eth.queries.find? (fun q => decide (q.1 = l.val) && decide (q.2 ≤ s.ns)) = some q →
    (s.linkAt l.val).st = .up →
    exec (.discoveryQueryAnswer l) s = .next ((s.setEth { s.eth with queries := s.eth.queries.erase q }).discSend l.val 1 true)) ∧
  (∀ (l : Fin 16) p (s : State), s.awake → p.length = 64 → leAt p 0 4 = 0x5A475631 → leAt p 4 1 = 1 → (s.linkAt l.val).st = .up →
    Completes (.discoveryRx l p) s (fun t =>
      (∀ k, k < 8 → t.rg (pgEth (l.val / 4)) (0x400 + 64 * s.rf (pgEth (l.val / 4)) oEthDiscNext 3 0 + 8 * k) = wordAt p (8 * k)) ∧
      t.rg (pgEth (l.val / 4)) oEthDiscNext = word ((s.rf (pgEth (l.val / 4)) oEthDiscNext 3 0 + 1) % 16) ∧
      bit (t.rg (pgEth (l.val / 4)) oEvtStatus) 5 = true))

/-! ## RDMA (R734 to R770) -/

/-- Connections (R737, R739). Received requests (R746, R747): the expected one joins its queue pair's messages and what can run runs; one
from the past is a duplicate; one from the future draws a sequence NAK. -/
def Obligations.ConnectionsAndRequests : Prop :=
  ((∀ (m : CmMsg) z (s : State), s.awake → cmMine m = true → mgmtQp m.qp.val = false →
    z = (s.cmHeard m).demandNow (184 + m.qp.val / 4096) (pgRdma (m.qp.val / 4096)) → (z.qpAt m.qp.val).st = .init →
    exec (.cmReq m) s = .next (((z.cmPeer m).putQp m.qp.val { (z.cmPeer m).qpAt m.qp.val with connected := true }).sendQp m.qp.val 1
      (.cm m.port.val m.qp.val 1))) ∧
  (∀ (m : CmMsg) z (s : State), s.awake → cmMine m = true → mgmtQp m.qp.val = false →
    z = (s.cmHeard m).demandNow (184 + m.qp.val / 4096) (pgRdma (m.qp.val / 4096)) → (z.qpAt m.qp.val).st ≠ .init →
    exec (.cmReq m) s = .next (z.sendQp m.qp.val 1 (.cm m.port.val m.qp.val 3))) ∧
  (∀ (m : CmMsg) (s : State), s.awake → cmMine m = true → (s.qpAt m.qp.val).st = .init →
    exec (.cmRep m) s = .next ((((s.cmHeard m).cmPeer m).cmUp m.qp.val).sendQp m.qp.val 1 (.cm m.port.val m.qp.val 2))) ∧
  (∀ (m : CmMsg) (s : State), s.awake → cmMine m = true → (s.qpAt m.qp.val).st = .init → (s.qpAt m.qp.val).connected = true →
    exec (.cmRtu m) s = .next (((s.cmHeard m).putQp m.qp.val { s.qpAt m.qp.val with connected := false }).cmUp m.qp.val)) ∧
  (∀ (m : CmMsg) (s : State), s.awake → cmMine m = true →
    exec (.cmRej m) s = .next ((s.cmHeard m).putQp m.qp.val { s.qpAt m.qp.val with connected := false })) ∧
  (∀ (m : CmMsg) (s : State), s.awake → cmMine m = true → (s.qpAt m.qp.val).up = true →
    exec (.cmDreq m) s = .next (((s.cmHeard m).qpErr m.qp.val).sendQp m.qp.val 1 (.cm m.port.val m.qp.val 5))) ∧
  (∀ (m : CmMsg) (s : State), s.awake → exec (.cmDrep m) s = .next (s.cmHeard m))) ∧
  (∀ (h : RxHdr) pl imm va rk d n w1 w2 e (s : State), s.awake → s.takesRx h →
    e ∈ ([(.rxSend h pl, .send pl none), (.rxSendImm h imm pl, .send pl (some imm.toNat)), (.remoteIncrementRx h pl, .send pl (some sigImm)),
      (.rxWrite h va rk d, .write va rk.toNat d none), (.rxWriteImm h imm va rk d, .write va rk.toNat d (some imm.toNat)),
      (.rxRead h va rk n, .read va rk.toNat n), (.rxFetchAdd h va rk w1, .fetchAdd va rk.toNat w1),
      (.rxCmpSwap h va rk w1 w2, .cmpSwap va rk.toNat w1 w2)] : List (Instr × TxOp)) →
    (h.psn.toNat = (s.qpAt h.qp.val).rqPsn →
      exec e.1 s = .next ((s.rxCounted h.qp.val e.2).rxNext ⟨h.qp.val, h.psn.toNat, false, e.2⟩).rxDrainAll) ∧
    (2 ^ 23 ≤ (h.psn.toNat + 2 ^ 24 - (s.qpAt h.qp.val).rqPsn) % 2 ^ 24 →
      exec e.1 s = .next ((s.rxCounted h.qp.val e.2).rxDup ⟨h.qp.val, h.psn.toNat, false, e.2⟩).rxDrainAll) ∧
    (0 < (h.psn.toNat + 2 ^ 24 - (s.qpAt h.qp.val).rqPsn) % 2 ^ 24 →
      (h.psn.toNat + 2 ^ 24 - (s.qpAt h.qp.val).rqPsn) % 2 ^ 24 < 2 ^ 23 →
      exec e.1 s = .next ((s.rxCounted h.qp.val e.2).sendNak h.qp.val (s.qpAt h.qp.val).rqPsn .sequence)))

/-- Acknowledgements, rates and the requester's completions (R739, R748, R752, R759, R765). -/
def Obligations.RequesterAnswers : Prop :=
  (∀ (q : Fin 16384) (psn : BitVec 24) (k : BitVec 5) (s : State), s.awake → (s.qpAt q.val).st = .rts → (s.qpAt q.val).sigEn = false →
    exec (.ackRx q psn k) s = .next (((s.heard (s.qpLink q.val) 1 0).putQp q.val { s.qpAt q.val with sigTx := (s.qpAt q.val).sigTx }).ackTo q.val psn.toNat)) ∧
  (∀ (q : Fin 16384) (psn : BitVec 24) (k : BitVec 5) (s : State), s.awake → (s.qpAt q.val).st = .rts → (s.qpAt q.val).sigEn = true →
    k.toNat ≤ 30 →
    exec (.ackRx q psn k) s = .next (((s.heard (s.qpLink q.val) 1 0).putQp q.val { s.qpAt q.val with sigTx := (s.qpAt q.val).sigTx + k.toNat }).ackTo q.val psn.toNat)) ∧
  (∀ (q : Fin 16384) (psn : BitVec 24) z (s : State), s.awake → (s.qpAt q.val).st = .rts →
    z = (s.heard (s.qpLink q.val) 1 0).count (pgRdma (q.val / 4096)) oRdmaNakRx 1 →
    exec (.nakRx q psn .sequence) s = .next ((z.ackTo q.val ((psn.toNat + 2 ^ 24 - 1) % 2 ^ 24)).retry q.val) ∧
    exec (.nakRx q psn .rnr) s = .next ((z.ackTo q.val ((psn.toNat + 2 ^ 24 - 1) % 2 ^ 24)).rnrRetry q.val) ∧
    exec (.nakRx q psn .invalid) s = .next (z.qpErr q.val) ∧ exec (.nakRx q psn .remoteAccess) s = .next (z.qpErr q.val) ∧
    exec (.nakRx q psn .remoteOp) s = .next (z.qpErr q.val)) ∧
  (∀ (q : Fin 16384) (s : State), s.awake → (s.qpAt q.val).st = .rts → (s.qpAt q.val).unacked ≠ [] →
    exec (.ackTimeout q) s = .next (s.retry q.val)) ∧
  (∀ (q : Fin 16384) (s : State), s.awake → (s.qpAt q.val).up = true → (s.qpAt q.val).sigEn = true → 0 < (s.qpAt q.val).sigOwed →
    exec (.creditAck q) s = .next (s.sendAck q.val (s.qpAt q.val).lastAck)) ∧
  (∀ (q : Fin 16384) d z (s : State), s.awake → (s.qpAt q.val).st = .rts → (s.qpAt q.val).rdHeld = [] → 
    (s.heard (s.qpLink q.val) (respPackets (qpMtu (s.qpAt q.val).ctx) d.length) d.length).rdRun q.val d = (true, z) →
    exec (.rdmaReadResponseRx q d) s = .next z) ∧
  (∀ (q : Fin 16384) (s : State), s.awake → (s.qpAt q.val).st = .rts →
    exec (.cnpRx q) s = .next (((s.heard (s.qpLink q.val) 1 0).count (pgRdma (q.val / 4096)) oRdmaCnpRx 1).putQp q.val
      { s.qpAt q.val with cnps := (s.qpAt q.val).cnps + 1 })) ∧
  (∀ (e : Fin 4) (s : State), s.awake → exec (.ratePeriod e) s = .next ((s.engQps e.val).foldl (fun t x =>
    if x.2.st = .rts then t.putQp x.1 ((t.qpAt x.1).newRate (s.lineRate e.val) (s.rg (pgRdma e.val) oRdmaRcParam)) else t) s)) ∧
  (∀ (q : Fin 16384) m ms (s : State), s.awake → (s.qpAt q.val).acked = m :: ms →
    exec (.wqeComplete q) s = .next (match m.cmpl with
      | some c => (s.putQp q.val { s.qpAt q.val with acked := ms, done := (s.qpAt q.val).done + 1 }).issueInc (ctrOp c).1 (ctrOp c).2 1
      | none => s.putQp q.val { s.qpAt q.val with acked := ms, done := (s.qpAt q.val).done + 1 })) ∧
  (∀ (e : Fin 4) n x (s : State), s.awake → s.eth.psig.find? (fun x => decide (x.eng = e.val) && decide (x.id = n)) = some x →
    s.sigMet x = true →
    exec (.pendingSignalApply e n) s =
      .next (((s.psigDrop x).count (pgSync x.region) oSyncRemoteIncs 1).issueInc x.region x.ctr x.amount))

/-- Work-queue entries (R751, R754, R757): an entry of the command's opcode is read, its source is read, and the message is posted. -/
def Obligations.WorkQueueEntries : Prop :=
  ∀ (q : Fin 16384) va e w ps z (s : State), s.awake →
    e ∈ ([(0, .wqeWrite q), (1, .wqeWriteImm q), (2, .wqeSend q), (3, .wqeSendImm q), (4, .wqeRead q), (5, .wqeFetchAdd q),
      (6, .wqeCmpSwap q), (7, .wqeSignal q)] : List (Nat × Instr)) →
    (s.qpAt q.val).st = .rts → (s.qpAt q.val).taken < (s.qpAt q.val).avail → fld (wordAt (s.qpAt q.val).ctx 0x28) 55 52 ≠ 0 →
    (s.qpAt q.val).txWait = [] → s.qpLinkUp q.val = true → s.parkedAt 12 (.rdma q.val (2 * (s.qpAt q.val).taken)) = false →
    va = fld (wordAt (s.qpAt q.val).ctx 0x28) 51 0 + 64 * ((s.qpAt q.val).taken % 2 ^ fld (wordAt (s.qpAt q.val).ctx 0x28) 55 52) →
    s.readVa 12 (.rdma q.val (2 * (s.qpAt q.val).taken)) true va 64 = (some (w, ps), z) → ps.any id = false → wqeOk w = true →
    wqeOp w = e.1 → (s.qpAt q.val).mayTx (wqeTx w (s.wqeMsg w [] false)) = true →
    (4 ≤ e.1 → e.1 ≤ 6 → exec e.2 s = .next ((z.wqeTaken q.val).txPost q.val (wqeTx w (z.wqeMsg w [] false)))) ∧
    (∀ d ds y, (e.1 < 4 ∨ e.1 = 7) → z.readVa 12 (.rdma q.val (2 * (s.qpAt q.val).taken)) true (wqeLocal w) (wqeLen w) = (some (d, ds), y) →
      ds.any id = false → exec e.2 s = .next ((y.wqeTaken q.val).txPost q.val (wqeTx w (y.wqeMsg w d false))))

/-! ## Pages of the control window (R775 to R786, R929 to R931) -/

/-- Writes of the page header (R779 to R786, R931): COMMIT is only ever set; a software clear leaves the bits it does not name; a clear of
VALID zeroes the record, unless a record arrives with it; a counter is written whole. A register write changes a plain register within
its writable bits and leaves the reserved ones; a write to a page that does not exist changes nothing (R12, R775 to R777). -/
def Obligations.PageWrites : Prop :=
  ((∀ (p : PageRef) (v : Word) (s : State), s.awake → pageExists (pageOf p) = true →
    Completes (.evtStatusClear p v 0) s (fun t =>
      t = s.setRg (pageOf p) oEvtStatus (s.rg (pageOf p) oEvtStatus &&& ~~~(v &&& word (evtMask (pageOf p / 1024)))))) ∧
  (∀ (p : PageRef) (v : Word) (s : State), s.awake → pageExists (pageOf p) = true →
    Completes (.evtSetWrite p v) s (fun t => t.rg (pageOf p) oEvtStatus =
      s.rg (pageOf p) oEvtStatus ||| (v &&& word (evtMask (pageOf p / 1024))))) ∧
  (∀ (p : PageRef) (i : Fin 8) (v : Word) (s : State), s.awake → pageExists (pageOf p) = true →
    exec (.cntSelWrite p i v) s = .next (s.setRg (pageOf p) (oCntSel i.val) (word (b2n (bit v 63) * 2 ^ 63 +
      if srcDefined (pageOf p / 1024) (fld v 15 0) then fld v 15 0 else 0)))) ∧
  (∀ (p : PageRef) (i : Fin 8) (v n : Word) (s : State), s.awake → pageExists (pageOf p) = true →
    exec (.cntValWrite p i v n) s = .next (s.setRg (pageOf p) (oCntVal i.val) (v + n))) ∧
  (∀ (p : PageRef) (v : Word) (s : State), s.awake → pageExists (pageOf p) = true →
    exec (.pageCtlCommit p v) s = .next (s.setRg (pageOf p) oPageCtl (s.rg (pageOf p) oPageCtl ||| (v &&& 1)))) ∧
  (∀ (p : PageRef) (last : Bool) (v : Word) (s : State), s.awake → pageExists (pageOf p) = true → bit v 63 = true →
    Completes (.errValidClear p ⟨last, false⟩ v) s (fun t =>
      (∀ k, k < 8 → t.rg (pageOf p) ((if last then oErrLast else oErrFirst) + 8 * k) = 0) ∧
      (∀ k, k < 8 → t.rg (pageOf p) ((if last then oErrFirst else oErrLast) + 8 * k) =
        s.rg (pageOf p) ((if last then oErrFirst else oErrLast) + 8 * k)))) ∧
  (∀ (p : PageRef) (v : Word) u (s : State), s.awake → pageExists (pageOf p) = true → bit v 63 = true → bit (s.rg (pageOf p) oErrLast) 63 = true →
    u = s.setRg (pageOf p) (oErrLast + 32) 1 →
    exec (.errValidClear p ⟨true, true⟩ v) s = .next (u.setRg (pageOf p) oEvtCollide (u.rg (pageOf p) oEvtCollide + 1)))) ∧
  ((∀ (a : BitVec 28) (v : Word) (s : State), s.awake → a.toNat % 8 = 0 → pageExists (a.toNat / 4096) = false → s.eth.rxHeld = [] →
    exec (.registerWrite a v) s = .next s) ∧
  (∀ (a : BitVec 28) (v : Word) row (s : State), s.awake → a.toNat % 8 = 0 → pageExists (a.toNat / 4096) = true →
    a.toNat / 4096 / 1024 = 0x10 → 0x200 ≤ a.toNat % 4096 → s.eth.rxHeld = [] →
    regRow (a.toNat / 4096 / 1024) (a.toNat % 4096) = some row → row.w ≠ 0 → row.rwl = false → row.inst = none →
    exec (.registerWrite a v) s = .next (s.setRg (a.toNat / 4096) (a.toNat % 4096)
      ((s.rg (a.toNat / 4096) (a.toNat % 4096) &&& ~~~(word row.w)) ||| (v &&& word row.w)))))

/-- Raising an event sets its bit and clears none (R785). -/
def Obligations.EventsOnlyRise : Prop :=
  ∀ (s : State) pg b, b < 64 →
    (s.setEvt pg b).rg pg oEvtStatus = s.rg pg oEvtStatus ||| word (2 ^ b) ∧ (s.setEvt pg b).dram = s.dram ∧
    Booked s (s.setEvt pg b)

/-! ## Command rings (R793 to R819) -/

/-- Doorbells and consumed completions (R795, R799). A command whose words hold a reserved bit completes with INVALID_CMD and does nothing
else (R800, R801). NOP, scheduled entries and graph handles (R81, R86 to R92, R801, R806, R807). -/
def Obligations.RingCommands : Prop :=
  ((∀ (r : Fin 63) (v : Word) (s : State), s.awake → exec (.doorbell r v) s = .next (s.doorbell r.val v)) ∧
  (∀ (v : Word) (s : State), s.awake → exec (.cplHeadWrite v) s = .next ((s.putRing (s.rf pgHcmd oHcmdRingSel 5 0)
    { s.ringAt (s.rf pgHcmd oHcmdRingSel 5 0) with head := fld v 31 0 }).flushNotes))) ∧
  (∀ src ws z (s : State), s.awake →
    (s.offers src 1 ws z → cmdBits ws [0x3FF, allBits, allBits, allBits, allBits] = false →
      exec (.launch src) s = .next (z.cmdDone src ws (.invalid pgHcmd))) ∧
    (s.offers src 4 ws z → cmdBits ws [0xFFFF] = false → exec (.schedCancel src) s = .next (z.cmdDone src ws (.invalid pgHcmd))) ∧
    (s.offers src 9 ws z → cmdBits ws [0xFF] = false → exec (.graphUnload src) s = .next (z.cmdDone src ws (.invalid pgHcmd)))) ∧
  ((∀ src ws z (s : State), s.awake → s.cmdTake src (fun o => decide (o = 0) || !opcDefined o) = (some (ws, false), z) →
    cmdOpc ws = 0 → cmdBits ws [] = true → exec (.nopCommand src) s = .next (z.cmdDone src ws (.ok pgHcmd 0))) ∧
  (∀ src ws z n y (s : State), s.awake → s.offers src 3 ws z → cmdBits ws [allBits, 0xFFFF, 0xFFFF001F, 0xFFFFFFFF, 0xFFFF] = true →
    schedTarget (fld (ws.getD 3 0) 3 0) (fld (ws.getD 3 0) 31 16) = true →
    z.schedAccept ⟨(ws.getD 1 0).toNat * 2 ^ 16 + fld (ws.getD 2 0) 15 0, fld (ws.getD 3 0) 3 0, fld (ws.getD 3 0) 31 16,
      fld (ws.getD 4 0) 31 0, bit (ws.getD 3 0) 4, fld (ws.getD 5 0) 15 0, 0⟩ = (some n, y) →
    exec (.sched src) s = .next (y.cmdDone src ws (.ok pgTime n))) ∧
  (∀ src ws z (s : State), s.awake → s.offers src 4 ws z → cmdBits ws [0xFFFF] = true →
    z.time.queue.any (fun e => decide (e.tag = fld (ws.getD 1 0) 15 0) && !z.deliverNow e) = true →
    exec (.schedCancel src) s = .next ((z.setTime { z.time with queue := z.time.queue.filter (fun e => !(decide (e.tag = fld (ws.getD 1 0) 15 0) && !z.deliverNow e)) }).cmdDone src ws
        (.ok pgTime (z.time.queue.countP (fun e => decide (e.tag = fld (ws.getD 1 0) 15 0) && !z.deliverNow e))))) ∧
  (∀ src ws z h y ids (s : State), s.awake → s.offers src 8 ws z → cmdBits ws [0xFF, allBits] = true →
    (z.graphAt (fld (ws.getD 1 0) 7 0)).st = .empty → (ws.getD 2 0).toNat % 256 = 0 →
    z.cmdRead (cmdWho src) (ws.getD 2 0).toNat 256 = (some (h, false), y) → graphTables h (y.rf (pgEmb 0) oEmbTblCount 10 0) = some ids →
    exec (.graphLoad src) s = .next ((y.putGraph (fld (ws.getD 1 0) 7 0) ⟨.ready, ids⟩).cmdDone src ws (.ok pgHcmd 0))) ∧
  (∀ src ws z (s : State), s.awake → s.offers src 9 ws z → cmdBits ws [0xFF] = true →
    (z.graphAt (fld (ws.getD 1 0) 7 0)).st = .ready → z.graphStreams (fld (ws.getD 1 0) 7 0) = false →
    z.slotsBusy.any (fun a => a.graph = fld (ws.getD 1 0) 7 0) = false →
    exec (.graphUnload src) s = .next ((z.putGraph (fld (ws.getD 1 0) 7 0) GraphSt.reset).cmdDone src ws (.ok pgHcmd 0))))

/-- Table slots go from FREE to LOADING to READY and back (R246). -/
def Obligations.TableSlotCommands : Prop :=
  (∀ src ws z d y y1 y2 id k (s : State), s.awake → s.offers src 0x10 ws z → cmdBits ws [0x1FFF, allBits] = true →
    id = fld (ws.getD 1 0) 9 0 → k = fld (ws.getD 1 0) 12 10 → (ws.getD 2 0).toNat % 256 = 0 → (ws.getD 2 0).toNat < 2 ^ 52 →
    z.tdFind 0 (cmdWho src) id = (.ok d, y) → tdState d k = svFree →
    y.tdPut (tdRegion d) (cmdWho src) id (0x40 + 16 * k)
      (setFld (setFld (wordAt d (0x40 + 16 * k)) 51 0 (ws.getD 2 0).toNat) 58 56 svLoading) = (true, y1) →
    y1.tdPut (tdRegion d) (cmdWho src) id (0x48 + 16 * k) (setFld (wordAt d (0x48 + 16 * k)) 39 0 0) = (true, y2) →
    exec (.slotLoadBegin src) s = .next (y2.cmdDone src ws (.ok (tdPage d) 0))) ∧
  (∀ src ws z d y y1 y2 id k (s : State), s.awake → s.offers src 0x11 ws z → cmdBits ws [0x1FFF, 2 ^ 40 - 1] = true →
    id = fld (ws.getD 1 0) 9 0 → k = fld (ws.getD 1 0) 12 10 → z.tdFind 0 (cmdWho src) id = (.ok d, y) →
    fld (ws.getD 2 0) 39 0 ≤ tdRows d → tdState d k = svLoading →
    y.tdPut (tdRegion d) (cmdWho src) id (0x48 + 16 * k) (setFld (wordAt d (0x48 + 16 * k)) 39 0 (fld (ws.getD 2 0) 39 0)) = (true, y1) →
    y1.tdSetState (tdRegion d) (cmdWho src) id d k svReady = (true, y2) →
    exec (.slotLoadEnd src) s = .next (y2.cmdDone src ws (.ok (tdPage d) 0))) ∧
  (∀ src ws z d y y1 id k (s : State), s.awake → s.offers src 0x12 ws z → cmdBits ws [0x1FFF] = true → id = fld (ws.getD 1 0) 9 0 →
    k = fld (ws.getD 1 0) 12 10 → z.tdFind 0 (cmdWho src) id = (.ok d, y) → tdState d k = svLoading →
    y.tdSetState (tdRegion d) (cmdWho src) id d k svFree = (true, y1) →
    exec (.slotLoadAbort src) s = .next ((y1.slotGone id k).cmdDone src ws (.ok (tdPage d) 0))) ∧
  (∀ src ws z d y y1 id k (s : State), s.awake → s.offers src 0x13 ws z → cmdBits ws [0x1FFF] = true → id = fld (ws.getD 1 0) 9 0 →
    k = fld (ws.getD 1 0) 12 10 → z.tdFind 0 (cmdWho src) id = (.ok d, y) → tdState d k = svReady →
    y.tdSetState (tdRegion d) (cmdWho src) id d k svFree = (true, y1) →
    exec (.slotFree src) s = .next ((y1.slotGone id k).cmdDone src ws (.ok (tdPage d) 0)))

/-- Queue pairs, streams, binding (R739, R788 to R792, R812, R816). -/
def Obligations.BindingQueuesStreams : Prop :=
  (∀ src ws z q (s : State), s.awake → s.offers src 0x18 ws z → cmdBits ws [0x73FFF] = true → q = fld (ws.getD 1 0) 13 0 → 3 ≤ q % 4096 →
    fld (ws.getD 1 0) 18 16 = 3 → (z.qpAt q).st = .rtr →
    exec (.qpModify src) s = .next ((z.qpRts q).cmdDone src ws (.ok (pgRdma (q / 4096)) 0))) ∧
  (∀ src ws z q (s : State), s.awake → s.offers src 0x18 ws z → cmdBits ws [0x73FFF] = true → q = fld (ws.getD 1 0) 13 0 → 3 ≤ q % 4096 →
    fld (ws.getD 1 0) 18 16 = 3 → (z.qpAt q).st = .reset →
    exec (.qpModify src) s = .next (z.cmdDone src ws (.conflict (pgRdma (q / 4096)) QpState.reset.code))) ∧
  (∀ src ws z b y (s : State), s.awake → s.offers src 0x20 ws z → cmdBits ws [0xF, allBits] = true →
    (z.streamAt (fld (ws.getD 1 0) 3 0)).st = .closed → z.cmdRead (cmdWho src) (ws.getD 2 0).toNat 128 = (some (b, false), y) →
    streamOk b = true → (y.graphAt (fld (wordAt b 0) 7 0)).st = .ready →
    exec (.streamOpen src) s = .next ((y.putStream (fld (ws.getD 1 0) 3 0) ⟨.open_, b, List.replicate (stSlots b) .posted⟩).cmdDone src ws
      (.ok pgHcmd 0))) ∧
  (∀ src ws z i (s : State), s.awake → s.offers src 0x21 ws z → cmdBits ws [0xF] = true → i = fld (ws.getD 1 0) 3 0 →
    (z.streamAt i).st = .open_ →
    exec (.streamClose src) s = .next (((z.putStream i { z.streamAt i with st := .draining, slots := (z.streamAt i).slots.map (fun x => if x = .posted then .idle else x) }).streamRest i).cmdDone src ws
        (.ok pgHcmd 0))) ∧
  (∀ (k : Fin 4) l ws z (s : State), s.awake → s.offers (.mgmt k l) 0x30 ws z → cmdBits ws [] = true → z.host.bound = false →
    Completes (.bind (.mgmt k l)) s (fun t => t.host.bound = true ∧ t.host.owner = digestBytes (z.sessAt k.val).chain ∧
      t.rg pgHcmd oHcmdOwnerId = wordAt (digestBytes (z.sessAt k.val).chain) 0)) ∧
  (∀ (k : Fin 4) l ws z (s : State), s.awake → s.offers (.mgmt k l) 0x30 ws z → cmdBits ws [] = true → z.host.bound = true →
    exec (.bind (.mgmt k l)) s = .next (z.cmdDone (.mgmt k l) ws (.conflict pgHcmd 1))) ∧
  (∀ (k : Fin 4) l ws z (s : State), s.awake → s.offers (.mgmt k l) 0x31 ws z → cmdBits ws [] = true → z.host.bound = true →
    Completes (.unbind (.mgmt k l)) s (fun t => t.host.bound = false ∧ t.host.owner = [] ∧ t.streams = [] ∧
      t.rg pgHcmd oHcmdOwnerId = 0 ∧ ∀ r, bit (t.ringAt r).ctl 0 = false))

/-- Requests are launched, admitted, cancelled, missed and completed (R96, R100, R805, R809, R813); a version switch that is due acts before
an admission (R257). -/
def Obligations.RequestLife : Prop :=
  (∀ src ws z r y (s : State), s.awake → s.offers src 1 ws z → cmdBits ws [0x3FF, allBits, allBits, allBits, allBits] = true →
    z.launch (cmdWho src) { graph := fld (ws.getD 1 0) 7 0, rt := bit (ws.getD 1 0) 8, abort := bit (ws.getD 1 0) 9, seed := ws.getD 2 0, admitSt := ws.getD 3 0, deadline := ws.getD 4 0, va := (ws.getD 5 0).toNat, ring := cmdRing src, cmdId := fld (ws.getD 0 0) 63 32, stream := none } = (some r, y) → exec (.launch src) s = .next (y.cmdDone src ws r)) ∧
  (∀ src ws z i (s : State), s.awake → s.offers src 2 ws z → cmdBits ws [allBits ^^^ 0xF000] = true → i = fld (ws.getD 1 0) 11 0 →
    (z.slotAt i).st ≠ .free → (z.slotAt i).st ≠ .ending → (z.slotAt i).reqSeq = fld (ws.getD 1 0) 63 16 →
    exec (.cancel src) s = .next ((z.slotEnd i stCancelled pgHcmd).cmdDone src ws (.ok pgHcmd 0))) ∧
  (∀ (i : Fin 4096) (s : State), s.awake → s.admReady i.val = true → s.versionDue i.val = false → (s.slotAt i.val).admitSt ≠ word allBits →
    (s.slotAt i.val).admitSt.toNat ≤ s.ns → exec (.admitSlot i) s = .next (s.admitRun i.val)) ∧
  (∀ (i : Fin 4096) (s : State), s.awake → s.versionDue i.val = true → exec (.admitSlot i) s = .next s) ∧
  (∀ (i : Fin 4096) (s : State), s.awake → s.admReady i.val = true → s.ns < (s.slotAt i.val).admitSt.toNat →
    exec (.admitSlot i) s = .next s) ∧
  (∀ (i : Fin 4096) (s : State), s.awake → (s.slotAt i.val).rt = true → (s.slotAt i.val).deadline.toNat < s.ns →
    exec (.deadlineMiss i) s = .next (s.missReq i.val)) ∧
  (∀ (i : Fin 4096) z (s : State), s.awake → s.reqDone i.val = true →
    s.dropPins i.val (admWho i.val) (s.slotAt i.val).pins = (true, z) → (z.slotAt i.val).rt = false → (z.slotAt i.val).missed = false →
    exec (.requestComplete i) s =
      .next (z.slotFree i.val ⟨if (z.slotAt i.val).poisoned then stPoisoned else stOk, 0, 0, pgHcmd, 0⟩)) ∧
  (∀ (i : Fin 4096) z (s : State), s.awake → s.reqDrained i.val = true →
    s.dropPins i.val (admWho i.val) (s.slotAt i.val).pins = (true, z) →
    exec (.cancelDone i) s = .next (z.slotFree i.val ⟨(z.slotAt i.val).status,
      if (z.slotAt i.val).status = stMissed then 1 + 2 * b2n (z.slotAt i.val).poisoned else 0, (z.slotAt i.val).detail,
      (z.slotAt i.val).source, (z.slotAt i.val).obj⟩)) ∧
  (∀ (i : Fin 16) c k qp at_ h z (s : State), s.awake → s.svcCore = some c → (s.streamAt i.val).firstLanded = some (k, qp, at_) →
    s.cmdRead (.svc c) (stSlotVa (s.streamAt i.val).block k) 32 = (some (h, false), z) → leAt h 0 8 ≠ 0x5A475251 →
    exec (.serviceRequest i) s =
      .next (((z.count pgHcmd oHcmdSvcReject 1).setEvt pgHcmd 4).svcAnswerTo i.val k qp stInvalidCmd false)) ∧
  (∀ (i : Fin 16) c k qp at_ h z r y (s : State), s.awake → s.svcCore = some c → (s.streamAt i.val).firstLanded = some (k, qp, at_) →
    s.cmdRead (.svc c) (stSlotVa (s.streamAt i.val).block k) 32 = (some (h, false), z) → leAt h 0 8 = 0x5A475251 →
    32 + leAt h 0x18 4 ≤ stOutOff (s.streamAt i.val).block →
    z.launch (.svc c) { graph := fld (wordAt (s.streamAt i.val).block 0) 7 0, rt := bit (wordAt (s.streamAt i.val).block 0) 8, abort := bit (wordAt (s.streamAt i.val).block 0) 9, seed := if bit (wordAt (s.streamAt i.val).block 0) 10 then wordAt h 0x10 else wordAt (s.streamAt i.val).block 0x38, admitSt := 0, deadline := if bit (wordAt (s.streamAt i.val).block 0) 8 then word (at_ + leAt (s.streamAt i.val).block 0x40 8) else 0, va := (leAt (s.streamAt i.val).block 0x28 8 + k * leAt (s.streamAt i.val).block 0x30 4) % 2 ^ 64, ring := 63, cmdId := k, stream := some (i.val, k) } = (some r, y) → r.status = stOk →
    exec (.serviceRequest i) s = .next ((((((y.putRing 63 { z.ringAt 63 with reserved := (z.ringAt 63).reserved + 2 }).count pgHcmd
      oHcmdCmds 1).count pgHcmd oHcmdSvcReqs 1).cplOut 63 0 k r)).putStream i.val
        { ((((y.putRing 63 { z.ringAt 63 with reserved := (z.ringAt 63).reserved + 2 }).count pgHcmd oHcmdCmds 1).count pgHcmd oHcmdSvcReqs 1).cplOut 63 0 k r).streamAt i.val with slots := (((((y.putRing 63 { z.ringAt 63 with reserved := (z.ringAt 63).reserved + 2 }).count pgHcmd oHcmdCmds 1).count pgHcmd oHcmdSvcReqs 1).cplOut 63 0 k r).streamAt i.val).slots.set k (.busy qp) }))

/-! ## SPDM (R909 to R914, R923) -/

/-- The negotiation of a connection in its order: version, capabilities, algorithms; a step out of its order is answered with ERROR (R910).
Identity, challenge, measurements and sessions (R909, R910, R912, R914, R923). -/
def Obligations.SpdmExchanges : Prop :=
  ((∀ (p : Fin 4) (s : State), s.awake → exec (.getVersion (.plain p)) s = .next ((s.putConn p.val ⟨1⟩).spdmSay (.plain p) 0x04 [0x13])) ∧
  (∀ (p : Fin 4) (s : State), s.awake → (s.connAt p.val).phase = 1 →
    exec (.getCapabilities (.plain p)) s = .next ((s.putConn p.val ⟨2⟩).spdmSay (.plain p) 0x61 [])) ∧
  (∀ (p : Fin 4) (s : State), s.awake → (s.connAt p.val).phase ≠ 1 →
    exec (.getCapabilities (.plain p)) s = .next (s.spdmErr (.plain p) 4)) ∧
  (∀ (p : Fin 4) (s : State), s.awake → (s.connAt p.val).phase = 2 →
    exec (.negotiateAlgorithms (.plain p) true) s = .next ((s.putConn p.val ⟨3⟩).spdmSay (.plain p) 0x63 [])) ∧
  (∀ (p : Fin 4) (s : State), s.awake → (s.connAt p.val).phase = 2 →
    exec (.negotiateAlgorithms (.plain p) false) s = .next (s.spdmErr (.plain p) 1)) ∧
  (∀ (k : Fin 4) (s : State), s.awake → exec (.getVersion (.secured k)) s = .next (s.spdmErr (.secured k) 4) ∧
    exec (.getCapabilities (.secured k)) s = .next (s.spdmErr (.secured k) 4))) ∧
  ((∀ src (s : State), s.awake → exec (.getDigests src) s =
    .next (s.spdmAfter src (fun t => t.spdmSay src 0x01 (digestBytes t.certChain)))) ∧
  (∀ src (o n : BitVec 16) (s : State), s.awake → exec (.getCertificate src 0 o n) s = .next (s.spdmAfter src (fun t =>
    if t.certChain.length ≤ o.toNat then t.spdmErr src 1 else t.spdmSay src 0x02 ((t.certChain.drop o.toNat).take n.toNat)))) ∧
  (∀ src (s : State), s.awake → exec (.challenge src 0) s = .next (s.spdmAfter src (fun t =>
    (t.demandNow 196 pgSec).spdmSay src 0x03 (digestBytes (t.demandNow 196 pgSec).certChain ++
      Config.sign (digestBytes (t.demandNow 196 pgSec).certChain))))) ∧
  (∀ src (s : State), s.awake → exec (.getMeasurements src 255) s =
    .next (s.spdmAfter src (fun t => t.spdmSay src 0x60 (measIndices.flatMap t.measBlock)))) ∧
  (∀ (p : Fin 4) m k (s : State), s.awake → (s.connAt p.val).phase = 3 →
    (List.range 4).find? (fun k => !(s.sessAt k).open_) = some k →
    Completes (.keyExchange (.plain p) 0 m) s (fun t => (t.sessAt k).open_ = true ∧ (t.sessAt k).auth = m ∧
      (t.sessAt k).finished = false)) ∧
  (∀ src (k : Fin 4) v c (s : State), s.awake → (s.sessAt k.val).open_ = true → (s.sessAt k.val).finished = false →
    ((s.sessAt k.val).auth = true → v = true) →
    exec (.finish src k v c) s = .next ((s.putSess k.val { s.sessAt k.val with finished := true, verified := (s.sessAt k.val).auth && v, chain := if (s.sessAt k.val).auth then c else [] }).spdmSay src 0x65 [])) ∧
  (∀ src (k : Fin 4) c (s : State), s.awake → (s.sessAt k.val).open_ = true → (s.sessAt k.val).finished = false →
    (s.sessAt k.val).auth = true →
    exec (.finish src k false c) s = .next ((((s.putSess k.val SessSt.reset).count pgSec oSecAuthFail 1).setEvt pgSec 1).spdmErr src 1)) ∧
  (∀ (k : Fin 4) (s : State), s.awake → exec (.heartbeat k) s = .next (s.inSession k 0x68 (fun v => { v with beat := s.ns }))) ∧
  (∀ (k : Fin 4) (s : State), s.awake → exec (.keyUpdate k) s = .next (s.inSession k 0x69 (fun v => { v with keys := v.keys + 1 }))) ∧
  (∀ (k : Fin 4) (s : State), s.awake → exec (.endSession k) s = .next (s.inSession k 0x6C (fun _ => SessSt.reset))))

/-! ## Power and temperature (R820 to R850) -/

/-- Power domains (R824 to R830). The power level never exceeds 3 and rises at most by two in a microsecond (R833 to R837); regulators and
alerts (R973). -/
def Obligations.PowerControl : Prop :=
  ((∀ (d : Fin 199) z (s : State), s.awake → s.pwrdReq d.val 0 = (true, z) → exec (.pwrdReqOn d) s = .next z) ∧
  (∀ (d : Fin 199) z (s : State), s.awake → s.pwrdReq d.val 1 = (true, z) → exec (.pwrdReqRet d) s = .next z) ∧
  (∀ (d : Fin 199) z (s : State), s.awake → s.pwrdReq d.val 2 = (true, z) → exec (.pwrdReqOff d) s = .next z) ∧
  (∀ (d : Fin 199) (s : State), s.awake → (s.domAt d.val).st = .toRet →
    exec (.domainDrainDone d) s = .next ((s.domGo d.val .ret).count (pgPwrd d.val) oPwrdEntries 1)) ∧
  (∀ (d : Fin 199) (s : State), s.awake → (s.domAt d.val).st = .toOff →
    exec (.domainDrainDone d) s = .next ((s.domGo d.val .off).count (pgPwrd d.val) oPwrdEntries 1)) ∧
  (∀ (d : Fin 199) (s : State), s.awake → (s.domAt d.val).st = .waking →
    exec (.domainWakeDone d) s = .next ((s.domOn d.val).domAwake d.val)) ∧
  (∀ (d : Fin 199) (src : BitVec 16) (s : State), s.awake → 156 ≤ d.val → d.val < 168 ∨ 180 ≤ d.val →
    exec (.domainDemand d src) s = .next (s.demand d.val src.toNat)) ∧
  (∀ (d : Fin 199) (src : BitVec 16) (s : State), s.awake → 168 ≤ d.val → d.val < 180 → exec (.domainDemand d src) s = .next s) ∧
  (∀ (d : Fin 199) (src : BitVec 16) (s : State), s.awake → d.val < 156 → s.cluWanted d.val = true →
    exec (.domainDemand d src) s = .next ((s.demand1 (156 + cluRegion d.val) src.toNat).demand1 d.val src.toNat)) ∧
  (∀ (s : State) c l e, s.logClu c = some l → e ∈ (s.dispAt (cluRegion c)).window → e.2.st = .ready → e.2.kind ≤ 3 → e.2.cluMask.testBit l = true →
    s.askFor (cluRegion c) e.2.kind e.2.cluMask = none → s.cluWanted c = true)) ∧
  ((∀ (w : Nat) (s : State), s.awake → s.pwr.p ≤ 3 → Completes (.powerEstimate w) s (fun t =>
    t.pwr.p ≤ 3 ∧ t.pwr.p ≤ s.pwr.p + 2 ∧ s.pwr.p ≤ t.pwr.p + 1 ∧
    t.pwr.est = (((w : Int) + s.pwr.corr).toNat :: s.pwr.est).take 1000 ∧ t.dram = s.dram ∧ t.time = s.time)) ∧
  (∀ r (s : State), s.awake → s.pmbusUp = true → r.any Option.isSome = true →
    exec (.pmbusPoll r) s = .next ((s.pmbusAll .readPin).draw.2.setPwr { (s.pmbusAll .readPin).draw.2.pwr with corr := signedOf 16 (s.pmbusAll .readPin).draw.1 })) ∧
  (∀ r (s : State), s.awake → s.pmbusUp = true →
    exec (.pmbAlert r) s = .next ((s.pmbusAll .statusWord).pmbusAll .clearFaults)))

/-- Temperatures and the trip (R838 to R841, R978). Power, reset and reference-clock pins, and the test port (R965, R966, R969, R976 to
R978). -/
def Obligations.TemperaturesAndPins : Prop :=
  ((∀ rs ds (s : State), s.awake → rs.length = 12 → ds.length = 3 → Completes (.hotspotReading rs ds) s (fun t =>
    (∀ r, r < 12 → t.rg pgTherm (oThermRegionTemp + 8 * r) = word (temp16 (rs.getD r 0))) ∧
    t.pwr.h = (List.range 12).map (fun r => s.hotLevel (s.pwr.h.getD r 0) (rs.getD r 0)) ∧ t.dram = s.dram)) ∧
  (∀ (n : Region) core b pt (s : State), s.awake → core.length = 16 → pt.length = 64 → 16 * 105 ≤ core.foldl max (core.getD 0 0) →
    ((s.stkAt n.val).st = .base ∨ (s.stkAt n.val).st = .full) →
    Completes (.stackTempReading n core b pt) s (fun t => (t.stkAt n.val).st = .shutdown)) ∧
  (∀ (d : Fin 3) (s : State), s.awake → s.dev.st ≠ .stopped →
    exec (.thermalTrip d) s = .next (((s.setPins { s.pins with therm := true, hubTrip := s.pins.hubTrip || decide (d.val = 2) }).setCause
      18 true).devGo .stopped)) ∧
  (∀ (d : Fin 3) (s : State), s.awake → Completes (.thermalTrip d) s (fun t => t.pins.therm = true))) ∧
  ((∀ s : State, exec .pwrOkRise s = .next (s.setPins { s.pins with pwrOk := true })) ∧
  (∀ s : State, exec .pwrOkFall s = .next ((s.resetAll 0).setPins { (s.resetAll 0).pins with pwrOk := false, therm := false, hubTrip := false })) ∧
  (∀ s : State, s.pins.pwrOk = true → s.pins.held = false →
    exec .resetNLow s = .next ((s.resetAll 1).setPins { (s.resetAll 1).pins with resetN := false })) ∧
  (∀ s : State, s.pins.pwrOk = true → s.pins.held = true → exec .resetNLow s = .next (s.setPins { s.pins with resetN := false })) ∧
  (∀ s : State, s.pins.pwrOk = false → exec .resetNLow s = .next s) ∧
  (∀ (p : Fin 4) (s : State), s.pins.held = false → exec (.refclkEthLoss p) s = .next ((List.range 4).foldl (fun t k => t.linkDown (p.val * 4 + k))
    (s.setPins { s.pins with clkEth := s.pins.clkEth.set p.val false }))) ∧
  (∀ (k : Fin 3) (s : State), s.pins.held = false →
    exec (.refclkLoss k) s = .next ((s.resetAll 3).setPins { (s.resetAll 3).pins with clk100 := (s.resetAll 3).pins.clk100.set k.val false })) ∧
  (∀ s : State, exec (.testPortInstruction .idcode) s = .next ((s.setPins { s.pins with jtag := .idcode }).emit (.jtag idcode))) ∧
  (∀ s : State, s.pins.resetN = true → exec (.testPortInstruction .extest) s = .next (s.setPins { s.pins with jtag := .bypass }) ∧
    exec (.testPortInstruction .highz) s = .next (s.setPins { s.pins with jtag := .bypass })))

/-! ## Repair (R851 to R883) -/

/-- Training, retraining and margining end (R148, R150 to R152). The scrub, its period, and row repair (R854 to R858). Stacks that start and
return, retirement of a pseudo-channel, and substitution of a cluster (R156, R863 to R872, R991). -/
def Obligations.StackRepair : Prop :=
  ((∀ (d : Pch) z (s : State), s.awake → (s.pchAt d.val).training = true → (s.pchAt d.val).fails + 1 < 3 → s.svcIs (d.val / 64) 0x30 = none →
    z = s.putPch d.val { s.pchAt d.val with training := false, fails := (s.pchAt d.val).fails + 1 } →
    exec (.trainDone d false) s = .next ((z.outNext (d.val / 64) ((z.stkAt (d.val / 64)).waitQ.length + 1)).stackCheck (d.val / 64))) ∧
  (∀ (d : Pch) z (s : State), s.awake → (s.pchAt d.val).training = true → 3 ≤ (s.pchAt d.val).fails + 1 → s.svcIs (d.val / 64) 0x30 = none →
    z = s.pchFail d.val →
    exec (.trainDone d false) s = .next ((z.outNext (d.val / 64) ((z.stkAt (d.val / 64)).waitQ.length + 1)).stackCheck (d.val / 64))) ∧
  (∀ (d : Pch) z (s : State), s.awake → (s.pchAt d.val).training = true → (s.pchAt d.val).rate = 100 → s.svcIs (d.val / 64) 0x30 = none →
    z = (s.putPch d.val { s.pchAt d.val with st := .full, training := false, fails := 0, temp := (s.pchAt d.val).tempNow, window16 := (s.stkAt (d.val / 64)).window16 }).serveWaiting d.val →
    exec (.trainDone d true) s = .next ((z.outNext (d.val / 64) ((z.stkAt (d.val / 64)).waitQ.length + 1)).stackCheck (d.val / 64))) ∧
  (∀ (d : Pch) (s : State), s.awake → (s.pchAt d.val).st = .retrain → (s.pchAt d.val).fails + 1 < 3 →
    exec (.retrainDone d false) s = .next (s.putPch d.val { s.pchAt d.val with fails := (s.pchAt d.val).fails + 1 })) ∧
  (∀ (d : Pch) z (s : State), s.awake → (s.pchAt d.val).st = .retrain →
    z = ((((s.putPch d.val { s.pchAt d.val with temp := (s.pchAt d.val).tempNow, replays := [] }).setRg (pgPch d.val) oPchRetrainDur
      (word ((s.ns - (s.rg (pgPch d.val) oPchRetrainSt).toNat) % 2 ^ 32))).setEvt (pgPch d.val) 1).count (pgStk (d.val / 64)) oStkRetrains 1) →
    z.svcIs (d.val / 64) 0x31 = none → exec (.retrainDone d true) s = .next (z.outLeave d.val)) ∧
  (∀ (d : Pch) k b (s : State), s.awake → (s.stkAt (d.val / 64)).margin = some (k, b) → (s.pchAt d.val).st = .margin →
    exec (.marginStepDone d none) s = .next ((s.putStk (d.val / 64) { s.stkAt (d.val / 64) with waitQ := (s.stkAt (d.val / 64)).waitQ ++ [⟨d.val % 64, k, b⟩] }).outLeave d.val))) ∧
  ((∀ (n : Region) p z (s : State), s.awake → bit (s.rg (pgRegion n.val) oRegionScrubState) 0 = true → (s.stkAt n.val).svc = none →
    s.rf (pgRegion n.val) oRegionScrubPos 27 0 < s.scrubTotal n.val → s.scrubFind n.val 65 (s.stkAt n.val).scrubPos = some p →
    z = s.putStk n.val { s.stkAt n.val with scrubPos := (p + 1) % 2 ^ 28 } →
    exec (.scrubPace n) s = .next ((z.setRf (pgRegion n.val) oRegionScrubPos 27 0 (z.rf (pgRegion n.val) oRegionScrubPos 27 0 + 1)).svcSend
      n.val 0x20 (p / 2 ^ 22) (p % 2 ^ 22 * 8) 0)) ∧
  (∀ (n : Region) (s : State), s.awake →
    (s.stkAt n.val).scrubFrom + max 3600 (s.rf (pgRegion n.val) oRegionScrubPeriod 31 0) * 10 ^ 9 ≤ s.ns →
    Completes (.scrubPeriodEnd n) s (fun t => t.rg (pgRegion n.val) oRegionScrubPos = 0 ∧
      (t.stkAt n.val).scrubFrom = (s.stkAt n.val).scrubFrom + max 3600 (s.rf (pgRegion n.val) oRegionScrubPeriod 31 0) * 10 ^ 9 ∧
      (bit (t.rg (pgRegion n.val) oRegionScrubState) 1 = true ↔ s.rf (pgRegion n.val) oRegionScrubPos 27 0 < s.scrubTotal n.val))) ∧
  (∀ (n : Region) f (s : State), s.awake → (s.stkAt n.val).repair = none → (s.stkAt n.val).svc = none → (s.stkAt n.val).nextFail = some f →
    (s.pchAt (n.val * 64 + f.pch)).st = .full →
    smapGet (fun _ => 0) (s.stkAt n.val).rowFails (rowKey f.pch f.bank f.row) = 0 →
    exec (.rowRepair n true) s = .next ((s.putStk n.val { s.stkAt n.val with repair := some f }).svcSend n.val 0x39 f.pch
      (rowAddr f.bank f.row) 0)) ∧
  (∀ (n : Region) f p (s : State), s.awake → (s.stkAt n.val).repair = none → (s.stkAt n.val).svc = none → (s.stkAt n.val).nextFail = some f →
    (s.pchAt (n.val * 64 + f.pch)).st = .full → 2 ≤ smapGet (fun _ => 0) (s.stkAt n.val).rowFails (rowKey f.pch f.bank f.row) →
    exec (.rowRepair n p) s = .next (s.markBank n.val f))) ∧
  ((∀ (n : Region) (s : State), s.awake → (s.stkAt n.val).st = .training → s.pchsAll n.val PchSt.passedBase = true →
    (s.stkAt n.val).returning = false →
    exec (.stackClearDone n) s = .next (((((s.putStk n.val { s.stkAt n.val with poisonAll := false }).stackZero n.val).putStk n.val
      { ((s.putStk n.val { s.stkAt n.val with poisonAll := false }).stackZero n.val).stkAt n.val with st := .base }).stackRate n.val 32).stackCheck
        n.val)) ∧
  (∀ (n : Region) (s : State), s.awake → (s.stkAt n.val).lost = true → (s.stkAt n.val).returning = false →
    Completes (.stackReturn n) s (fun t => (t.stkAt n.val).st = .down ∧ (t.stkAt n.val).returning = true ∧
      ∀ j a, j < 64 → a / 8 < dataSlots → t.accPoison (n.val * 64 + j) a = true)) ∧
  (∀ (r : Region) (v : Word) (s : State), s.awake → (s.regionAt r.val).move = none → fld v 9 0 / 64 = r.val →
    (s.pchAt (fld v 9 0)).st ≠ .retired → s.rf (pgRegion r.val) oRegionReserveLeft 25 0 < 3906250 →
    exec (.moveCmd r v) s = .next (s.retireNeed.conflict (pgRegion r.val))) ∧
  (∀ (r : Region) (v : Word) z k (s : State), s.awake → (s.regionAt r.val).move = none → fld v 9 0 / 64 = r.val →
    (s.pchAt (fld v 9 0)).st ≠ .retired → 3906250 ≤ s.rf (pgRegion r.val) oRegionReserveLeft 25 0 → fld v 22 16 = 0 →
    z = (s.relocWrite (fld v 9 0)).putRegion r.val { s.regionAt r.val with move := some ⟨fld v 9 0, 16, 0, []⟩ } → z.moveFrom (fld v 9 0) 0 = some k →
    exec (.moveCmd r v) s = .next z) ∧
  (∀ (r : Region) m t k z (s : State), s.awake → (s.regionAt r.val).move = some m → s.relocOf m.d m.moved = some t → s.pchOut m.d = false →
    s.pchOut t.1 = false → m.parked = [] → z = s.granuleCopy m.d m.moved t.1 t.2 → z.moveFrom m.d (m.moved + 1) = some k →
    exec (.granuleMoveDone r) s =
      .next (z.putRegion r.val { z.regionAt r.val with move := some { m with moved := k, parked := [] } })) ∧
  (∀ (r : Region) (s : State), s.awake → exec (.epochAdopt r) s = .next (s.putRegion r.val { s.regionAt r.val with adopted := (s.regionAt r.val).adopted ++ (List.range 768).filter (fun d => decide ((s.pchAt d).st = .retired) && !(s.regionAt r.val).adopted.contains d && s.epochClear r.val d) })) ∧
  (∀ (r : Region) (v : Word) c cs k z (s : State), s.awake → (s.regionAt r.val).waiting = c :: cs → (s.regionAt r.val).st = .paused →
    (s.regionAt r.val).subst = none → s.regionBusy r.val = false → fld v 3 0 < 12 → (s.regionAt r.val).map.getD (fld v 3 0) 15 = c % 13 →
    fld v 7 4 < 13 → k = 13 * r.val + fld v 7 4 → (s.cluAt k).st = .spare →
    z = ((((s.putRegion r.val { s.regionAt r.val with map := (s.regionAt r.val).map.set (fld v 3 0) (fld v 7 4), waiting := cs, subst := some (fld v 3 0, k) }).putClu k { (s.putRegion r.val { s.regionAt r.val with map := (s.regionAt r.val).map.set (fld v 3 0) (fld v 7 4), waiting := cs, subst := some (fld v 3 0, k) }).cluAt k with st := .service }).cluRetire c).mapCommit).setEvt (pgRegion r.val) 4 →
    (z.domAt k).st = .off → exec (.subst r v) s = .next (z.domWaking k)))

/-! ## Boot, firmware, reset (R884 to R926) -/

/-- States of the device (R888, R893 to R895, R905, R908), the flash opened at the release of reset (R974), SYS_READY low in reset and in
BOOT and high in EARLY (R967). Firmware items and their activation (R915 to R921). Watchdogs, STOP, RESET (R53, R888, R915, R924). -/
def Obligations.BootAndFirmware : Prop :=
  ((∀ (s : State), s.pins.held = true → s.pins.pwrOk = true →
    exec .resetRelease s = .next ((s.setPins s.pins.release).setRg pgDev oDevResetCause (word s.pins.cause)).spiStart) ∧
  (∀ (s : State) c, (s.resetAll c).sysReady = false) ∧
  (∀ (s : State), s.awake → s.dev.st = .boot → s.sysReady = false ∧ (s.devGo .early).sysReady = true) ∧
  (∀ (s : State), s.awake → s.dev.st = .boot → 5 ≤ s.dev.step → s.dev.id = .ready → s.dev.untested = false → s.bootPort = true →
    exec .enterEarly s = .next (s.devGo .early)) ∧
  (∀ (s : State), s.awake → s.dev.st = .early → s.regionsDone = true → s.stacksDone true = true → s.portsDone = true →
    exec .enterFull s = .next (s.devGo (if s.degrading then .degraded else .full))) ∧
  (∀ f (s : State), s.awake → s.dev.st = .boot → s.dev.step = 0 → exec (.bootStepDone f) s = .next (s.boot1 f)) ∧
  (∀ f (s : State), s.awake → s.dev.st = .boot → s.dev.step = 1 → exec (.bootStepDone f) s = .next (s.boot2 f)) ∧
  (∀ (d : BitVec 384) (s : State), s.awake → s.dev.id = .deriving_ → ∃ t, exec (.identityReady d) s = .next t ∧
    t.dev.id ≠ .deriving_) ∧
  (∀ (r : Region) (s : State), s.awake → 4 ≤ s.dev.step → s.dev.st = .boot → (s.regionAt r.val).released = false →
    (s.regionAt r.val).st ≠ .lost → (∀ q, q < r.val → (s.regionAt q).released = true) →
    exec (.regionRelease r true) s = .next (((s.putRegion r.val { s.regionAt r.val with released := true, map := s.mapOf r.val }).cluSetup
      r.val).setEvt pgDev 1) ∧ exec (.regionRelease r false) s = .next (s.regionLost r.val))) ∧
  ((∀ (k : Fin 4) l v ws z n (s : State), s.awake → s.offers (.mgmt k l) 0x38 ws z → cmdBits ws [0xF, allBits, 0xFFFFFFFF] = true →
    z.fwmState = 0 → n = fld (ws.getD 1 0) 3 0 → 1 ≤ n → n ≤ 9 →
    exec (.fwWrite (.mgmt k l) v) s = .next (match z.cmdRead (cmdWho (.mgmt k l)) (ws.getD 2 0).toNat (fld (ws.getD 3 0) 31 0) with
      | (none, y) => y.cmdWait s (.mgmt k l) ws
      | (some (b, bad), y) =>
        if !bad && itOk (y.itemUse 1) (itPayload (y.itemUse 3)) n v b then
          ((y.setDev { y.dev with pendW := some (n, b, 64 + k.val, fld (ws.getD 0 0) 63 32) }).setPins { y.pins with spiWp := true }).cmdWait s (.mgmt k l) ws
        else ((y.putFwSlot (y.idleSlot n) n .bad).fwmLast n 4).cmdDone (.mgmt k l) ws (.desc pgFwm 0))) ∧
  (∀ k b ring c h z (s : State), s.awake → s.dev.pendW = some (k, b, ring, c) → h = s.idleSlot k →
    z = (((s.setDev { s.dev with pendW := none }).setPins { s.pins with spiWp := false }).putItem h k b).count pgHcmd oHcmdCmds 1 →
    exec (.fwWriteComplete false) s = .next (((z.putFwSlot h k .bad).fwmLast k 4).cplOut ring 0 c (.desc pgFwm 0)) ∧
    (s.dev.st ≠ .safe → (z.putFwSlot h k (if z.joinTested k b then .staged else .untested)).dev.st ≠ .safe →
      exec (.fwWriteComplete true) s = .next ((((z.putFwSlot h k (if z.joinTested k b then .staged else .untested)).count pgFwm oFwmWrites
        1).setEvt pgFwm 0).cplOut ring 0 c (.ok pgFwm 0)))) ∧
  (∀ (k : Fin 4) l ws z n h (s : State), s.awake → s.offers (.mgmt k l) 0x39 ws z → cmdBits ws [0x1F] = true → n = fld (ws.getD 1 0) 3 0 →
    1 ≤ n → n ≤ 9 → z.fwmState = 0 → h = z.idleSlot n → z.fwSlot h n = .staged → bit (ws.getD 1 0) 4 = true →
    exec (.fwActivate (.mgmt k l)) s = .next ((z.recSlot n h false).cmdDone (.mgmt k l) ws (.ok pgFwm 0))) ∧
  (∀ x (s : State), s.awake → s.dev.rollout = some x → exec (.activationPartDone .failed) s = .next (s.rollFail x)) ∧
  (∀ x p z (s : State), s.awake → s.dev.rollout = some x → (s.rollParts x.kind)[x.done]? = some p →
    (s.rollParts x.kind)[x.done + 1]? = none → z = s.partRun p (s.idleSlot x.kind) →
    exec (.activationPartDone .ready) s =
      .next (((z.setDev { z.dev with rollout := some { x with done := x.done + 1 } }).rollShow).rollEnd x.kind))) ∧
  ((∀ (c : Fin 8) (s : State), s.awake → (s.coreAt c.val).st = .running → s.dev.rollout = none →
    (s.rg (pgSvc c.val) oSvcHeartbeat).toNat + max 1000 (s.rf (pgSvc c.val) oSvcWdog 31 0) * 1000 ≤ s.ns →
    exec (.svcWatchdog c) s = .next ((((((s.putCore c.val { s.coreAt c.val with st := .restarting, fails := (s.coreAt c.val).fails + 1 }).error
      (pgSvc c.val) ⟨2, false, 0x0501, pgSvc c.val, 0, 0⟩).count (pgSvc c.val) oSvcRestarts 1).setEvt (pgSvc c.val) 0)).setRg (pgSvc c.val)
        oSvcHeartbeat (word s.ns))) ∧
  (∀ (c : Fin 8) (s : State), s.awake → (s.coreAt c.val).st = .restarting → s.dev.rollout = none →
    exec (.coreRestartDone c) s = .next ((s.putCore c.val { s.coreAt c.val with st := .running }).setRg (pgSvc c.val) oSvcHeartbeat
      (word s.ns))) ∧
  (∀ (k : Fin 4) l ws z (s : State), s.awake → s.offers (.mgmt k l) 0x3A ws z → cmdBits ws [] = true → z.dev.st ≠ .stopped →
    exec (.stop (.mgmt k l)) s = .next ((z.toStopped 19).cmdDone (.mgmt k l) ws (.ok pgDev 0))) ∧
  (∀ (k : Fin 4) l ws z (s : State), s.awake → s.offers (.mgmt k l) 0x3B ws z → cmdBits ws [] = true →
    exec (.reset (.mgmt k l)) s =
      .next (((z.setPins { z.pins with held := true }).cmdDone (.mgmt k l) ws (.ok pgDev 0)).resetAll 2)))

/-- What reset leaves: nothing stored, nothing waiting, nothing in flight, the device held. A reset of the device (R924, R965, R966, R991):
it is held, its queues, registers, scratchpads and time are as after reset, every data granule of the stacks reads zero, and the flash,
the commands that wait and what has left the block stay. -/
def Obligations.ResetLeaves : Prop :=
  (State.reset.pending = [] ∧ State.reset.memSound ∧ State.reset.parts = [] ∧ State.reset.batches = [] ∧ State.reset.moves = [] ∧
  (∀ d, (State.reset.domAt d).st = .on) ∧ (∀ q, (State.reset.qpAt q).st = .reset) ∧ (∀ i, (State.reset.slotAt i).st = .free) ∧
  (∀ w i, ((State.reset.wvAt w).ctxAt i).st = .free) ∧ (∀ r c, State.reset.ctrAt r c = 0)) ∧
  (∀ (c : Nat) (s : State), (s.resetAll c).pins.held = true ∧ (s.resetAll c).eth = State.reset.eth ∧ (s.resetAll c).qps = State.reset.qps ∧
    (s.resetAll c).slots = State.reset.slots ∧ (s.resetAll c).disp = State.reset.disp ∧ (s.resetAll c).wv = State.reset.wv ∧
    (s.resetAll c).spad = State.reset.spad ∧ (s.resetAll c).time = State.reset.time ∧ (s.resetAll c).regs = State.reset.regs ∧
    (s.resetAll c).flash = s.flash ∧ (s.resetAll c).pending = s.pending ∧ (s.resetAll c).out = s.out ∧
    (∀ d a i, d < 768 → a / 8 < dataSlots → i < 32 → (s.resetAll c).dram.byte (accByte d a + i) = 0))

/-! ## Logs, telemetry, debug (R929 to R956) -/

/-- The event log, the telemetry stream and margin reports (R933 to R942, R954). Debug of contexts and units (R316, R945 to R952): every
command but MODE is denied while debug is off. -/
def Obligations.LogsAndDebug : Prop :=
  ((∀ z (s : State), s.awake → bit (s.rg pgTel oTelCtl) 1 = true → s.lostDue = true → s.logPut s.tel.lostWords = (.ok, z) →
    exec .logWrite s = .next (z.setTel { z.tel with dropped := 0 })) ∧
  (∀ e u y (s : State), s.awake → bit (s.rg pgTel oTelCtl) 1 = true → s.lostDue = false → logFirst s.tel.logQ = some e →
    e.st + 4000 ≤ s.ns → u = s.setTel { s.tel with logQ := s.tel.logQ.erase e } → u.logHeld < u.logCap →
    (u.logPut [word e.st, e.w1, e.w2, e.w3] = (.ok, y) → exec .logWrite s = .next y) ∧
    (u.logPut [word e.st, e.w1, e.w2, e.w3] = (.fault, y) → exec .logWrite s = .next (y.logDrop e))) ∧
  (∀ e u (s : State), s.awake → bit (s.rg pgTel oTelCtl) 1 = true → s.lostDue = false → logFirst s.tel.logQ = some e →
    e.st + 4000 ≤ s.ns → u = s.setTel { s.tel with logQ := s.tel.logQ.erase e } → u.logCap ≤ u.logHeld →
    exec .logWrite s = .next (u.logDrop e)) ∧
  (∀ b (s : State), s.awake → bit (s.rg pgTel oTelCtl) 0 = true → b = s.ns / s.telPeriod * s.telPeriod → s.tel.lastB < b →
    s.tel.flight = true → exec .telemetrySample s = .next ((((s.setTel { s.tel with lastB := b, flight := true }).count pgTel oTelSeq 1).count
      pgTel oTelSkipped 1).setEvt pgTel 0)) ∧
  (∀ b (s : State), s.awake → bit (s.rg pgTel oTelCtl) 0 = true → b = s.ns / s.telPeriod * s.telPeriod → s.tel.lastB < b →
    s.tel.flight = false → (s.qpAt (s.rf pgTel oTelQp 13 0)).st = .rts →
    ∃ z, z = (s.setTel { s.tel with lastB := b, flight := true }).count pgTel oTelSeq 1 ∧
      exec .telemetrySample s = .next (z.txPost (s.rf pgTel oTelQp 13 0)
        { plainTx (.write s.telVa (z.rf pgTel oTelRkey 31 0) (s.telRecord b) none) with pages := true })) ∧
  (∀ (v : Word) (s : State), s.awake → s.tel.margin = none → fld v 3 0 < 12 →
    exec (.marginCmd v) s = .next (((s.setTel { s.tel with margin := some (fld v 3 0, if bit v 4 then 2 else 1, 0) }).marginStat 1 0 0).marginNext
      65)) ∧
  (∀ (v : Word) (s : State), s.awake → s.tel.margin.isSome = true → exec (.marginCmd v) s = .next (s.conflict pgTel))) ∧
  ((∀ (w : Fin 4) (i : Fin 512) z (s : State), s.awake → z = s.dbgName (s.dbgWv w) i.val → z.dbgOn = true →
    exec (.halt w i true) s = .next (((z.wvAt (s.dbgWv w)).ctxs.foldl (fun t e => t.dbgHalt (s.dbgWv w) e.1) z).dbgResult 0) ∧
    exec (.resume w i true) s = .next (((z.wvAt (s.dbgWv w)).ctxs.foldl (fun t e => t.dbgResume (s.dbgWv w) e.1) z).dbgResult 0) ∧
    exec (.resume w i false) s = .next ((z.dbgResume (s.dbgWv w) i.val).dbgResult 0) ∧
    (((z.wvAt (s.dbgWv w)).ctxAt i.val).st ≠ .drain →
      exec (.halt w i false) s = .next ((z.dbgHalt (s.dbgWv w) i.val).dbgResult 0)) ∧
    (((z.wvAt (s.dbgWv w)).ctxAt i.val).st = .halted → exec (.step w i) s =
      .next (((z.dbgResult 0).setDbg { (z.dbgResult 0).dbg with step := z.dbg.step ++ [(s.dbgWv w, i.val)] }).dbgResume (s.dbgWv w) i.val))) ∧
  (∀ (w : Fin 4) (i : Fin 512) all z (s : State), s.awake → z = s.dbgName (s.dbgWv w) i.val → z.dbgOn = false →
    exec (.halt w i all) s = .next z.dbgDeny ∧ exec (.resume w i all) s = .next z.dbgDeny ∧ exec (.step w i) s = .next z.dbgDeny) ∧
  (∀ (s : State), s.awake → s.dbgOn = true → s.dbg.units.contains s.dbgClu = false →
    exec .haltUnits s = .next ((s.setDbg { s.dbg with units := s.dbg.units ++ [s.dbgClu] }).dbgResult 0)) ∧
  (∀ (s : State), s.awake → s.dbgOn = true →
    exec .resumeUnits s = .next ((s.setDbg { s.dbg with units := s.dbg.units.filter (· ≠ s.dbgClu) }).dbgResult 0)) ∧
  (∀ (s : State), s.awake → s.dbgOn = false → exec .haltUnits s = .next s.dbgDeny ∧ exec .resumeUnits s = .next s.dbgDeny) ∧
  (∀ (v : Word) (s : State), s.awake → s.dbgClu < 156 → bit v 0 = true → s.dbg.mode.contains s.dbgClu = false →
    exec (.dbgModeWrite v) s = .next (s.setDbg { s.dbg with mode := s.dbg.mode ++ [s.dbgClu] })) ∧
  (∀ (v : Word) (s : State), s.awake → s.dbgClu < 156 → bit v 0 = false →
    exec (.dbgModeWrite v) s = .next ((s.dbgFree s.dbgClu).setDbg { (s.dbgFree s.dbgClu).dbg with mode := (s.dbgFree s.dbgClu).dbg.mode.filter (· ≠ s.dbgClu) })))
end

