-- ==== Sys2Proof/Laws/Data.lean ====
section
/-! SUPPORT. Maps kept as ordered lists: reading after writing, and the canonical form that every write keeps. -/

namespace Sys2Proof.Machine

variable {α : Type}

theorem smapGet_ins_same (d : Nat → α) (m : SMap α) (k : Nat) (v : α) : smapGet d (smapIns m k v) k = v := by
  induction m with
  | nil => simp [smapIns, smapGet]
  | cons e m ih =>
    obtain ⟨k', v'⟩ := e
    simp only [smapIns]
    split
    · simp [smapGet]
    · split
      · simp [smapGet]
      · simp [smapGet, *]

theorem smapGet_ins_other (d : Nat → α) (m : SMap α) (k j : Nat) (v : α) (h : j ≠ k) :
    smapGet d (smapIns m k v) j = smapGet d m j := by
  induction m with
  | nil => simp [smapIns, smapGet, h]
  | cons e m ih =>
    obtain ⟨k', v'⟩ := e
    simp only [smapIns]
    split
    · simp [smapGet, h]
    · split
      · subst_vars; simp [smapGet, h]
      · simp [smapGet, ih]

theorem smapGet_del_same (d : Nat → α) (m : SMap α) (k : Nat) : smapGet d (smapDel m k) k = d k := by
  induction m with
  | nil => rfl
  | cons e m ih =>
    obtain ⟨k', v'⟩ := e
    by_cases h : k' = k
    · simpa [smapDel, h] using ih
    · have : ¬ k = k' := fun x => h x.symm
      simp [smapDel, h, smapGet, this]; simpa [smapDel] using ih

theorem smapGet_del_other (d : Nat → α) (m : SMap α) (k j : Nat) (h : j ≠ k) : smapGet d (smapDel m k) j = smapGet d m j := by
  induction m with
  | nil => rfl
  | cons e m ih =>
    obtain ⟨k', v'⟩ := e
    by_cases hk : k' = k
    · subst hk
      simp only [smapDel, List.filter_cons, ne_eq, not_true_eq_false, decide_false, Bool.false_eq_true, if_false, smapGet, h]
      simpa [smapDel] using ih
    · simp only [smapDel, List.filter_cons, ne_eq, hk, not_false_eq_true, decide_true, if_true, smapGet]
      split
      · rfl
      · simpa [smapDel] using ih

/-- A map answers what was written last. -/
@[simp] theorem smapGet_set_same [DecidableEq α] (d : Nat → α) (m : SMap α) (k : Nat) (v : α) :
    smapGet d (smapSet d m k v) k = v := by
  unfold smapSet; split
  · rw [smapGet_del_same]; exact Eq.symm ‹_›
  · exact smapGet_ins_same d m k v

/-- A write leaves every other key alone. -/
theorem smapGet_set_other [DecidableEq α] (d : Nat → α) (m : SMap α) (k j : Nat) (v : α) (h : j ≠ k) :
    smapGet d (smapSet d m k v) j = smapGet d m j := by
  unfold smapSet; split
  · exact smapGet_del_other d m k j h
  · exact smapGet_ins_other d m k j v h

/-- Both cases at once. -/
theorem smapGet_set [DecidableEq α] (d : Nat → α) (m : SMap α) (k j : Nat) (v : α) :
    smapGet d (smapSet d m k v) j = if j = k then v else smapGet d m j := by
  split
  · subst_vars; exact smapGet_set_same d m _ v
  · exact smapGet_set_other d m k j v ‹_›

/-! ## The canonical form -/

/-- Keys strictly rise, said by pairs. -/
theorem smapSorted_iff (m : SMap α) : smapSorted m = true ↔ m.Pairwise (fun a b => a.1 < b.1) := by
  induction m with
  | nil => simp [smapSorted]
  | cons e m ih =>
    cases m with
    | nil => simp [smapSorted]
    | cons f m =>
      obtain ⟨k, v⟩ := e
      obtain ⟨k', v'⟩ := f
      simp only [smapSorted, Bool.and_eq_true, decide_eq_true_eq, ih, List.pairwise_cons, List.mem_cons]
      constructor
      · rintro ⟨h, h1, h2⟩
        refine ⟨?_, h1, h2⟩
        rintro a (rfl | ha)
        · exact h
        · exact Nat.lt_trans h (h1 a ha)
      · rintro ⟨h, h1, h2⟩
        exact ⟨h _ (Or.inl rfl), h1, h2⟩

theorem mem_smapIns (m : SMap α) (k : Nat) (v : α) (e : Nat × α) : e ∈ smapIns m k v → e = (k, v) ∨ e ∈ m := by
  induction m with
  | nil => simp [smapIns]
  | cons f m ih =>
    obtain ⟨k', v'⟩ := f
    simp only [smapIns]
    split
    · simp
    · split
      · intro h; rcases List.mem_cons.1 h with h | h
        · exact Or.inl h
        · exact Or.inr (List.mem_cons_of_mem _ h)
      · intro h; rcases List.mem_cons.1 h with h | h
        · exact Or.inr (h ▸ List.mem_cons_self)
        · rcases ih h with h | h
          · exact Or.inl h
          · exact Or.inr (List.mem_cons_of_mem _ h)

theorem smapIns_sorted (m : SMap α) (k : Nat) (v : α) (h : m.Pairwise (fun a b => a.1 < b.1)) :
    (smapIns m k v).Pairwise (fun a b => a.1 < b.1) := by
  induction m with
  | nil => simp [smapIns]
  | cons f m ih =>
    obtain ⟨k', v'⟩ := f
    rw [List.pairwise_cons] at h
    simp only [smapIns]
    split
    · rename_i hk
      refine List.pairwise_cons.2 ⟨?_, List.pairwise_cons.2 h⟩
      intro a ha
      rcases List.mem_cons.1 ha with rfl | ha
      · exact hk
      · exact Nat.lt_trans hk (h.1 a ha)
    · split
      · subst_vars; exact List.pairwise_cons.2 ⟨h.1, h.2⟩
      · refine List.pairwise_cons.2 ⟨?_, ih h.2⟩
        intro a ha
        rcases mem_smapIns m k v a ha with rfl | ha
        · simp only; omega
        · exact h.1 a ha

/-- A write keeps the canonical form. -/
theorem smapWf_set [DecidableEq α] (d : Nat → α) (m : SMap α) (k : Nat) (v : α) (h : smapWf d m = true) :
    smapWf d (smapSet d m k v) = true := by
  simp only [smapWf, Bool.and_eq_true, smapSorted_iff, List.all_eq_true, decide_eq_true_eq] at h ⊢
  unfold smapSet
  split
  · exact ⟨h.1.sublist List.filter_sublist, fun e he => h.2 e (List.mem_filter.1 he).1⟩
  · refine ⟨smapIns_sorted m k v h.1, fun e he => ?_⟩
    rcases mem_smapIns m k v e he with rfl | he
    · assumption
    · exact h.2 e he

/-- Dropping entries keeps the canonical form. -/
theorem smapWf_filter [DecidableEq α] (d : Nat → α) (m : SMap α) (p : Nat × α → Bool) (h : smapWf d m = true) :
    smapWf d (m.filter p) = true := by
  simp only [smapWf, Bool.and_eq_true, smapSorted_iff, List.all_eq_true, decide_eq_true_eq] at h ⊢
  exact ⟨h.1.sublist List.filter_sublist, fun e he => h.2 e (List.mem_filter.1 he).1⟩

end Sys2Proof.Machine
end

