-- ==== Sys2Proof/Laws/State.lean ====
section
/-! SUPPORT. One lemma per field per update of the state, each true by definition, so that no later proof unfolds a
record update. -/

namespace Sys2Proof.Machine

@[simp] theorem State.setPending_pending (s : State) (v : List Instr) : (s.setPending v).pending = v := rfl
@[simp] theorem State.setPending_regs (s : State) (v : List Instr) : (s.setPending v).regs = s.regs := rfl
@[simp] theorem State.setPending_errKeys (s : State) (v : List Instr) : (s.setPending v).errKeys = s.errKeys := rfl
@[simp] theorem State.setPending_time (s : State) (v : List Instr) : (s.setPending v).time = s.time := rfl
@[simp] theorem State.setPending_dram (s : State) (v : List Instr) : (s.setPending v).dram = s.dram := rfl
@[simp] theorem State.setPending_cell (s : State) (v : List Instr) : (s.setPending v).cell = s.cell := rfl
@[simp] theorem State.setPending_spad (s : State) (v : List Instr) : (s.setPending v).spad = s.spad := rfl
@[simp] theorem State.setPending_store (s : State) (v : List Instr) : (s.setPending v).store = s.store := rfl
@[simp] theorem State.setPending_stk (s : State) (v : List Instr) : (s.setPending v).stk = s.stk := rfl
@[simp] theorem State.setPending_pch (s : State) (v : List Instr) : (s.setPending v).pch = s.pch := rfl
@[simp] theorem State.setPending_region (s : State) (v : List Instr) : (s.setPending v).region = s.region := rfl
@[simp] theorem State.setPending_dom (s : State) (v : List Instr) : (s.setPending v).dom = s.dom := rfl
@[simp] theorem State.setPending_pwr (s : State) (v : List Instr) : (s.setPending v).pwr = s.pwr := rfl
@[simp] theorem State.setPending_host (s : State) (v : List Instr) : (s.setPending v).host = s.host := rfl
@[simp] theorem State.setPending_rings (s : State) (v : List Instr) : (s.setPending v).rings = s.rings := rfl
@[simp] theorem State.setPending_slots (s : State) (v : List Instr) : (s.setPending v).slots = s.slots := rfl
@[simp] theorem State.setPending_graphs (s : State) (v : List Instr) : (s.setPending v).graphs = s.graphs := rfl
@[simp] theorem State.setPending_streams (s : State) (v : List Instr) : (s.setPending v).streams = s.streams := rfl
@[simp] theorem State.setPending_qps (s : State) (v : List Instr) : (s.setPending v).qps = s.qps := rfl
@[simp] theorem State.setPending_dev (s : State) (v : List Instr) : (s.setPending v).dev = s.dev := rfl
@[simp] theorem State.setPending_flash (s : State) (v : List Instr) : (s.setPending v).flash = s.flash := rfl
@[simp] theorem State.setPending_cores (s : State) (v : List Instr) : (s.setPending v).cores = s.cores := rfl
@[simp] theorem State.setPending_sess (s : State) (v : List Instr) : (s.setPending v).sess = s.sess := rfl
@[simp] theorem State.setPending_conns (s : State) (v : List Instr) : (s.setPending v).conns = s.conns := rfl
@[simp] theorem State.setPending_clu (s : State) (v : List Instr) : (s.setPending v).clu = s.clu := rfl
@[simp] theorem State.setPending_tel (s : State) (v : List Instr) : (s.setPending v).tel = s.tel := rfl
@[simp] theorem State.setPending_dbg (s : State) (v : List Instr) : (s.setPending v).dbg = s.dbg := rfl
@[simp] theorem State.setPending_pins (s : State) (v : List Instr) : (s.setPending v).pins = s.pins := rfl
@[simp] theorem State.setPending_xlat (s : State) (v : List Instr) : (s.setPending v).xlat = s.xlat := rfl
@[simp] theorem State.setPending_invQ (s : State) (v : List Instr) : (s.setPending v).invQ = s.invQ := rfl
@[simp] theorem State.setPending_pager (s : State) (v : List Instr) : (s.setPending v).pager = s.pager := rfl
@[simp] theorem State.setPending_sync (s : State) (v : List Instr) : (s.setPending v).sync = s.sync := rfl
@[simp] theorem State.setPending_disp (s : State) (v : List Instr) : (s.setPending v).disp = s.disp := rfl
@[simp] theorem State.setPending_comet (s : State) (v : List Instr) : (s.setPending v).comet = s.comet := rfl
@[simp] theorem State.setPending_wv (s : State) (v : List Instr) : (s.setPending v).wv = s.wv := rfl
@[simp] theorem State.setPending_gdesc (s : State) (v : List Instr) : (s.setPending v).gdesc = s.gdesc := rfl
@[simp] theorem State.setPending_emb (s : State) (v : List Instr) : (s.setPending v).emb = s.emb := rfl
@[simp] theorem State.setPending_parts (s : State) (v : List Instr) : (s.setPending v).parts = s.parts := rfl
@[simp] theorem State.setPending_batches (s : State) (v : List Instr) : (s.setPending v).batches = s.batches := rfl
@[simp] theorem State.setPending_swarms (s : State) (v : List Instr) : (s.setPending v).swarms = s.swarms := rfl
@[simp] theorem State.setPending_ids (s : State) (v : List Instr) : (s.setPending v).ids = s.ids := rfl
@[simp] theorem State.setPending_mig (s : State) (v : List Instr) : (s.setPending v).mig = s.mig := rfl
@[simp] theorem State.setPending_moves (s : State) (v : List Instr) : (s.setPending v).moves = s.moves := rfl
@[simp] theorem State.setPending_mat (s : State) (v : List Instr) : (s.setPending v).mat = s.mat := rfl
@[simp] theorem State.setPending_relay (s : State) (v : List Instr) : (s.setPending v).relay = s.relay := rfl
@[simp] theorem State.setPending_gmx (s : State) (v : List Instr) : (s.setPending v).gmx = s.gmx := rfl
@[simp] theorem State.setPending_vec (s : State) (v : List Instr) : (s.setPending v).vec = s.vec := rfl
@[simp] theorem State.setPending_eth (s : State) (v : List Instr) : (s.setPending v).eth = s.eth := rfl
@[simp] theorem State.setPending_served (s : State) (v : List Instr) : (s.setPending v).served = s.served := rfl
@[simp] theorem State.setPending_frames (s : State) (v : List Instr) : (s.setPending v).frames = s.frames := rfl
@[simp] theorem State.setPending_snap (s : State) (v : List Instr) : (s.setPending v).snap = s.snap := rfl
@[simp] theorem State.setPending_out (s : State) (v : List Instr) : (s.setPending v).out = s.out := rfl
@[simp] theorem State.setPending_free (s : State) (v : List Instr) : (s.setPending v).free = s.free := rfl
@[simp] theorem State.setRegs_pending (s : State) (v : SMap Word) : (s.setRegs v).pending = s.pending := rfl
@[simp] theorem State.setRegs_regs (s : State) (v : SMap Word) : (s.setRegs v).regs = v := rfl
@[simp] theorem State.setRegs_errKeys (s : State) (v : SMap Word) : (s.setRegs v).errKeys = s.errKeys := rfl
@[simp] theorem State.setRegs_time (s : State) (v : SMap Word) : (s.setRegs v).time = s.time := rfl
@[simp] theorem State.setRegs_dram (s : State) (v : SMap Word) : (s.setRegs v).dram = s.dram := rfl
@[simp] theorem State.setRegs_cell (s : State) (v : SMap Word) : (s.setRegs v).cell = s.cell := rfl
@[simp] theorem State.setRegs_spad (s : State) (v : SMap Word) : (s.setRegs v).spad = s.spad := rfl
@[simp] theorem State.setRegs_store (s : State) (v : SMap Word) : (s.setRegs v).store = s.store := rfl
@[simp] theorem State.setRegs_stk (s : State) (v : SMap Word) : (s.setRegs v).stk = s.stk := rfl
@[simp] theorem State.setRegs_pch (s : State) (v : SMap Word) : (s.setRegs v).pch = s.pch := rfl
@[simp] theorem State.setRegs_region (s : State) (v : SMap Word) : (s.setRegs v).region = s.region := rfl
@[simp] theorem State.setRegs_dom (s : State) (v : SMap Word) : (s.setRegs v).dom = s.dom := rfl
@[simp] theorem State.setRegs_pwr (s : State) (v : SMap Word) : (s.setRegs v).pwr = s.pwr := rfl
@[simp] theorem State.setRegs_host (s : State) (v : SMap Word) : (s.setRegs v).host = s.host := rfl
@[simp] theorem State.setRegs_rings (s : State) (v : SMap Word) : (s.setRegs v).rings = s.rings := rfl
@[simp] theorem State.setRegs_slots (s : State) (v : SMap Word) : (s.setRegs v).slots = s.slots := rfl
@[simp] theorem State.setRegs_graphs (s : State) (v : SMap Word) : (s.setRegs v).graphs = s.graphs := rfl
@[simp] theorem State.setRegs_streams (s : State) (v : SMap Word) : (s.setRegs v).streams = s.streams := rfl
@[simp] theorem State.setRegs_qps (s : State) (v : SMap Word) : (s.setRegs v).qps = s.qps := rfl
@[simp] theorem State.setRegs_dev (s : State) (v : SMap Word) : (s.setRegs v).dev = s.dev := rfl
@[simp] theorem State.setRegs_flash (s : State) (v : SMap Word) : (s.setRegs v).flash = s.flash := rfl
@[simp] theorem State.setRegs_cores (s : State) (v : SMap Word) : (s.setRegs v).cores = s.cores := rfl
@[simp] theorem State.setRegs_sess (s : State) (v : SMap Word) : (s.setRegs v).sess = s.sess := rfl
@[simp] theorem State.setRegs_conns (s : State) (v : SMap Word) : (s.setRegs v).conns = s.conns := rfl
@[simp] theorem State.setRegs_clu (s : State) (v : SMap Word) : (s.setRegs v).clu = s.clu := rfl
@[simp] theorem State.setRegs_tel (s : State) (v : SMap Word) : (s.setRegs v).tel = s.tel := rfl
@[simp] theorem State.setRegs_dbg (s : State) (v : SMap Word) : (s.setRegs v).dbg = s.dbg := rfl
@[simp] theorem State.setRegs_pins (s : State) (v : SMap Word) : (s.setRegs v).pins = s.pins := rfl
@[simp] theorem State.setRegs_xlat (s : State) (v : SMap Word) : (s.setRegs v).xlat = s.xlat := rfl
@[simp] theorem State.setRegs_invQ (s : State) (v : SMap Word) : (s.setRegs v).invQ = s.invQ := rfl
@[simp] theorem State.setRegs_pager (s : State) (v : SMap Word) : (s.setRegs v).pager = s.pager := rfl
@[simp] theorem State.setRegs_sync (s : State) (v : SMap Word) : (s.setRegs v).sync = s.sync := rfl
@[simp] theorem State.setRegs_disp (s : State) (v : SMap Word) : (s.setRegs v).disp = s.disp := rfl
@[simp] theorem State.setRegs_comet (s : State) (v : SMap Word) : (s.setRegs v).comet = s.comet := rfl
@[simp] theorem State.setRegs_wv (s : State) (v : SMap Word) : (s.setRegs v).wv = s.wv := rfl
@[simp] theorem State.setRegs_gdesc (s : State) (v : SMap Word) : (s.setRegs v).gdesc = s.gdesc := rfl
@[simp] theorem State.setRegs_emb (s : State) (v : SMap Word) : (s.setRegs v).emb = s.emb := rfl
@[simp] theorem State.setRegs_parts (s : State) (v : SMap Word) : (s.setRegs v).parts = s.parts := rfl
@[simp] theorem State.setRegs_batches (s : State) (v : SMap Word) : (s.setRegs v).batches = s.batches := rfl
@[simp] theorem State.setRegs_swarms (s : State) (v : SMap Word) : (s.setRegs v).swarms = s.swarms := rfl
@[simp] theorem State.setRegs_ids (s : State) (v : SMap Word) : (s.setRegs v).ids = s.ids := rfl
@[simp] theorem State.setRegs_mig (s : State) (v : SMap Word) : (s.setRegs v).mig = s.mig := rfl
@[simp] theorem State.setRegs_moves (s : State) (v : SMap Word) : (s.setRegs v).moves = s.moves := rfl
@[simp] theorem State.setRegs_mat (s : State) (v : SMap Word) : (s.setRegs v).mat = s.mat := rfl
@[simp] theorem State.setRegs_relay (s : State) (v : SMap Word) : (s.setRegs v).relay = s.relay := rfl
@[simp] theorem State.setRegs_gmx (s : State) (v : SMap Word) : (s.setRegs v).gmx = s.gmx := rfl
@[simp] theorem State.setRegs_vec (s : State) (v : SMap Word) : (s.setRegs v).vec = s.vec := rfl
@[simp] theorem State.setRegs_eth (s : State) (v : SMap Word) : (s.setRegs v).eth = s.eth := rfl
@[simp] theorem State.setRegs_served (s : State) (v : SMap Word) : (s.setRegs v).served = s.served := rfl
@[simp] theorem State.setRegs_frames (s : State) (v : SMap Word) : (s.setRegs v).frames = s.frames := rfl
@[simp] theorem State.setRegs_snap (s : State) (v : SMap Word) : (s.setRegs v).snap = s.snap := rfl
@[simp] theorem State.setRegs_out (s : State) (v : SMap Word) : (s.setRegs v).out = s.out := rfl
@[simp] theorem State.setRegs_free (s : State) (v : SMap Word) : (s.setRegs v).free = s.free := rfl
@[simp] theorem State.setErrKeys_pending (s : State) (v : SMap (Nat × Nat)) : (s.setErrKeys v).pending = s.pending := rfl
@[simp] theorem State.setErrKeys_regs (s : State) (v : SMap (Nat × Nat)) : (s.setErrKeys v).regs = s.regs := rfl
@[simp] theorem State.setErrKeys_errKeys (s : State) (v : SMap (Nat × Nat)) : (s.setErrKeys v).errKeys = v := rfl
@[simp] theorem State.setErrKeys_time (s : State) (v : SMap (Nat × Nat)) : (s.setErrKeys v).time = s.time := rfl
@[simp] theorem State.setErrKeys_dram (s : State) (v : SMap (Nat × Nat)) : (s.setErrKeys v).dram = s.dram := rfl
@[simp] theorem State.setErrKeys_cell (s : State) (v : SMap (Nat × Nat)) : (s.setErrKeys v).cell = s.cell := rfl
@[simp] theorem State.setErrKeys_spad (s : State) (v : SMap (Nat × Nat)) : (s.setErrKeys v).spad = s.spad := rfl
@[simp] theorem State.setErrKeys_store (s : State) (v : SMap (Nat × Nat)) : (s.setErrKeys v).store = s.store := rfl
@[simp] theorem State.setErrKeys_stk (s : State) (v : SMap (Nat × Nat)) : (s.setErrKeys v).stk = s.stk := rfl
@[simp] theorem State.setErrKeys_pch (s : State) (v : SMap (Nat × Nat)) : (s.setErrKeys v).pch = s.pch := rfl
@[simp] theorem State.setErrKeys_region (s : State) (v : SMap (Nat × Nat)) : (s.setErrKeys v).region = s.region := rfl
@[simp] theorem State.setErrKeys_dom (s : State) (v : SMap (Nat × Nat)) : (s.setErrKeys v).dom = s.dom := rfl
@[simp] theorem State.setErrKeys_pwr (s : State) (v : SMap (Nat × Nat)) : (s.setErrKeys v).pwr = s.pwr := rfl
@[simp] theorem State.setErrKeys_host (s : State) (v : SMap (Nat × Nat)) : (s.setErrKeys v).host = s.host := rfl
@[simp] theorem State.setErrKeys_rings (s : State) (v : SMap (Nat × Nat)) : (s.setErrKeys v).rings = s.rings := rfl
@[simp] theorem State.setErrKeys_slots (s : State) (v : SMap (Nat × Nat)) : (s.setErrKeys v).slots = s.slots := rfl
@[simp] theorem State.setErrKeys_graphs (s : State) (v : SMap (Nat × Nat)) : (s.setErrKeys v).graphs = s.graphs := rfl
@[simp] theorem State.setErrKeys_streams (s : State) (v : SMap (Nat × Nat)) : (s.setErrKeys v).streams = s.streams := rfl
@[simp] theorem State.setErrKeys_qps (s : State) (v : SMap (Nat × Nat)) : (s.setErrKeys v).qps = s.qps := rfl
@[simp] theorem State.setErrKeys_dev (s : State) (v : SMap (Nat × Nat)) : (s.setErrKeys v).dev = s.dev := rfl
@[simp] theorem State.setErrKeys_flash (s : State) (v : SMap (Nat × Nat)) : (s.setErrKeys v).flash = s.flash := rfl
@[simp] theorem State.setErrKeys_cores (s : State) (v : SMap (Nat × Nat)) : (s.setErrKeys v).cores = s.cores := rfl
@[simp] theorem State.setErrKeys_sess (s : State) (v : SMap (Nat × Nat)) : (s.setErrKeys v).sess = s.sess := rfl
@[simp] theorem State.setErrKeys_conns (s : State) (v : SMap (Nat × Nat)) : (s.setErrKeys v).conns = s.conns := rfl
@[simp] theorem State.setErrKeys_clu (s : State) (v : SMap (Nat × Nat)) : (s.setErrKeys v).clu = s.clu := rfl
@[simp] theorem State.setErrKeys_tel (s : State) (v : SMap (Nat × Nat)) : (s.setErrKeys v).tel = s.tel := rfl
@[simp] theorem State.setErrKeys_dbg (s : State) (v : SMap (Nat × Nat)) : (s.setErrKeys v).dbg = s.dbg := rfl
@[simp] theorem State.setErrKeys_pins (s : State) (v : SMap (Nat × Nat)) : (s.setErrKeys v).pins = s.pins := rfl
@[simp] theorem State.setErrKeys_xlat (s : State) (v : SMap (Nat × Nat)) : (s.setErrKeys v).xlat = s.xlat := rfl
@[simp] theorem State.setErrKeys_invQ (s : State) (v : SMap (Nat × Nat)) : (s.setErrKeys v).invQ = s.invQ := rfl
@[simp] theorem State.setErrKeys_pager (s : State) (v : SMap (Nat × Nat)) : (s.setErrKeys v).pager = s.pager := rfl
@[simp] theorem State.setErrKeys_sync (s : State) (v : SMap (Nat × Nat)) : (s.setErrKeys v).sync = s.sync := rfl
@[simp] theorem State.setErrKeys_disp (s : State) (v : SMap (Nat × Nat)) : (s.setErrKeys v).disp = s.disp := rfl
@[simp] theorem State.setErrKeys_comet (s : State) (v : SMap (Nat × Nat)) : (s.setErrKeys v).comet = s.comet := rfl
@[simp] theorem State.setErrKeys_wv (s : State) (v : SMap (Nat × Nat)) : (s.setErrKeys v).wv = s.wv := rfl
@[simp] theorem State.setErrKeys_gdesc (s : State) (v : SMap (Nat × Nat)) : (s.setErrKeys v).gdesc = s.gdesc := rfl
@[simp] theorem State.setErrKeys_emb (s : State) (v : SMap (Nat × Nat)) : (s.setErrKeys v).emb = s.emb := rfl
@[simp] theorem State.setErrKeys_parts (s : State) (v : SMap (Nat × Nat)) : (s.setErrKeys v).parts = s.parts := rfl
@[simp] theorem State.setErrKeys_batches (s : State) (v : SMap (Nat × Nat)) : (s.setErrKeys v).batches = s.batches := rfl
@[simp] theorem State.setErrKeys_swarms (s : State) (v : SMap (Nat × Nat)) : (s.setErrKeys v).swarms = s.swarms := rfl
@[simp] theorem State.setErrKeys_ids (s : State) (v : SMap (Nat × Nat)) : (s.setErrKeys v).ids = s.ids := rfl
@[simp] theorem State.setErrKeys_mig (s : State) (v : SMap (Nat × Nat)) : (s.setErrKeys v).mig = s.mig := rfl
@[simp] theorem State.setErrKeys_moves (s : State) (v : SMap (Nat × Nat)) : (s.setErrKeys v).moves = s.moves := rfl
@[simp] theorem State.setErrKeys_mat (s : State) (v : SMap (Nat × Nat)) : (s.setErrKeys v).mat = s.mat := rfl
@[simp] theorem State.setErrKeys_relay (s : State) (v : SMap (Nat × Nat)) : (s.setErrKeys v).relay = s.relay := rfl
@[simp] theorem State.setErrKeys_gmx (s : State) (v : SMap (Nat × Nat)) : (s.setErrKeys v).gmx = s.gmx := rfl
@[simp] theorem State.setErrKeys_vec (s : State) (v : SMap (Nat × Nat)) : (s.setErrKeys v).vec = s.vec := rfl
@[simp] theorem State.setErrKeys_eth (s : State) (v : SMap (Nat × Nat)) : (s.setErrKeys v).eth = s.eth := rfl
@[simp] theorem State.setErrKeys_served (s : State) (v : SMap (Nat × Nat)) : (s.setErrKeys v).served = s.served := rfl
@[simp] theorem State.setErrKeys_frames (s : State) (v : SMap (Nat × Nat)) : (s.setErrKeys v).frames = s.frames := rfl
@[simp] theorem State.setErrKeys_snap (s : State) (v : SMap (Nat × Nat)) : (s.setErrKeys v).snap = s.snap := rfl
@[simp] theorem State.setErrKeys_out (s : State) (v : SMap (Nat × Nat)) : (s.setErrKeys v).out = s.out := rfl
@[simp] theorem State.setErrKeys_free (s : State) (v : SMap (Nat × Nat)) : (s.setErrKeys v).free = s.free := rfl
@[simp] theorem State.setTime_pending (s : State) (v : TimeSt) : (s.setTime v).pending = s.pending := rfl
@[simp] theorem State.setTime_regs (s : State) (v : TimeSt) : (s.setTime v).regs = s.regs := rfl
@[simp] theorem State.setTime_errKeys (s : State) (v : TimeSt) : (s.setTime v).errKeys = s.errKeys := rfl
@[simp] theorem State.setTime_time (s : State) (v : TimeSt) : (s.setTime v).time = v := rfl
@[simp] theorem State.setTime_dram (s : State) (v : TimeSt) : (s.setTime v).dram = s.dram := rfl
@[simp] theorem State.setTime_cell (s : State) (v : TimeSt) : (s.setTime v).cell = s.cell := rfl
@[simp] theorem State.setTime_spad (s : State) (v : TimeSt) : (s.setTime v).spad = s.spad := rfl
@[simp] theorem State.setTime_store (s : State) (v : TimeSt) : (s.setTime v).store = s.store := rfl
@[simp] theorem State.setTime_stk (s : State) (v : TimeSt) : (s.setTime v).stk = s.stk := rfl
@[simp] theorem State.setTime_pch (s : State) (v : TimeSt) : (s.setTime v).pch = s.pch := rfl
@[simp] theorem State.setTime_region (s : State) (v : TimeSt) : (s.setTime v).region = s.region := rfl
@[simp] theorem State.setTime_dom (s : State) (v : TimeSt) : (s.setTime v).dom = s.dom := rfl
@[simp] theorem State.setTime_pwr (s : State) (v : TimeSt) : (s.setTime v).pwr = s.pwr := rfl
@[simp] theorem State.setTime_host (s : State) (v : TimeSt) : (s.setTime v).host = s.host := rfl
@[simp] theorem State.setTime_rings (s : State) (v : TimeSt) : (s.setTime v).rings = s.rings := rfl
@[simp] theorem State.setTime_slots (s : State) (v : TimeSt) : (s.setTime v).slots = s.slots := rfl
@[simp] theorem State.setTime_graphs (s : State) (v : TimeSt) : (s.setTime v).graphs = s.graphs := rfl
@[simp] theorem State.setTime_streams (s : State) (v : TimeSt) : (s.setTime v).streams = s.streams := rfl
@[simp] theorem State.setTime_qps (s : State) (v : TimeSt) : (s.setTime v).qps = s.qps := rfl
@[simp] theorem State.setTime_dev (s : State) (v : TimeSt) : (s.setTime v).dev = s.dev := rfl
@[simp] theorem State.setTime_flash (s : State) (v : TimeSt) : (s.setTime v).flash = s.flash := rfl
@[simp] theorem State.setTime_cores (s : State) (v : TimeSt) : (s.setTime v).cores = s.cores := rfl
@[simp] theorem State.setTime_sess (s : State) (v : TimeSt) : (s.setTime v).sess = s.sess := rfl
@[simp] theorem State.setTime_conns (s : State) (v : TimeSt) : (s.setTime v).conns = s.conns := rfl
@[simp] theorem State.setTime_clu (s : State) (v : TimeSt) : (s.setTime v).clu = s.clu := rfl
@[simp] theorem State.setTime_tel (s : State) (v : TimeSt) : (s.setTime v).tel = s.tel := rfl
@[simp] theorem State.setTime_dbg (s : State) (v : TimeSt) : (s.setTime v).dbg = s.dbg := rfl
@[simp] theorem State.setTime_pins (s : State) (v : TimeSt) : (s.setTime v).pins = s.pins := rfl
@[simp] theorem State.setTime_xlat (s : State) (v : TimeSt) : (s.setTime v).xlat = s.xlat := rfl
@[simp] theorem State.setTime_invQ (s : State) (v : TimeSt) : (s.setTime v).invQ = s.invQ := rfl
@[simp] theorem State.setTime_pager (s : State) (v : TimeSt) : (s.setTime v).pager = s.pager := rfl
@[simp] theorem State.setTime_sync (s : State) (v : TimeSt) : (s.setTime v).sync = s.sync := rfl
@[simp] theorem State.setTime_disp (s : State) (v : TimeSt) : (s.setTime v).disp = s.disp := rfl
@[simp] theorem State.setTime_comet (s : State) (v : TimeSt) : (s.setTime v).comet = s.comet := rfl
@[simp] theorem State.setTime_wv (s : State) (v : TimeSt) : (s.setTime v).wv = s.wv := rfl
@[simp] theorem State.setTime_gdesc (s : State) (v : TimeSt) : (s.setTime v).gdesc = s.gdesc := rfl
@[simp] theorem State.setTime_emb (s : State) (v : TimeSt) : (s.setTime v).emb = s.emb := rfl
@[simp] theorem State.setTime_parts (s : State) (v : TimeSt) : (s.setTime v).parts = s.parts := rfl
@[simp] theorem State.setTime_batches (s : State) (v : TimeSt) : (s.setTime v).batches = s.batches := rfl
@[simp] theorem State.setTime_swarms (s : State) (v : TimeSt) : (s.setTime v).swarms = s.swarms := rfl
@[simp] theorem State.setTime_ids (s : State) (v : TimeSt) : (s.setTime v).ids = s.ids := rfl
@[simp] theorem State.setTime_mig (s : State) (v : TimeSt) : (s.setTime v).mig = s.mig := rfl
@[simp] theorem State.setTime_moves (s : State) (v : TimeSt) : (s.setTime v).moves = s.moves := rfl
@[simp] theorem State.setTime_mat (s : State) (v : TimeSt) : (s.setTime v).mat = s.mat := rfl
@[simp] theorem State.setTime_relay (s : State) (v : TimeSt) : (s.setTime v).relay = s.relay := rfl
@[simp] theorem State.setTime_gmx (s : State) (v : TimeSt) : (s.setTime v).gmx = s.gmx := rfl
@[simp] theorem State.setTime_vec (s : State) (v : TimeSt) : (s.setTime v).vec = s.vec := rfl
@[simp] theorem State.setTime_eth (s : State) (v : TimeSt) : (s.setTime v).eth = s.eth := rfl
@[simp] theorem State.setTime_served (s : State) (v : TimeSt) : (s.setTime v).served = s.served := rfl
@[simp] theorem State.setTime_frames (s : State) (v : TimeSt) : (s.setTime v).frames = s.frames := rfl
@[simp] theorem State.setTime_snap (s : State) (v : TimeSt) : (s.setTime v).snap = s.snap := rfl
@[simp] theorem State.setTime_out (s : State) (v : TimeSt) : (s.setTime v).out = s.out := rfl
@[simp] theorem State.setTime_free (s : State) (v : TimeSt) : (s.setTime v).free = s.free := rfl
@[simp] theorem State.setDram_pending (s : State) (v : Mem) : (s.setDram v).pending = s.pending := rfl
@[simp] theorem State.setDram_regs (s : State) (v : Mem) : (s.setDram v).regs = s.regs := rfl
@[simp] theorem State.setDram_errKeys (s : State) (v : Mem) : (s.setDram v).errKeys = s.errKeys := rfl
@[simp] theorem State.setDram_time (s : State) (v : Mem) : (s.setDram v).time = s.time := rfl
@[simp] theorem State.setDram_dram (s : State) (v : Mem) : (s.setDram v).dram = v := rfl
@[simp] theorem State.setDram_cell (s : State) (v : Mem) : (s.setDram v).cell = s.cell := rfl
@[simp] theorem State.setDram_spad (s : State) (v : Mem) : (s.setDram v).spad = s.spad := rfl
@[simp] theorem State.setDram_store (s : State) (v : Mem) : (s.setDram v).store = s.store := rfl
@[simp] theorem State.setDram_stk (s : State) (v : Mem) : (s.setDram v).stk = s.stk := rfl
@[simp] theorem State.setDram_pch (s : State) (v : Mem) : (s.setDram v).pch = s.pch := rfl
@[simp] theorem State.setDram_region (s : State) (v : Mem) : (s.setDram v).region = s.region := rfl
@[simp] theorem State.setDram_dom (s : State) (v : Mem) : (s.setDram v).dom = s.dom := rfl
@[simp] theorem State.setDram_pwr (s : State) (v : Mem) : (s.setDram v).pwr = s.pwr := rfl
@[simp] theorem State.setDram_host (s : State) (v : Mem) : (s.setDram v).host = s.host := rfl
@[simp] theorem State.setDram_rings (s : State) (v : Mem) : (s.setDram v).rings = s.rings := rfl
@[simp] theorem State.setDram_slots (s : State) (v : Mem) : (s.setDram v).slots = s.slots := rfl
@[simp] theorem State.setDram_graphs (s : State) (v : Mem) : (s.setDram v).graphs = s.graphs := rfl
@[simp] theorem State.setDram_streams (s : State) (v : Mem) : (s.setDram v).streams = s.streams := rfl
@[simp] theorem State.setDram_qps (s : State) (v : Mem) : (s.setDram v).qps = s.qps := rfl
@[simp] theorem State.setDram_dev (s : State) (v : Mem) : (s.setDram v).dev = s.dev := rfl
@[simp] theorem State.setDram_flash (s : State) (v : Mem) : (s.setDram v).flash = s.flash := rfl
@[simp] theorem State.setDram_cores (s : State) (v : Mem) : (s.setDram v).cores = s.cores := rfl
@[simp] theorem State.setDram_sess (s : State) (v : Mem) : (s.setDram v).sess = s.sess := rfl
@[simp] theorem State.setDram_conns (s : State) (v : Mem) : (s.setDram v).conns = s.conns := rfl
@[simp] theorem State.setDram_clu (s : State) (v : Mem) : (s.setDram v).clu = s.clu := rfl
@[simp] theorem State.setDram_tel (s : State) (v : Mem) : (s.setDram v).tel = s.tel := rfl
@[simp] theorem State.setDram_dbg (s : State) (v : Mem) : (s.setDram v).dbg = s.dbg := rfl
@[simp] theorem State.setDram_pins (s : State) (v : Mem) : (s.setDram v).pins = s.pins := rfl
@[simp] theorem State.setDram_xlat (s : State) (v : Mem) : (s.setDram v).xlat = s.xlat := rfl
@[simp] theorem State.setDram_invQ (s : State) (v : Mem) : (s.setDram v).invQ = s.invQ := rfl
@[simp] theorem State.setDram_pager (s : State) (v : Mem) : (s.setDram v).pager = s.pager := rfl
@[simp] theorem State.setDram_sync (s : State) (v : Mem) : (s.setDram v).sync = s.sync := rfl
@[simp] theorem State.setDram_disp (s : State) (v : Mem) : (s.setDram v).disp = s.disp := rfl
@[simp] theorem State.setDram_comet (s : State) (v : Mem) : (s.setDram v).comet = s.comet := rfl
@[simp] theorem State.setDram_wv (s : State) (v : Mem) : (s.setDram v).wv = s.wv := rfl
@[simp] theorem State.setDram_gdesc (s : State) (v : Mem) : (s.setDram v).gdesc = s.gdesc := rfl
@[simp] theorem State.setDram_emb (s : State) (v : Mem) : (s.setDram v).emb = s.emb := rfl
@[simp] theorem State.setDram_parts (s : State) (v : Mem) : (s.setDram v).parts = s.parts := rfl
@[simp] theorem State.setDram_batches (s : State) (v : Mem) : (s.setDram v).batches = s.batches := rfl
@[simp] theorem State.setDram_swarms (s : State) (v : Mem) : (s.setDram v).swarms = s.swarms := rfl
@[simp] theorem State.setDram_ids (s : State) (v : Mem) : (s.setDram v).ids = s.ids := rfl
@[simp] theorem State.setDram_mig (s : State) (v : Mem) : (s.setDram v).mig = s.mig := rfl
@[simp] theorem State.setDram_moves (s : State) (v : Mem) : (s.setDram v).moves = s.moves := rfl
@[simp] theorem State.setDram_mat (s : State) (v : Mem) : (s.setDram v).mat = s.mat := rfl
@[simp] theorem State.setDram_relay (s : State) (v : Mem) : (s.setDram v).relay = s.relay := rfl
@[simp] theorem State.setDram_gmx (s : State) (v : Mem) : (s.setDram v).gmx = s.gmx := rfl
@[simp] theorem State.setDram_vec (s : State) (v : Mem) : (s.setDram v).vec = s.vec := rfl
@[simp] theorem State.setDram_eth (s : State) (v : Mem) : (s.setDram v).eth = s.eth := rfl
@[simp] theorem State.setDram_served (s : State) (v : Mem) : (s.setDram v).served = s.served := rfl
@[simp] theorem State.setDram_frames (s : State) (v : Mem) : (s.setDram v).frames = s.frames := rfl
@[simp] theorem State.setDram_snap (s : State) (v : Mem) : (s.setDram v).snap = s.snap := rfl
@[simp] theorem State.setDram_out (s : State) (v : Mem) : (s.setDram v).out = s.out := rfl
@[simp] theorem State.setDram_free (s : State) (v : Mem) : (s.setDram v).free = s.free := rfl
@[simp] theorem State.setCell_pending (s : State) (v : SMap (List Byte)) : (s.setCell v).pending = s.pending := rfl
@[simp] theorem State.setCell_regs (s : State) (v : SMap (List Byte)) : (s.setCell v).regs = s.regs := rfl
@[simp] theorem State.setCell_errKeys (s : State) (v : SMap (List Byte)) : (s.setCell v).errKeys = s.errKeys := rfl
@[simp] theorem State.setCell_time (s : State) (v : SMap (List Byte)) : (s.setCell v).time = s.time := rfl
@[simp] theorem State.setCell_dram (s : State) (v : SMap (List Byte)) : (s.setCell v).dram = s.dram := rfl
@[simp] theorem State.setCell_cell (s : State) (v : SMap (List Byte)) : (s.setCell v).cell = v := rfl
@[simp] theorem State.setCell_spad (s : State) (v : SMap (List Byte)) : (s.setCell v).spad = s.spad := rfl
@[simp] theorem State.setCell_store (s : State) (v : SMap (List Byte)) : (s.setCell v).store = s.store := rfl
@[simp] theorem State.setCell_stk (s : State) (v : SMap (List Byte)) : (s.setCell v).stk = s.stk := rfl
@[simp] theorem State.setCell_pch (s : State) (v : SMap (List Byte)) : (s.setCell v).pch = s.pch := rfl
@[simp] theorem State.setCell_region (s : State) (v : SMap (List Byte)) : (s.setCell v).region = s.region := rfl
@[simp] theorem State.setCell_dom (s : State) (v : SMap (List Byte)) : (s.setCell v).dom = s.dom := rfl
@[simp] theorem State.setCell_pwr (s : State) (v : SMap (List Byte)) : (s.setCell v).pwr = s.pwr := rfl
@[simp] theorem State.setCell_host (s : State) (v : SMap (List Byte)) : (s.setCell v).host = s.host := rfl
@[simp] theorem State.setCell_rings (s : State) (v : SMap (List Byte)) : (s.setCell v).rings = s.rings := rfl
@[simp] theorem State.setCell_slots (s : State) (v : SMap (List Byte)) : (s.setCell v).slots = s.slots := rfl
@[simp] theorem State.setCell_graphs (s : State) (v : SMap (List Byte)) : (s.setCell v).graphs = s.graphs := rfl
@[simp] theorem State.setCell_streams (s : State) (v : SMap (List Byte)) : (s.setCell v).streams = s.streams := rfl
@[simp] theorem State.setCell_qps (s : State) (v : SMap (List Byte)) : (s.setCell v).qps = s.qps := rfl
@[simp] theorem State.setCell_dev (s : State) (v : SMap (List Byte)) : (s.setCell v).dev = s.dev := rfl
@[simp] theorem State.setCell_flash (s : State) (v : SMap (List Byte)) : (s.setCell v).flash = s.flash := rfl
@[simp] theorem State.setCell_cores (s : State) (v : SMap (List Byte)) : (s.setCell v).cores = s.cores := rfl
@[simp] theorem State.setCell_sess (s : State) (v : SMap (List Byte)) : (s.setCell v).sess = s.sess := rfl
@[simp] theorem State.setCell_conns (s : State) (v : SMap (List Byte)) : (s.setCell v).conns = s.conns := rfl
@[simp] theorem State.setCell_clu (s : State) (v : SMap (List Byte)) : (s.setCell v).clu = s.clu := rfl
@[simp] theorem State.setCell_tel (s : State) (v : SMap (List Byte)) : (s.setCell v).tel = s.tel := rfl
@[simp] theorem State.setCell_dbg (s : State) (v : SMap (List Byte)) : (s.setCell v).dbg = s.dbg := rfl
@[simp] theorem State.setCell_pins (s : State) (v : SMap (List Byte)) : (s.setCell v).pins = s.pins := rfl
@[simp] theorem State.setCell_xlat (s : State) (v : SMap (List Byte)) : (s.setCell v).xlat = s.xlat := rfl
@[simp] theorem State.setCell_invQ (s : State) (v : SMap (List Byte)) : (s.setCell v).invQ = s.invQ := rfl
@[simp] theorem State.setCell_pager (s : State) (v : SMap (List Byte)) : (s.setCell v).pager = s.pager := rfl
@[simp] theorem State.setCell_sync (s : State) (v : SMap (List Byte)) : (s.setCell v).sync = s.sync := rfl
@[simp] theorem State.setCell_disp (s : State) (v : SMap (List Byte)) : (s.setCell v).disp = s.disp := rfl
@[simp] theorem State.setCell_comet (s : State) (v : SMap (List Byte)) : (s.setCell v).comet = s.comet := rfl
@[simp] theorem State.setCell_wv (s : State) (v : SMap (List Byte)) : (s.setCell v).wv = s.wv := rfl
@[simp] theorem State.setCell_gdesc (s : State) (v : SMap (List Byte)) : (s.setCell v).gdesc = s.gdesc := rfl
@[simp] theorem State.setCell_emb (s : State) (v : SMap (List Byte)) : (s.setCell v).emb = s.emb := rfl
@[simp] theorem State.setCell_parts (s : State) (v : SMap (List Byte)) : (s.setCell v).parts = s.parts := rfl
@[simp] theorem State.setCell_batches (s : State) (v : SMap (List Byte)) : (s.setCell v).batches = s.batches := rfl
@[simp] theorem State.setCell_swarms (s : State) (v : SMap (List Byte)) : (s.setCell v).swarms = s.swarms := rfl
@[simp] theorem State.setCell_ids (s : State) (v : SMap (List Byte)) : (s.setCell v).ids = s.ids := rfl
@[simp] theorem State.setCell_mig (s : State) (v : SMap (List Byte)) : (s.setCell v).mig = s.mig := rfl
@[simp] theorem State.setCell_moves (s : State) (v : SMap (List Byte)) : (s.setCell v).moves = s.moves := rfl
@[simp] theorem State.setCell_mat (s : State) (v : SMap (List Byte)) : (s.setCell v).mat = s.mat := rfl
@[simp] theorem State.setCell_relay (s : State) (v : SMap (List Byte)) : (s.setCell v).relay = s.relay := rfl
@[simp] theorem State.setCell_gmx (s : State) (v : SMap (List Byte)) : (s.setCell v).gmx = s.gmx := rfl
@[simp] theorem State.setCell_vec (s : State) (v : SMap (List Byte)) : (s.setCell v).vec = s.vec := rfl
@[simp] theorem State.setCell_eth (s : State) (v : SMap (List Byte)) : (s.setCell v).eth = s.eth := rfl
@[simp] theorem State.setCell_served (s : State) (v : SMap (List Byte)) : (s.setCell v).served = s.served := rfl
@[simp] theorem State.setCell_frames (s : State) (v : SMap (List Byte)) : (s.setCell v).frames = s.frames := rfl
@[simp] theorem State.setCell_snap (s : State) (v : SMap (List Byte)) : (s.setCell v).snap = s.snap := rfl
@[simp] theorem State.setCell_out (s : State) (v : SMap (List Byte)) : (s.setCell v).out = s.out := rfl
@[simp] theorem State.setCell_free (s : State) (v : SMap (List Byte)) : (s.setCell v).free = s.free := rfl
@[simp] theorem State.setSpad_pending (s : State) (v : Mem) : (s.setSpad v).pending = s.pending := rfl
@[simp] theorem State.setSpad_regs (s : State) (v : Mem) : (s.setSpad v).regs = s.regs := rfl
@[simp] theorem State.setSpad_errKeys (s : State) (v : Mem) : (s.setSpad v).errKeys = s.errKeys := rfl
@[simp] theorem State.setSpad_time (s : State) (v : Mem) : (s.setSpad v).time = s.time := rfl
@[simp] theorem State.setSpad_dram (s : State) (v : Mem) : (s.setSpad v).dram = s.dram := rfl
@[simp] theorem State.setSpad_cell (s : State) (v : Mem) : (s.setSpad v).cell = s.cell := rfl
@[simp] theorem State.setSpad_spad (s : State) (v : Mem) : (s.setSpad v).spad = v := rfl
@[simp] theorem State.setSpad_store (s : State) (v : Mem) : (s.setSpad v).store = s.store := rfl
@[simp] theorem State.setSpad_stk (s : State) (v : Mem) : (s.setSpad v).stk = s.stk := rfl
@[simp] theorem State.setSpad_pch (s : State) (v : Mem) : (s.setSpad v).pch = s.pch := rfl
@[simp] theorem State.setSpad_region (s : State) (v : Mem) : (s.setSpad v).region = s.region := rfl
@[simp] theorem State.setSpad_dom (s : State) (v : Mem) : (s.setSpad v).dom = s.dom := rfl
@[simp] theorem State.setSpad_pwr (s : State) (v : Mem) : (s.setSpad v).pwr = s.pwr := rfl
@[simp] theorem State.setSpad_host (s : State) (v : Mem) : (s.setSpad v).host = s.host := rfl
@[simp] theorem State.setSpad_rings (s : State) (v : Mem) : (s.setSpad v).rings = s.rings := rfl
@[simp] theorem State.setSpad_slots (s : State) (v : Mem) : (s.setSpad v).slots = s.slots := rfl
@[simp] theorem State.setSpad_graphs (s : State) (v : Mem) : (s.setSpad v).graphs = s.graphs := rfl
@[simp] theorem State.setSpad_streams (s : State) (v : Mem) : (s.setSpad v).streams = s.streams := rfl
@[simp] theorem State.setSpad_qps (s : State) (v : Mem) : (s.setSpad v).qps = s.qps := rfl
@[simp] theorem State.setSpad_dev (s : State) (v : Mem) : (s.setSpad v).dev = s.dev := rfl
@[simp] theorem State.setSpad_flash (s : State) (v : Mem) : (s.setSpad v).flash = s.flash := rfl
@[simp] theorem State.setSpad_cores (s : State) (v : Mem) : (s.setSpad v).cores = s.cores := rfl
@[simp] theorem State.setSpad_sess (s : State) (v : Mem) : (s.setSpad v).sess = s.sess := rfl
@[simp] theorem State.setSpad_conns (s : State) (v : Mem) : (s.setSpad v).conns = s.conns := rfl
@[simp] theorem State.setSpad_clu (s : State) (v : Mem) : (s.setSpad v).clu = s.clu := rfl
@[simp] theorem State.setSpad_tel (s : State) (v : Mem) : (s.setSpad v).tel = s.tel := rfl
@[simp] theorem State.setSpad_dbg (s : State) (v : Mem) : (s.setSpad v).dbg = s.dbg := rfl
@[simp] theorem State.setSpad_pins (s : State) (v : Mem) : (s.setSpad v).pins = s.pins := rfl
@[simp] theorem State.setSpad_xlat (s : State) (v : Mem) : (s.setSpad v).xlat = s.xlat := rfl
@[simp] theorem State.setSpad_invQ (s : State) (v : Mem) : (s.setSpad v).invQ = s.invQ := rfl
@[simp] theorem State.setSpad_pager (s : State) (v : Mem) : (s.setSpad v).pager = s.pager := rfl
@[simp] theorem State.setSpad_sync (s : State) (v : Mem) : (s.setSpad v).sync = s.sync := rfl
@[simp] theorem State.setSpad_disp (s : State) (v : Mem) : (s.setSpad v).disp = s.disp := rfl
@[simp] theorem State.setSpad_comet (s : State) (v : Mem) : (s.setSpad v).comet = s.comet := rfl
@[simp] theorem State.setSpad_wv (s : State) (v : Mem) : (s.setSpad v).wv = s.wv := rfl
@[simp] theorem State.setSpad_gdesc (s : State) (v : Mem) : (s.setSpad v).gdesc = s.gdesc := rfl
@[simp] theorem State.setSpad_emb (s : State) (v : Mem) : (s.setSpad v).emb = s.emb := rfl
@[simp] theorem State.setSpad_parts (s : State) (v : Mem) : (s.setSpad v).parts = s.parts := rfl
@[simp] theorem State.setSpad_batches (s : State) (v : Mem) : (s.setSpad v).batches = s.batches := rfl
@[simp] theorem State.setSpad_swarms (s : State) (v : Mem) : (s.setSpad v).swarms = s.swarms := rfl
@[simp] theorem State.setSpad_ids (s : State) (v : Mem) : (s.setSpad v).ids = s.ids := rfl
@[simp] theorem State.setSpad_mig (s : State) (v : Mem) : (s.setSpad v).mig = s.mig := rfl
@[simp] theorem State.setSpad_moves (s : State) (v : Mem) : (s.setSpad v).moves = s.moves := rfl
@[simp] theorem State.setSpad_mat (s : State) (v : Mem) : (s.setSpad v).mat = s.mat := rfl
@[simp] theorem State.setSpad_relay (s : State) (v : Mem) : (s.setSpad v).relay = s.relay := rfl
@[simp] theorem State.setSpad_gmx (s : State) (v : Mem) : (s.setSpad v).gmx = s.gmx := rfl
@[simp] theorem State.setSpad_vec (s : State) (v : Mem) : (s.setSpad v).vec = s.vec := rfl
@[simp] theorem State.setSpad_eth (s : State) (v : Mem) : (s.setSpad v).eth = s.eth := rfl
@[simp] theorem State.setSpad_served (s : State) (v : Mem) : (s.setSpad v).served = s.served := rfl
@[simp] theorem State.setSpad_frames (s : State) (v : Mem) : (s.setSpad v).frames = s.frames := rfl
@[simp] theorem State.setSpad_snap (s : State) (v : Mem) : (s.setSpad v).snap = s.snap := rfl
@[simp] theorem State.setSpad_out (s : State) (v : Mem) : (s.setSpad v).out = s.out := rfl
@[simp] theorem State.setSpad_free (s : State) (v : Mem) : (s.setSpad v).free = s.free := rfl
@[simp] theorem State.setStore_pending (s : State) (v : Mem) : (s.setStore v).pending = s.pending := rfl
@[simp] theorem State.setStore_regs (s : State) (v : Mem) : (s.setStore v).regs = s.regs := rfl
@[simp] theorem State.setStore_errKeys (s : State) (v : Mem) : (s.setStore v).errKeys = s.errKeys := rfl
@[simp] theorem State.setStore_time (s : State) (v : Mem) : (s.setStore v).time = s.time := rfl
@[simp] theorem State.setStore_dram (s : State) (v : Mem) : (s.setStore v).dram = s.dram := rfl
@[simp] theorem State.setStore_cell (s : State) (v : Mem) : (s.setStore v).cell = s.cell := rfl
@[simp] theorem State.setStore_spad (s : State) (v : Mem) : (s.setStore v).spad = s.spad := rfl
@[simp] theorem State.setStore_store (s : State) (v : Mem) : (s.setStore v).store = v := rfl
@[simp] theorem State.setStore_stk (s : State) (v : Mem) : (s.setStore v).stk = s.stk := rfl
@[simp] theorem State.setStore_pch (s : State) (v : Mem) : (s.setStore v).pch = s.pch := rfl
@[simp] theorem State.setStore_region (s : State) (v : Mem) : (s.setStore v).region = s.region := rfl
@[simp] theorem State.setStore_dom (s : State) (v : Mem) : (s.setStore v).dom = s.dom := rfl
@[simp] theorem State.setStore_pwr (s : State) (v : Mem) : (s.setStore v).pwr = s.pwr := rfl
@[simp] theorem State.setStore_host (s : State) (v : Mem) : (s.setStore v).host = s.host := rfl
@[simp] theorem State.setStore_rings (s : State) (v : Mem) : (s.setStore v).rings = s.rings := rfl
@[simp] theorem State.setStore_slots (s : State) (v : Mem) : (s.setStore v).slots = s.slots := rfl
@[simp] theorem State.setStore_graphs (s : State) (v : Mem) : (s.setStore v).graphs = s.graphs := rfl
@[simp] theorem State.setStore_streams (s : State) (v : Mem) : (s.setStore v).streams = s.streams := rfl
@[simp] theorem State.setStore_qps (s : State) (v : Mem) : (s.setStore v).qps = s.qps := rfl
@[simp] theorem State.setStore_dev (s : State) (v : Mem) : (s.setStore v).dev = s.dev := rfl
@[simp] theorem State.setStore_flash (s : State) (v : Mem) : (s.setStore v).flash = s.flash := rfl
@[simp] theorem State.setStore_cores (s : State) (v : Mem) : (s.setStore v).cores = s.cores := rfl
@[simp] theorem State.setStore_sess (s : State) (v : Mem) : (s.setStore v).sess = s.sess := rfl
@[simp] theorem State.setStore_conns (s : State) (v : Mem) : (s.setStore v).conns = s.conns := rfl
@[simp] theorem State.setStore_clu (s : State) (v : Mem) : (s.setStore v).clu = s.clu := rfl
@[simp] theorem State.setStore_tel (s : State) (v : Mem) : (s.setStore v).tel = s.tel := rfl
@[simp] theorem State.setStore_dbg (s : State) (v : Mem) : (s.setStore v).dbg = s.dbg := rfl
@[simp] theorem State.setStore_pins (s : State) (v : Mem) : (s.setStore v).pins = s.pins := rfl
@[simp] theorem State.setStore_xlat (s : State) (v : Mem) : (s.setStore v).xlat = s.xlat := rfl
@[simp] theorem State.setStore_invQ (s : State) (v : Mem) : (s.setStore v).invQ = s.invQ := rfl
@[simp] theorem State.setStore_pager (s : State) (v : Mem) : (s.setStore v).pager = s.pager := rfl
@[simp] theorem State.setStore_sync (s : State) (v : Mem) : (s.setStore v).sync = s.sync := rfl
@[simp] theorem State.setStore_disp (s : State) (v : Mem) : (s.setStore v).disp = s.disp := rfl
@[simp] theorem State.setStore_comet (s : State) (v : Mem) : (s.setStore v).comet = s.comet := rfl
@[simp] theorem State.setStore_wv (s : State) (v : Mem) : (s.setStore v).wv = s.wv := rfl
@[simp] theorem State.setStore_gdesc (s : State) (v : Mem) : (s.setStore v).gdesc = s.gdesc := rfl
@[simp] theorem State.setStore_emb (s : State) (v : Mem) : (s.setStore v).emb = s.emb := rfl
@[simp] theorem State.setStore_parts (s : State) (v : Mem) : (s.setStore v).parts = s.parts := rfl
@[simp] theorem State.setStore_batches (s : State) (v : Mem) : (s.setStore v).batches = s.batches := rfl
@[simp] theorem State.setStore_swarms (s : State) (v : Mem) : (s.setStore v).swarms = s.swarms := rfl
@[simp] theorem State.setStore_ids (s : State) (v : Mem) : (s.setStore v).ids = s.ids := rfl
@[simp] theorem State.setStore_mig (s : State) (v : Mem) : (s.setStore v).mig = s.mig := rfl
@[simp] theorem State.setStore_moves (s : State) (v : Mem) : (s.setStore v).moves = s.moves := rfl
@[simp] theorem State.setStore_mat (s : State) (v : Mem) : (s.setStore v).mat = s.mat := rfl
@[simp] theorem State.setStore_relay (s : State) (v : Mem) : (s.setStore v).relay = s.relay := rfl
@[simp] theorem State.setStore_gmx (s : State) (v : Mem) : (s.setStore v).gmx = s.gmx := rfl
@[simp] theorem State.setStore_vec (s : State) (v : Mem) : (s.setStore v).vec = s.vec := rfl
@[simp] theorem State.setStore_eth (s : State) (v : Mem) : (s.setStore v).eth = s.eth := rfl
@[simp] theorem State.setStore_served (s : State) (v : Mem) : (s.setStore v).served = s.served := rfl
@[simp] theorem State.setStore_frames (s : State) (v : Mem) : (s.setStore v).frames = s.frames := rfl
@[simp] theorem State.setStore_snap (s : State) (v : Mem) : (s.setStore v).snap = s.snap := rfl
@[simp] theorem State.setStore_out (s : State) (v : Mem) : (s.setStore v).out = s.out := rfl
@[simp] theorem State.setStore_free (s : State) (v : Mem) : (s.setStore v).free = s.free := rfl
@[simp] theorem State.setStk_pending (s : State) (v : SMap StkSt) : (s.setStk v).pending = s.pending := rfl
@[simp] theorem State.setStk_regs (s : State) (v : SMap StkSt) : (s.setStk v).regs = s.regs := rfl
@[simp] theorem State.setStk_errKeys (s : State) (v : SMap StkSt) : (s.setStk v).errKeys = s.errKeys := rfl
@[simp] theorem State.setStk_time (s : State) (v : SMap StkSt) : (s.setStk v).time = s.time := rfl
@[simp] theorem State.setStk_dram (s : State) (v : SMap StkSt) : (s.setStk v).dram = s.dram := rfl
@[simp] theorem State.setStk_cell (s : State) (v : SMap StkSt) : (s.setStk v).cell = s.cell := rfl
@[simp] theorem State.setStk_spad (s : State) (v : SMap StkSt) : (s.setStk v).spad = s.spad := rfl
@[simp] theorem State.setStk_store (s : State) (v : SMap StkSt) : (s.setStk v).store = s.store := rfl
@[simp] theorem State.setStk_stk (s : State) (v : SMap StkSt) : (s.setStk v).stk = v := rfl
@[simp] theorem State.setStk_pch (s : State) (v : SMap StkSt) : (s.setStk v).pch = s.pch := rfl
@[simp] theorem State.setStk_region (s : State) (v : SMap StkSt) : (s.setStk v).region = s.region := rfl
@[simp] theorem State.setStk_dom (s : State) (v : SMap StkSt) : (s.setStk v).dom = s.dom := rfl
@[simp] theorem State.setStk_pwr (s : State) (v : SMap StkSt) : (s.setStk v).pwr = s.pwr := rfl
@[simp] theorem State.setStk_host (s : State) (v : SMap StkSt) : (s.setStk v).host = s.host := rfl
@[simp] theorem State.setStk_rings (s : State) (v : SMap StkSt) : (s.setStk v).rings = s.rings := rfl
@[simp] theorem State.setStk_slots (s : State) (v : SMap StkSt) : (s.setStk v).slots = s.slots := rfl
@[simp] theorem State.setStk_graphs (s : State) (v : SMap StkSt) : (s.setStk v).graphs = s.graphs := rfl
@[simp] theorem State.setStk_streams (s : State) (v : SMap StkSt) : (s.setStk v).streams = s.streams := rfl
@[simp] theorem State.setStk_qps (s : State) (v : SMap StkSt) : (s.setStk v).qps = s.qps := rfl
@[simp] theorem State.setStk_dev (s : State) (v : SMap StkSt) : (s.setStk v).dev = s.dev := rfl
@[simp] theorem State.setStk_flash (s : State) (v : SMap StkSt) : (s.setStk v).flash = s.flash := rfl
@[simp] theorem State.setStk_cores (s : State) (v : SMap StkSt) : (s.setStk v).cores = s.cores := rfl
@[simp] theorem State.setStk_sess (s : State) (v : SMap StkSt) : (s.setStk v).sess = s.sess := rfl
@[simp] theorem State.setStk_conns (s : State) (v : SMap StkSt) : (s.setStk v).conns = s.conns := rfl
@[simp] theorem State.setStk_clu (s : State) (v : SMap StkSt) : (s.setStk v).clu = s.clu := rfl
@[simp] theorem State.setStk_tel (s : State) (v : SMap StkSt) : (s.setStk v).tel = s.tel := rfl
@[simp] theorem State.setStk_dbg (s : State) (v : SMap StkSt) : (s.setStk v).dbg = s.dbg := rfl
@[simp] theorem State.setStk_pins (s : State) (v : SMap StkSt) : (s.setStk v).pins = s.pins := rfl
@[simp] theorem State.setStk_xlat (s : State) (v : SMap StkSt) : (s.setStk v).xlat = s.xlat := rfl
@[simp] theorem State.setStk_invQ (s : State) (v : SMap StkSt) : (s.setStk v).invQ = s.invQ := rfl
@[simp] theorem State.setStk_pager (s : State) (v : SMap StkSt) : (s.setStk v).pager = s.pager := rfl
@[simp] theorem State.setStk_sync (s : State) (v : SMap StkSt) : (s.setStk v).sync = s.sync := rfl
@[simp] theorem State.setStk_disp (s : State) (v : SMap StkSt) : (s.setStk v).disp = s.disp := rfl
@[simp] theorem State.setStk_comet (s : State) (v : SMap StkSt) : (s.setStk v).comet = s.comet := rfl
@[simp] theorem State.setStk_wv (s : State) (v : SMap StkSt) : (s.setStk v).wv = s.wv := rfl
@[simp] theorem State.setStk_gdesc (s : State) (v : SMap StkSt) : (s.setStk v).gdesc = s.gdesc := rfl
@[simp] theorem State.setStk_emb (s : State) (v : SMap StkSt) : (s.setStk v).emb = s.emb := rfl
@[simp] theorem State.setStk_parts (s : State) (v : SMap StkSt) : (s.setStk v).parts = s.parts := rfl
@[simp] theorem State.setStk_batches (s : State) (v : SMap StkSt) : (s.setStk v).batches = s.batches := rfl
@[simp] theorem State.setStk_swarms (s : State) (v : SMap StkSt) : (s.setStk v).swarms = s.swarms := rfl
@[simp] theorem State.setStk_ids (s : State) (v : SMap StkSt) : (s.setStk v).ids = s.ids := rfl
@[simp] theorem State.setStk_mig (s : State) (v : SMap StkSt) : (s.setStk v).mig = s.mig := rfl
@[simp] theorem State.setStk_moves (s : State) (v : SMap StkSt) : (s.setStk v).moves = s.moves := rfl
@[simp] theorem State.setStk_mat (s : State) (v : SMap StkSt) : (s.setStk v).mat = s.mat := rfl
@[simp] theorem State.setStk_relay (s : State) (v : SMap StkSt) : (s.setStk v).relay = s.relay := rfl
@[simp] theorem State.setStk_gmx (s : State) (v : SMap StkSt) : (s.setStk v).gmx = s.gmx := rfl
@[simp] theorem State.setStk_vec (s : State) (v : SMap StkSt) : (s.setStk v).vec = s.vec := rfl
@[simp] theorem State.setStk_eth (s : State) (v : SMap StkSt) : (s.setStk v).eth = s.eth := rfl
@[simp] theorem State.setStk_served (s : State) (v : SMap StkSt) : (s.setStk v).served = s.served := rfl
@[simp] theorem State.setStk_frames (s : State) (v : SMap StkSt) : (s.setStk v).frames = s.frames := rfl
@[simp] theorem State.setStk_snap (s : State) (v : SMap StkSt) : (s.setStk v).snap = s.snap := rfl
@[simp] theorem State.setStk_out (s : State) (v : SMap StkSt) : (s.setStk v).out = s.out := rfl
@[simp] theorem State.setStk_free (s : State) (v : SMap StkSt) : (s.setStk v).free = s.free := rfl
@[simp] theorem State.setPch_pending (s : State) (v : SMap PchSt) : (s.setPch v).pending = s.pending := rfl
@[simp] theorem State.setPch_regs (s : State) (v : SMap PchSt) : (s.setPch v).regs = s.regs := rfl
@[simp] theorem State.setPch_errKeys (s : State) (v : SMap PchSt) : (s.setPch v).errKeys = s.errKeys := rfl
@[simp] theorem State.setPch_time (s : State) (v : SMap PchSt) : (s.setPch v).time = s.time := rfl
@[simp] theorem State.setPch_dram (s : State) (v : SMap PchSt) : (s.setPch v).dram = s.dram := rfl
@[simp] theorem State.setPch_cell (s : State) (v : SMap PchSt) : (s.setPch v).cell = s.cell := rfl
@[simp] theorem State.setPch_spad (s : State) (v : SMap PchSt) : (s.setPch v).spad = s.spad := rfl
@[simp] theorem State.setPch_store (s : State) (v : SMap PchSt) : (s.setPch v).store = s.store := rfl
@[simp] theorem State.setPch_stk (s : State) (v : SMap PchSt) : (s.setPch v).stk = s.stk := rfl
@[simp] theorem State.setPch_pch (s : State) (v : SMap PchSt) : (s.setPch v).pch = v := rfl
@[simp] theorem State.setPch_region (s : State) (v : SMap PchSt) : (s.setPch v).region = s.region := rfl
@[simp] theorem State.setPch_dom (s : State) (v : SMap PchSt) : (s.setPch v).dom = s.dom := rfl
@[simp] theorem State.setPch_pwr (s : State) (v : SMap PchSt) : (s.setPch v).pwr = s.pwr := rfl
@[simp] theorem State.setPch_host (s : State) (v : SMap PchSt) : (s.setPch v).host = s.host := rfl
@[simp] theorem State.setPch_rings (s : State) (v : SMap PchSt) : (s.setPch v).rings = s.rings := rfl
@[simp] theorem State.setPch_slots (s : State) (v : SMap PchSt) : (s.setPch v).slots = s.slots := rfl
@[simp] theorem State.setPch_graphs (s : State) (v : SMap PchSt) : (s.setPch v).graphs = s.graphs := rfl
@[simp] theorem State.setPch_streams (s : State) (v : SMap PchSt) : (s.setPch v).streams = s.streams := rfl
@[simp] theorem State.setPch_qps (s : State) (v : SMap PchSt) : (s.setPch v).qps = s.qps := rfl
@[simp] theorem State.setPch_dev (s : State) (v : SMap PchSt) : (s.setPch v).dev = s.dev := rfl
@[simp] theorem State.setPch_flash (s : State) (v : SMap PchSt) : (s.setPch v).flash = s.flash := rfl
@[simp] theorem State.setPch_cores (s : State) (v : SMap PchSt) : (s.setPch v).cores = s.cores := rfl
@[simp] theorem State.setPch_sess (s : State) (v : SMap PchSt) : (s.setPch v).sess = s.sess := rfl
@[simp] theorem State.setPch_conns (s : State) (v : SMap PchSt) : (s.setPch v).conns = s.conns := rfl
@[simp] theorem State.setPch_clu (s : State) (v : SMap PchSt) : (s.setPch v).clu = s.clu := rfl
@[simp] theorem State.setPch_tel (s : State) (v : SMap PchSt) : (s.setPch v).tel = s.tel := rfl
@[simp] theorem State.setPch_dbg (s : State) (v : SMap PchSt) : (s.setPch v).dbg = s.dbg := rfl
@[simp] theorem State.setPch_pins (s : State) (v : SMap PchSt) : (s.setPch v).pins = s.pins := rfl
@[simp] theorem State.setPch_xlat (s : State) (v : SMap PchSt) : (s.setPch v).xlat = s.xlat := rfl
@[simp] theorem State.setPch_invQ (s : State) (v : SMap PchSt) : (s.setPch v).invQ = s.invQ := rfl
@[simp] theorem State.setPch_pager (s : State) (v : SMap PchSt) : (s.setPch v).pager = s.pager := rfl
@[simp] theorem State.setPch_sync (s : State) (v : SMap PchSt) : (s.setPch v).sync = s.sync := rfl
@[simp] theorem State.setPch_disp (s : State) (v : SMap PchSt) : (s.setPch v).disp = s.disp := rfl
@[simp] theorem State.setPch_comet (s : State) (v : SMap PchSt) : (s.setPch v).comet = s.comet := rfl
@[simp] theorem State.setPch_wv (s : State) (v : SMap PchSt) : (s.setPch v).wv = s.wv := rfl
@[simp] theorem State.setPch_gdesc (s : State) (v : SMap PchSt) : (s.setPch v).gdesc = s.gdesc := rfl
@[simp] theorem State.setPch_emb (s : State) (v : SMap PchSt) : (s.setPch v).emb = s.emb := rfl
@[simp] theorem State.setPch_parts (s : State) (v : SMap PchSt) : (s.setPch v).parts = s.parts := rfl
@[simp] theorem State.setPch_batches (s : State) (v : SMap PchSt) : (s.setPch v).batches = s.batches := rfl
@[simp] theorem State.setPch_swarms (s : State) (v : SMap PchSt) : (s.setPch v).swarms = s.swarms := rfl
@[simp] theorem State.setPch_ids (s : State) (v : SMap PchSt) : (s.setPch v).ids = s.ids := rfl
@[simp] theorem State.setPch_mig (s : State) (v : SMap PchSt) : (s.setPch v).mig = s.mig := rfl
@[simp] theorem State.setPch_moves (s : State) (v : SMap PchSt) : (s.setPch v).moves = s.moves := rfl
@[simp] theorem State.setPch_mat (s : State) (v : SMap PchSt) : (s.setPch v).mat = s.mat := rfl
@[simp] theorem State.setPch_relay (s : State) (v : SMap PchSt) : (s.setPch v).relay = s.relay := rfl
@[simp] theorem State.setPch_gmx (s : State) (v : SMap PchSt) : (s.setPch v).gmx = s.gmx := rfl
@[simp] theorem State.setPch_vec (s : State) (v : SMap PchSt) : (s.setPch v).vec = s.vec := rfl
@[simp] theorem State.setPch_eth (s : State) (v : SMap PchSt) : (s.setPch v).eth = s.eth := rfl
@[simp] theorem State.setPch_served (s : State) (v : SMap PchSt) : (s.setPch v).served = s.served := rfl
@[simp] theorem State.setPch_frames (s : State) (v : SMap PchSt) : (s.setPch v).frames = s.frames := rfl
@[simp] theorem State.setPch_snap (s : State) (v : SMap PchSt) : (s.setPch v).snap = s.snap := rfl
@[simp] theorem State.setPch_out (s : State) (v : SMap PchSt) : (s.setPch v).out = s.out := rfl
@[simp] theorem State.setPch_free (s : State) (v : SMap PchSt) : (s.setPch v).free = s.free := rfl
@[simp] theorem State.setRegion_pending (s : State) (v : SMap RegionSt) : (s.setRegion v).pending = s.pending := rfl
@[simp] theorem State.setRegion_regs (s : State) (v : SMap RegionSt) : (s.setRegion v).regs = s.regs := rfl
@[simp] theorem State.setRegion_errKeys (s : State) (v : SMap RegionSt) : (s.setRegion v).errKeys = s.errKeys := rfl
@[simp] theorem State.setRegion_time (s : State) (v : SMap RegionSt) : (s.setRegion v).time = s.time := rfl
@[simp] theorem State.setRegion_dram (s : State) (v : SMap RegionSt) : (s.setRegion v).dram = s.dram := rfl
@[simp] theorem State.setRegion_cell (s : State) (v : SMap RegionSt) : (s.setRegion v).cell = s.cell := rfl
@[simp] theorem State.setRegion_spad (s : State) (v : SMap RegionSt) : (s.setRegion v).spad = s.spad := rfl
@[simp] theorem State.setRegion_store (s : State) (v : SMap RegionSt) : (s.setRegion v).store = s.store := rfl
@[simp] theorem State.setRegion_stk (s : State) (v : SMap RegionSt) : (s.setRegion v).stk = s.stk := rfl
@[simp] theorem State.setRegion_pch (s : State) (v : SMap RegionSt) : (s.setRegion v).pch = s.pch := rfl
@[simp] theorem State.setRegion_region (s : State) (v : SMap RegionSt) : (s.setRegion v).region = v := rfl
@[simp] theorem State.setRegion_dom (s : State) (v : SMap RegionSt) : (s.setRegion v).dom = s.dom := rfl
@[simp] theorem State.setRegion_pwr (s : State) (v : SMap RegionSt) : (s.setRegion v).pwr = s.pwr := rfl
@[simp] theorem State.setRegion_host (s : State) (v : SMap RegionSt) : (s.setRegion v).host = s.host := rfl
@[simp] theorem State.setRegion_rings (s : State) (v : SMap RegionSt) : (s.setRegion v).rings = s.rings := rfl
@[simp] theorem State.setRegion_slots (s : State) (v : SMap RegionSt) : (s.setRegion v).slots = s.slots := rfl
@[simp] theorem State.setRegion_graphs (s : State) (v : SMap RegionSt) : (s.setRegion v).graphs = s.graphs := rfl
@[simp] theorem State.setRegion_streams (s : State) (v : SMap RegionSt) : (s.setRegion v).streams = s.streams := rfl
@[simp] theorem State.setRegion_qps (s : State) (v : SMap RegionSt) : (s.setRegion v).qps = s.qps := rfl
@[simp] theorem State.setRegion_dev (s : State) (v : SMap RegionSt) : (s.setRegion v).dev = s.dev := rfl
@[simp] theorem State.setRegion_flash (s : State) (v : SMap RegionSt) : (s.setRegion v).flash = s.flash := rfl
@[simp] theorem State.setRegion_cores (s : State) (v : SMap RegionSt) : (s.setRegion v).cores = s.cores := rfl
@[simp] theorem State.setRegion_sess (s : State) (v : SMap RegionSt) : (s.setRegion v).sess = s.sess := rfl
@[simp] theorem State.setRegion_conns (s : State) (v : SMap RegionSt) : (s.setRegion v).conns = s.conns := rfl
@[simp] theorem State.setRegion_clu (s : State) (v : SMap RegionSt) : (s.setRegion v).clu = s.clu := rfl
@[simp] theorem State.setRegion_tel (s : State) (v : SMap RegionSt) : (s.setRegion v).tel = s.tel := rfl
@[simp] theorem State.setRegion_dbg (s : State) (v : SMap RegionSt) : (s.setRegion v).dbg = s.dbg := rfl
@[simp] theorem State.setRegion_pins (s : State) (v : SMap RegionSt) : (s.setRegion v).pins = s.pins := rfl
@[simp] theorem State.setRegion_xlat (s : State) (v : SMap RegionSt) : (s.setRegion v).xlat = s.xlat := rfl
@[simp] theorem State.setRegion_invQ (s : State) (v : SMap RegionSt) : (s.setRegion v).invQ = s.invQ := rfl
@[simp] theorem State.setRegion_pager (s : State) (v : SMap RegionSt) : (s.setRegion v).pager = s.pager := rfl
@[simp] theorem State.setRegion_sync (s : State) (v : SMap RegionSt) : (s.setRegion v).sync = s.sync := rfl
@[simp] theorem State.setRegion_disp (s : State) (v : SMap RegionSt) : (s.setRegion v).disp = s.disp := rfl
@[simp] theorem State.setRegion_comet (s : State) (v : SMap RegionSt) : (s.setRegion v).comet = s.comet := rfl
@[simp] theorem State.setRegion_wv (s : State) (v : SMap RegionSt) : (s.setRegion v).wv = s.wv := rfl
@[simp] theorem State.setRegion_gdesc (s : State) (v : SMap RegionSt) : (s.setRegion v).gdesc = s.gdesc := rfl
@[simp] theorem State.setRegion_emb (s : State) (v : SMap RegionSt) : (s.setRegion v).emb = s.emb := rfl
@[simp] theorem State.setRegion_parts (s : State) (v : SMap RegionSt) : (s.setRegion v).parts = s.parts := rfl
@[simp] theorem State.setRegion_batches (s : State) (v : SMap RegionSt) : (s.setRegion v).batches = s.batches := rfl
@[simp] theorem State.setRegion_swarms (s : State) (v : SMap RegionSt) : (s.setRegion v).swarms = s.swarms := rfl
@[simp] theorem State.setRegion_ids (s : State) (v : SMap RegionSt) : (s.setRegion v).ids = s.ids := rfl
@[simp] theorem State.setRegion_mig (s : State) (v : SMap RegionSt) : (s.setRegion v).mig = s.mig := rfl
@[simp] theorem State.setRegion_moves (s : State) (v : SMap RegionSt) : (s.setRegion v).moves = s.moves := rfl
@[simp] theorem State.setRegion_mat (s : State) (v : SMap RegionSt) : (s.setRegion v).mat = s.mat := rfl
@[simp] theorem State.setRegion_relay (s : State) (v : SMap RegionSt) : (s.setRegion v).relay = s.relay := rfl
@[simp] theorem State.setRegion_gmx (s : State) (v : SMap RegionSt) : (s.setRegion v).gmx = s.gmx := rfl
@[simp] theorem State.setRegion_vec (s : State) (v : SMap RegionSt) : (s.setRegion v).vec = s.vec := rfl
@[simp] theorem State.setRegion_eth (s : State) (v : SMap RegionSt) : (s.setRegion v).eth = s.eth := rfl
@[simp] theorem State.setRegion_served (s : State) (v : SMap RegionSt) : (s.setRegion v).served = s.served := rfl
@[simp] theorem State.setRegion_frames (s : State) (v : SMap RegionSt) : (s.setRegion v).frames = s.frames := rfl
@[simp] theorem State.setRegion_snap (s : State) (v : SMap RegionSt) : (s.setRegion v).snap = s.snap := rfl
@[simp] theorem State.setRegion_out (s : State) (v : SMap RegionSt) : (s.setRegion v).out = s.out := rfl
@[simp] theorem State.setRegion_free (s : State) (v : SMap RegionSt) : (s.setRegion v).free = s.free := rfl
@[simp] theorem State.setDom_pending (s : State) (v : SMap DomSt) : (s.setDom v).pending = s.pending := rfl
@[simp] theorem State.setDom_regs (s : State) (v : SMap DomSt) : (s.setDom v).regs = s.regs := rfl
@[simp] theorem State.setDom_errKeys (s : State) (v : SMap DomSt) : (s.setDom v).errKeys = s.errKeys := rfl
@[simp] theorem State.setDom_time (s : State) (v : SMap DomSt) : (s.setDom v).time = s.time := rfl
@[simp] theorem State.setDom_dram (s : State) (v : SMap DomSt) : (s.setDom v).dram = s.dram := rfl
@[simp] theorem State.setDom_cell (s : State) (v : SMap DomSt) : (s.setDom v).cell = s.cell := rfl
@[simp] theorem State.setDom_spad (s : State) (v : SMap DomSt) : (s.setDom v).spad = s.spad := rfl
@[simp] theorem State.setDom_store (s : State) (v : SMap DomSt) : (s.setDom v).store = s.store := rfl
@[simp] theorem State.setDom_stk (s : State) (v : SMap DomSt) : (s.setDom v).stk = s.stk := rfl
@[simp] theorem State.setDom_pch (s : State) (v : SMap DomSt) : (s.setDom v).pch = s.pch := rfl
@[simp] theorem State.setDom_region (s : State) (v : SMap DomSt) : (s.setDom v).region = s.region := rfl
@[simp] theorem State.setDom_dom (s : State) (v : SMap DomSt) : (s.setDom v).dom = v := rfl
@[simp] theorem State.setDom_pwr (s : State) (v : SMap DomSt) : (s.setDom v).pwr = s.pwr := rfl
@[simp] theorem State.setDom_host (s : State) (v : SMap DomSt) : (s.setDom v).host = s.host := rfl
@[simp] theorem State.setDom_rings (s : State) (v : SMap DomSt) : (s.setDom v).rings = s.rings := rfl
@[simp] theorem State.setDom_slots (s : State) (v : SMap DomSt) : (s.setDom v).slots = s.slots := rfl
@[simp] theorem State.setDom_graphs (s : State) (v : SMap DomSt) : (s.setDom v).graphs = s.graphs := rfl
@[simp] theorem State.setDom_streams (s : State) (v : SMap DomSt) : (s.setDom v).streams = s.streams := rfl
@[simp] theorem State.setDom_qps (s : State) (v : SMap DomSt) : (s.setDom v).qps = s.qps := rfl
@[simp] theorem State.setDom_dev (s : State) (v : SMap DomSt) : (s.setDom v).dev = s.dev := rfl
@[simp] theorem State.setDom_flash (s : State) (v : SMap DomSt) : (s.setDom v).flash = s.flash := rfl
@[simp] theorem State.setDom_cores (s : State) (v : SMap DomSt) : (s.setDom v).cores = s.cores := rfl
@[simp] theorem State.setDom_sess (s : State) (v : SMap DomSt) : (s.setDom v).sess = s.sess := rfl
@[simp] theorem State.setDom_conns (s : State) (v : SMap DomSt) : (s.setDom v).conns = s.conns := rfl
@[simp] theorem State.setDom_clu (s : State) (v : SMap DomSt) : (s.setDom v).clu = s.clu := rfl
@[simp] theorem State.setDom_tel (s : State) (v : SMap DomSt) : (s.setDom v).tel = s.tel := rfl
@[simp] theorem State.setDom_dbg (s : State) (v : SMap DomSt) : (s.setDom v).dbg = s.dbg := rfl
@[simp] theorem State.setDom_pins (s : State) (v : SMap DomSt) : (s.setDom v).pins = s.pins := rfl
@[simp] theorem State.setDom_xlat (s : State) (v : SMap DomSt) : (s.setDom v).xlat = s.xlat := rfl
@[simp] theorem State.setDom_invQ (s : State) (v : SMap DomSt) : (s.setDom v).invQ = s.invQ := rfl
@[simp] theorem State.setDom_pager (s : State) (v : SMap DomSt) : (s.setDom v).pager = s.pager := rfl
@[simp] theorem State.setDom_sync (s : State) (v : SMap DomSt) : (s.setDom v).sync = s.sync := rfl
@[simp] theorem State.setDom_disp (s : State) (v : SMap DomSt) : (s.setDom v).disp = s.disp := rfl
@[simp] theorem State.setDom_comet (s : State) (v : SMap DomSt) : (s.setDom v).comet = s.comet := rfl
@[simp] theorem State.setDom_wv (s : State) (v : SMap DomSt) : (s.setDom v).wv = s.wv := rfl
@[simp] theorem State.setDom_gdesc (s : State) (v : SMap DomSt) : (s.setDom v).gdesc = s.gdesc := rfl
@[simp] theorem State.setDom_emb (s : State) (v : SMap DomSt) : (s.setDom v).emb = s.emb := rfl
@[simp] theorem State.setDom_parts (s : State) (v : SMap DomSt) : (s.setDom v).parts = s.parts := rfl
@[simp] theorem State.setDom_batches (s : State) (v : SMap DomSt) : (s.setDom v).batches = s.batches := rfl
@[simp] theorem State.setDom_swarms (s : State) (v : SMap DomSt) : (s.setDom v).swarms = s.swarms := rfl
@[simp] theorem State.setDom_ids (s : State) (v : SMap DomSt) : (s.setDom v).ids = s.ids := rfl
@[simp] theorem State.setDom_mig (s : State) (v : SMap DomSt) : (s.setDom v).mig = s.mig := rfl
@[simp] theorem State.setDom_moves (s : State) (v : SMap DomSt) : (s.setDom v).moves = s.moves := rfl
@[simp] theorem State.setDom_mat (s : State) (v : SMap DomSt) : (s.setDom v).mat = s.mat := rfl
@[simp] theorem State.setDom_relay (s : State) (v : SMap DomSt) : (s.setDom v).relay = s.relay := rfl
@[simp] theorem State.setDom_gmx (s : State) (v : SMap DomSt) : (s.setDom v).gmx = s.gmx := rfl
@[simp] theorem State.setDom_vec (s : State) (v : SMap DomSt) : (s.setDom v).vec = s.vec := rfl
@[simp] theorem State.setDom_eth (s : State) (v : SMap DomSt) : (s.setDom v).eth = s.eth := rfl
@[simp] theorem State.setDom_served (s : State) (v : SMap DomSt) : (s.setDom v).served = s.served := rfl
@[simp] theorem State.setDom_frames (s : State) (v : SMap DomSt) : (s.setDom v).frames = s.frames := rfl
@[simp] theorem State.setDom_snap (s : State) (v : SMap DomSt) : (s.setDom v).snap = s.snap := rfl
@[simp] theorem State.setDom_out (s : State) (v : SMap DomSt) : (s.setDom v).out = s.out := rfl
@[simp] theorem State.setDom_free (s : State) (v : SMap DomSt) : (s.setDom v).free = s.free := rfl
@[simp] theorem State.setPwr_pending (s : State) (v : PwrSt) : (s.setPwr v).pending = s.pending := rfl
@[simp] theorem State.setPwr_regs (s : State) (v : PwrSt) : (s.setPwr v).regs = s.regs := rfl
@[simp] theorem State.setPwr_errKeys (s : State) (v : PwrSt) : (s.setPwr v).errKeys = s.errKeys := rfl
@[simp] theorem State.setPwr_time (s : State) (v : PwrSt) : (s.setPwr v).time = s.time := rfl
@[simp] theorem State.setPwr_dram (s : State) (v : PwrSt) : (s.setPwr v).dram = s.dram := rfl
@[simp] theorem State.setPwr_cell (s : State) (v : PwrSt) : (s.setPwr v).cell = s.cell := rfl
@[simp] theorem State.setPwr_spad (s : State) (v : PwrSt) : (s.setPwr v).spad = s.spad := rfl
@[simp] theorem State.setPwr_store (s : State) (v : PwrSt) : (s.setPwr v).store = s.store := rfl
@[simp] theorem State.setPwr_stk (s : State) (v : PwrSt) : (s.setPwr v).stk = s.stk := rfl
@[simp] theorem State.setPwr_pch (s : State) (v : PwrSt) : (s.setPwr v).pch = s.pch := rfl
@[simp] theorem State.setPwr_region (s : State) (v : PwrSt) : (s.setPwr v).region = s.region := rfl
@[simp] theorem State.setPwr_dom (s : State) (v : PwrSt) : (s.setPwr v).dom = s.dom := rfl
@[simp] theorem State.setPwr_pwr (s : State) (v : PwrSt) : (s.setPwr v).pwr = v := rfl
@[simp] theorem State.setPwr_host (s : State) (v : PwrSt) : (s.setPwr v).host = s.host := rfl
@[simp] theorem State.setPwr_rings (s : State) (v : PwrSt) : (s.setPwr v).rings = s.rings := rfl
@[simp] theorem State.setPwr_slots (s : State) (v : PwrSt) : (s.setPwr v).slots = s.slots := rfl
@[simp] theorem State.setPwr_graphs (s : State) (v : PwrSt) : (s.setPwr v).graphs = s.graphs := rfl
@[simp] theorem State.setPwr_streams (s : State) (v : PwrSt) : (s.setPwr v).streams = s.streams := rfl
@[simp] theorem State.setPwr_qps (s : State) (v : PwrSt) : (s.setPwr v).qps = s.qps := rfl
@[simp] theorem State.setPwr_dev (s : State) (v : PwrSt) : (s.setPwr v).dev = s.dev := rfl
@[simp] theorem State.setPwr_flash (s : State) (v : PwrSt) : (s.setPwr v).flash = s.flash := rfl
@[simp] theorem State.setPwr_cores (s : State) (v : PwrSt) : (s.setPwr v).cores = s.cores := rfl
@[simp] theorem State.setPwr_sess (s : State) (v : PwrSt) : (s.setPwr v).sess = s.sess := rfl
@[simp] theorem State.setPwr_conns (s : State) (v : PwrSt) : (s.setPwr v).conns = s.conns := rfl
@[simp] theorem State.setPwr_clu (s : State) (v : PwrSt) : (s.setPwr v).clu = s.clu := rfl
@[simp] theorem State.setPwr_tel (s : State) (v : PwrSt) : (s.setPwr v).tel = s.tel := rfl
@[simp] theorem State.setPwr_dbg (s : State) (v : PwrSt) : (s.setPwr v).dbg = s.dbg := rfl
@[simp] theorem State.setPwr_pins (s : State) (v : PwrSt) : (s.setPwr v).pins = s.pins := rfl
@[simp] theorem State.setPwr_xlat (s : State) (v : PwrSt) : (s.setPwr v).xlat = s.xlat := rfl
@[simp] theorem State.setPwr_invQ (s : State) (v : PwrSt) : (s.setPwr v).invQ = s.invQ := rfl
@[simp] theorem State.setPwr_pager (s : State) (v : PwrSt) : (s.setPwr v).pager = s.pager := rfl
@[simp] theorem State.setPwr_sync (s : State) (v : PwrSt) : (s.setPwr v).sync = s.sync := rfl
@[simp] theorem State.setPwr_disp (s : State) (v : PwrSt) : (s.setPwr v).disp = s.disp := rfl
@[simp] theorem State.setPwr_comet (s : State) (v : PwrSt) : (s.setPwr v).comet = s.comet := rfl
@[simp] theorem State.setPwr_wv (s : State) (v : PwrSt) : (s.setPwr v).wv = s.wv := rfl
@[simp] theorem State.setPwr_gdesc (s : State) (v : PwrSt) : (s.setPwr v).gdesc = s.gdesc := rfl
@[simp] theorem State.setPwr_emb (s : State) (v : PwrSt) : (s.setPwr v).emb = s.emb := rfl
@[simp] theorem State.setPwr_parts (s : State) (v : PwrSt) : (s.setPwr v).parts = s.parts := rfl
@[simp] theorem State.setPwr_batches (s : State) (v : PwrSt) : (s.setPwr v).batches = s.batches := rfl
@[simp] theorem State.setPwr_swarms (s : State) (v : PwrSt) : (s.setPwr v).swarms = s.swarms := rfl
@[simp] theorem State.setPwr_ids (s : State) (v : PwrSt) : (s.setPwr v).ids = s.ids := rfl
@[simp] theorem State.setPwr_mig (s : State) (v : PwrSt) : (s.setPwr v).mig = s.mig := rfl
@[simp] theorem State.setPwr_moves (s : State) (v : PwrSt) : (s.setPwr v).moves = s.moves := rfl
@[simp] theorem State.setPwr_mat (s : State) (v : PwrSt) : (s.setPwr v).mat = s.mat := rfl
@[simp] theorem State.setPwr_relay (s : State) (v : PwrSt) : (s.setPwr v).relay = s.relay := rfl
@[simp] theorem State.setPwr_gmx (s : State) (v : PwrSt) : (s.setPwr v).gmx = s.gmx := rfl
@[simp] theorem State.setPwr_vec (s : State) (v : PwrSt) : (s.setPwr v).vec = s.vec := rfl
@[simp] theorem State.setPwr_eth (s : State) (v : PwrSt) : (s.setPwr v).eth = s.eth := rfl
@[simp] theorem State.setPwr_served (s : State) (v : PwrSt) : (s.setPwr v).served = s.served := rfl
@[simp] theorem State.setPwr_frames (s : State) (v : PwrSt) : (s.setPwr v).frames = s.frames := rfl
@[simp] theorem State.setPwr_snap (s : State) (v : PwrSt) : (s.setPwr v).snap = s.snap := rfl
@[simp] theorem State.setPwr_out (s : State) (v : PwrSt) : (s.setPwr v).out = s.out := rfl
@[simp] theorem State.setPwr_free (s : State) (v : PwrSt) : (s.setPwr v).free = s.free := rfl
@[simp] theorem State.setHost_pending (s : State) (v : HostSt) : (s.setHost v).pending = s.pending := rfl
@[simp] theorem State.setHost_regs (s : State) (v : HostSt) : (s.setHost v).regs = s.regs := rfl
@[simp] theorem State.setHost_errKeys (s : State) (v : HostSt) : (s.setHost v).errKeys = s.errKeys := rfl
@[simp] theorem State.setHost_time (s : State) (v : HostSt) : (s.setHost v).time = s.time := rfl
@[simp] theorem State.setHost_dram (s : State) (v : HostSt) : (s.setHost v).dram = s.dram := rfl
@[simp] theorem State.setHost_cell (s : State) (v : HostSt) : (s.setHost v).cell = s.cell := rfl
@[simp] theorem State.setHost_spad (s : State) (v : HostSt) : (s.setHost v).spad = s.spad := rfl
@[simp] theorem State.setHost_store (s : State) (v : HostSt) : (s.setHost v).store = s.store := rfl
@[simp] theorem State.setHost_stk (s : State) (v : HostSt) : (s.setHost v).stk = s.stk := rfl
@[simp] theorem State.setHost_pch (s : State) (v : HostSt) : (s.setHost v).pch = s.pch := rfl
@[simp] theorem State.setHost_region (s : State) (v : HostSt) : (s.setHost v).region = s.region := rfl
@[simp] theorem State.setHost_dom (s : State) (v : HostSt) : (s.setHost v).dom = s.dom := rfl
@[simp] theorem State.setHost_pwr (s : State) (v : HostSt) : (s.setHost v).pwr = s.pwr := rfl
@[simp] theorem State.setHost_host (s : State) (v : HostSt) : (s.setHost v).host = v := rfl
@[simp] theorem State.setHost_rings (s : State) (v : HostSt) : (s.setHost v).rings = s.rings := rfl
@[simp] theorem State.setHost_slots (s : State) (v : HostSt) : (s.setHost v).slots = s.slots := rfl
@[simp] theorem State.setHost_graphs (s : State) (v : HostSt) : (s.setHost v).graphs = s.graphs := rfl
@[simp] theorem State.setHost_streams (s : State) (v : HostSt) : (s.setHost v).streams = s.streams := rfl
@[simp] theorem State.setHost_qps (s : State) (v : HostSt) : (s.setHost v).qps = s.qps := rfl
@[simp] theorem State.setHost_dev (s : State) (v : HostSt) : (s.setHost v).dev = s.dev := rfl
@[simp] theorem State.setHost_flash (s : State) (v : HostSt) : (s.setHost v).flash = s.flash := rfl
@[simp] theorem State.setHost_cores (s : State) (v : HostSt) : (s.setHost v).cores = s.cores := rfl
@[simp] theorem State.setHost_sess (s : State) (v : HostSt) : (s.setHost v).sess = s.sess := rfl
@[simp] theorem State.setHost_conns (s : State) (v : HostSt) : (s.setHost v).conns = s.conns := rfl
@[simp] theorem State.setHost_clu (s : State) (v : HostSt) : (s.setHost v).clu = s.clu := rfl
@[simp] theorem State.setHost_tel (s : State) (v : HostSt) : (s.setHost v).tel = s.tel := rfl
@[simp] theorem State.setHost_dbg (s : State) (v : HostSt) : (s.setHost v).dbg = s.dbg := rfl
@[simp] theorem State.setHost_pins (s : State) (v : HostSt) : (s.setHost v).pins = s.pins := rfl
@[simp] theorem State.setHost_xlat (s : State) (v : HostSt) : (s.setHost v).xlat = s.xlat := rfl
@[simp] theorem State.setHost_invQ (s : State) (v : HostSt) : (s.setHost v).invQ = s.invQ := rfl
@[simp] theorem State.setHost_pager (s : State) (v : HostSt) : (s.setHost v).pager = s.pager := rfl
@[simp] theorem State.setHost_sync (s : State) (v : HostSt) : (s.setHost v).sync = s.sync := rfl
@[simp] theorem State.setHost_disp (s : State) (v : HostSt) : (s.setHost v).disp = s.disp := rfl
@[simp] theorem State.setHost_comet (s : State) (v : HostSt) : (s.setHost v).comet = s.comet := rfl
@[simp] theorem State.setHost_wv (s : State) (v : HostSt) : (s.setHost v).wv = s.wv := rfl
@[simp] theorem State.setHost_gdesc (s : State) (v : HostSt) : (s.setHost v).gdesc = s.gdesc := rfl
@[simp] theorem State.setHost_emb (s : State) (v : HostSt) : (s.setHost v).emb = s.emb := rfl
@[simp] theorem State.setHost_parts (s : State) (v : HostSt) : (s.setHost v).parts = s.parts := rfl
@[simp] theorem State.setHost_batches (s : State) (v : HostSt) : (s.setHost v).batches = s.batches := rfl
@[simp] theorem State.setHost_swarms (s : State) (v : HostSt) : (s.setHost v).swarms = s.swarms := rfl
@[simp] theorem State.setHost_ids (s : State) (v : HostSt) : (s.setHost v).ids = s.ids := rfl
@[simp] theorem State.setHost_mig (s : State) (v : HostSt) : (s.setHost v).mig = s.mig := rfl
@[simp] theorem State.setHost_moves (s : State) (v : HostSt) : (s.setHost v).moves = s.moves := rfl
@[simp] theorem State.setHost_mat (s : State) (v : HostSt) : (s.setHost v).mat = s.mat := rfl
@[simp] theorem State.setHost_relay (s : State) (v : HostSt) : (s.setHost v).relay = s.relay := rfl
@[simp] theorem State.setHost_gmx (s : State) (v : HostSt) : (s.setHost v).gmx = s.gmx := rfl
@[simp] theorem State.setHost_vec (s : State) (v : HostSt) : (s.setHost v).vec = s.vec := rfl
@[simp] theorem State.setHost_eth (s : State) (v : HostSt) : (s.setHost v).eth = s.eth := rfl
@[simp] theorem State.setHost_served (s : State) (v : HostSt) : (s.setHost v).served = s.served := rfl
@[simp] theorem State.setHost_frames (s : State) (v : HostSt) : (s.setHost v).frames = s.frames := rfl
@[simp] theorem State.setHost_snap (s : State) (v : HostSt) : (s.setHost v).snap = s.snap := rfl
@[simp] theorem State.setHost_out (s : State) (v : HostSt) : (s.setHost v).out = s.out := rfl
@[simp] theorem State.setHost_free (s : State) (v : HostSt) : (s.setHost v).free = s.free := rfl
@[simp] theorem State.setRings_pending (s : State) (v : SMap RingSt) : (s.setRings v).pending = s.pending := rfl
@[simp] theorem State.setRings_regs (s : State) (v : SMap RingSt) : (s.setRings v).regs = s.regs := rfl
@[simp] theorem State.setRings_errKeys (s : State) (v : SMap RingSt) : (s.setRings v).errKeys = s.errKeys := rfl
@[simp] theorem State.setRings_time (s : State) (v : SMap RingSt) : (s.setRings v).time = s.time := rfl
@[simp] theorem State.setRings_dram (s : State) (v : SMap RingSt) : (s.setRings v).dram = s.dram := rfl
@[simp] theorem State.setRings_cell (s : State) (v : SMap RingSt) : (s.setRings v).cell = s.cell := rfl
@[simp] theorem State.setRings_spad (s : State) (v : SMap RingSt) : (s.setRings v).spad = s.spad := rfl
@[simp] theorem State.setRings_store (s : State) (v : SMap RingSt) : (s.setRings v).store = s.store := rfl
@[simp] theorem State.setRings_stk (s : State) (v : SMap RingSt) : (s.setRings v).stk = s.stk := rfl
@[simp] theorem State.setRings_pch (s : State) (v : SMap RingSt) : (s.setRings v).pch = s.pch := rfl
@[simp] theorem State.setRings_region (s : State) (v : SMap RingSt) : (s.setRings v).region = s.region := rfl
@[simp] theorem State.setRings_dom (s : State) (v : SMap RingSt) : (s.setRings v).dom = s.dom := rfl
@[simp] theorem State.setRings_pwr (s : State) (v : SMap RingSt) : (s.setRings v).pwr = s.pwr := rfl
@[simp] theorem State.setRings_host (s : State) (v : SMap RingSt) : (s.setRings v).host = s.host := rfl
@[simp] theorem State.setRings_rings (s : State) (v : SMap RingSt) : (s.setRings v).rings = v := rfl
@[simp] theorem State.setRings_slots (s : State) (v : SMap RingSt) : (s.setRings v).slots = s.slots := rfl
@[simp] theorem State.setRings_graphs (s : State) (v : SMap RingSt) : (s.setRings v).graphs = s.graphs := rfl
@[simp] theorem State.setRings_streams (s : State) (v : SMap RingSt) : (s.setRings v).streams = s.streams := rfl
@[simp] theorem State.setRings_qps (s : State) (v : SMap RingSt) : (s.setRings v).qps = s.qps := rfl
@[simp] theorem State.setRings_dev (s : State) (v : SMap RingSt) : (s.setRings v).dev = s.dev := rfl
@[simp] theorem State.setRings_flash (s : State) (v : SMap RingSt) : (s.setRings v).flash = s.flash := rfl
@[simp] theorem State.setRings_cores (s : State) (v : SMap RingSt) : (s.setRings v).cores = s.cores := rfl
@[simp] theorem State.setRings_sess (s : State) (v : SMap RingSt) : (s.setRings v).sess = s.sess := rfl
@[simp] theorem State.setRings_conns (s : State) (v : SMap RingSt) : (s.setRings v).conns = s.conns := rfl
@[simp] theorem State.setRings_clu (s : State) (v : SMap RingSt) : (s.setRings v).clu = s.clu := rfl
@[simp] theorem State.setRings_tel (s : State) (v : SMap RingSt) : (s.setRings v).tel = s.tel := rfl
@[simp] theorem State.setRings_dbg (s : State) (v : SMap RingSt) : (s.setRings v).dbg = s.dbg := rfl
@[simp] theorem State.setRings_pins (s : State) (v : SMap RingSt) : (s.setRings v).pins = s.pins := rfl
@[simp] theorem State.setRings_xlat (s : State) (v : SMap RingSt) : (s.setRings v).xlat = s.xlat := rfl
@[simp] theorem State.setRings_invQ (s : State) (v : SMap RingSt) : (s.setRings v).invQ = s.invQ := rfl
@[simp] theorem State.setRings_pager (s : State) (v : SMap RingSt) : (s.setRings v).pager = s.pager := rfl
@[simp] theorem State.setRings_sync (s : State) (v : SMap RingSt) : (s.setRings v).sync = s.sync := rfl
@[simp] theorem State.setRings_disp (s : State) (v : SMap RingSt) : (s.setRings v).disp = s.disp := rfl
@[simp] theorem State.setRings_comet (s : State) (v : SMap RingSt) : (s.setRings v).comet = s.comet := rfl
@[simp] theorem State.setRings_wv (s : State) (v : SMap RingSt) : (s.setRings v).wv = s.wv := rfl
@[simp] theorem State.setRings_gdesc (s : State) (v : SMap RingSt) : (s.setRings v).gdesc = s.gdesc := rfl
@[simp] theorem State.setRings_emb (s : State) (v : SMap RingSt) : (s.setRings v).emb = s.emb := rfl
@[simp] theorem State.setRings_parts (s : State) (v : SMap RingSt) : (s.setRings v).parts = s.parts := rfl
@[simp] theorem State.setRings_batches (s : State) (v : SMap RingSt) : (s.setRings v).batches = s.batches := rfl
@[simp] theorem State.setRings_swarms (s : State) (v : SMap RingSt) : (s.setRings v).swarms = s.swarms := rfl
@[simp] theorem State.setRings_ids (s : State) (v : SMap RingSt) : (s.setRings v).ids = s.ids := rfl
@[simp] theorem State.setRings_mig (s : State) (v : SMap RingSt) : (s.setRings v).mig = s.mig := rfl
@[simp] theorem State.setRings_moves (s : State) (v : SMap RingSt) : (s.setRings v).moves = s.moves := rfl
@[simp] theorem State.setRings_mat (s : State) (v : SMap RingSt) : (s.setRings v).mat = s.mat := rfl
@[simp] theorem State.setRings_relay (s : State) (v : SMap RingSt) : (s.setRings v).relay = s.relay := rfl
@[simp] theorem State.setRings_gmx (s : State) (v : SMap RingSt) : (s.setRings v).gmx = s.gmx := rfl
@[simp] theorem State.setRings_vec (s : State) (v : SMap RingSt) : (s.setRings v).vec = s.vec := rfl
@[simp] theorem State.setRings_eth (s : State) (v : SMap RingSt) : (s.setRings v).eth = s.eth := rfl
@[simp] theorem State.setRings_served (s : State) (v : SMap RingSt) : (s.setRings v).served = s.served := rfl
@[simp] theorem State.setRings_frames (s : State) (v : SMap RingSt) : (s.setRings v).frames = s.frames := rfl
@[simp] theorem State.setRings_snap (s : State) (v : SMap RingSt) : (s.setRings v).snap = s.snap := rfl
@[simp] theorem State.setRings_out (s : State) (v : SMap RingSt) : (s.setRings v).out = s.out := rfl
@[simp] theorem State.setRings_free (s : State) (v : SMap RingSt) : (s.setRings v).free = s.free := rfl
@[simp] theorem State.setSlots_pending (s : State) (v : SMap AdmSt) : (s.setSlots v).pending = s.pending := rfl
@[simp] theorem State.setSlots_regs (s : State) (v : SMap AdmSt) : (s.setSlots v).regs = s.regs := rfl
@[simp] theorem State.setSlots_errKeys (s : State) (v : SMap AdmSt) : (s.setSlots v).errKeys = s.errKeys := rfl
@[simp] theorem State.setSlots_time (s : State) (v : SMap AdmSt) : (s.setSlots v).time = s.time := rfl
@[simp] theorem State.setSlots_dram (s : State) (v : SMap AdmSt) : (s.setSlots v).dram = s.dram := rfl
@[simp] theorem State.setSlots_cell (s : State) (v : SMap AdmSt) : (s.setSlots v).cell = s.cell := rfl
@[simp] theorem State.setSlots_spad (s : State) (v : SMap AdmSt) : (s.setSlots v).spad = s.spad := rfl
@[simp] theorem State.setSlots_store (s : State) (v : SMap AdmSt) : (s.setSlots v).store = s.store := rfl
@[simp] theorem State.setSlots_stk (s : State) (v : SMap AdmSt) : (s.setSlots v).stk = s.stk := rfl
@[simp] theorem State.setSlots_pch (s : State) (v : SMap AdmSt) : (s.setSlots v).pch = s.pch := rfl
@[simp] theorem State.setSlots_region (s : State) (v : SMap AdmSt) : (s.setSlots v).region = s.region := rfl
@[simp] theorem State.setSlots_dom (s : State) (v : SMap AdmSt) : (s.setSlots v).dom = s.dom := rfl
@[simp] theorem State.setSlots_pwr (s : State) (v : SMap AdmSt) : (s.setSlots v).pwr = s.pwr := rfl
@[simp] theorem State.setSlots_host (s : State) (v : SMap AdmSt) : (s.setSlots v).host = s.host := rfl
@[simp] theorem State.setSlots_rings (s : State) (v : SMap AdmSt) : (s.setSlots v).rings = s.rings := rfl
@[simp] theorem State.setSlots_slots (s : State) (v : SMap AdmSt) : (s.setSlots v).slots = v := rfl
@[simp] theorem State.setSlots_graphs (s : State) (v : SMap AdmSt) : (s.setSlots v).graphs = s.graphs := rfl
@[simp] theorem State.setSlots_streams (s : State) (v : SMap AdmSt) : (s.setSlots v).streams = s.streams := rfl
@[simp] theorem State.setSlots_qps (s : State) (v : SMap AdmSt) : (s.setSlots v).qps = s.qps := rfl
@[simp] theorem State.setSlots_dev (s : State) (v : SMap AdmSt) : (s.setSlots v).dev = s.dev := rfl
@[simp] theorem State.setSlots_flash (s : State) (v : SMap AdmSt) : (s.setSlots v).flash = s.flash := rfl
@[simp] theorem State.setSlots_cores (s : State) (v : SMap AdmSt) : (s.setSlots v).cores = s.cores := rfl
@[simp] theorem State.setSlots_sess (s : State) (v : SMap AdmSt) : (s.setSlots v).sess = s.sess := rfl
@[simp] theorem State.setSlots_conns (s : State) (v : SMap AdmSt) : (s.setSlots v).conns = s.conns := rfl
@[simp] theorem State.setSlots_clu (s : State) (v : SMap AdmSt) : (s.setSlots v).clu = s.clu := rfl
@[simp] theorem State.setSlots_tel (s : State) (v : SMap AdmSt) : (s.setSlots v).tel = s.tel := rfl
@[simp] theorem State.setSlots_dbg (s : State) (v : SMap AdmSt) : (s.setSlots v).dbg = s.dbg := rfl
@[simp] theorem State.setSlots_pins (s : State) (v : SMap AdmSt) : (s.setSlots v).pins = s.pins := rfl
@[simp] theorem State.setSlots_xlat (s : State) (v : SMap AdmSt) : (s.setSlots v).xlat = s.xlat := rfl
@[simp] theorem State.setSlots_invQ (s : State) (v : SMap AdmSt) : (s.setSlots v).invQ = s.invQ := rfl
@[simp] theorem State.setSlots_pager (s : State) (v : SMap AdmSt) : (s.setSlots v).pager = s.pager := rfl
@[simp] theorem State.setSlots_sync (s : State) (v : SMap AdmSt) : (s.setSlots v).sync = s.sync := rfl
@[simp] theorem State.setSlots_disp (s : State) (v : SMap AdmSt) : (s.setSlots v).disp = s.disp := rfl
@[simp] theorem State.setSlots_comet (s : State) (v : SMap AdmSt) : (s.setSlots v).comet = s.comet := rfl
@[simp] theorem State.setSlots_wv (s : State) (v : SMap AdmSt) : (s.setSlots v).wv = s.wv := rfl
@[simp] theorem State.setSlots_gdesc (s : State) (v : SMap AdmSt) : (s.setSlots v).gdesc = s.gdesc := rfl
@[simp] theorem State.setSlots_emb (s : State) (v : SMap AdmSt) : (s.setSlots v).emb = s.emb := rfl
@[simp] theorem State.setSlots_parts (s : State) (v : SMap AdmSt) : (s.setSlots v).parts = s.parts := rfl
@[simp] theorem State.setSlots_batches (s : State) (v : SMap AdmSt) : (s.setSlots v).batches = s.batches := rfl
@[simp] theorem State.setSlots_swarms (s : State) (v : SMap AdmSt) : (s.setSlots v).swarms = s.swarms := rfl
@[simp] theorem State.setSlots_ids (s : State) (v : SMap AdmSt) : (s.setSlots v).ids = s.ids := rfl
@[simp] theorem State.setSlots_mig (s : State) (v : SMap AdmSt) : (s.setSlots v).mig = s.mig := rfl
@[simp] theorem State.setSlots_moves (s : State) (v : SMap AdmSt) : (s.setSlots v).moves = s.moves := rfl
@[simp] theorem State.setSlots_mat (s : State) (v : SMap AdmSt) : (s.setSlots v).mat = s.mat := rfl
@[simp] theorem State.setSlots_relay (s : State) (v : SMap AdmSt) : (s.setSlots v).relay = s.relay := rfl
@[simp] theorem State.setSlots_gmx (s : State) (v : SMap AdmSt) : (s.setSlots v).gmx = s.gmx := rfl
@[simp] theorem State.setSlots_vec (s : State) (v : SMap AdmSt) : (s.setSlots v).vec = s.vec := rfl
@[simp] theorem State.setSlots_eth (s : State) (v : SMap AdmSt) : (s.setSlots v).eth = s.eth := rfl
@[simp] theorem State.setSlots_served (s : State) (v : SMap AdmSt) : (s.setSlots v).served = s.served := rfl
@[simp] theorem State.setSlots_frames (s : State) (v : SMap AdmSt) : (s.setSlots v).frames = s.frames := rfl
@[simp] theorem State.setSlots_snap (s : State) (v : SMap AdmSt) : (s.setSlots v).snap = s.snap := rfl
@[simp] theorem State.setSlots_out (s : State) (v : SMap AdmSt) : (s.setSlots v).out = s.out := rfl
@[simp] theorem State.setSlots_free (s : State) (v : SMap AdmSt) : (s.setSlots v).free = s.free := rfl
@[simp] theorem State.setGraphs_pending (s : State) (v : SMap GraphSt) : (s.setGraphs v).pending = s.pending := rfl
@[simp] theorem State.setGraphs_regs (s : State) (v : SMap GraphSt) : (s.setGraphs v).regs = s.regs := rfl
@[simp] theorem State.setGraphs_errKeys (s : State) (v : SMap GraphSt) : (s.setGraphs v).errKeys = s.errKeys := rfl
@[simp] theorem State.setGraphs_time (s : State) (v : SMap GraphSt) : (s.setGraphs v).time = s.time := rfl
@[simp] theorem State.setGraphs_dram (s : State) (v : SMap GraphSt) : (s.setGraphs v).dram = s.dram := rfl
@[simp] theorem State.setGraphs_cell (s : State) (v : SMap GraphSt) : (s.setGraphs v).cell = s.cell := rfl
@[simp] theorem State.setGraphs_spad (s : State) (v : SMap GraphSt) : (s.setGraphs v).spad = s.spad := rfl
@[simp] theorem State.setGraphs_store (s : State) (v : SMap GraphSt) : (s.setGraphs v).store = s.store := rfl
@[simp] theorem State.setGraphs_stk (s : State) (v : SMap GraphSt) : (s.setGraphs v).stk = s.stk := rfl
@[simp] theorem State.setGraphs_pch (s : State) (v : SMap GraphSt) : (s.setGraphs v).pch = s.pch := rfl
@[simp] theorem State.setGraphs_region (s : State) (v : SMap GraphSt) : (s.setGraphs v).region = s.region := rfl
@[simp] theorem State.setGraphs_dom (s : State) (v : SMap GraphSt) : (s.setGraphs v).dom = s.dom := rfl
@[simp] theorem State.setGraphs_pwr (s : State) (v : SMap GraphSt) : (s.setGraphs v).pwr = s.pwr := rfl
@[simp] theorem State.setGraphs_host (s : State) (v : SMap GraphSt) : (s.setGraphs v).host = s.host := rfl
@[simp] theorem State.setGraphs_rings (s : State) (v : SMap GraphSt) : (s.setGraphs v).rings = s.rings := rfl
@[simp] theorem State.setGraphs_slots (s : State) (v : SMap GraphSt) : (s.setGraphs v).slots = s.slots := rfl
@[simp] theorem State.setGraphs_graphs (s : State) (v : SMap GraphSt) : (s.setGraphs v).graphs = v := rfl
@[simp] theorem State.setGraphs_streams (s : State) (v : SMap GraphSt) : (s.setGraphs v).streams = s.streams := rfl
@[simp] theorem State.setGraphs_qps (s : State) (v : SMap GraphSt) : (s.setGraphs v).qps = s.qps := rfl
@[simp] theorem State.setGraphs_dev (s : State) (v : SMap GraphSt) : (s.setGraphs v).dev = s.dev := rfl
@[simp] theorem State.setGraphs_flash (s : State) (v : SMap GraphSt) : (s.setGraphs v).flash = s.flash := rfl
@[simp] theorem State.setGraphs_cores (s : State) (v : SMap GraphSt) : (s.setGraphs v).cores = s.cores := rfl
@[simp] theorem State.setGraphs_sess (s : State) (v : SMap GraphSt) : (s.setGraphs v).sess = s.sess := rfl
@[simp] theorem State.setGraphs_conns (s : State) (v : SMap GraphSt) : (s.setGraphs v).conns = s.conns := rfl
@[simp] theorem State.setGraphs_clu (s : State) (v : SMap GraphSt) : (s.setGraphs v).clu = s.clu := rfl
@[simp] theorem State.setGraphs_tel (s : State) (v : SMap GraphSt) : (s.setGraphs v).tel = s.tel := rfl
@[simp] theorem State.setGraphs_dbg (s : State) (v : SMap GraphSt) : (s.setGraphs v).dbg = s.dbg := rfl
@[simp] theorem State.setGraphs_pins (s : State) (v : SMap GraphSt) : (s.setGraphs v).pins = s.pins := rfl
@[simp] theorem State.setGraphs_xlat (s : State) (v : SMap GraphSt) : (s.setGraphs v).xlat = s.xlat := rfl
@[simp] theorem State.setGraphs_invQ (s : State) (v : SMap GraphSt) : (s.setGraphs v).invQ = s.invQ := rfl
@[simp] theorem State.setGraphs_pager (s : State) (v : SMap GraphSt) : (s.setGraphs v).pager = s.pager := rfl
@[simp] theorem State.setGraphs_sync (s : State) (v : SMap GraphSt) : (s.setGraphs v).sync = s.sync := rfl
@[simp] theorem State.setGraphs_disp (s : State) (v : SMap GraphSt) : (s.setGraphs v).disp = s.disp := rfl
@[simp] theorem State.setGraphs_comet (s : State) (v : SMap GraphSt) : (s.setGraphs v).comet = s.comet := rfl
@[simp] theorem State.setGraphs_wv (s : State) (v : SMap GraphSt) : (s.setGraphs v).wv = s.wv := rfl
@[simp] theorem State.setGraphs_gdesc (s : State) (v : SMap GraphSt) : (s.setGraphs v).gdesc = s.gdesc := rfl
@[simp] theorem State.setGraphs_emb (s : State) (v : SMap GraphSt) : (s.setGraphs v).emb = s.emb := rfl
@[simp] theorem State.setGraphs_parts (s : State) (v : SMap GraphSt) : (s.setGraphs v).parts = s.parts := rfl
@[simp] theorem State.setGraphs_batches (s : State) (v : SMap GraphSt) : (s.setGraphs v).batches = s.batches := rfl
@[simp] theorem State.setGraphs_swarms (s : State) (v : SMap GraphSt) : (s.setGraphs v).swarms = s.swarms := rfl
@[simp] theorem State.setGraphs_ids (s : State) (v : SMap GraphSt) : (s.setGraphs v).ids = s.ids := rfl
@[simp] theorem State.setGraphs_mig (s : State) (v : SMap GraphSt) : (s.setGraphs v).mig = s.mig := rfl
@[simp] theorem State.setGraphs_moves (s : State) (v : SMap GraphSt) : (s.setGraphs v).moves = s.moves := rfl
@[simp] theorem State.setGraphs_mat (s : State) (v : SMap GraphSt) : (s.setGraphs v).mat = s.mat := rfl
@[simp] theorem State.setGraphs_relay (s : State) (v : SMap GraphSt) : (s.setGraphs v).relay = s.relay := rfl
@[simp] theorem State.setGraphs_gmx (s : State) (v : SMap GraphSt) : (s.setGraphs v).gmx = s.gmx := rfl
@[simp] theorem State.setGraphs_vec (s : State) (v : SMap GraphSt) : (s.setGraphs v).vec = s.vec := rfl
@[simp] theorem State.setGraphs_eth (s : State) (v : SMap GraphSt) : (s.setGraphs v).eth = s.eth := rfl
@[simp] theorem State.setGraphs_served (s : State) (v : SMap GraphSt) : (s.setGraphs v).served = s.served := rfl
@[simp] theorem State.setGraphs_frames (s : State) (v : SMap GraphSt) : (s.setGraphs v).frames = s.frames := rfl
@[simp] theorem State.setGraphs_snap (s : State) (v : SMap GraphSt) : (s.setGraphs v).snap = s.snap := rfl
@[simp] theorem State.setGraphs_out (s : State) (v : SMap GraphSt) : (s.setGraphs v).out = s.out := rfl
@[simp] theorem State.setGraphs_free (s : State) (v : SMap GraphSt) : (s.setGraphs v).free = s.free := rfl
@[simp] theorem State.setStreams_pending (s : State) (v : SMap StreamSt) : (s.setStreams v).pending = s.pending := rfl
@[simp] theorem State.setStreams_regs (s : State) (v : SMap StreamSt) : (s.setStreams v).regs = s.regs := rfl
@[simp] theorem State.setStreams_errKeys (s : State) (v : SMap StreamSt) : (s.setStreams v).errKeys = s.errKeys := rfl
@[simp] theorem State.setStreams_time (s : State) (v : SMap StreamSt) : (s.setStreams v).time = s.time := rfl
@[simp] theorem State.setStreams_dram (s : State) (v : SMap StreamSt) : (s.setStreams v).dram = s.dram := rfl
@[simp] theorem State.setStreams_cell (s : State) (v : SMap StreamSt) : (s.setStreams v).cell = s.cell := rfl
@[simp] theorem State.setStreams_spad (s : State) (v : SMap StreamSt) : (s.setStreams v).spad = s.spad := rfl
@[simp] theorem State.setStreams_store (s : State) (v : SMap StreamSt) : (s.setStreams v).store = s.store := rfl
@[simp] theorem State.setStreams_stk (s : State) (v : SMap StreamSt) : (s.setStreams v).stk = s.stk := rfl
@[simp] theorem State.setStreams_pch (s : State) (v : SMap StreamSt) : (s.setStreams v).pch = s.pch := rfl
@[simp] theorem State.setStreams_region (s : State) (v : SMap StreamSt) : (s.setStreams v).region = s.region := rfl
@[simp] theorem State.setStreams_dom (s : State) (v : SMap StreamSt) : (s.setStreams v).dom = s.dom := rfl
@[simp] theorem State.setStreams_pwr (s : State) (v : SMap StreamSt) : (s.setStreams v).pwr = s.pwr := rfl
@[simp] theorem State.setStreams_host (s : State) (v : SMap StreamSt) : (s.setStreams v).host = s.host := rfl
@[simp] theorem State.setStreams_rings (s : State) (v : SMap StreamSt) : (s.setStreams v).rings = s.rings := rfl
@[simp] theorem State.setStreams_slots (s : State) (v : SMap StreamSt) : (s.setStreams v).slots = s.slots := rfl
@[simp] theorem State.setStreams_graphs (s : State) (v : SMap StreamSt) : (s.setStreams v).graphs = s.graphs := rfl
@[simp] theorem State.setStreams_streams (s : State) (v : SMap StreamSt) : (s.setStreams v).streams = v := rfl
@[simp] theorem State.setStreams_qps (s : State) (v : SMap StreamSt) : (s.setStreams v).qps = s.qps := rfl
@[simp] theorem State.setStreams_dev (s : State) (v : SMap StreamSt) : (s.setStreams v).dev = s.dev := rfl
@[simp] theorem State.setStreams_flash (s : State) (v : SMap StreamSt) : (s.setStreams v).flash = s.flash := rfl
@[simp] theorem State.setStreams_cores (s : State) (v : SMap StreamSt) : (s.setStreams v).cores = s.cores := rfl
@[simp] theorem State.setStreams_sess (s : State) (v : SMap StreamSt) : (s.setStreams v).sess = s.sess := rfl
@[simp] theorem State.setStreams_conns (s : State) (v : SMap StreamSt) : (s.setStreams v).conns = s.conns := rfl
@[simp] theorem State.setStreams_clu (s : State) (v : SMap StreamSt) : (s.setStreams v).clu = s.clu := rfl
@[simp] theorem State.setStreams_tel (s : State) (v : SMap StreamSt) : (s.setStreams v).tel = s.tel := rfl
@[simp] theorem State.setStreams_dbg (s : State) (v : SMap StreamSt) : (s.setStreams v).dbg = s.dbg := rfl
@[simp] theorem State.setStreams_pins (s : State) (v : SMap StreamSt) : (s.setStreams v).pins = s.pins := rfl
@[simp] theorem State.setStreams_xlat (s : State) (v : SMap StreamSt) : (s.setStreams v).xlat = s.xlat := rfl
@[simp] theorem State.setStreams_invQ (s : State) (v : SMap StreamSt) : (s.setStreams v).invQ = s.invQ := rfl
@[simp] theorem State.setStreams_pager (s : State) (v : SMap StreamSt) : (s.setStreams v).pager = s.pager := rfl
@[simp] theorem State.setStreams_sync (s : State) (v : SMap StreamSt) : (s.setStreams v).sync = s.sync := rfl
@[simp] theorem State.setStreams_disp (s : State) (v : SMap StreamSt) : (s.setStreams v).disp = s.disp := rfl
@[simp] theorem State.setStreams_comet (s : State) (v : SMap StreamSt) : (s.setStreams v).comet = s.comet := rfl
@[simp] theorem State.setStreams_wv (s : State) (v : SMap StreamSt) : (s.setStreams v).wv = s.wv := rfl
@[simp] theorem State.setStreams_gdesc (s : State) (v : SMap StreamSt) : (s.setStreams v).gdesc = s.gdesc := rfl
@[simp] theorem State.setStreams_emb (s : State) (v : SMap StreamSt) : (s.setStreams v).emb = s.emb := rfl
@[simp] theorem State.setStreams_parts (s : State) (v : SMap StreamSt) : (s.setStreams v).parts = s.parts := rfl
@[simp] theorem State.setStreams_batches (s : State) (v : SMap StreamSt) : (s.setStreams v).batches = s.batches := rfl
@[simp] theorem State.setStreams_swarms (s : State) (v : SMap StreamSt) : (s.setStreams v).swarms = s.swarms := rfl
@[simp] theorem State.setStreams_ids (s : State) (v : SMap StreamSt) : (s.setStreams v).ids = s.ids := rfl
@[simp] theorem State.setStreams_mig (s : State) (v : SMap StreamSt) : (s.setStreams v).mig = s.mig := rfl
@[simp] theorem State.setStreams_moves (s : State) (v : SMap StreamSt) : (s.setStreams v).moves = s.moves := rfl
@[simp] theorem State.setStreams_mat (s : State) (v : SMap StreamSt) : (s.setStreams v).mat = s.mat := rfl
@[simp] theorem State.setStreams_relay (s : State) (v : SMap StreamSt) : (s.setStreams v).relay = s.relay := rfl
@[simp] theorem State.setStreams_gmx (s : State) (v : SMap StreamSt) : (s.setStreams v).gmx = s.gmx := rfl
@[simp] theorem State.setStreams_vec (s : State) (v : SMap StreamSt) : (s.setStreams v).vec = s.vec := rfl
@[simp] theorem State.setStreams_eth (s : State) (v : SMap StreamSt) : (s.setStreams v).eth = s.eth := rfl
@[simp] theorem State.setStreams_served (s : State) (v : SMap StreamSt) : (s.setStreams v).served = s.served := rfl
@[simp] theorem State.setStreams_frames (s : State) (v : SMap StreamSt) : (s.setStreams v).frames = s.frames := rfl
@[simp] theorem State.setStreams_snap (s : State) (v : SMap StreamSt) : (s.setStreams v).snap = s.snap := rfl
@[simp] theorem State.setStreams_out (s : State) (v : SMap StreamSt) : (s.setStreams v).out = s.out := rfl
@[simp] theorem State.setStreams_free (s : State) (v : SMap StreamSt) : (s.setStreams v).free = s.free := rfl
@[simp] theorem State.setQps_pending (s : State) (v : SMap QpSt) : (s.setQps v).pending = s.pending := rfl
@[simp] theorem State.setQps_regs (s : State) (v : SMap QpSt) : (s.setQps v).regs = s.regs := rfl
@[simp] theorem State.setQps_errKeys (s : State) (v : SMap QpSt) : (s.setQps v).errKeys = s.errKeys := rfl
@[simp] theorem State.setQps_time (s : State) (v : SMap QpSt) : (s.setQps v).time = s.time := rfl
@[simp] theorem State.setQps_dram (s : State) (v : SMap QpSt) : (s.setQps v).dram = s.dram := rfl
@[simp] theorem State.setQps_cell (s : State) (v : SMap QpSt) : (s.setQps v).cell = s.cell := rfl
@[simp] theorem State.setQps_spad (s : State) (v : SMap QpSt) : (s.setQps v).spad = s.spad := rfl
@[simp] theorem State.setQps_store (s : State) (v : SMap QpSt) : (s.setQps v).store = s.store := rfl
@[simp] theorem State.setQps_stk (s : State) (v : SMap QpSt) : (s.setQps v).stk = s.stk := rfl
@[simp] theorem State.setQps_pch (s : State) (v : SMap QpSt) : (s.setQps v).pch = s.pch := rfl
@[simp] theorem State.setQps_region (s : State) (v : SMap QpSt) : (s.setQps v).region = s.region := rfl
@[simp] theorem State.setQps_dom (s : State) (v : SMap QpSt) : (s.setQps v).dom = s.dom := rfl
@[simp] theorem State.setQps_pwr (s : State) (v : SMap QpSt) : (s.setQps v).pwr = s.pwr := rfl
@[simp] theorem State.setQps_host (s : State) (v : SMap QpSt) : (s.setQps v).host = s.host := rfl
@[simp] theorem State.setQps_rings (s : State) (v : SMap QpSt) : (s.setQps v).rings = s.rings := rfl
@[simp] theorem State.setQps_slots (s : State) (v : SMap QpSt) : (s.setQps v).slots = s.slots := rfl
@[simp] theorem State.setQps_graphs (s : State) (v : SMap QpSt) : (s.setQps v).graphs = s.graphs := rfl
@[simp] theorem State.setQps_streams (s : State) (v : SMap QpSt) : (s.setQps v).streams = s.streams := rfl
@[simp] theorem State.setQps_qps (s : State) (v : SMap QpSt) : (s.setQps v).qps = v := rfl
@[simp] theorem State.setQps_dev (s : State) (v : SMap QpSt) : (s.setQps v).dev = s.dev := rfl
@[simp] theorem State.setQps_flash (s : State) (v : SMap QpSt) : (s.setQps v).flash = s.flash := rfl
@[simp] theorem State.setQps_cores (s : State) (v : SMap QpSt) : (s.setQps v).cores = s.cores := rfl
@[simp] theorem State.setQps_sess (s : State) (v : SMap QpSt) : (s.setQps v).sess = s.sess := rfl
@[simp] theorem State.setQps_conns (s : State) (v : SMap QpSt) : (s.setQps v).conns = s.conns := rfl
@[simp] theorem State.setQps_clu (s : State) (v : SMap QpSt) : (s.setQps v).clu = s.clu := rfl
@[simp] theorem State.setQps_tel (s : State) (v : SMap QpSt) : (s.setQps v).tel = s.tel := rfl
@[simp] theorem State.setQps_dbg (s : State) (v : SMap QpSt) : (s.setQps v).dbg = s.dbg := rfl
@[simp] theorem State.setQps_pins (s : State) (v : SMap QpSt) : (s.setQps v).pins = s.pins := rfl
@[simp] theorem State.setQps_xlat (s : State) (v : SMap QpSt) : (s.setQps v).xlat = s.xlat := rfl
@[simp] theorem State.setQps_invQ (s : State) (v : SMap QpSt) : (s.setQps v).invQ = s.invQ := rfl
@[simp] theorem State.setQps_pager (s : State) (v : SMap QpSt) : (s.setQps v).pager = s.pager := rfl
@[simp] theorem State.setQps_sync (s : State) (v : SMap QpSt) : (s.setQps v).sync = s.sync := rfl
@[simp] theorem State.setQps_disp (s : State) (v : SMap QpSt) : (s.setQps v).disp = s.disp := rfl
@[simp] theorem State.setQps_comet (s : State) (v : SMap QpSt) : (s.setQps v).comet = s.comet := rfl
@[simp] theorem State.setQps_wv (s : State) (v : SMap QpSt) : (s.setQps v).wv = s.wv := rfl
@[simp] theorem State.setQps_gdesc (s : State) (v : SMap QpSt) : (s.setQps v).gdesc = s.gdesc := rfl
@[simp] theorem State.setQps_emb (s : State) (v : SMap QpSt) : (s.setQps v).emb = s.emb := rfl
@[simp] theorem State.setQps_parts (s : State) (v : SMap QpSt) : (s.setQps v).parts = s.parts := rfl
@[simp] theorem State.setQps_batches (s : State) (v : SMap QpSt) : (s.setQps v).batches = s.batches := rfl
@[simp] theorem State.setQps_swarms (s : State) (v : SMap QpSt) : (s.setQps v).swarms = s.swarms := rfl
@[simp] theorem State.setQps_ids (s : State) (v : SMap QpSt) : (s.setQps v).ids = s.ids := rfl
@[simp] theorem State.setQps_mig (s : State) (v : SMap QpSt) : (s.setQps v).mig = s.mig := rfl
@[simp] theorem State.setQps_moves (s : State) (v : SMap QpSt) : (s.setQps v).moves = s.moves := rfl
@[simp] theorem State.setQps_mat (s : State) (v : SMap QpSt) : (s.setQps v).mat = s.mat := rfl
@[simp] theorem State.setQps_relay (s : State) (v : SMap QpSt) : (s.setQps v).relay = s.relay := rfl
@[simp] theorem State.setQps_gmx (s : State) (v : SMap QpSt) : (s.setQps v).gmx = s.gmx := rfl
@[simp] theorem State.setQps_vec (s : State) (v : SMap QpSt) : (s.setQps v).vec = s.vec := rfl
@[simp] theorem State.setQps_eth (s : State) (v : SMap QpSt) : (s.setQps v).eth = s.eth := rfl
@[simp] theorem State.setQps_served (s : State) (v : SMap QpSt) : (s.setQps v).served = s.served := rfl
@[simp] theorem State.setQps_frames (s : State) (v : SMap QpSt) : (s.setQps v).frames = s.frames := rfl
@[simp] theorem State.setQps_snap (s : State) (v : SMap QpSt) : (s.setQps v).snap = s.snap := rfl
@[simp] theorem State.setQps_out (s : State) (v : SMap QpSt) : (s.setQps v).out = s.out := rfl
@[simp] theorem State.setQps_free (s : State) (v : SMap QpSt) : (s.setQps v).free = s.free := rfl
@[simp] theorem State.setDev_pending (s : State) (v : DevSt) : (s.setDev v).pending = s.pending := rfl
@[simp] theorem State.setDev_regs (s : State) (v : DevSt) : (s.setDev v).regs = s.regs := rfl
@[simp] theorem State.setDev_errKeys (s : State) (v : DevSt) : (s.setDev v).errKeys = s.errKeys := rfl
@[simp] theorem State.setDev_time (s : State) (v : DevSt) : (s.setDev v).time = s.time := rfl
@[simp] theorem State.setDev_dram (s : State) (v : DevSt) : (s.setDev v).dram = s.dram := rfl
@[simp] theorem State.setDev_cell (s : State) (v : DevSt) : (s.setDev v).cell = s.cell := rfl
@[simp] theorem State.setDev_spad (s : State) (v : DevSt) : (s.setDev v).spad = s.spad := rfl
@[simp] theorem State.setDev_store (s : State) (v : DevSt) : (s.setDev v).store = s.store := rfl
@[simp] theorem State.setDev_stk (s : State) (v : DevSt) : (s.setDev v).stk = s.stk := rfl
@[simp] theorem State.setDev_pch (s : State) (v : DevSt) : (s.setDev v).pch = s.pch := rfl
@[simp] theorem State.setDev_region (s : State) (v : DevSt) : (s.setDev v).region = s.region := rfl
@[simp] theorem State.setDev_dom (s : State) (v : DevSt) : (s.setDev v).dom = s.dom := rfl
@[simp] theorem State.setDev_pwr (s : State) (v : DevSt) : (s.setDev v).pwr = s.pwr := rfl
@[simp] theorem State.setDev_host (s : State) (v : DevSt) : (s.setDev v).host = s.host := rfl
@[simp] theorem State.setDev_rings (s : State) (v : DevSt) : (s.setDev v).rings = s.rings := rfl
@[simp] theorem State.setDev_slots (s : State) (v : DevSt) : (s.setDev v).slots = s.slots := rfl
@[simp] theorem State.setDev_graphs (s : State) (v : DevSt) : (s.setDev v).graphs = s.graphs := rfl
@[simp] theorem State.setDev_streams (s : State) (v : DevSt) : (s.setDev v).streams = s.streams := rfl
@[simp] theorem State.setDev_qps (s : State) (v : DevSt) : (s.setDev v).qps = s.qps := rfl
@[simp] theorem State.setDev_dev (s : State) (v : DevSt) : (s.setDev v).dev = v := rfl
@[simp] theorem State.setDev_flash (s : State) (v : DevSt) : (s.setDev v).flash = s.flash := rfl
@[simp] theorem State.setDev_cores (s : State) (v : DevSt) : (s.setDev v).cores = s.cores := rfl
@[simp] theorem State.setDev_sess (s : State) (v : DevSt) : (s.setDev v).sess = s.sess := rfl
@[simp] theorem State.setDev_conns (s : State) (v : DevSt) : (s.setDev v).conns = s.conns := rfl
@[simp] theorem State.setDev_clu (s : State) (v : DevSt) : (s.setDev v).clu = s.clu := rfl
@[simp] theorem State.setDev_tel (s : State) (v : DevSt) : (s.setDev v).tel = s.tel := rfl
@[simp] theorem State.setDev_dbg (s : State) (v : DevSt) : (s.setDev v).dbg = s.dbg := rfl
@[simp] theorem State.setDev_pins (s : State) (v : DevSt) : (s.setDev v).pins = s.pins := rfl
@[simp] theorem State.setDev_xlat (s : State) (v : DevSt) : (s.setDev v).xlat = s.xlat := rfl
@[simp] theorem State.setDev_invQ (s : State) (v : DevSt) : (s.setDev v).invQ = s.invQ := rfl
@[simp] theorem State.setDev_pager (s : State) (v : DevSt) : (s.setDev v).pager = s.pager := rfl
@[simp] theorem State.setDev_sync (s : State) (v : DevSt) : (s.setDev v).sync = s.sync := rfl
@[simp] theorem State.setDev_disp (s : State) (v : DevSt) : (s.setDev v).disp = s.disp := rfl
@[simp] theorem State.setDev_comet (s : State) (v : DevSt) : (s.setDev v).comet = s.comet := rfl
@[simp] theorem State.setDev_wv (s : State) (v : DevSt) : (s.setDev v).wv = s.wv := rfl
@[simp] theorem State.setDev_gdesc (s : State) (v : DevSt) : (s.setDev v).gdesc = s.gdesc := rfl
@[simp] theorem State.setDev_emb (s : State) (v : DevSt) : (s.setDev v).emb = s.emb := rfl
@[simp] theorem State.setDev_parts (s : State) (v : DevSt) : (s.setDev v).parts = s.parts := rfl
@[simp] theorem State.setDev_batches (s : State) (v : DevSt) : (s.setDev v).batches = s.batches := rfl
@[simp] theorem State.setDev_swarms (s : State) (v : DevSt) : (s.setDev v).swarms = s.swarms := rfl
@[simp] theorem State.setDev_ids (s : State) (v : DevSt) : (s.setDev v).ids = s.ids := rfl
@[simp] theorem State.setDev_mig (s : State) (v : DevSt) : (s.setDev v).mig = s.mig := rfl
@[simp] theorem State.setDev_moves (s : State) (v : DevSt) : (s.setDev v).moves = s.moves := rfl
@[simp] theorem State.setDev_mat (s : State) (v : DevSt) : (s.setDev v).mat = s.mat := rfl
@[simp] theorem State.setDev_relay (s : State) (v : DevSt) : (s.setDev v).relay = s.relay := rfl
@[simp] theorem State.setDev_gmx (s : State) (v : DevSt) : (s.setDev v).gmx = s.gmx := rfl
@[simp] theorem State.setDev_vec (s : State) (v : DevSt) : (s.setDev v).vec = s.vec := rfl
@[simp] theorem State.setDev_eth (s : State) (v : DevSt) : (s.setDev v).eth = s.eth := rfl
@[simp] theorem State.setDev_served (s : State) (v : DevSt) : (s.setDev v).served = s.served := rfl
@[simp] theorem State.setDev_frames (s : State) (v : DevSt) : (s.setDev v).frames = s.frames := rfl
@[simp] theorem State.setDev_snap (s : State) (v : DevSt) : (s.setDev v).snap = s.snap := rfl
@[simp] theorem State.setDev_out (s : State) (v : DevSt) : (s.setDev v).out = s.out := rfl
@[simp] theorem State.setDev_free (s : State) (v : DevSt) : (s.setDev v).free = s.free := rfl
@[simp] theorem State.setFlash_pending (s : State) (v : FlashSt) : (s.setFlash v).pending = s.pending := rfl
@[simp] theorem State.setFlash_regs (s : State) (v : FlashSt) : (s.setFlash v).regs = s.regs := rfl
@[simp] theorem State.setFlash_errKeys (s : State) (v : FlashSt) : (s.setFlash v).errKeys = s.errKeys := rfl
@[simp] theorem State.setFlash_time (s : State) (v : FlashSt) : (s.setFlash v).time = s.time := rfl
@[simp] theorem State.setFlash_dram (s : State) (v : FlashSt) : (s.setFlash v).dram = s.dram := rfl
@[simp] theorem State.setFlash_cell (s : State) (v : FlashSt) : (s.setFlash v).cell = s.cell := rfl
@[simp] theorem State.setFlash_spad (s : State) (v : FlashSt) : (s.setFlash v).spad = s.spad := rfl
@[simp] theorem State.setFlash_store (s : State) (v : FlashSt) : (s.setFlash v).store = s.store := rfl
@[simp] theorem State.setFlash_stk (s : State) (v : FlashSt) : (s.setFlash v).stk = s.stk := rfl
@[simp] theorem State.setFlash_pch (s : State) (v : FlashSt) : (s.setFlash v).pch = s.pch := rfl
@[simp] theorem State.setFlash_region (s : State) (v : FlashSt) : (s.setFlash v).region = s.region := rfl
@[simp] theorem State.setFlash_dom (s : State) (v : FlashSt) : (s.setFlash v).dom = s.dom := rfl
@[simp] theorem State.setFlash_pwr (s : State) (v : FlashSt) : (s.setFlash v).pwr = s.pwr := rfl
@[simp] theorem State.setFlash_host (s : State) (v : FlashSt) : (s.setFlash v).host = s.host := rfl
@[simp] theorem State.setFlash_rings (s : State) (v : FlashSt) : (s.setFlash v).rings = s.rings := rfl
@[simp] theorem State.setFlash_slots (s : State) (v : FlashSt) : (s.setFlash v).slots = s.slots := rfl
@[simp] theorem State.setFlash_graphs (s : State) (v : FlashSt) : (s.setFlash v).graphs = s.graphs := rfl
@[simp] theorem State.setFlash_streams (s : State) (v : FlashSt) : (s.setFlash v).streams = s.streams := rfl
@[simp] theorem State.setFlash_qps (s : State) (v : FlashSt) : (s.setFlash v).qps = s.qps := rfl
@[simp] theorem State.setFlash_dev (s : State) (v : FlashSt) : (s.setFlash v).dev = s.dev := rfl
@[simp] theorem State.setFlash_flash (s : State) (v : FlashSt) : (s.setFlash v).flash = v := rfl
@[simp] theorem State.setFlash_cores (s : State) (v : FlashSt) : (s.setFlash v).cores = s.cores := rfl
@[simp] theorem State.setFlash_sess (s : State) (v : FlashSt) : (s.setFlash v).sess = s.sess := rfl
@[simp] theorem State.setFlash_conns (s : State) (v : FlashSt) : (s.setFlash v).conns = s.conns := rfl
@[simp] theorem State.setFlash_clu (s : State) (v : FlashSt) : (s.setFlash v).clu = s.clu := rfl
@[simp] theorem State.setFlash_tel (s : State) (v : FlashSt) : (s.setFlash v).tel = s.tel := rfl
@[simp] theorem State.setFlash_dbg (s : State) (v : FlashSt) : (s.setFlash v).dbg = s.dbg := rfl
@[simp] theorem State.setFlash_pins (s : State) (v : FlashSt) : (s.setFlash v).pins = s.pins := rfl
@[simp] theorem State.setFlash_xlat (s : State) (v : FlashSt) : (s.setFlash v).xlat = s.xlat := rfl
@[simp] theorem State.setFlash_invQ (s : State) (v : FlashSt) : (s.setFlash v).invQ = s.invQ := rfl
@[simp] theorem State.setFlash_pager (s : State) (v : FlashSt) : (s.setFlash v).pager = s.pager := rfl
@[simp] theorem State.setFlash_sync (s : State) (v : FlashSt) : (s.setFlash v).sync = s.sync := rfl
@[simp] theorem State.setFlash_disp (s : State) (v : FlashSt) : (s.setFlash v).disp = s.disp := rfl
@[simp] theorem State.setFlash_comet (s : State) (v : FlashSt) : (s.setFlash v).comet = s.comet := rfl
@[simp] theorem State.setFlash_wv (s : State) (v : FlashSt) : (s.setFlash v).wv = s.wv := rfl
@[simp] theorem State.setFlash_gdesc (s : State) (v : FlashSt) : (s.setFlash v).gdesc = s.gdesc := rfl
@[simp] theorem State.setFlash_emb (s : State) (v : FlashSt) : (s.setFlash v).emb = s.emb := rfl
@[simp] theorem State.setFlash_parts (s : State) (v : FlashSt) : (s.setFlash v).parts = s.parts := rfl
@[simp] theorem State.setFlash_batches (s : State) (v : FlashSt) : (s.setFlash v).batches = s.batches := rfl
@[simp] theorem State.setFlash_swarms (s : State) (v : FlashSt) : (s.setFlash v).swarms = s.swarms := rfl
@[simp] theorem State.setFlash_ids (s : State) (v : FlashSt) : (s.setFlash v).ids = s.ids := rfl
@[simp] theorem State.setFlash_mig (s : State) (v : FlashSt) : (s.setFlash v).mig = s.mig := rfl
@[simp] theorem State.setFlash_moves (s : State) (v : FlashSt) : (s.setFlash v).moves = s.moves := rfl
@[simp] theorem State.setFlash_mat (s : State) (v : FlashSt) : (s.setFlash v).mat = s.mat := rfl
@[simp] theorem State.setFlash_relay (s : State) (v : FlashSt) : (s.setFlash v).relay = s.relay := rfl
@[simp] theorem State.setFlash_gmx (s : State) (v : FlashSt) : (s.setFlash v).gmx = s.gmx := rfl
@[simp] theorem State.setFlash_vec (s : State) (v : FlashSt) : (s.setFlash v).vec = s.vec := rfl
@[simp] theorem State.setFlash_eth (s : State) (v : FlashSt) : (s.setFlash v).eth = s.eth := rfl
@[simp] theorem State.setFlash_served (s : State) (v : FlashSt) : (s.setFlash v).served = s.served := rfl
@[simp] theorem State.setFlash_frames (s : State) (v : FlashSt) : (s.setFlash v).frames = s.frames := rfl
@[simp] theorem State.setFlash_snap (s : State) (v : FlashSt) : (s.setFlash v).snap = s.snap := rfl
@[simp] theorem State.setFlash_out (s : State) (v : FlashSt) : (s.setFlash v).out = s.out := rfl
@[simp] theorem State.setFlash_free (s : State) (v : FlashSt) : (s.setFlash v).free = s.free := rfl
@[simp] theorem State.setCores_pending (s : State) (v : SMap CoreSt) : (s.setCores v).pending = s.pending := rfl
@[simp] theorem State.setCores_regs (s : State) (v : SMap CoreSt) : (s.setCores v).regs = s.regs := rfl
@[simp] theorem State.setCores_errKeys (s : State) (v : SMap CoreSt) : (s.setCores v).errKeys = s.errKeys := rfl
@[simp] theorem State.setCores_time (s : State) (v : SMap CoreSt) : (s.setCores v).time = s.time := rfl
@[simp] theorem State.setCores_dram (s : State) (v : SMap CoreSt) : (s.setCores v).dram = s.dram := rfl
@[simp] theorem State.setCores_cell (s : State) (v : SMap CoreSt) : (s.setCores v).cell = s.cell := rfl
@[simp] theorem State.setCores_spad (s : State) (v : SMap CoreSt) : (s.setCores v).spad = s.spad := rfl
@[simp] theorem State.setCores_store (s : State) (v : SMap CoreSt) : (s.setCores v).store = s.store := rfl
@[simp] theorem State.setCores_stk (s : State) (v : SMap CoreSt) : (s.setCores v).stk = s.stk := rfl
@[simp] theorem State.setCores_pch (s : State) (v : SMap CoreSt) : (s.setCores v).pch = s.pch := rfl
@[simp] theorem State.setCores_region (s : State) (v : SMap CoreSt) : (s.setCores v).region = s.region := rfl
@[simp] theorem State.setCores_dom (s : State) (v : SMap CoreSt) : (s.setCores v).dom = s.dom := rfl
@[simp] theorem State.setCores_pwr (s : State) (v : SMap CoreSt) : (s.setCores v).pwr = s.pwr := rfl
@[simp] theorem State.setCores_host (s : State) (v : SMap CoreSt) : (s.setCores v).host = s.host := rfl
@[simp] theorem State.setCores_rings (s : State) (v : SMap CoreSt) : (s.setCores v).rings = s.rings := rfl
@[simp] theorem State.setCores_slots (s : State) (v : SMap CoreSt) : (s.setCores v).slots = s.slots := rfl
@[simp] theorem State.setCores_graphs (s : State) (v : SMap CoreSt) : (s.setCores v).graphs = s.graphs := rfl
@[simp] theorem State.setCores_streams (s : State) (v : SMap CoreSt) : (s.setCores v).streams = s.streams := rfl
@[simp] theorem State.setCores_qps (s : State) (v : SMap CoreSt) : (s.setCores v).qps = s.qps := rfl
@[simp] theorem State.setCores_dev (s : State) (v : SMap CoreSt) : (s.setCores v).dev = s.dev := rfl
@[simp] theorem State.setCores_flash (s : State) (v : SMap CoreSt) : (s.setCores v).flash = s.flash := rfl
@[simp] theorem State.setCores_cores (s : State) (v : SMap CoreSt) : (s.setCores v).cores = v := rfl
@[simp] theorem State.setCores_sess (s : State) (v : SMap CoreSt) : (s.setCores v).sess = s.sess := rfl
@[simp] theorem State.setCores_conns (s : State) (v : SMap CoreSt) : (s.setCores v).conns = s.conns := rfl
@[simp] theorem State.setCores_clu (s : State) (v : SMap CoreSt) : (s.setCores v).clu = s.clu := rfl
@[simp] theorem State.setCores_tel (s : State) (v : SMap CoreSt) : (s.setCores v).tel = s.tel := rfl
@[simp] theorem State.setCores_dbg (s : State) (v : SMap CoreSt) : (s.setCores v).dbg = s.dbg := rfl
@[simp] theorem State.setCores_pins (s : State) (v : SMap CoreSt) : (s.setCores v).pins = s.pins := rfl
@[simp] theorem State.setCores_xlat (s : State) (v : SMap CoreSt) : (s.setCores v).xlat = s.xlat := rfl
@[simp] theorem State.setCores_invQ (s : State) (v : SMap CoreSt) : (s.setCores v).invQ = s.invQ := rfl
@[simp] theorem State.setCores_pager (s : State) (v : SMap CoreSt) : (s.setCores v).pager = s.pager := rfl
@[simp] theorem State.setCores_sync (s : State) (v : SMap CoreSt) : (s.setCores v).sync = s.sync := rfl
@[simp] theorem State.setCores_disp (s : State) (v : SMap CoreSt) : (s.setCores v).disp = s.disp := rfl
@[simp] theorem State.setCores_comet (s : State) (v : SMap CoreSt) : (s.setCores v).comet = s.comet := rfl
@[simp] theorem State.setCores_wv (s : State) (v : SMap CoreSt) : (s.setCores v).wv = s.wv := rfl
@[simp] theorem State.setCores_gdesc (s : State) (v : SMap CoreSt) : (s.setCores v).gdesc = s.gdesc := rfl
@[simp] theorem State.setCores_emb (s : State) (v : SMap CoreSt) : (s.setCores v).emb = s.emb := rfl
@[simp] theorem State.setCores_parts (s : State) (v : SMap CoreSt) : (s.setCores v).parts = s.parts := rfl
@[simp] theorem State.setCores_batches (s : State) (v : SMap CoreSt) : (s.setCores v).batches = s.batches := rfl
@[simp] theorem State.setCores_swarms (s : State) (v : SMap CoreSt) : (s.setCores v).swarms = s.swarms := rfl
@[simp] theorem State.setCores_ids (s : State) (v : SMap CoreSt) : (s.setCores v).ids = s.ids := rfl
@[simp] theorem State.setCores_mig (s : State) (v : SMap CoreSt) : (s.setCores v).mig = s.mig := rfl
@[simp] theorem State.setCores_moves (s : State) (v : SMap CoreSt) : (s.setCores v).moves = s.moves := rfl
@[simp] theorem State.setCores_mat (s : State) (v : SMap CoreSt) : (s.setCores v).mat = s.mat := rfl
@[simp] theorem State.setCores_relay (s : State) (v : SMap CoreSt) : (s.setCores v).relay = s.relay := rfl
@[simp] theorem State.setCores_gmx (s : State) (v : SMap CoreSt) : (s.setCores v).gmx = s.gmx := rfl
@[simp] theorem State.setCores_vec (s : State) (v : SMap CoreSt) : (s.setCores v).vec = s.vec := rfl
@[simp] theorem State.setCores_eth (s : State) (v : SMap CoreSt) : (s.setCores v).eth = s.eth := rfl
@[simp] theorem State.setCores_served (s : State) (v : SMap CoreSt) : (s.setCores v).served = s.served := rfl
@[simp] theorem State.setCores_frames (s : State) (v : SMap CoreSt) : (s.setCores v).frames = s.frames := rfl
@[simp] theorem State.setCores_snap (s : State) (v : SMap CoreSt) : (s.setCores v).snap = s.snap := rfl
@[simp] theorem State.setCores_out (s : State) (v : SMap CoreSt) : (s.setCores v).out = s.out := rfl
@[simp] theorem State.setCores_free (s : State) (v : SMap CoreSt) : (s.setCores v).free = s.free := rfl
@[simp] theorem State.setSess_pending (s : State) (v : SMap SessSt) : (s.setSess v).pending = s.pending := rfl
@[simp] theorem State.setSess_regs (s : State) (v : SMap SessSt) : (s.setSess v).regs = s.regs := rfl
@[simp] theorem State.setSess_errKeys (s : State) (v : SMap SessSt) : (s.setSess v).errKeys = s.errKeys := rfl
@[simp] theorem State.setSess_time (s : State) (v : SMap SessSt) : (s.setSess v).time = s.time := rfl
@[simp] theorem State.setSess_dram (s : State) (v : SMap SessSt) : (s.setSess v).dram = s.dram := rfl
@[simp] theorem State.setSess_cell (s : State) (v : SMap SessSt) : (s.setSess v).cell = s.cell := rfl
@[simp] theorem State.setSess_spad (s : State) (v : SMap SessSt) : (s.setSess v).spad = s.spad := rfl
@[simp] theorem State.setSess_store (s : State) (v : SMap SessSt) : (s.setSess v).store = s.store := rfl
@[simp] theorem State.setSess_stk (s : State) (v : SMap SessSt) : (s.setSess v).stk = s.stk := rfl
@[simp] theorem State.setSess_pch (s : State) (v : SMap SessSt) : (s.setSess v).pch = s.pch := rfl
@[simp] theorem State.setSess_region (s : State) (v : SMap SessSt) : (s.setSess v).region = s.region := rfl
@[simp] theorem State.setSess_dom (s : State) (v : SMap SessSt) : (s.setSess v).dom = s.dom := rfl
@[simp] theorem State.setSess_pwr (s : State) (v : SMap SessSt) : (s.setSess v).pwr = s.pwr := rfl
@[simp] theorem State.setSess_host (s : State) (v : SMap SessSt) : (s.setSess v).host = s.host := rfl
@[simp] theorem State.setSess_rings (s : State) (v : SMap SessSt) : (s.setSess v).rings = s.rings := rfl
@[simp] theorem State.setSess_slots (s : State) (v : SMap SessSt) : (s.setSess v).slots = s.slots := rfl
@[simp] theorem State.setSess_graphs (s : State) (v : SMap SessSt) : (s.setSess v).graphs = s.graphs := rfl
@[simp] theorem State.setSess_streams (s : State) (v : SMap SessSt) : (s.setSess v).streams = s.streams := rfl
@[simp] theorem State.setSess_qps (s : State) (v : SMap SessSt) : (s.setSess v).qps = s.qps := rfl
@[simp] theorem State.setSess_dev (s : State) (v : SMap SessSt) : (s.setSess v).dev = s.dev := rfl
@[simp] theorem State.setSess_flash (s : State) (v : SMap SessSt) : (s.setSess v).flash = s.flash := rfl
@[simp] theorem State.setSess_cores (s : State) (v : SMap SessSt) : (s.setSess v).cores = s.cores := rfl
@[simp] theorem State.setSess_sess (s : State) (v : SMap SessSt) : (s.setSess v).sess = v := rfl
@[simp] theorem State.setSess_conns (s : State) (v : SMap SessSt) : (s.setSess v).conns = s.conns := rfl
@[simp] theorem State.setSess_clu (s : State) (v : SMap SessSt) : (s.setSess v).clu = s.clu := rfl
@[simp] theorem State.setSess_tel (s : State) (v : SMap SessSt) : (s.setSess v).tel = s.tel := rfl
@[simp] theorem State.setSess_dbg (s : State) (v : SMap SessSt) : (s.setSess v).dbg = s.dbg := rfl
@[simp] theorem State.setSess_pins (s : State) (v : SMap SessSt) : (s.setSess v).pins = s.pins := rfl
@[simp] theorem State.setSess_xlat (s : State) (v : SMap SessSt) : (s.setSess v).xlat = s.xlat := rfl
@[simp] theorem State.setSess_invQ (s : State) (v : SMap SessSt) : (s.setSess v).invQ = s.invQ := rfl
@[simp] theorem State.setSess_pager (s : State) (v : SMap SessSt) : (s.setSess v).pager = s.pager := rfl
@[simp] theorem State.setSess_sync (s : State) (v : SMap SessSt) : (s.setSess v).sync = s.sync := rfl
@[simp] theorem State.setSess_disp (s : State) (v : SMap SessSt) : (s.setSess v).disp = s.disp := rfl
@[simp] theorem State.setSess_comet (s : State) (v : SMap SessSt) : (s.setSess v).comet = s.comet := rfl
@[simp] theorem State.setSess_wv (s : State) (v : SMap SessSt) : (s.setSess v).wv = s.wv := rfl
@[simp] theorem State.setSess_gdesc (s : State) (v : SMap SessSt) : (s.setSess v).gdesc = s.gdesc := rfl
@[simp] theorem State.setSess_emb (s : State) (v : SMap SessSt) : (s.setSess v).emb = s.emb := rfl
@[simp] theorem State.setSess_parts (s : State) (v : SMap SessSt) : (s.setSess v).parts = s.parts := rfl
@[simp] theorem State.setSess_batches (s : State) (v : SMap SessSt) : (s.setSess v).batches = s.batches := rfl
@[simp] theorem State.setSess_swarms (s : State) (v : SMap SessSt) : (s.setSess v).swarms = s.swarms := rfl
@[simp] theorem State.setSess_ids (s : State) (v : SMap SessSt) : (s.setSess v).ids = s.ids := rfl
@[simp] theorem State.setSess_mig (s : State) (v : SMap SessSt) : (s.setSess v).mig = s.mig := rfl
@[simp] theorem State.setSess_moves (s : State) (v : SMap SessSt) : (s.setSess v).moves = s.moves := rfl
@[simp] theorem State.setSess_mat (s : State) (v : SMap SessSt) : (s.setSess v).mat = s.mat := rfl
@[simp] theorem State.setSess_relay (s : State) (v : SMap SessSt) : (s.setSess v).relay = s.relay := rfl
@[simp] theorem State.setSess_gmx (s : State) (v : SMap SessSt) : (s.setSess v).gmx = s.gmx := rfl
@[simp] theorem State.setSess_vec (s : State) (v : SMap SessSt) : (s.setSess v).vec = s.vec := rfl
@[simp] theorem State.setSess_eth (s : State) (v : SMap SessSt) : (s.setSess v).eth = s.eth := rfl
@[simp] theorem State.setSess_served (s : State) (v : SMap SessSt) : (s.setSess v).served = s.served := rfl
@[simp] theorem State.setSess_frames (s : State) (v : SMap SessSt) : (s.setSess v).frames = s.frames := rfl
@[simp] theorem State.setSess_snap (s : State) (v : SMap SessSt) : (s.setSess v).snap = s.snap := rfl
@[simp] theorem State.setSess_out (s : State) (v : SMap SessSt) : (s.setSess v).out = s.out := rfl
@[simp] theorem State.setSess_free (s : State) (v : SMap SessSt) : (s.setSess v).free = s.free := rfl
@[simp] theorem State.setConns_pending (s : State) (v : SMap SpdmConn) : (s.setConns v).pending = s.pending := rfl
@[simp] theorem State.setConns_regs (s : State) (v : SMap SpdmConn) : (s.setConns v).regs = s.regs := rfl
@[simp] theorem State.setConns_errKeys (s : State) (v : SMap SpdmConn) : (s.setConns v).errKeys = s.errKeys := rfl
@[simp] theorem State.setConns_time (s : State) (v : SMap SpdmConn) : (s.setConns v).time = s.time := rfl
@[simp] theorem State.setConns_dram (s : State) (v : SMap SpdmConn) : (s.setConns v).dram = s.dram := rfl
@[simp] theorem State.setConns_cell (s : State) (v : SMap SpdmConn) : (s.setConns v).cell = s.cell := rfl
@[simp] theorem State.setConns_spad (s : State) (v : SMap SpdmConn) : (s.setConns v).spad = s.spad := rfl
@[simp] theorem State.setConns_store (s : State) (v : SMap SpdmConn) : (s.setConns v).store = s.store := rfl
@[simp] theorem State.setConns_stk (s : State) (v : SMap SpdmConn) : (s.setConns v).stk = s.stk := rfl
@[simp] theorem State.setConns_pch (s : State) (v : SMap SpdmConn) : (s.setConns v).pch = s.pch := rfl
@[simp] theorem State.setConns_region (s : State) (v : SMap SpdmConn) : (s.setConns v).region = s.region := rfl
@[simp] theorem State.setConns_dom (s : State) (v : SMap SpdmConn) : (s.setConns v).dom = s.dom := rfl
@[simp] theorem State.setConns_pwr (s : State) (v : SMap SpdmConn) : (s.setConns v).pwr = s.pwr := rfl
@[simp] theorem State.setConns_host (s : State) (v : SMap SpdmConn) : (s.setConns v).host = s.host := rfl
@[simp] theorem State.setConns_rings (s : State) (v : SMap SpdmConn) : (s.setConns v).rings = s.rings := rfl
@[simp] theorem State.setConns_slots (s : State) (v : SMap SpdmConn) : (s.setConns v).slots = s.slots := rfl
@[simp] theorem State.setConns_graphs (s : State) (v : SMap SpdmConn) : (s.setConns v).graphs = s.graphs := rfl
@[simp] theorem State.setConns_streams (s : State) (v : SMap SpdmConn) : (s.setConns v).streams = s.streams := rfl
@[simp] theorem State.setConns_qps (s : State) (v : SMap SpdmConn) : (s.setConns v).qps = s.qps := rfl
@[simp] theorem State.setConns_dev (s : State) (v : SMap SpdmConn) : (s.setConns v).dev = s.dev := rfl
@[simp] theorem State.setConns_flash (s : State) (v : SMap SpdmConn) : (s.setConns v).flash = s.flash := rfl
@[simp] theorem State.setConns_cores (s : State) (v : SMap SpdmConn) : (s.setConns v).cores = s.cores := rfl
@[simp] theorem State.setConns_sess (s : State) (v : SMap SpdmConn) : (s.setConns v).sess = s.sess := rfl
@[simp] theorem State.setConns_conns (s : State) (v : SMap SpdmConn) : (s.setConns v).conns = v := rfl
@[simp] theorem State.setConns_clu (s : State) (v : SMap SpdmConn) : (s.setConns v).clu = s.clu := rfl
@[simp] theorem State.setConns_tel (s : State) (v : SMap SpdmConn) : (s.setConns v).tel = s.tel := rfl
@[simp] theorem State.setConns_dbg (s : State) (v : SMap SpdmConn) : (s.setConns v).dbg = s.dbg := rfl
@[simp] theorem State.setConns_pins (s : State) (v : SMap SpdmConn) : (s.setConns v).pins = s.pins := rfl
@[simp] theorem State.setConns_xlat (s : State) (v : SMap SpdmConn) : (s.setConns v).xlat = s.xlat := rfl
@[simp] theorem State.setConns_invQ (s : State) (v : SMap SpdmConn) : (s.setConns v).invQ = s.invQ := rfl
@[simp] theorem State.setConns_pager (s : State) (v : SMap SpdmConn) : (s.setConns v).pager = s.pager := rfl
@[simp] theorem State.setConns_sync (s : State) (v : SMap SpdmConn) : (s.setConns v).sync = s.sync := rfl
@[simp] theorem State.setConns_disp (s : State) (v : SMap SpdmConn) : (s.setConns v).disp = s.disp := rfl
@[simp] theorem State.setConns_comet (s : State) (v : SMap SpdmConn) : (s.setConns v).comet = s.comet := rfl
@[simp] theorem State.setConns_wv (s : State) (v : SMap SpdmConn) : (s.setConns v).wv = s.wv := rfl
@[simp] theorem State.setConns_gdesc (s : State) (v : SMap SpdmConn) : (s.setConns v).gdesc = s.gdesc := rfl
@[simp] theorem State.setConns_emb (s : State) (v : SMap SpdmConn) : (s.setConns v).emb = s.emb := rfl
@[simp] theorem State.setConns_parts (s : State) (v : SMap SpdmConn) : (s.setConns v).parts = s.parts := rfl
@[simp] theorem State.setConns_batches (s : State) (v : SMap SpdmConn) : (s.setConns v).batches = s.batches := rfl
@[simp] theorem State.setConns_swarms (s : State) (v : SMap SpdmConn) : (s.setConns v).swarms = s.swarms := rfl
@[simp] theorem State.setConns_ids (s : State) (v : SMap SpdmConn) : (s.setConns v).ids = s.ids := rfl
@[simp] theorem State.setConns_mig (s : State) (v : SMap SpdmConn) : (s.setConns v).mig = s.mig := rfl
@[simp] theorem State.setConns_moves (s : State) (v : SMap SpdmConn) : (s.setConns v).moves = s.moves := rfl
@[simp] theorem State.setConns_mat (s : State) (v : SMap SpdmConn) : (s.setConns v).mat = s.mat := rfl
@[simp] theorem State.setConns_relay (s : State) (v : SMap SpdmConn) : (s.setConns v).relay = s.relay := rfl
@[simp] theorem State.setConns_gmx (s : State) (v : SMap SpdmConn) : (s.setConns v).gmx = s.gmx := rfl
@[simp] theorem State.setConns_vec (s : State) (v : SMap SpdmConn) : (s.setConns v).vec = s.vec := rfl
@[simp] theorem State.setConns_eth (s : State) (v : SMap SpdmConn) : (s.setConns v).eth = s.eth := rfl
@[simp] theorem State.setConns_served (s : State) (v : SMap SpdmConn) : (s.setConns v).served = s.served := rfl
@[simp] theorem State.setConns_frames (s : State) (v : SMap SpdmConn) : (s.setConns v).frames = s.frames := rfl
@[simp] theorem State.setConns_snap (s : State) (v : SMap SpdmConn) : (s.setConns v).snap = s.snap := rfl
@[simp] theorem State.setConns_out (s : State) (v : SMap SpdmConn) : (s.setConns v).out = s.out := rfl
@[simp] theorem State.setConns_free (s : State) (v : SMap SpdmConn) : (s.setConns v).free = s.free := rfl
@[simp] theorem State.setClu_pending (s : State) (v : SMap CluSt) : (s.setClu v).pending = s.pending := rfl
@[simp] theorem State.setClu_regs (s : State) (v : SMap CluSt) : (s.setClu v).regs = s.regs := rfl
@[simp] theorem State.setClu_errKeys (s : State) (v : SMap CluSt) : (s.setClu v).errKeys = s.errKeys := rfl
@[simp] theorem State.setClu_time (s : State) (v : SMap CluSt) : (s.setClu v).time = s.time := rfl
@[simp] theorem State.setClu_dram (s : State) (v : SMap CluSt) : (s.setClu v).dram = s.dram := rfl
@[simp] theorem State.setClu_cell (s : State) (v : SMap CluSt) : (s.setClu v).cell = s.cell := rfl
@[simp] theorem State.setClu_spad (s : State) (v : SMap CluSt) : (s.setClu v).spad = s.spad := rfl
@[simp] theorem State.setClu_store (s : State) (v : SMap CluSt) : (s.setClu v).store = s.store := rfl
@[simp] theorem State.setClu_stk (s : State) (v : SMap CluSt) : (s.setClu v).stk = s.stk := rfl
@[simp] theorem State.setClu_pch (s : State) (v : SMap CluSt) : (s.setClu v).pch = s.pch := rfl
@[simp] theorem State.setClu_region (s : State) (v : SMap CluSt) : (s.setClu v).region = s.region := rfl
@[simp] theorem State.setClu_dom (s : State) (v : SMap CluSt) : (s.setClu v).dom = s.dom := rfl
@[simp] theorem State.setClu_pwr (s : State) (v : SMap CluSt) : (s.setClu v).pwr = s.pwr := rfl
@[simp] theorem State.setClu_host (s : State) (v : SMap CluSt) : (s.setClu v).host = s.host := rfl
@[simp] theorem State.setClu_rings (s : State) (v : SMap CluSt) : (s.setClu v).rings = s.rings := rfl
@[simp] theorem State.setClu_slots (s : State) (v : SMap CluSt) : (s.setClu v).slots = s.slots := rfl
@[simp] theorem State.setClu_graphs (s : State) (v : SMap CluSt) : (s.setClu v).graphs = s.graphs := rfl
@[simp] theorem State.setClu_streams (s : State) (v : SMap CluSt) : (s.setClu v).streams = s.streams := rfl
@[simp] theorem State.setClu_qps (s : State) (v : SMap CluSt) : (s.setClu v).qps = s.qps := rfl
@[simp] theorem State.setClu_dev (s : State) (v : SMap CluSt) : (s.setClu v).dev = s.dev := rfl
@[simp] theorem State.setClu_flash (s : State) (v : SMap CluSt) : (s.setClu v).flash = s.flash := rfl
@[simp] theorem State.setClu_cores (s : State) (v : SMap CluSt) : (s.setClu v).cores = s.cores := rfl
@[simp] theorem State.setClu_sess (s : State) (v : SMap CluSt) : (s.setClu v).sess = s.sess := rfl
@[simp] theorem State.setClu_conns (s : State) (v : SMap CluSt) : (s.setClu v).conns = s.conns := rfl
@[simp] theorem State.setClu_clu (s : State) (v : SMap CluSt) : (s.setClu v).clu = v := rfl
@[simp] theorem State.setClu_tel (s : State) (v : SMap CluSt) : (s.setClu v).tel = s.tel := rfl
@[simp] theorem State.setClu_dbg (s : State) (v : SMap CluSt) : (s.setClu v).dbg = s.dbg := rfl
@[simp] theorem State.setClu_pins (s : State) (v : SMap CluSt) : (s.setClu v).pins = s.pins := rfl
@[simp] theorem State.setClu_xlat (s : State) (v : SMap CluSt) : (s.setClu v).xlat = s.xlat := rfl
@[simp] theorem State.setClu_invQ (s : State) (v : SMap CluSt) : (s.setClu v).invQ = s.invQ := rfl
@[simp] theorem State.setClu_pager (s : State) (v : SMap CluSt) : (s.setClu v).pager = s.pager := rfl
@[simp] theorem State.setClu_sync (s : State) (v : SMap CluSt) : (s.setClu v).sync = s.sync := rfl
@[simp] theorem State.setClu_disp (s : State) (v : SMap CluSt) : (s.setClu v).disp = s.disp := rfl
@[simp] theorem State.setClu_comet (s : State) (v : SMap CluSt) : (s.setClu v).comet = s.comet := rfl
@[simp] theorem State.setClu_wv (s : State) (v : SMap CluSt) : (s.setClu v).wv = s.wv := rfl
@[simp] theorem State.setClu_gdesc (s : State) (v : SMap CluSt) : (s.setClu v).gdesc = s.gdesc := rfl
@[simp] theorem State.setClu_emb (s : State) (v : SMap CluSt) : (s.setClu v).emb = s.emb := rfl
@[simp] theorem State.setClu_parts (s : State) (v : SMap CluSt) : (s.setClu v).parts = s.parts := rfl
@[simp] theorem State.setClu_batches (s : State) (v : SMap CluSt) : (s.setClu v).batches = s.batches := rfl
@[simp] theorem State.setClu_swarms (s : State) (v : SMap CluSt) : (s.setClu v).swarms = s.swarms := rfl
@[simp] theorem State.setClu_ids (s : State) (v : SMap CluSt) : (s.setClu v).ids = s.ids := rfl
@[simp] theorem State.setClu_mig (s : State) (v : SMap CluSt) : (s.setClu v).mig = s.mig := rfl
@[simp] theorem State.setClu_moves (s : State) (v : SMap CluSt) : (s.setClu v).moves = s.moves := rfl
@[simp] theorem State.setClu_mat (s : State) (v : SMap CluSt) : (s.setClu v).mat = s.mat := rfl
@[simp] theorem State.setClu_relay (s : State) (v : SMap CluSt) : (s.setClu v).relay = s.relay := rfl
@[simp] theorem State.setClu_gmx (s : State) (v : SMap CluSt) : (s.setClu v).gmx = s.gmx := rfl
@[simp] theorem State.setClu_vec (s : State) (v : SMap CluSt) : (s.setClu v).vec = s.vec := rfl
@[simp] theorem State.setClu_eth (s : State) (v : SMap CluSt) : (s.setClu v).eth = s.eth := rfl
@[simp] theorem State.setClu_served (s : State) (v : SMap CluSt) : (s.setClu v).served = s.served := rfl
@[simp] theorem State.setClu_frames (s : State) (v : SMap CluSt) : (s.setClu v).frames = s.frames := rfl
@[simp] theorem State.setClu_snap (s : State) (v : SMap CluSt) : (s.setClu v).snap = s.snap := rfl
@[simp] theorem State.setClu_out (s : State) (v : SMap CluSt) : (s.setClu v).out = s.out := rfl
@[simp] theorem State.setClu_free (s : State) (v : SMap CluSt) : (s.setClu v).free = s.free := rfl
@[simp] theorem State.setTel_pending (s : State) (v : TelSt) : (s.setTel v).pending = s.pending := rfl
@[simp] theorem State.setTel_regs (s : State) (v : TelSt) : (s.setTel v).regs = s.regs := rfl
@[simp] theorem State.setTel_errKeys (s : State) (v : TelSt) : (s.setTel v).errKeys = s.errKeys := rfl
@[simp] theorem State.setTel_time (s : State) (v : TelSt) : (s.setTel v).time = s.time := rfl
@[simp] theorem State.setTel_dram (s : State) (v : TelSt) : (s.setTel v).dram = s.dram := rfl
@[simp] theorem State.setTel_cell (s : State) (v : TelSt) : (s.setTel v).cell = s.cell := rfl
@[simp] theorem State.setTel_spad (s : State) (v : TelSt) : (s.setTel v).spad = s.spad := rfl
@[simp] theorem State.setTel_store (s : State) (v : TelSt) : (s.setTel v).store = s.store := rfl
@[simp] theorem State.setTel_stk (s : State) (v : TelSt) : (s.setTel v).stk = s.stk := rfl
@[simp] theorem State.setTel_pch (s : State) (v : TelSt) : (s.setTel v).pch = s.pch := rfl
@[simp] theorem State.setTel_region (s : State) (v : TelSt) : (s.setTel v).region = s.region := rfl
@[simp] theorem State.setTel_dom (s : State) (v : TelSt) : (s.setTel v).dom = s.dom := rfl
@[simp] theorem State.setTel_pwr (s : State) (v : TelSt) : (s.setTel v).pwr = s.pwr := rfl
@[simp] theorem State.setTel_host (s : State) (v : TelSt) : (s.setTel v).host = s.host := rfl
@[simp] theorem State.setTel_rings (s : State) (v : TelSt) : (s.setTel v).rings = s.rings := rfl
@[simp] theorem State.setTel_slots (s : State) (v : TelSt) : (s.setTel v).slots = s.slots := rfl
@[simp] theorem State.setTel_graphs (s : State) (v : TelSt) : (s.setTel v).graphs = s.graphs := rfl
@[simp] theorem State.setTel_streams (s : State) (v : TelSt) : (s.setTel v).streams = s.streams := rfl
@[simp] theorem State.setTel_qps (s : State) (v : TelSt) : (s.setTel v).qps = s.qps := rfl
@[simp] theorem State.setTel_dev (s : State) (v : TelSt) : (s.setTel v).dev = s.dev := rfl
@[simp] theorem State.setTel_flash (s : State) (v : TelSt) : (s.setTel v).flash = s.flash := rfl
@[simp] theorem State.setTel_cores (s : State) (v : TelSt) : (s.setTel v).cores = s.cores := rfl
@[simp] theorem State.setTel_sess (s : State) (v : TelSt) : (s.setTel v).sess = s.sess := rfl
@[simp] theorem State.setTel_conns (s : State) (v : TelSt) : (s.setTel v).conns = s.conns := rfl
@[simp] theorem State.setTel_clu (s : State) (v : TelSt) : (s.setTel v).clu = s.clu := rfl
@[simp] theorem State.setTel_tel (s : State) (v : TelSt) : (s.setTel v).tel = v := rfl
@[simp] theorem State.setTel_dbg (s : State) (v : TelSt) : (s.setTel v).dbg = s.dbg := rfl
@[simp] theorem State.setTel_pins (s : State) (v : TelSt) : (s.setTel v).pins = s.pins := rfl
@[simp] theorem State.setTel_xlat (s : State) (v : TelSt) : (s.setTel v).xlat = s.xlat := rfl
@[simp] theorem State.setTel_invQ (s : State) (v : TelSt) : (s.setTel v).invQ = s.invQ := rfl
@[simp] theorem State.setTel_pager (s : State) (v : TelSt) : (s.setTel v).pager = s.pager := rfl
@[simp] theorem State.setTel_sync (s : State) (v : TelSt) : (s.setTel v).sync = s.sync := rfl
@[simp] theorem State.setTel_disp (s : State) (v : TelSt) : (s.setTel v).disp = s.disp := rfl
@[simp] theorem State.setTel_comet (s : State) (v : TelSt) : (s.setTel v).comet = s.comet := rfl
@[simp] theorem State.setTel_wv (s : State) (v : TelSt) : (s.setTel v).wv = s.wv := rfl
@[simp] theorem State.setTel_gdesc (s : State) (v : TelSt) : (s.setTel v).gdesc = s.gdesc := rfl
@[simp] theorem State.setTel_emb (s : State) (v : TelSt) : (s.setTel v).emb = s.emb := rfl
@[simp] theorem State.setTel_parts (s : State) (v : TelSt) : (s.setTel v).parts = s.parts := rfl
@[simp] theorem State.setTel_batches (s : State) (v : TelSt) : (s.setTel v).batches = s.batches := rfl
@[simp] theorem State.setTel_swarms (s : State) (v : TelSt) : (s.setTel v).swarms = s.swarms := rfl
@[simp] theorem State.setTel_ids (s : State) (v : TelSt) : (s.setTel v).ids = s.ids := rfl
@[simp] theorem State.setTel_mig (s : State) (v : TelSt) : (s.setTel v).mig = s.mig := rfl
@[simp] theorem State.setTel_moves (s : State) (v : TelSt) : (s.setTel v).moves = s.moves := rfl
@[simp] theorem State.setTel_mat (s : State) (v : TelSt) : (s.setTel v).mat = s.mat := rfl
@[simp] theorem State.setTel_relay (s : State) (v : TelSt) : (s.setTel v).relay = s.relay := rfl
@[simp] theorem State.setTel_gmx (s : State) (v : TelSt) : (s.setTel v).gmx = s.gmx := rfl
@[simp] theorem State.setTel_vec (s : State) (v : TelSt) : (s.setTel v).vec = s.vec := rfl
@[simp] theorem State.setTel_eth (s : State) (v : TelSt) : (s.setTel v).eth = s.eth := rfl
@[simp] theorem State.setTel_served (s : State) (v : TelSt) : (s.setTel v).served = s.served := rfl
@[simp] theorem State.setTel_frames (s : State) (v : TelSt) : (s.setTel v).frames = s.frames := rfl
@[simp] theorem State.setTel_snap (s : State) (v : TelSt) : (s.setTel v).snap = s.snap := rfl
@[simp] theorem State.setTel_out (s : State) (v : TelSt) : (s.setTel v).out = s.out := rfl
@[simp] theorem State.setTel_free (s : State) (v : TelSt) : (s.setTel v).free = s.free := rfl
@[simp] theorem State.setDbg_pending (s : State) (v : DbgSt) : (s.setDbg v).pending = s.pending := rfl
@[simp] theorem State.setDbg_regs (s : State) (v : DbgSt) : (s.setDbg v).regs = s.regs := rfl
@[simp] theorem State.setDbg_errKeys (s : State) (v : DbgSt) : (s.setDbg v).errKeys = s.errKeys := rfl
@[simp] theorem State.setDbg_time (s : State) (v : DbgSt) : (s.setDbg v).time = s.time := rfl
@[simp] theorem State.setDbg_dram (s : State) (v : DbgSt) : (s.setDbg v).dram = s.dram := rfl
@[simp] theorem State.setDbg_cell (s : State) (v : DbgSt) : (s.setDbg v).cell = s.cell := rfl
@[simp] theorem State.setDbg_spad (s : State) (v : DbgSt) : (s.setDbg v).spad = s.spad := rfl
@[simp] theorem State.setDbg_store (s : State) (v : DbgSt) : (s.setDbg v).store = s.store := rfl
@[simp] theorem State.setDbg_stk (s : State) (v : DbgSt) : (s.setDbg v).stk = s.stk := rfl
@[simp] theorem State.setDbg_pch (s : State) (v : DbgSt) : (s.setDbg v).pch = s.pch := rfl
@[simp] theorem State.setDbg_region (s : State) (v : DbgSt) : (s.setDbg v).region = s.region := rfl
@[simp] theorem State.setDbg_dom (s : State) (v : DbgSt) : (s.setDbg v).dom = s.dom := rfl
@[simp] theorem State.setDbg_pwr (s : State) (v : DbgSt) : (s.setDbg v).pwr = s.pwr := rfl
@[simp] theorem State.setDbg_host (s : State) (v : DbgSt) : (s.setDbg v).host = s.host := rfl
@[simp] theorem State.setDbg_rings (s : State) (v : DbgSt) : (s.setDbg v).rings = s.rings := rfl
@[simp] theorem State.setDbg_slots (s : State) (v : DbgSt) : (s.setDbg v).slots = s.slots := rfl
@[simp] theorem State.setDbg_graphs (s : State) (v : DbgSt) : (s.setDbg v).graphs = s.graphs := rfl
@[simp] theorem State.setDbg_streams (s : State) (v : DbgSt) : (s.setDbg v).streams = s.streams := rfl
@[simp] theorem State.setDbg_qps (s : State) (v : DbgSt) : (s.setDbg v).qps = s.qps := rfl
@[simp] theorem State.setDbg_dev (s : State) (v : DbgSt) : (s.setDbg v).dev = s.dev := rfl
@[simp] theorem State.setDbg_flash (s : State) (v : DbgSt) : (s.setDbg v).flash = s.flash := rfl
@[simp] theorem State.setDbg_cores (s : State) (v : DbgSt) : (s.setDbg v).cores = s.cores := rfl
@[simp] theorem State.setDbg_sess (s : State) (v : DbgSt) : (s.setDbg v).sess = s.sess := rfl
@[simp] theorem State.setDbg_conns (s : State) (v : DbgSt) : (s.setDbg v).conns = s.conns := rfl
@[simp] theorem State.setDbg_clu (s : State) (v : DbgSt) : (s.setDbg v).clu = s.clu := rfl
@[simp] theorem State.setDbg_tel (s : State) (v : DbgSt) : (s.setDbg v).tel = s.tel := rfl
@[simp] theorem State.setDbg_dbg (s : State) (v : DbgSt) : (s.setDbg v).dbg = v := rfl
@[simp] theorem State.setDbg_pins (s : State) (v : DbgSt) : (s.setDbg v).pins = s.pins := rfl
@[simp] theorem State.setDbg_xlat (s : State) (v : DbgSt) : (s.setDbg v).xlat = s.xlat := rfl
@[simp] theorem State.setDbg_invQ (s : State) (v : DbgSt) : (s.setDbg v).invQ = s.invQ := rfl
@[simp] theorem State.setDbg_pager (s : State) (v : DbgSt) : (s.setDbg v).pager = s.pager := rfl
@[simp] theorem State.setDbg_sync (s : State) (v : DbgSt) : (s.setDbg v).sync = s.sync := rfl
@[simp] theorem State.setDbg_disp (s : State) (v : DbgSt) : (s.setDbg v).disp = s.disp := rfl
@[simp] theorem State.setDbg_comet (s : State) (v : DbgSt) : (s.setDbg v).comet = s.comet := rfl
@[simp] theorem State.setDbg_wv (s : State) (v : DbgSt) : (s.setDbg v).wv = s.wv := rfl
@[simp] theorem State.setDbg_gdesc (s : State) (v : DbgSt) : (s.setDbg v).gdesc = s.gdesc := rfl
@[simp] theorem State.setDbg_emb (s : State) (v : DbgSt) : (s.setDbg v).emb = s.emb := rfl
@[simp] theorem State.setDbg_parts (s : State) (v : DbgSt) : (s.setDbg v).parts = s.parts := rfl
@[simp] theorem State.setDbg_batches (s : State) (v : DbgSt) : (s.setDbg v).batches = s.batches := rfl
@[simp] theorem State.setDbg_swarms (s : State) (v : DbgSt) : (s.setDbg v).swarms = s.swarms := rfl
@[simp] theorem State.setDbg_ids (s : State) (v : DbgSt) : (s.setDbg v).ids = s.ids := rfl
@[simp] theorem State.setDbg_mig (s : State) (v : DbgSt) : (s.setDbg v).mig = s.mig := rfl
@[simp] theorem State.setDbg_moves (s : State) (v : DbgSt) : (s.setDbg v).moves = s.moves := rfl
@[simp] theorem State.setDbg_mat (s : State) (v : DbgSt) : (s.setDbg v).mat = s.mat := rfl
@[simp] theorem State.setDbg_relay (s : State) (v : DbgSt) : (s.setDbg v).relay = s.relay := rfl
@[simp] theorem State.setDbg_gmx (s : State) (v : DbgSt) : (s.setDbg v).gmx = s.gmx := rfl
@[simp] theorem State.setDbg_vec (s : State) (v : DbgSt) : (s.setDbg v).vec = s.vec := rfl
@[simp] theorem State.setDbg_eth (s : State) (v : DbgSt) : (s.setDbg v).eth = s.eth := rfl
@[simp] theorem State.setDbg_served (s : State) (v : DbgSt) : (s.setDbg v).served = s.served := rfl
@[simp] theorem State.setDbg_frames (s : State) (v : DbgSt) : (s.setDbg v).frames = s.frames := rfl
@[simp] theorem State.setDbg_snap (s : State) (v : DbgSt) : (s.setDbg v).snap = s.snap := rfl
@[simp] theorem State.setDbg_out (s : State) (v : DbgSt) : (s.setDbg v).out = s.out := rfl
@[simp] theorem State.setDbg_free (s : State) (v : DbgSt) : (s.setDbg v).free = s.free := rfl
@[simp] theorem State.setPins_pending (s : State) (v : PinSt) : (s.setPins v).pending = s.pending := rfl
@[simp] theorem State.setPins_regs (s : State) (v : PinSt) : (s.setPins v).regs = s.regs := rfl
@[simp] theorem State.setPins_errKeys (s : State) (v : PinSt) : (s.setPins v).errKeys = s.errKeys := rfl
@[simp] theorem State.setPins_time (s : State) (v : PinSt) : (s.setPins v).time = s.time := rfl
@[simp] theorem State.setPins_dram (s : State) (v : PinSt) : (s.setPins v).dram = s.dram := rfl
@[simp] theorem State.setPins_cell (s : State) (v : PinSt) : (s.setPins v).cell = s.cell := rfl
@[simp] theorem State.setPins_spad (s : State) (v : PinSt) : (s.setPins v).spad = s.spad := rfl
@[simp] theorem State.setPins_store (s : State) (v : PinSt) : (s.setPins v).store = s.store := rfl
@[simp] theorem State.setPins_stk (s : State) (v : PinSt) : (s.setPins v).stk = s.stk := rfl
@[simp] theorem State.setPins_pch (s : State) (v : PinSt) : (s.setPins v).pch = s.pch := rfl
@[simp] theorem State.setPins_region (s : State) (v : PinSt) : (s.setPins v).region = s.region := rfl
@[simp] theorem State.setPins_dom (s : State) (v : PinSt) : (s.setPins v).dom = s.dom := rfl
@[simp] theorem State.setPins_pwr (s : State) (v : PinSt) : (s.setPins v).pwr = s.pwr := rfl
@[simp] theorem State.setPins_host (s : State) (v : PinSt) : (s.setPins v).host = s.host := rfl
@[simp] theorem State.setPins_rings (s : State) (v : PinSt) : (s.setPins v).rings = s.rings := rfl
@[simp] theorem State.setPins_slots (s : State) (v : PinSt) : (s.setPins v).slots = s.slots := rfl
@[simp] theorem State.setPins_graphs (s : State) (v : PinSt) : (s.setPins v).graphs = s.graphs := rfl
@[simp] theorem State.setPins_streams (s : State) (v : PinSt) : (s.setPins v).streams = s.streams := rfl
@[simp] theorem State.setPins_qps (s : State) (v : PinSt) : (s.setPins v).qps = s.qps := rfl
@[simp] theorem State.setPins_dev (s : State) (v : PinSt) : (s.setPins v).dev = s.dev := rfl
@[simp] theorem State.setPins_flash (s : State) (v : PinSt) : (s.setPins v).flash = s.flash := rfl
@[simp] theorem State.setPins_cores (s : State) (v : PinSt) : (s.setPins v).cores = s.cores := rfl
@[simp] theorem State.setPins_sess (s : State) (v : PinSt) : (s.setPins v).sess = s.sess := rfl
@[simp] theorem State.setPins_conns (s : State) (v : PinSt) : (s.setPins v).conns = s.conns := rfl
@[simp] theorem State.setPins_clu (s : State) (v : PinSt) : (s.setPins v).clu = s.clu := rfl
@[simp] theorem State.setPins_tel (s : State) (v : PinSt) : (s.setPins v).tel = s.tel := rfl
@[simp] theorem State.setPins_dbg (s : State) (v : PinSt) : (s.setPins v).dbg = s.dbg := rfl
@[simp] theorem State.setPins_pins (s : State) (v : PinSt) : (s.setPins v).pins = v := rfl
@[simp] theorem State.setPins_xlat (s : State) (v : PinSt) : (s.setPins v).xlat = s.xlat := rfl
@[simp] theorem State.setPins_invQ (s : State) (v : PinSt) : (s.setPins v).invQ = s.invQ := rfl
@[simp] theorem State.setPins_pager (s : State) (v : PinSt) : (s.setPins v).pager = s.pager := rfl
@[simp] theorem State.setPins_sync (s : State) (v : PinSt) : (s.setPins v).sync = s.sync := rfl
@[simp] theorem State.setPins_disp (s : State) (v : PinSt) : (s.setPins v).disp = s.disp := rfl
@[simp] theorem State.setPins_comet (s : State) (v : PinSt) : (s.setPins v).comet = s.comet := rfl
@[simp] theorem State.setPins_wv (s : State) (v : PinSt) : (s.setPins v).wv = s.wv := rfl
@[simp] theorem State.setPins_gdesc (s : State) (v : PinSt) : (s.setPins v).gdesc = s.gdesc := rfl
@[simp] theorem State.setPins_emb (s : State) (v : PinSt) : (s.setPins v).emb = s.emb := rfl
@[simp] theorem State.setPins_parts (s : State) (v : PinSt) : (s.setPins v).parts = s.parts := rfl
@[simp] theorem State.setPins_batches (s : State) (v : PinSt) : (s.setPins v).batches = s.batches := rfl
@[simp] theorem State.setPins_swarms (s : State) (v : PinSt) : (s.setPins v).swarms = s.swarms := rfl
@[simp] theorem State.setPins_ids (s : State) (v : PinSt) : (s.setPins v).ids = s.ids := rfl
@[simp] theorem State.setPins_mig (s : State) (v : PinSt) : (s.setPins v).mig = s.mig := rfl
@[simp] theorem State.setPins_moves (s : State) (v : PinSt) : (s.setPins v).moves = s.moves := rfl
@[simp] theorem State.setPins_mat (s : State) (v : PinSt) : (s.setPins v).mat = s.mat := rfl
@[simp] theorem State.setPins_relay (s : State) (v : PinSt) : (s.setPins v).relay = s.relay := rfl
@[simp] theorem State.setPins_gmx (s : State) (v : PinSt) : (s.setPins v).gmx = s.gmx := rfl
@[simp] theorem State.setPins_vec (s : State) (v : PinSt) : (s.setPins v).vec = s.vec := rfl
@[simp] theorem State.setPins_eth (s : State) (v : PinSt) : (s.setPins v).eth = s.eth := rfl
@[simp] theorem State.setPins_served (s : State) (v : PinSt) : (s.setPins v).served = s.served := rfl
@[simp] theorem State.setPins_frames (s : State) (v : PinSt) : (s.setPins v).frames = s.frames := rfl
@[simp] theorem State.setPins_snap (s : State) (v : PinSt) : (s.setPins v).snap = s.snap := rfl
@[simp] theorem State.setPins_out (s : State) (v : PinSt) : (s.setPins v).out = s.out := rfl
@[simp] theorem State.setPins_free (s : State) (v : PinSt) : (s.setPins v).free = s.free := rfl
@[simp] theorem State.setXlat_pending (s : State) (v : SMap XlatSt) : (s.setXlat v).pending = s.pending := rfl
@[simp] theorem State.setXlat_regs (s : State) (v : SMap XlatSt) : (s.setXlat v).regs = s.regs := rfl
@[simp] theorem State.setXlat_errKeys (s : State) (v : SMap XlatSt) : (s.setXlat v).errKeys = s.errKeys := rfl
@[simp] theorem State.setXlat_time (s : State) (v : SMap XlatSt) : (s.setXlat v).time = s.time := rfl
@[simp] theorem State.setXlat_dram (s : State) (v : SMap XlatSt) : (s.setXlat v).dram = s.dram := rfl
@[simp] theorem State.setXlat_cell (s : State) (v : SMap XlatSt) : (s.setXlat v).cell = s.cell := rfl
@[simp] theorem State.setXlat_spad (s : State) (v : SMap XlatSt) : (s.setXlat v).spad = s.spad := rfl
@[simp] theorem State.setXlat_store (s : State) (v : SMap XlatSt) : (s.setXlat v).store = s.store := rfl
@[simp] theorem State.setXlat_stk (s : State) (v : SMap XlatSt) : (s.setXlat v).stk = s.stk := rfl
@[simp] theorem State.setXlat_pch (s : State) (v : SMap XlatSt) : (s.setXlat v).pch = s.pch := rfl
@[simp] theorem State.setXlat_region (s : State) (v : SMap XlatSt) : (s.setXlat v).region = s.region := rfl
@[simp] theorem State.setXlat_dom (s : State) (v : SMap XlatSt) : (s.setXlat v).dom = s.dom := rfl
@[simp] theorem State.setXlat_pwr (s : State) (v : SMap XlatSt) : (s.setXlat v).pwr = s.pwr := rfl
@[simp] theorem State.setXlat_host (s : State) (v : SMap XlatSt) : (s.setXlat v).host = s.host := rfl
@[simp] theorem State.setXlat_rings (s : State) (v : SMap XlatSt) : (s.setXlat v).rings = s.rings := rfl
@[simp] theorem State.setXlat_slots (s : State) (v : SMap XlatSt) : (s.setXlat v).slots = s.slots := rfl
@[simp] theorem State.setXlat_graphs (s : State) (v : SMap XlatSt) : (s.setXlat v).graphs = s.graphs := rfl
@[simp] theorem State.setXlat_streams (s : State) (v : SMap XlatSt) : (s.setXlat v).streams = s.streams := rfl
@[simp] theorem State.setXlat_qps (s : State) (v : SMap XlatSt) : (s.setXlat v).qps = s.qps := rfl
@[simp] theorem State.setXlat_dev (s : State) (v : SMap XlatSt) : (s.setXlat v).dev = s.dev := rfl
@[simp] theorem State.setXlat_flash (s : State) (v : SMap XlatSt) : (s.setXlat v).flash = s.flash := rfl
@[simp] theorem State.setXlat_cores (s : State) (v : SMap XlatSt) : (s.setXlat v).cores = s.cores := rfl
@[simp] theorem State.setXlat_sess (s : State) (v : SMap XlatSt) : (s.setXlat v).sess = s.sess := rfl
@[simp] theorem State.setXlat_conns (s : State) (v : SMap XlatSt) : (s.setXlat v).conns = s.conns := rfl
@[simp] theorem State.setXlat_clu (s : State) (v : SMap XlatSt) : (s.setXlat v).clu = s.clu := rfl
@[simp] theorem State.setXlat_tel (s : State) (v : SMap XlatSt) : (s.setXlat v).tel = s.tel := rfl
@[simp] theorem State.setXlat_dbg (s : State) (v : SMap XlatSt) : (s.setXlat v).dbg = s.dbg := rfl
@[simp] theorem State.setXlat_pins (s : State) (v : SMap XlatSt) : (s.setXlat v).pins = s.pins := rfl
@[simp] theorem State.setXlat_xlat (s : State) (v : SMap XlatSt) : (s.setXlat v).xlat = v := rfl
@[simp] theorem State.setXlat_invQ (s : State) (v : SMap XlatSt) : (s.setXlat v).invQ = s.invQ := rfl
@[simp] theorem State.setXlat_pager (s : State) (v : SMap XlatSt) : (s.setXlat v).pager = s.pager := rfl
@[simp] theorem State.setXlat_sync (s : State) (v : SMap XlatSt) : (s.setXlat v).sync = s.sync := rfl
@[simp] theorem State.setXlat_disp (s : State) (v : SMap XlatSt) : (s.setXlat v).disp = s.disp := rfl
@[simp] theorem State.setXlat_comet (s : State) (v : SMap XlatSt) : (s.setXlat v).comet = s.comet := rfl
@[simp] theorem State.setXlat_wv (s : State) (v : SMap XlatSt) : (s.setXlat v).wv = s.wv := rfl
@[simp] theorem State.setXlat_gdesc (s : State) (v : SMap XlatSt) : (s.setXlat v).gdesc = s.gdesc := rfl
@[simp] theorem State.setXlat_emb (s : State) (v : SMap XlatSt) : (s.setXlat v).emb = s.emb := rfl
@[simp] theorem State.setXlat_parts (s : State) (v : SMap XlatSt) : (s.setXlat v).parts = s.parts := rfl
@[simp] theorem State.setXlat_batches (s : State) (v : SMap XlatSt) : (s.setXlat v).batches = s.batches := rfl
@[simp] theorem State.setXlat_swarms (s : State) (v : SMap XlatSt) : (s.setXlat v).swarms = s.swarms := rfl
@[simp] theorem State.setXlat_ids (s : State) (v : SMap XlatSt) : (s.setXlat v).ids = s.ids := rfl
@[simp] theorem State.setXlat_mig (s : State) (v : SMap XlatSt) : (s.setXlat v).mig = s.mig := rfl
@[simp] theorem State.setXlat_moves (s : State) (v : SMap XlatSt) : (s.setXlat v).moves = s.moves := rfl
@[simp] theorem State.setXlat_mat (s : State) (v : SMap XlatSt) : (s.setXlat v).mat = s.mat := rfl
@[simp] theorem State.setXlat_relay (s : State) (v : SMap XlatSt) : (s.setXlat v).relay = s.relay := rfl
@[simp] theorem State.setXlat_gmx (s : State) (v : SMap XlatSt) : (s.setXlat v).gmx = s.gmx := rfl
@[simp] theorem State.setXlat_vec (s : State) (v : SMap XlatSt) : (s.setXlat v).vec = s.vec := rfl
@[simp] theorem State.setXlat_eth (s : State) (v : SMap XlatSt) : (s.setXlat v).eth = s.eth := rfl
@[simp] theorem State.setXlat_served (s : State) (v : SMap XlatSt) : (s.setXlat v).served = s.served := rfl
@[simp] theorem State.setXlat_frames (s : State) (v : SMap XlatSt) : (s.setXlat v).frames = s.frames := rfl
@[simp] theorem State.setXlat_snap (s : State) (v : SMap XlatSt) : (s.setXlat v).snap = s.snap := rfl
@[simp] theorem State.setXlat_out (s : State) (v : SMap XlatSt) : (s.setXlat v).out = s.out := rfl
@[simp] theorem State.setXlat_free (s : State) (v : SMap XlatSt) : (s.setXlat v).free = s.free := rfl
@[simp] theorem State.setInvQ_pending (s : State) (v : List InvEnt) : (s.setInvQ v).pending = s.pending := rfl
@[simp] theorem State.setInvQ_regs (s : State) (v : List InvEnt) : (s.setInvQ v).regs = s.regs := rfl
@[simp] theorem State.setInvQ_errKeys (s : State) (v : List InvEnt) : (s.setInvQ v).errKeys = s.errKeys := rfl
@[simp] theorem State.setInvQ_time (s : State) (v : List InvEnt) : (s.setInvQ v).time = s.time := rfl
@[simp] theorem State.setInvQ_dram (s : State) (v : List InvEnt) : (s.setInvQ v).dram = s.dram := rfl
@[simp] theorem State.setInvQ_cell (s : State) (v : List InvEnt) : (s.setInvQ v).cell = s.cell := rfl
@[simp] theorem State.setInvQ_spad (s : State) (v : List InvEnt) : (s.setInvQ v).spad = s.spad := rfl
@[simp] theorem State.setInvQ_store (s : State) (v : List InvEnt) : (s.setInvQ v).store = s.store := rfl
@[simp] theorem State.setInvQ_stk (s : State) (v : List InvEnt) : (s.setInvQ v).stk = s.stk := rfl
@[simp] theorem State.setInvQ_pch (s : State) (v : List InvEnt) : (s.setInvQ v).pch = s.pch := rfl
@[simp] theorem State.setInvQ_region (s : State) (v : List InvEnt) : (s.setInvQ v).region = s.region := rfl
@[simp] theorem State.setInvQ_dom (s : State) (v : List InvEnt) : (s.setInvQ v).dom = s.dom := rfl
@[simp] theorem State.setInvQ_pwr (s : State) (v : List InvEnt) : (s.setInvQ v).pwr = s.pwr := rfl
@[simp] theorem State.setInvQ_host (s : State) (v : List InvEnt) : (s.setInvQ v).host = s.host := rfl
@[simp] theorem State.setInvQ_rings (s : State) (v : List InvEnt) : (s.setInvQ v).rings = s.rings := rfl
@[simp] theorem State.setInvQ_slots (s : State) (v : List InvEnt) : (s.setInvQ v).slots = s.slots := rfl
@[simp] theorem State.setInvQ_graphs (s : State) (v : List InvEnt) : (s.setInvQ v).graphs = s.graphs := rfl
@[simp] theorem State.setInvQ_streams (s : State) (v : List InvEnt) : (s.setInvQ v).streams = s.streams := rfl
@[simp] theorem State.setInvQ_qps (s : State) (v : List InvEnt) : (s.setInvQ v).qps = s.qps := rfl
@[simp] theorem State.setInvQ_dev (s : State) (v : List InvEnt) : (s.setInvQ v).dev = s.dev := rfl
@[simp] theorem State.setInvQ_flash (s : State) (v : List InvEnt) : (s.setInvQ v).flash = s.flash := rfl
@[simp] theorem State.setInvQ_cores (s : State) (v : List InvEnt) : (s.setInvQ v).cores = s.cores := rfl
@[simp] theorem State.setInvQ_sess (s : State) (v : List InvEnt) : (s.setInvQ v).sess = s.sess := rfl
@[simp] theorem State.setInvQ_conns (s : State) (v : List InvEnt) : (s.setInvQ v).conns = s.conns := rfl
@[simp] theorem State.setInvQ_clu (s : State) (v : List InvEnt) : (s.setInvQ v).clu = s.clu := rfl
@[simp] theorem State.setInvQ_tel (s : State) (v : List InvEnt) : (s.setInvQ v).tel = s.tel := rfl
@[simp] theorem State.setInvQ_dbg (s : State) (v : List InvEnt) : (s.setInvQ v).dbg = s.dbg := rfl
@[simp] theorem State.setInvQ_pins (s : State) (v : List InvEnt) : (s.setInvQ v).pins = s.pins := rfl
@[simp] theorem State.setInvQ_xlat (s : State) (v : List InvEnt) : (s.setInvQ v).xlat = s.xlat := rfl
@[simp] theorem State.setInvQ_invQ (s : State) (v : List InvEnt) : (s.setInvQ v).invQ = v := rfl
@[simp] theorem State.setInvQ_pager (s : State) (v : List InvEnt) : (s.setInvQ v).pager = s.pager := rfl
@[simp] theorem State.setInvQ_sync (s : State) (v : List InvEnt) : (s.setInvQ v).sync = s.sync := rfl
@[simp] theorem State.setInvQ_disp (s : State) (v : List InvEnt) : (s.setInvQ v).disp = s.disp := rfl
@[simp] theorem State.setInvQ_comet (s : State) (v : List InvEnt) : (s.setInvQ v).comet = s.comet := rfl
@[simp] theorem State.setInvQ_wv (s : State) (v : List InvEnt) : (s.setInvQ v).wv = s.wv := rfl
@[simp] theorem State.setInvQ_gdesc (s : State) (v : List InvEnt) : (s.setInvQ v).gdesc = s.gdesc := rfl
@[simp] theorem State.setInvQ_emb (s : State) (v : List InvEnt) : (s.setInvQ v).emb = s.emb := rfl
@[simp] theorem State.setInvQ_parts (s : State) (v : List InvEnt) : (s.setInvQ v).parts = s.parts := rfl
@[simp] theorem State.setInvQ_batches (s : State) (v : List InvEnt) : (s.setInvQ v).batches = s.batches := rfl
@[simp] theorem State.setInvQ_swarms (s : State) (v : List InvEnt) : (s.setInvQ v).swarms = s.swarms := rfl
@[simp] theorem State.setInvQ_ids (s : State) (v : List InvEnt) : (s.setInvQ v).ids = s.ids := rfl
@[simp] theorem State.setInvQ_mig (s : State) (v : List InvEnt) : (s.setInvQ v).mig = s.mig := rfl
@[simp] theorem State.setInvQ_moves (s : State) (v : List InvEnt) : (s.setInvQ v).moves = s.moves := rfl
@[simp] theorem State.setInvQ_mat (s : State) (v : List InvEnt) : (s.setInvQ v).mat = s.mat := rfl
@[simp] theorem State.setInvQ_relay (s : State) (v : List InvEnt) : (s.setInvQ v).relay = s.relay := rfl
@[simp] theorem State.setInvQ_gmx (s : State) (v : List InvEnt) : (s.setInvQ v).gmx = s.gmx := rfl
@[simp] theorem State.setInvQ_vec (s : State) (v : List InvEnt) : (s.setInvQ v).vec = s.vec := rfl
@[simp] theorem State.setInvQ_eth (s : State) (v : List InvEnt) : (s.setInvQ v).eth = s.eth := rfl
@[simp] theorem State.setInvQ_served (s : State) (v : List InvEnt) : (s.setInvQ v).served = s.served := rfl
@[simp] theorem State.setInvQ_frames (s : State) (v : List InvEnt) : (s.setInvQ v).frames = s.frames := rfl
@[simp] theorem State.setInvQ_snap (s : State) (v : List InvEnt) : (s.setInvQ v).snap = s.snap := rfl
@[simp] theorem State.setInvQ_out (s : State) (v : List InvEnt) : (s.setInvQ v).out = s.out := rfl
@[simp] theorem State.setInvQ_free (s : State) (v : List InvEnt) : (s.setInvQ v).free = s.free := rfl
@[simp] theorem State.setPager_pending (s : State) (v : PagerSt) : (s.setPager v).pending = s.pending := rfl
@[simp] theorem State.setPager_regs (s : State) (v : PagerSt) : (s.setPager v).regs = s.regs := rfl
@[simp] theorem State.setPager_errKeys (s : State) (v : PagerSt) : (s.setPager v).errKeys = s.errKeys := rfl
@[simp] theorem State.setPager_time (s : State) (v : PagerSt) : (s.setPager v).time = s.time := rfl
@[simp] theorem State.setPager_dram (s : State) (v : PagerSt) : (s.setPager v).dram = s.dram := rfl
@[simp] theorem State.setPager_cell (s : State) (v : PagerSt) : (s.setPager v).cell = s.cell := rfl
@[simp] theorem State.setPager_spad (s : State) (v : PagerSt) : (s.setPager v).spad = s.spad := rfl
@[simp] theorem State.setPager_store (s : State) (v : PagerSt) : (s.setPager v).store = s.store := rfl
@[simp] theorem State.setPager_stk (s : State) (v : PagerSt) : (s.setPager v).stk = s.stk := rfl
@[simp] theorem State.setPager_pch (s : State) (v : PagerSt) : (s.setPager v).pch = s.pch := rfl
@[simp] theorem State.setPager_region (s : State) (v : PagerSt) : (s.setPager v).region = s.region := rfl
@[simp] theorem State.setPager_dom (s : State) (v : PagerSt) : (s.setPager v).dom = s.dom := rfl
@[simp] theorem State.setPager_pwr (s : State) (v : PagerSt) : (s.setPager v).pwr = s.pwr := rfl
@[simp] theorem State.setPager_host (s : State) (v : PagerSt) : (s.setPager v).host = s.host := rfl
@[simp] theorem State.setPager_rings (s : State) (v : PagerSt) : (s.setPager v).rings = s.rings := rfl
@[simp] theorem State.setPager_slots (s : State) (v : PagerSt) : (s.setPager v).slots = s.slots := rfl
@[simp] theorem State.setPager_graphs (s : State) (v : PagerSt) : (s.setPager v).graphs = s.graphs := rfl
@[simp] theorem State.setPager_streams (s : State) (v : PagerSt) : (s.setPager v).streams = s.streams := rfl
@[simp] theorem State.setPager_qps (s : State) (v : PagerSt) : (s.setPager v).qps = s.qps := rfl
@[simp] theorem State.setPager_dev (s : State) (v : PagerSt) : (s.setPager v).dev = s.dev := rfl
@[simp] theorem State.setPager_flash (s : State) (v : PagerSt) : (s.setPager v).flash = s.flash := rfl
@[simp] theorem State.setPager_cores (s : State) (v : PagerSt) : (s.setPager v).cores = s.cores := rfl
@[simp] theorem State.setPager_sess (s : State) (v : PagerSt) : (s.setPager v).sess = s.sess := rfl
@[simp] theorem State.setPager_conns (s : State) (v : PagerSt) : (s.setPager v).conns = s.conns := rfl
@[simp] theorem State.setPager_clu (s : State) (v : PagerSt) : (s.setPager v).clu = s.clu := rfl
@[simp] theorem State.setPager_tel (s : State) (v : PagerSt) : (s.setPager v).tel = s.tel := rfl
@[simp] theorem State.setPager_dbg (s : State) (v : PagerSt) : (s.setPager v).dbg = s.dbg := rfl
@[simp] theorem State.setPager_pins (s : State) (v : PagerSt) : (s.setPager v).pins = s.pins := rfl
@[simp] theorem State.setPager_xlat (s : State) (v : PagerSt) : (s.setPager v).xlat = s.xlat := rfl
@[simp] theorem State.setPager_invQ (s : State) (v : PagerSt) : (s.setPager v).invQ = s.invQ := rfl
@[simp] theorem State.setPager_pager (s : State) (v : PagerSt) : (s.setPager v).pager = v := rfl
@[simp] theorem State.setPager_sync (s : State) (v : PagerSt) : (s.setPager v).sync = s.sync := rfl
@[simp] theorem State.setPager_disp (s : State) (v : PagerSt) : (s.setPager v).disp = s.disp := rfl
@[simp] theorem State.setPager_comet (s : State) (v : PagerSt) : (s.setPager v).comet = s.comet := rfl
@[simp] theorem State.setPager_wv (s : State) (v : PagerSt) : (s.setPager v).wv = s.wv := rfl
@[simp] theorem State.setPager_gdesc (s : State) (v : PagerSt) : (s.setPager v).gdesc = s.gdesc := rfl
@[simp] theorem State.setPager_emb (s : State) (v : PagerSt) : (s.setPager v).emb = s.emb := rfl
@[simp] theorem State.setPager_parts (s : State) (v : PagerSt) : (s.setPager v).parts = s.parts := rfl
@[simp] theorem State.setPager_batches (s : State) (v : PagerSt) : (s.setPager v).batches = s.batches := rfl
@[simp] theorem State.setPager_swarms (s : State) (v : PagerSt) : (s.setPager v).swarms = s.swarms := rfl
@[simp] theorem State.setPager_ids (s : State) (v : PagerSt) : (s.setPager v).ids = s.ids := rfl
@[simp] theorem State.setPager_mig (s : State) (v : PagerSt) : (s.setPager v).mig = s.mig := rfl
@[simp] theorem State.setPager_moves (s : State) (v : PagerSt) : (s.setPager v).moves = s.moves := rfl
@[simp] theorem State.setPager_mat (s : State) (v : PagerSt) : (s.setPager v).mat = s.mat := rfl
@[simp] theorem State.setPager_relay (s : State) (v : PagerSt) : (s.setPager v).relay = s.relay := rfl
@[simp] theorem State.setPager_gmx (s : State) (v : PagerSt) : (s.setPager v).gmx = s.gmx := rfl
@[simp] theorem State.setPager_vec (s : State) (v : PagerSt) : (s.setPager v).vec = s.vec := rfl
@[simp] theorem State.setPager_eth (s : State) (v : PagerSt) : (s.setPager v).eth = s.eth := rfl
@[simp] theorem State.setPager_served (s : State) (v : PagerSt) : (s.setPager v).served = s.served := rfl
@[simp] theorem State.setPager_frames (s : State) (v : PagerSt) : (s.setPager v).frames = s.frames := rfl
@[simp] theorem State.setPager_snap (s : State) (v : PagerSt) : (s.setPager v).snap = s.snap := rfl
@[simp] theorem State.setPager_out (s : State) (v : PagerSt) : (s.setPager v).out = s.out := rfl
@[simp] theorem State.setPager_free (s : State) (v : PagerSt) : (s.setPager v).free = s.free := rfl
@[simp] theorem State.setSync_pending (s : State) (v : SMap SyncSt) : (s.setSync v).pending = s.pending := rfl
@[simp] theorem State.setSync_regs (s : State) (v : SMap SyncSt) : (s.setSync v).regs = s.regs := rfl
@[simp] theorem State.setSync_errKeys (s : State) (v : SMap SyncSt) : (s.setSync v).errKeys = s.errKeys := rfl
@[simp] theorem State.setSync_time (s : State) (v : SMap SyncSt) : (s.setSync v).time = s.time := rfl
@[simp] theorem State.setSync_dram (s : State) (v : SMap SyncSt) : (s.setSync v).dram = s.dram := rfl
@[simp] theorem State.setSync_cell (s : State) (v : SMap SyncSt) : (s.setSync v).cell = s.cell := rfl
@[simp] theorem State.setSync_spad (s : State) (v : SMap SyncSt) : (s.setSync v).spad = s.spad := rfl
@[simp] theorem State.setSync_store (s : State) (v : SMap SyncSt) : (s.setSync v).store = s.store := rfl
@[simp] theorem State.setSync_stk (s : State) (v : SMap SyncSt) : (s.setSync v).stk = s.stk := rfl
@[simp] theorem State.setSync_pch (s : State) (v : SMap SyncSt) : (s.setSync v).pch = s.pch := rfl
@[simp] theorem State.setSync_region (s : State) (v : SMap SyncSt) : (s.setSync v).region = s.region := rfl
@[simp] theorem State.setSync_dom (s : State) (v : SMap SyncSt) : (s.setSync v).dom = s.dom := rfl
@[simp] theorem State.setSync_pwr (s : State) (v : SMap SyncSt) : (s.setSync v).pwr = s.pwr := rfl
@[simp] theorem State.setSync_host (s : State) (v : SMap SyncSt) : (s.setSync v).host = s.host := rfl
@[simp] theorem State.setSync_rings (s : State) (v : SMap SyncSt) : (s.setSync v).rings = s.rings := rfl
@[simp] theorem State.setSync_slots (s : State) (v : SMap SyncSt) : (s.setSync v).slots = s.slots := rfl
@[simp] theorem State.setSync_graphs (s : State) (v : SMap SyncSt) : (s.setSync v).graphs = s.graphs := rfl
@[simp] theorem State.setSync_streams (s : State) (v : SMap SyncSt) : (s.setSync v).streams = s.streams := rfl
@[simp] theorem State.setSync_qps (s : State) (v : SMap SyncSt) : (s.setSync v).qps = s.qps := rfl
@[simp] theorem State.setSync_dev (s : State) (v : SMap SyncSt) : (s.setSync v).dev = s.dev := rfl
@[simp] theorem State.setSync_flash (s : State) (v : SMap SyncSt) : (s.setSync v).flash = s.flash := rfl
@[simp] theorem State.setSync_cores (s : State) (v : SMap SyncSt) : (s.setSync v).cores = s.cores := rfl
@[simp] theorem State.setSync_sess (s : State) (v : SMap SyncSt) : (s.setSync v).sess = s.sess := rfl
@[simp] theorem State.setSync_conns (s : State) (v : SMap SyncSt) : (s.setSync v).conns = s.conns := rfl
@[simp] theorem State.setSync_clu (s : State) (v : SMap SyncSt) : (s.setSync v).clu = s.clu := rfl
@[simp] theorem State.setSync_tel (s : State) (v : SMap SyncSt) : (s.setSync v).tel = s.tel := rfl
@[simp] theorem State.setSync_dbg (s : State) (v : SMap SyncSt) : (s.setSync v).dbg = s.dbg := rfl
@[simp] theorem State.setSync_pins (s : State) (v : SMap SyncSt) : (s.setSync v).pins = s.pins := rfl
@[simp] theorem State.setSync_xlat (s : State) (v : SMap SyncSt) : (s.setSync v).xlat = s.xlat := rfl
@[simp] theorem State.setSync_invQ (s : State) (v : SMap SyncSt) : (s.setSync v).invQ = s.invQ := rfl
@[simp] theorem State.setSync_pager (s : State) (v : SMap SyncSt) : (s.setSync v).pager = s.pager := rfl
@[simp] theorem State.setSync_sync (s : State) (v : SMap SyncSt) : (s.setSync v).sync = v := rfl
@[simp] theorem State.setSync_disp (s : State) (v : SMap SyncSt) : (s.setSync v).disp = s.disp := rfl
@[simp] theorem State.setSync_comet (s : State) (v : SMap SyncSt) : (s.setSync v).comet = s.comet := rfl
@[simp] theorem State.setSync_wv (s : State) (v : SMap SyncSt) : (s.setSync v).wv = s.wv := rfl
@[simp] theorem State.setSync_gdesc (s : State) (v : SMap SyncSt) : (s.setSync v).gdesc = s.gdesc := rfl
@[simp] theorem State.setSync_emb (s : State) (v : SMap SyncSt) : (s.setSync v).emb = s.emb := rfl
@[simp] theorem State.setSync_parts (s : State) (v : SMap SyncSt) : (s.setSync v).parts = s.parts := rfl
@[simp] theorem State.setSync_batches (s : State) (v : SMap SyncSt) : (s.setSync v).batches = s.batches := rfl
@[simp] theorem State.setSync_swarms (s : State) (v : SMap SyncSt) : (s.setSync v).swarms = s.swarms := rfl
@[simp] theorem State.setSync_ids (s : State) (v : SMap SyncSt) : (s.setSync v).ids = s.ids := rfl
@[simp] theorem State.setSync_mig (s : State) (v : SMap SyncSt) : (s.setSync v).mig = s.mig := rfl
@[simp] theorem State.setSync_moves (s : State) (v : SMap SyncSt) : (s.setSync v).moves = s.moves := rfl
@[simp] theorem State.setSync_mat (s : State) (v : SMap SyncSt) : (s.setSync v).mat = s.mat := rfl
@[simp] theorem State.setSync_relay (s : State) (v : SMap SyncSt) : (s.setSync v).relay = s.relay := rfl
@[simp] theorem State.setSync_gmx (s : State) (v : SMap SyncSt) : (s.setSync v).gmx = s.gmx := rfl
@[simp] theorem State.setSync_vec (s : State) (v : SMap SyncSt) : (s.setSync v).vec = s.vec := rfl
@[simp] theorem State.setSync_eth (s : State) (v : SMap SyncSt) : (s.setSync v).eth = s.eth := rfl
@[simp] theorem State.setSync_served (s : State) (v : SMap SyncSt) : (s.setSync v).served = s.served := rfl
@[simp] theorem State.setSync_frames (s : State) (v : SMap SyncSt) : (s.setSync v).frames = s.frames := rfl
@[simp] theorem State.setSync_snap (s : State) (v : SMap SyncSt) : (s.setSync v).snap = s.snap := rfl
@[simp] theorem State.setSync_out (s : State) (v : SMap SyncSt) : (s.setSync v).out = s.out := rfl
@[simp] theorem State.setSync_free (s : State) (v : SMap SyncSt) : (s.setSync v).free = s.free := rfl
@[simp] theorem State.setDisp_pending (s : State) (v : SMap DispSt) : (s.setDisp v).pending = s.pending := rfl
@[simp] theorem State.setDisp_regs (s : State) (v : SMap DispSt) : (s.setDisp v).regs = s.regs := rfl
@[simp] theorem State.setDisp_errKeys (s : State) (v : SMap DispSt) : (s.setDisp v).errKeys = s.errKeys := rfl
@[simp] theorem State.setDisp_time (s : State) (v : SMap DispSt) : (s.setDisp v).time = s.time := rfl
@[simp] theorem State.setDisp_dram (s : State) (v : SMap DispSt) : (s.setDisp v).dram = s.dram := rfl
@[simp] theorem State.setDisp_cell (s : State) (v : SMap DispSt) : (s.setDisp v).cell = s.cell := rfl
@[simp] theorem State.setDisp_spad (s : State) (v : SMap DispSt) : (s.setDisp v).spad = s.spad := rfl
@[simp] theorem State.setDisp_store (s : State) (v : SMap DispSt) : (s.setDisp v).store = s.store := rfl
@[simp] theorem State.setDisp_stk (s : State) (v : SMap DispSt) : (s.setDisp v).stk = s.stk := rfl
@[simp] theorem State.setDisp_pch (s : State) (v : SMap DispSt) : (s.setDisp v).pch = s.pch := rfl
@[simp] theorem State.setDisp_region (s : State) (v : SMap DispSt) : (s.setDisp v).region = s.region := rfl
@[simp] theorem State.setDisp_dom (s : State) (v : SMap DispSt) : (s.setDisp v).dom = s.dom := rfl
@[simp] theorem State.setDisp_pwr (s : State) (v : SMap DispSt) : (s.setDisp v).pwr = s.pwr := rfl
@[simp] theorem State.setDisp_host (s : State) (v : SMap DispSt) : (s.setDisp v).host = s.host := rfl
@[simp] theorem State.setDisp_rings (s : State) (v : SMap DispSt) : (s.setDisp v).rings = s.rings := rfl
@[simp] theorem State.setDisp_slots (s : State) (v : SMap DispSt) : (s.setDisp v).slots = s.slots := rfl
@[simp] theorem State.setDisp_graphs (s : State) (v : SMap DispSt) : (s.setDisp v).graphs = s.graphs := rfl
@[simp] theorem State.setDisp_streams (s : State) (v : SMap DispSt) : (s.setDisp v).streams = s.streams := rfl
@[simp] theorem State.setDisp_qps (s : State) (v : SMap DispSt) : (s.setDisp v).qps = s.qps := rfl
@[simp] theorem State.setDisp_dev (s : State) (v : SMap DispSt) : (s.setDisp v).dev = s.dev := rfl
@[simp] theorem State.setDisp_flash (s : State) (v : SMap DispSt) : (s.setDisp v).flash = s.flash := rfl
@[simp] theorem State.setDisp_cores (s : State) (v : SMap DispSt) : (s.setDisp v).cores = s.cores := rfl
@[simp] theorem State.setDisp_sess (s : State) (v : SMap DispSt) : (s.setDisp v).sess = s.sess := rfl
@[simp] theorem State.setDisp_conns (s : State) (v : SMap DispSt) : (s.setDisp v).conns = s.conns := rfl
@[simp] theorem State.setDisp_clu (s : State) (v : SMap DispSt) : (s.setDisp v).clu = s.clu := rfl
@[simp] theorem State.setDisp_tel (s : State) (v : SMap DispSt) : (s.setDisp v).tel = s.tel := rfl
@[simp] theorem State.setDisp_dbg (s : State) (v : SMap DispSt) : (s.setDisp v).dbg = s.dbg := rfl
@[simp] theorem State.setDisp_pins (s : State) (v : SMap DispSt) : (s.setDisp v).pins = s.pins := rfl
@[simp] theorem State.setDisp_xlat (s : State) (v : SMap DispSt) : (s.setDisp v).xlat = s.xlat := rfl
@[simp] theorem State.setDisp_invQ (s : State) (v : SMap DispSt) : (s.setDisp v).invQ = s.invQ := rfl
@[simp] theorem State.setDisp_pager (s : State) (v : SMap DispSt) : (s.setDisp v).pager = s.pager := rfl
@[simp] theorem State.setDisp_sync (s : State) (v : SMap DispSt) : (s.setDisp v).sync = s.sync := rfl
@[simp] theorem State.setDisp_disp (s : State) (v : SMap DispSt) : (s.setDisp v).disp = v := rfl
@[simp] theorem State.setDisp_comet (s : State) (v : SMap DispSt) : (s.setDisp v).comet = s.comet := rfl
@[simp] theorem State.setDisp_wv (s : State) (v : SMap DispSt) : (s.setDisp v).wv = s.wv := rfl
@[simp] theorem State.setDisp_gdesc (s : State) (v : SMap DispSt) : (s.setDisp v).gdesc = s.gdesc := rfl
@[simp] theorem State.setDisp_emb (s : State) (v : SMap DispSt) : (s.setDisp v).emb = s.emb := rfl
@[simp] theorem State.setDisp_parts (s : State) (v : SMap DispSt) : (s.setDisp v).parts = s.parts := rfl
@[simp] theorem State.setDisp_batches (s : State) (v : SMap DispSt) : (s.setDisp v).batches = s.batches := rfl
@[simp] theorem State.setDisp_swarms (s : State) (v : SMap DispSt) : (s.setDisp v).swarms = s.swarms := rfl
@[simp] theorem State.setDisp_ids (s : State) (v : SMap DispSt) : (s.setDisp v).ids = s.ids := rfl
@[simp] theorem State.setDisp_mig (s : State) (v : SMap DispSt) : (s.setDisp v).mig = s.mig := rfl
@[simp] theorem State.setDisp_moves (s : State) (v : SMap DispSt) : (s.setDisp v).moves = s.moves := rfl
@[simp] theorem State.setDisp_mat (s : State) (v : SMap DispSt) : (s.setDisp v).mat = s.mat := rfl
@[simp] theorem State.setDisp_relay (s : State) (v : SMap DispSt) : (s.setDisp v).relay = s.relay := rfl
@[simp] theorem State.setDisp_gmx (s : State) (v : SMap DispSt) : (s.setDisp v).gmx = s.gmx := rfl
@[simp] theorem State.setDisp_vec (s : State) (v : SMap DispSt) : (s.setDisp v).vec = s.vec := rfl
@[simp] theorem State.setDisp_eth (s : State) (v : SMap DispSt) : (s.setDisp v).eth = s.eth := rfl
@[simp] theorem State.setDisp_served (s : State) (v : SMap DispSt) : (s.setDisp v).served = s.served := rfl
@[simp] theorem State.setDisp_frames (s : State) (v : SMap DispSt) : (s.setDisp v).frames = s.frames := rfl
@[simp] theorem State.setDisp_snap (s : State) (v : SMap DispSt) : (s.setDisp v).snap = s.snap := rfl
@[simp] theorem State.setDisp_out (s : State) (v : SMap DispSt) : (s.setDisp v).out = s.out := rfl
@[simp] theorem State.setDisp_free (s : State) (v : SMap DispSt) : (s.setDisp v).free = s.free := rfl
@[simp] theorem State.setComet_pending (s : State) (v : SMap CometSt) : (s.setComet v).pending = s.pending := rfl
@[simp] theorem State.setComet_regs (s : State) (v : SMap CometSt) : (s.setComet v).regs = s.regs := rfl
@[simp] theorem State.setComet_errKeys (s : State) (v : SMap CometSt) : (s.setComet v).errKeys = s.errKeys := rfl
@[simp] theorem State.setComet_time (s : State) (v : SMap CometSt) : (s.setComet v).time = s.time := rfl
@[simp] theorem State.setComet_dram (s : State) (v : SMap CometSt) : (s.setComet v).dram = s.dram := rfl
@[simp] theorem State.setComet_cell (s : State) (v : SMap CometSt) : (s.setComet v).cell = s.cell := rfl
@[simp] theorem State.setComet_spad (s : State) (v : SMap CometSt) : (s.setComet v).spad = s.spad := rfl
@[simp] theorem State.setComet_store (s : State) (v : SMap CometSt) : (s.setComet v).store = s.store := rfl
@[simp] theorem State.setComet_stk (s : State) (v : SMap CometSt) : (s.setComet v).stk = s.stk := rfl
@[simp] theorem State.setComet_pch (s : State) (v : SMap CometSt) : (s.setComet v).pch = s.pch := rfl
@[simp] theorem State.setComet_region (s : State) (v : SMap CometSt) : (s.setComet v).region = s.region := rfl
@[simp] theorem State.setComet_dom (s : State) (v : SMap CometSt) : (s.setComet v).dom = s.dom := rfl
@[simp] theorem State.setComet_pwr (s : State) (v : SMap CometSt) : (s.setComet v).pwr = s.pwr := rfl
@[simp] theorem State.setComet_host (s : State) (v : SMap CometSt) : (s.setComet v).host = s.host := rfl
@[simp] theorem State.setComet_rings (s : State) (v : SMap CometSt) : (s.setComet v).rings = s.rings := rfl
@[simp] theorem State.setComet_slots (s : State) (v : SMap CometSt) : (s.setComet v).slots = s.slots := rfl
@[simp] theorem State.setComet_graphs (s : State) (v : SMap CometSt) : (s.setComet v).graphs = s.graphs := rfl
@[simp] theorem State.setComet_streams (s : State) (v : SMap CometSt) : (s.setComet v).streams = s.streams := rfl
@[simp] theorem State.setComet_qps (s : State) (v : SMap CometSt) : (s.setComet v).qps = s.qps := rfl
@[simp] theorem State.setComet_dev (s : State) (v : SMap CometSt) : (s.setComet v).dev = s.dev := rfl
@[simp] theorem State.setComet_flash (s : State) (v : SMap CometSt) : (s.setComet v).flash = s.flash := rfl
@[simp] theorem State.setComet_cores (s : State) (v : SMap CometSt) : (s.setComet v).cores = s.cores := rfl
@[simp] theorem State.setComet_sess (s : State) (v : SMap CometSt) : (s.setComet v).sess = s.sess := rfl
@[simp] theorem State.setComet_conns (s : State) (v : SMap CometSt) : (s.setComet v).conns = s.conns := rfl
@[simp] theorem State.setComet_clu (s : State) (v : SMap CometSt) : (s.setComet v).clu = s.clu := rfl
@[simp] theorem State.setComet_tel (s : State) (v : SMap CometSt) : (s.setComet v).tel = s.tel := rfl
@[simp] theorem State.setComet_dbg (s : State) (v : SMap CometSt) : (s.setComet v).dbg = s.dbg := rfl
@[simp] theorem State.setComet_pins (s : State) (v : SMap CometSt) : (s.setComet v).pins = s.pins := rfl
@[simp] theorem State.setComet_xlat (s : State) (v : SMap CometSt) : (s.setComet v).xlat = s.xlat := rfl
@[simp] theorem State.setComet_invQ (s : State) (v : SMap CometSt) : (s.setComet v).invQ = s.invQ := rfl
@[simp] theorem State.setComet_pager (s : State) (v : SMap CometSt) : (s.setComet v).pager = s.pager := rfl
@[simp] theorem State.setComet_sync (s : State) (v : SMap CometSt) : (s.setComet v).sync = s.sync := rfl
@[simp] theorem State.setComet_disp (s : State) (v : SMap CometSt) : (s.setComet v).disp = s.disp := rfl
@[simp] theorem State.setComet_comet (s : State) (v : SMap CometSt) : (s.setComet v).comet = v := rfl
@[simp] theorem State.setComet_wv (s : State) (v : SMap CometSt) : (s.setComet v).wv = s.wv := rfl
@[simp] theorem State.setComet_gdesc (s : State) (v : SMap CometSt) : (s.setComet v).gdesc = s.gdesc := rfl
@[simp] theorem State.setComet_emb (s : State) (v : SMap CometSt) : (s.setComet v).emb = s.emb := rfl
@[simp] theorem State.setComet_parts (s : State) (v : SMap CometSt) : (s.setComet v).parts = s.parts := rfl
@[simp] theorem State.setComet_batches (s : State) (v : SMap CometSt) : (s.setComet v).batches = s.batches := rfl
@[simp] theorem State.setComet_swarms (s : State) (v : SMap CometSt) : (s.setComet v).swarms = s.swarms := rfl
@[simp] theorem State.setComet_ids (s : State) (v : SMap CometSt) : (s.setComet v).ids = s.ids := rfl
@[simp] theorem State.setComet_mig (s : State) (v : SMap CometSt) : (s.setComet v).mig = s.mig := rfl
@[simp] theorem State.setComet_moves (s : State) (v : SMap CometSt) : (s.setComet v).moves = s.moves := rfl
@[simp] theorem State.setComet_mat (s : State) (v : SMap CometSt) : (s.setComet v).mat = s.mat := rfl
@[simp] theorem State.setComet_relay (s : State) (v : SMap CometSt) : (s.setComet v).relay = s.relay := rfl
@[simp] theorem State.setComet_gmx (s : State) (v : SMap CometSt) : (s.setComet v).gmx = s.gmx := rfl
@[simp] theorem State.setComet_vec (s : State) (v : SMap CometSt) : (s.setComet v).vec = s.vec := rfl
@[simp] theorem State.setComet_eth (s : State) (v : SMap CometSt) : (s.setComet v).eth = s.eth := rfl
@[simp] theorem State.setComet_served (s : State) (v : SMap CometSt) : (s.setComet v).served = s.served := rfl
@[simp] theorem State.setComet_frames (s : State) (v : SMap CometSt) : (s.setComet v).frames = s.frames := rfl
@[simp] theorem State.setComet_snap (s : State) (v : SMap CometSt) : (s.setComet v).snap = s.snap := rfl
@[simp] theorem State.setComet_out (s : State) (v : SMap CometSt) : (s.setComet v).out = s.out := rfl
@[simp] theorem State.setComet_free (s : State) (v : SMap CometSt) : (s.setComet v).free = s.free := rfl
@[simp] theorem State.setWv_pending (s : State) (v : SMap WvSt) : (s.setWv v).pending = s.pending := rfl
@[simp] theorem State.setWv_regs (s : State) (v : SMap WvSt) : (s.setWv v).regs = s.regs := rfl
@[simp] theorem State.setWv_errKeys (s : State) (v : SMap WvSt) : (s.setWv v).errKeys = s.errKeys := rfl
@[simp] theorem State.setWv_time (s : State) (v : SMap WvSt) : (s.setWv v).time = s.time := rfl
@[simp] theorem State.setWv_dram (s : State) (v : SMap WvSt) : (s.setWv v).dram = s.dram := rfl
@[simp] theorem State.setWv_cell (s : State) (v : SMap WvSt) : (s.setWv v).cell = s.cell := rfl
@[simp] theorem State.setWv_spad (s : State) (v : SMap WvSt) : (s.setWv v).spad = s.spad := rfl
@[simp] theorem State.setWv_store (s : State) (v : SMap WvSt) : (s.setWv v).store = s.store := rfl
@[simp] theorem State.setWv_stk (s : State) (v : SMap WvSt) : (s.setWv v).stk = s.stk := rfl
@[simp] theorem State.setWv_pch (s : State) (v : SMap WvSt) : (s.setWv v).pch = s.pch := rfl
@[simp] theorem State.setWv_region (s : State) (v : SMap WvSt) : (s.setWv v).region = s.region := rfl
@[simp] theorem State.setWv_dom (s : State) (v : SMap WvSt) : (s.setWv v).dom = s.dom := rfl
@[simp] theorem State.setWv_pwr (s : State) (v : SMap WvSt) : (s.setWv v).pwr = s.pwr := rfl
@[simp] theorem State.setWv_host (s : State) (v : SMap WvSt) : (s.setWv v).host = s.host := rfl
@[simp] theorem State.setWv_rings (s : State) (v : SMap WvSt) : (s.setWv v).rings = s.rings := rfl
@[simp] theorem State.setWv_slots (s : State) (v : SMap WvSt) : (s.setWv v).slots = s.slots := rfl
@[simp] theorem State.setWv_graphs (s : State) (v : SMap WvSt) : (s.setWv v).graphs = s.graphs := rfl
@[simp] theorem State.setWv_streams (s : State) (v : SMap WvSt) : (s.setWv v).streams = s.streams := rfl
@[simp] theorem State.setWv_qps (s : State) (v : SMap WvSt) : (s.setWv v).qps = s.qps := rfl
@[simp] theorem State.setWv_dev (s : State) (v : SMap WvSt) : (s.setWv v).dev = s.dev := rfl
@[simp] theorem State.setWv_flash (s : State) (v : SMap WvSt) : (s.setWv v).flash = s.flash := rfl
@[simp] theorem State.setWv_cores (s : State) (v : SMap WvSt) : (s.setWv v).cores = s.cores := rfl
@[simp] theorem State.setWv_sess (s : State) (v : SMap WvSt) : (s.setWv v).sess = s.sess := rfl
@[simp] theorem State.setWv_conns (s : State) (v : SMap WvSt) : (s.setWv v).conns = s.conns := rfl
@[simp] theorem State.setWv_clu (s : State) (v : SMap WvSt) : (s.setWv v).clu = s.clu := rfl
@[simp] theorem State.setWv_tel (s : State) (v : SMap WvSt) : (s.setWv v).tel = s.tel := rfl
@[simp] theorem State.setWv_dbg (s : State) (v : SMap WvSt) : (s.setWv v).dbg = s.dbg := rfl
@[simp] theorem State.setWv_pins (s : State) (v : SMap WvSt) : (s.setWv v).pins = s.pins := rfl
@[simp] theorem State.setWv_xlat (s : State) (v : SMap WvSt) : (s.setWv v).xlat = s.xlat := rfl
@[simp] theorem State.setWv_invQ (s : State) (v : SMap WvSt) : (s.setWv v).invQ = s.invQ := rfl
@[simp] theorem State.setWv_pager (s : State) (v : SMap WvSt) : (s.setWv v).pager = s.pager := rfl
@[simp] theorem State.setWv_sync (s : State) (v : SMap WvSt) : (s.setWv v).sync = s.sync := rfl
@[simp] theorem State.setWv_disp (s : State) (v : SMap WvSt) : (s.setWv v).disp = s.disp := rfl
@[simp] theorem State.setWv_comet (s : State) (v : SMap WvSt) : (s.setWv v).comet = s.comet := rfl
@[simp] theorem State.setWv_wv (s : State) (v : SMap WvSt) : (s.setWv v).wv = v := rfl
@[simp] theorem State.setWv_gdesc (s : State) (v : SMap WvSt) : (s.setWv v).gdesc = s.gdesc := rfl
@[simp] theorem State.setWv_emb (s : State) (v : SMap WvSt) : (s.setWv v).emb = s.emb := rfl
@[simp] theorem State.setWv_parts (s : State) (v : SMap WvSt) : (s.setWv v).parts = s.parts := rfl
@[simp] theorem State.setWv_batches (s : State) (v : SMap WvSt) : (s.setWv v).batches = s.batches := rfl
@[simp] theorem State.setWv_swarms (s : State) (v : SMap WvSt) : (s.setWv v).swarms = s.swarms := rfl
@[simp] theorem State.setWv_ids (s : State) (v : SMap WvSt) : (s.setWv v).ids = s.ids := rfl
@[simp] theorem State.setWv_mig (s : State) (v : SMap WvSt) : (s.setWv v).mig = s.mig := rfl
@[simp] theorem State.setWv_moves (s : State) (v : SMap WvSt) : (s.setWv v).moves = s.moves := rfl
@[simp] theorem State.setWv_mat (s : State) (v : SMap WvSt) : (s.setWv v).mat = s.mat := rfl
@[simp] theorem State.setWv_relay (s : State) (v : SMap WvSt) : (s.setWv v).relay = s.relay := rfl
@[simp] theorem State.setWv_gmx (s : State) (v : SMap WvSt) : (s.setWv v).gmx = s.gmx := rfl
@[simp] theorem State.setWv_vec (s : State) (v : SMap WvSt) : (s.setWv v).vec = s.vec := rfl
@[simp] theorem State.setWv_eth (s : State) (v : SMap WvSt) : (s.setWv v).eth = s.eth := rfl
@[simp] theorem State.setWv_served (s : State) (v : SMap WvSt) : (s.setWv v).served = s.served := rfl
@[simp] theorem State.setWv_frames (s : State) (v : SMap WvSt) : (s.setWv v).frames = s.frames := rfl
@[simp] theorem State.setWv_snap (s : State) (v : SMap WvSt) : (s.setWv v).snap = s.snap := rfl
@[simp] theorem State.setWv_out (s : State) (v : SMap WvSt) : (s.setWv v).out = s.out := rfl
@[simp] theorem State.setWv_free (s : State) (v : SMap WvSt) : (s.setWv v).free = s.free := rfl
@[simp] theorem State.setGdesc_pending (s : State) (v : SMap (List (Nat × List Byte))) : (s.setGdesc v).pending = s.pending := rfl
@[simp] theorem State.setGdesc_regs (s : State) (v : SMap (List (Nat × List Byte))) : (s.setGdesc v).regs = s.regs := rfl
@[simp] theorem State.setGdesc_errKeys (s : State) (v : SMap (List (Nat × List Byte))) : (s.setGdesc v).errKeys = s.errKeys := rfl
@[simp] theorem State.setGdesc_time (s : State) (v : SMap (List (Nat × List Byte))) : (s.setGdesc v).time = s.time := rfl
@[simp] theorem State.setGdesc_dram (s : State) (v : SMap (List (Nat × List Byte))) : (s.setGdesc v).dram = s.dram := rfl
@[simp] theorem State.setGdesc_cell (s : State) (v : SMap (List (Nat × List Byte))) : (s.setGdesc v).cell = s.cell := rfl
@[simp] theorem State.setGdesc_spad (s : State) (v : SMap (List (Nat × List Byte))) : (s.setGdesc v).spad = s.spad := rfl
@[simp] theorem State.setGdesc_store (s : State) (v : SMap (List (Nat × List Byte))) : (s.setGdesc v).store = s.store := rfl
@[simp] theorem State.setGdesc_stk (s : State) (v : SMap (List (Nat × List Byte))) : (s.setGdesc v).stk = s.stk := rfl
@[simp] theorem State.setGdesc_pch (s : State) (v : SMap (List (Nat × List Byte))) : (s.setGdesc v).pch = s.pch := rfl
@[simp] theorem State.setGdesc_region (s : State) (v : SMap (List (Nat × List Byte))) : (s.setGdesc v).region = s.region := rfl
@[simp] theorem State.setGdesc_dom (s : State) (v : SMap (List (Nat × List Byte))) : (s.setGdesc v).dom = s.dom := rfl
@[simp] theorem State.setGdesc_pwr (s : State) (v : SMap (List (Nat × List Byte))) : (s.setGdesc v).pwr = s.pwr := rfl
@[simp] theorem State.setGdesc_host (s : State) (v : SMap (List (Nat × List Byte))) : (s.setGdesc v).host = s.host := rfl
@[simp] theorem State.setGdesc_rings (s : State) (v : SMap (List (Nat × List Byte))) : (s.setGdesc v).rings = s.rings := rfl
@[simp] theorem State.setGdesc_slots (s : State) (v : SMap (List (Nat × List Byte))) : (s.setGdesc v).slots = s.slots := rfl
@[simp] theorem State.setGdesc_graphs (s : State) (v : SMap (List (Nat × List Byte))) : (s.setGdesc v).graphs = s.graphs := rfl
@[simp] theorem State.setGdesc_streams (s : State) (v : SMap (List (Nat × List Byte))) : (s.setGdesc v).streams = s.streams := rfl
@[simp] theorem State.setGdesc_qps (s : State) (v : SMap (List (Nat × List Byte))) : (s.setGdesc v).qps = s.qps := rfl
@[simp] theorem State.setGdesc_dev (s : State) (v : SMap (List (Nat × List Byte))) : (s.setGdesc v).dev = s.dev := rfl
@[simp] theorem State.setGdesc_flash (s : State) (v : SMap (List (Nat × List Byte))) : (s.setGdesc v).flash = s.flash := rfl
@[simp] theorem State.setGdesc_cores (s : State) (v : SMap (List (Nat × List Byte))) : (s.setGdesc v).cores = s.cores := rfl
@[simp] theorem State.setGdesc_sess (s : State) (v : SMap (List (Nat × List Byte))) : (s.setGdesc v).sess = s.sess := rfl
@[simp] theorem State.setGdesc_conns (s : State) (v : SMap (List (Nat × List Byte))) : (s.setGdesc v).conns = s.conns := rfl
@[simp] theorem State.setGdesc_clu (s : State) (v : SMap (List (Nat × List Byte))) : (s.setGdesc v).clu = s.clu := rfl
@[simp] theorem State.setGdesc_tel (s : State) (v : SMap (List (Nat × List Byte))) : (s.setGdesc v).tel = s.tel := rfl
@[simp] theorem State.setGdesc_dbg (s : State) (v : SMap (List (Nat × List Byte))) : (s.setGdesc v).dbg = s.dbg := rfl
@[simp] theorem State.setGdesc_pins (s : State) (v : SMap (List (Nat × List Byte))) : (s.setGdesc v).pins = s.pins := rfl
@[simp] theorem State.setGdesc_xlat (s : State) (v : SMap (List (Nat × List Byte))) : (s.setGdesc v).xlat = s.xlat := rfl
@[simp] theorem State.setGdesc_invQ (s : State) (v : SMap (List (Nat × List Byte))) : (s.setGdesc v).invQ = s.invQ := rfl
@[simp] theorem State.setGdesc_pager (s : State) (v : SMap (List (Nat × List Byte))) : (s.setGdesc v).pager = s.pager := rfl
@[simp] theorem State.setGdesc_sync (s : State) (v : SMap (List (Nat × List Byte))) : (s.setGdesc v).sync = s.sync := rfl
@[simp] theorem State.setGdesc_disp (s : State) (v : SMap (List (Nat × List Byte))) : (s.setGdesc v).disp = s.disp := rfl
@[simp] theorem State.setGdesc_comet (s : State) (v : SMap (List (Nat × List Byte))) : (s.setGdesc v).comet = s.comet := rfl
@[simp] theorem State.setGdesc_wv (s : State) (v : SMap (List (Nat × List Byte))) : (s.setGdesc v).wv = s.wv := rfl
@[simp] theorem State.setGdesc_gdesc (s : State) (v : SMap (List (Nat × List Byte))) : (s.setGdesc v).gdesc = v := rfl
@[simp] theorem State.setGdesc_emb (s : State) (v : SMap (List (Nat × List Byte))) : (s.setGdesc v).emb = s.emb := rfl
@[simp] theorem State.setGdesc_parts (s : State) (v : SMap (List (Nat × List Byte))) : (s.setGdesc v).parts = s.parts := rfl
@[simp] theorem State.setGdesc_batches (s : State) (v : SMap (List (Nat × List Byte))) : (s.setGdesc v).batches = s.batches := rfl
@[simp] theorem State.setGdesc_swarms (s : State) (v : SMap (List (Nat × List Byte))) : (s.setGdesc v).swarms = s.swarms := rfl
@[simp] theorem State.setGdesc_ids (s : State) (v : SMap (List (Nat × List Byte))) : (s.setGdesc v).ids = s.ids := rfl
@[simp] theorem State.setGdesc_mig (s : State) (v : SMap (List (Nat × List Byte))) : (s.setGdesc v).mig = s.mig := rfl
@[simp] theorem State.setGdesc_moves (s : State) (v : SMap (List (Nat × List Byte))) : (s.setGdesc v).moves = s.moves := rfl
@[simp] theorem State.setGdesc_mat (s : State) (v : SMap (List (Nat × List Byte))) : (s.setGdesc v).mat = s.mat := rfl
@[simp] theorem State.setGdesc_relay (s : State) (v : SMap (List (Nat × List Byte))) : (s.setGdesc v).relay = s.relay := rfl
@[simp] theorem State.setGdesc_gmx (s : State) (v : SMap (List (Nat × List Byte))) : (s.setGdesc v).gmx = s.gmx := rfl
@[simp] theorem State.setGdesc_vec (s : State) (v : SMap (List (Nat × List Byte))) : (s.setGdesc v).vec = s.vec := rfl
@[simp] theorem State.setGdesc_eth (s : State) (v : SMap (List (Nat × List Byte))) : (s.setGdesc v).eth = s.eth := rfl
@[simp] theorem State.setGdesc_served (s : State) (v : SMap (List (Nat × List Byte))) : (s.setGdesc v).served = s.served := rfl
@[simp] theorem State.setGdesc_frames (s : State) (v : SMap (List (Nat × List Byte))) : (s.setGdesc v).frames = s.frames := rfl
@[simp] theorem State.setGdesc_snap (s : State) (v : SMap (List (Nat × List Byte))) : (s.setGdesc v).snap = s.snap := rfl
@[simp] theorem State.setGdesc_out (s : State) (v : SMap (List (Nat × List Byte))) : (s.setGdesc v).out = s.out := rfl
@[simp] theorem State.setGdesc_free (s : State) (v : SMap (List (Nat × List Byte))) : (s.setGdesc v).free = s.free := rfl
@[simp] theorem State.setEmb_pending (s : State) (v : SMap EmbSt) : (s.setEmb v).pending = s.pending := rfl
@[simp] theorem State.setEmb_regs (s : State) (v : SMap EmbSt) : (s.setEmb v).regs = s.regs := rfl
@[simp] theorem State.setEmb_errKeys (s : State) (v : SMap EmbSt) : (s.setEmb v).errKeys = s.errKeys := rfl
@[simp] theorem State.setEmb_time (s : State) (v : SMap EmbSt) : (s.setEmb v).time = s.time := rfl
@[simp] theorem State.setEmb_dram (s : State) (v : SMap EmbSt) : (s.setEmb v).dram = s.dram := rfl
@[simp] theorem State.setEmb_cell (s : State) (v : SMap EmbSt) : (s.setEmb v).cell = s.cell := rfl
@[simp] theorem State.setEmb_spad (s : State) (v : SMap EmbSt) : (s.setEmb v).spad = s.spad := rfl
@[simp] theorem State.setEmb_store (s : State) (v : SMap EmbSt) : (s.setEmb v).store = s.store := rfl
@[simp] theorem State.setEmb_stk (s : State) (v : SMap EmbSt) : (s.setEmb v).stk = s.stk := rfl
@[simp] theorem State.setEmb_pch (s : State) (v : SMap EmbSt) : (s.setEmb v).pch = s.pch := rfl
@[simp] theorem State.setEmb_region (s : State) (v : SMap EmbSt) : (s.setEmb v).region = s.region := rfl
@[simp] theorem State.setEmb_dom (s : State) (v : SMap EmbSt) : (s.setEmb v).dom = s.dom := rfl
@[simp] theorem State.setEmb_pwr (s : State) (v : SMap EmbSt) : (s.setEmb v).pwr = s.pwr := rfl
@[simp] theorem State.setEmb_host (s : State) (v : SMap EmbSt) : (s.setEmb v).host = s.host := rfl
@[simp] theorem State.setEmb_rings (s : State) (v : SMap EmbSt) : (s.setEmb v).rings = s.rings := rfl
@[simp] theorem State.setEmb_slots (s : State) (v : SMap EmbSt) : (s.setEmb v).slots = s.slots := rfl
@[simp] theorem State.setEmb_graphs (s : State) (v : SMap EmbSt) : (s.setEmb v).graphs = s.graphs := rfl
@[simp] theorem State.setEmb_streams (s : State) (v : SMap EmbSt) : (s.setEmb v).streams = s.streams := rfl
@[simp] theorem State.setEmb_qps (s : State) (v : SMap EmbSt) : (s.setEmb v).qps = s.qps := rfl
@[simp] theorem State.setEmb_dev (s : State) (v : SMap EmbSt) : (s.setEmb v).dev = s.dev := rfl
@[simp] theorem State.setEmb_flash (s : State) (v : SMap EmbSt) : (s.setEmb v).flash = s.flash := rfl
@[simp] theorem State.setEmb_cores (s : State) (v : SMap EmbSt) : (s.setEmb v).cores = s.cores := rfl
@[simp] theorem State.setEmb_sess (s : State) (v : SMap EmbSt) : (s.setEmb v).sess = s.sess := rfl
@[simp] theorem State.setEmb_conns (s : State) (v : SMap EmbSt) : (s.setEmb v).conns = s.conns := rfl
@[simp] theorem State.setEmb_clu (s : State) (v : SMap EmbSt) : (s.setEmb v).clu = s.clu := rfl
@[simp] theorem State.setEmb_tel (s : State) (v : SMap EmbSt) : (s.setEmb v).tel = s.tel := rfl
@[simp] theorem State.setEmb_dbg (s : State) (v : SMap EmbSt) : (s.setEmb v).dbg = s.dbg := rfl
@[simp] theorem State.setEmb_pins (s : State) (v : SMap EmbSt) : (s.setEmb v).pins = s.pins := rfl
@[simp] theorem State.setEmb_xlat (s : State) (v : SMap EmbSt) : (s.setEmb v).xlat = s.xlat := rfl
@[simp] theorem State.setEmb_invQ (s : State) (v : SMap EmbSt) : (s.setEmb v).invQ = s.invQ := rfl
@[simp] theorem State.setEmb_pager (s : State) (v : SMap EmbSt) : (s.setEmb v).pager = s.pager := rfl
@[simp] theorem State.setEmb_sync (s : State) (v : SMap EmbSt) : (s.setEmb v).sync = s.sync := rfl
@[simp] theorem State.setEmb_disp (s : State) (v : SMap EmbSt) : (s.setEmb v).disp = s.disp := rfl
@[simp] theorem State.setEmb_comet (s : State) (v : SMap EmbSt) : (s.setEmb v).comet = s.comet := rfl
@[simp] theorem State.setEmb_wv (s : State) (v : SMap EmbSt) : (s.setEmb v).wv = s.wv := rfl
@[simp] theorem State.setEmb_gdesc (s : State) (v : SMap EmbSt) : (s.setEmb v).gdesc = s.gdesc := rfl
@[simp] theorem State.setEmb_emb (s : State) (v : SMap EmbSt) : (s.setEmb v).emb = v := rfl
@[simp] theorem State.setEmb_parts (s : State) (v : SMap EmbSt) : (s.setEmb v).parts = s.parts := rfl
@[simp] theorem State.setEmb_batches (s : State) (v : SMap EmbSt) : (s.setEmb v).batches = s.batches := rfl
@[simp] theorem State.setEmb_swarms (s : State) (v : SMap EmbSt) : (s.setEmb v).swarms = s.swarms := rfl
@[simp] theorem State.setEmb_ids (s : State) (v : SMap EmbSt) : (s.setEmb v).ids = s.ids := rfl
@[simp] theorem State.setEmb_mig (s : State) (v : SMap EmbSt) : (s.setEmb v).mig = s.mig := rfl
@[simp] theorem State.setEmb_moves (s : State) (v : SMap EmbSt) : (s.setEmb v).moves = s.moves := rfl
@[simp] theorem State.setEmb_mat (s : State) (v : SMap EmbSt) : (s.setEmb v).mat = s.mat := rfl
@[simp] theorem State.setEmb_relay (s : State) (v : SMap EmbSt) : (s.setEmb v).relay = s.relay := rfl
@[simp] theorem State.setEmb_gmx (s : State) (v : SMap EmbSt) : (s.setEmb v).gmx = s.gmx := rfl
@[simp] theorem State.setEmb_vec (s : State) (v : SMap EmbSt) : (s.setEmb v).vec = s.vec := rfl
@[simp] theorem State.setEmb_eth (s : State) (v : SMap EmbSt) : (s.setEmb v).eth = s.eth := rfl
@[simp] theorem State.setEmb_served (s : State) (v : SMap EmbSt) : (s.setEmb v).served = s.served := rfl
@[simp] theorem State.setEmb_frames (s : State) (v : SMap EmbSt) : (s.setEmb v).frames = s.frames := rfl
@[simp] theorem State.setEmb_snap (s : State) (v : SMap EmbSt) : (s.setEmb v).snap = s.snap := rfl
@[simp] theorem State.setEmb_out (s : State) (v : SMap EmbSt) : (s.setEmb v).out = s.out := rfl
@[simp] theorem State.setEmb_free (s : State) (v : SMap EmbSt) : (s.setEmb v).free = s.free := rfl
@[simp] theorem State.setParts_pending (s : State) (v : List PartSt) : (s.setParts v).pending = s.pending := rfl
@[simp] theorem State.setParts_regs (s : State) (v : List PartSt) : (s.setParts v).regs = s.regs := rfl
@[simp] theorem State.setParts_errKeys (s : State) (v : List PartSt) : (s.setParts v).errKeys = s.errKeys := rfl
@[simp] theorem State.setParts_time (s : State) (v : List PartSt) : (s.setParts v).time = s.time := rfl
@[simp] theorem State.setParts_dram (s : State) (v : List PartSt) : (s.setParts v).dram = s.dram := rfl
@[simp] theorem State.setParts_cell (s : State) (v : List PartSt) : (s.setParts v).cell = s.cell := rfl
@[simp] theorem State.setParts_spad (s : State) (v : List PartSt) : (s.setParts v).spad = s.spad := rfl
@[simp] theorem State.setParts_store (s : State) (v : List PartSt) : (s.setParts v).store = s.store := rfl
@[simp] theorem State.setParts_stk (s : State) (v : List PartSt) : (s.setParts v).stk = s.stk := rfl
@[simp] theorem State.setParts_pch (s : State) (v : List PartSt) : (s.setParts v).pch = s.pch := rfl
@[simp] theorem State.setParts_region (s : State) (v : List PartSt) : (s.setParts v).region = s.region := rfl
@[simp] theorem State.setParts_dom (s : State) (v : List PartSt) : (s.setParts v).dom = s.dom := rfl
@[simp] theorem State.setParts_pwr (s : State) (v : List PartSt) : (s.setParts v).pwr = s.pwr := rfl
@[simp] theorem State.setParts_host (s : State) (v : List PartSt) : (s.setParts v).host = s.host := rfl
@[simp] theorem State.setParts_rings (s : State) (v : List PartSt) : (s.setParts v).rings = s.rings := rfl
@[simp] theorem State.setParts_slots (s : State) (v : List PartSt) : (s.setParts v).slots = s.slots := rfl
@[simp] theorem State.setParts_graphs (s : State) (v : List PartSt) : (s.setParts v).graphs = s.graphs := rfl
@[simp] theorem State.setParts_streams (s : State) (v : List PartSt) : (s.setParts v).streams = s.streams := rfl
@[simp] theorem State.setParts_qps (s : State) (v : List PartSt) : (s.setParts v).qps = s.qps := rfl
@[simp] theorem State.setParts_dev (s : State) (v : List PartSt) : (s.setParts v).dev = s.dev := rfl
@[simp] theorem State.setParts_flash (s : State) (v : List PartSt) : (s.setParts v).flash = s.flash := rfl
@[simp] theorem State.setParts_cores (s : State) (v : List PartSt) : (s.setParts v).cores = s.cores := rfl
@[simp] theorem State.setParts_sess (s : State) (v : List PartSt) : (s.setParts v).sess = s.sess := rfl
@[simp] theorem State.setParts_conns (s : State) (v : List PartSt) : (s.setParts v).conns = s.conns := rfl
@[simp] theorem State.setParts_clu (s : State) (v : List PartSt) : (s.setParts v).clu = s.clu := rfl
@[simp] theorem State.setParts_tel (s : State) (v : List PartSt) : (s.setParts v).tel = s.tel := rfl
@[simp] theorem State.setParts_dbg (s : State) (v : List PartSt) : (s.setParts v).dbg = s.dbg := rfl
@[simp] theorem State.setParts_pins (s : State) (v : List PartSt) : (s.setParts v).pins = s.pins := rfl
@[simp] theorem State.setParts_xlat (s : State) (v : List PartSt) : (s.setParts v).xlat = s.xlat := rfl
@[simp] theorem State.setParts_invQ (s : State) (v : List PartSt) : (s.setParts v).invQ = s.invQ := rfl
@[simp] theorem State.setParts_pager (s : State) (v : List PartSt) : (s.setParts v).pager = s.pager := rfl
@[simp] theorem State.setParts_sync (s : State) (v : List PartSt) : (s.setParts v).sync = s.sync := rfl
@[simp] theorem State.setParts_disp (s : State) (v : List PartSt) : (s.setParts v).disp = s.disp := rfl
@[simp] theorem State.setParts_comet (s : State) (v : List PartSt) : (s.setParts v).comet = s.comet := rfl
@[simp] theorem State.setParts_wv (s : State) (v : List PartSt) : (s.setParts v).wv = s.wv := rfl
@[simp] theorem State.setParts_gdesc (s : State) (v : List PartSt) : (s.setParts v).gdesc = s.gdesc := rfl
@[simp] theorem State.setParts_emb (s : State) (v : List PartSt) : (s.setParts v).emb = s.emb := rfl
@[simp] theorem State.setParts_parts (s : State) (v : List PartSt) : (s.setParts v).parts = v := rfl
@[simp] theorem State.setParts_batches (s : State) (v : List PartSt) : (s.setParts v).batches = s.batches := rfl
@[simp] theorem State.setParts_swarms (s : State) (v : List PartSt) : (s.setParts v).swarms = s.swarms := rfl
@[simp] theorem State.setParts_ids (s : State) (v : List PartSt) : (s.setParts v).ids = s.ids := rfl
@[simp] theorem State.setParts_mig (s : State) (v : List PartSt) : (s.setParts v).mig = s.mig := rfl
@[simp] theorem State.setParts_moves (s : State) (v : List PartSt) : (s.setParts v).moves = s.moves := rfl
@[simp] theorem State.setParts_mat (s : State) (v : List PartSt) : (s.setParts v).mat = s.mat := rfl
@[simp] theorem State.setParts_relay (s : State) (v : List PartSt) : (s.setParts v).relay = s.relay := rfl
@[simp] theorem State.setParts_gmx (s : State) (v : List PartSt) : (s.setParts v).gmx = s.gmx := rfl
@[simp] theorem State.setParts_vec (s : State) (v : List PartSt) : (s.setParts v).vec = s.vec := rfl
@[simp] theorem State.setParts_eth (s : State) (v : List PartSt) : (s.setParts v).eth = s.eth := rfl
@[simp] theorem State.setParts_served (s : State) (v : List PartSt) : (s.setParts v).served = s.served := rfl
@[simp] theorem State.setParts_frames (s : State) (v : List PartSt) : (s.setParts v).frames = s.frames := rfl
@[simp] theorem State.setParts_snap (s : State) (v : List PartSt) : (s.setParts v).snap = s.snap := rfl
@[simp] theorem State.setParts_out (s : State) (v : List PartSt) : (s.setParts v).out = s.out := rfl
@[simp] theorem State.setParts_free (s : State) (v : List PartSt) : (s.setParts v).free = s.free := rfl
@[simp] theorem State.setBatches_pending (s : State) (v : List BatchSt) : (s.setBatches v).pending = s.pending := rfl
@[simp] theorem State.setBatches_regs (s : State) (v : List BatchSt) : (s.setBatches v).regs = s.regs := rfl
@[simp] theorem State.setBatches_errKeys (s : State) (v : List BatchSt) : (s.setBatches v).errKeys = s.errKeys := rfl
@[simp] theorem State.setBatches_time (s : State) (v : List BatchSt) : (s.setBatches v).time = s.time := rfl
@[simp] theorem State.setBatches_dram (s : State) (v : List BatchSt) : (s.setBatches v).dram = s.dram := rfl
@[simp] theorem State.setBatches_cell (s : State) (v : List BatchSt) : (s.setBatches v).cell = s.cell := rfl
@[simp] theorem State.setBatches_spad (s : State) (v : List BatchSt) : (s.setBatches v).spad = s.spad := rfl
@[simp] theorem State.setBatches_store (s : State) (v : List BatchSt) : (s.setBatches v).store = s.store := rfl
@[simp] theorem State.setBatches_stk (s : State) (v : List BatchSt) : (s.setBatches v).stk = s.stk := rfl
@[simp] theorem State.setBatches_pch (s : State) (v : List BatchSt) : (s.setBatches v).pch = s.pch := rfl
@[simp] theorem State.setBatches_region (s : State) (v : List BatchSt) : (s.setBatches v).region = s.region := rfl
@[simp] theorem State.setBatches_dom (s : State) (v : List BatchSt) : (s.setBatches v).dom = s.dom := rfl
@[simp] theorem State.setBatches_pwr (s : State) (v : List BatchSt) : (s.setBatches v).pwr = s.pwr := rfl
@[simp] theorem State.setBatches_host (s : State) (v : List BatchSt) : (s.setBatches v).host = s.host := rfl
@[simp] theorem State.setBatches_rings (s : State) (v : List BatchSt) : (s.setBatches v).rings = s.rings := rfl
@[simp] theorem State.setBatches_slots (s : State) (v : List BatchSt) : (s.setBatches v).slots = s.slots := rfl
@[simp] theorem State.setBatches_graphs (s : State) (v : List BatchSt) : (s.setBatches v).graphs = s.graphs := rfl
@[simp] theorem State.setBatches_streams (s : State) (v : List BatchSt) : (s.setBatches v).streams = s.streams := rfl
@[simp] theorem State.setBatches_qps (s : State) (v : List BatchSt) : (s.setBatches v).qps = s.qps := rfl
@[simp] theorem State.setBatches_dev (s : State) (v : List BatchSt) : (s.setBatches v).dev = s.dev := rfl
@[simp] theorem State.setBatches_flash (s : State) (v : List BatchSt) : (s.setBatches v).flash = s.flash := rfl
@[simp] theorem State.setBatches_cores (s : State) (v : List BatchSt) : (s.setBatches v).cores = s.cores := rfl
@[simp] theorem State.setBatches_sess (s : State) (v : List BatchSt) : (s.setBatches v).sess = s.sess := rfl
@[simp] theorem State.setBatches_conns (s : State) (v : List BatchSt) : (s.setBatches v).conns = s.conns := rfl
@[simp] theorem State.setBatches_clu (s : State) (v : List BatchSt) : (s.setBatches v).clu = s.clu := rfl
@[simp] theorem State.setBatches_tel (s : State) (v : List BatchSt) : (s.setBatches v).tel = s.tel := rfl
@[simp] theorem State.setBatches_dbg (s : State) (v : List BatchSt) : (s.setBatches v).dbg = s.dbg := rfl
@[simp] theorem State.setBatches_pins (s : State) (v : List BatchSt) : (s.setBatches v).pins = s.pins := rfl
@[simp] theorem State.setBatches_xlat (s : State) (v : List BatchSt) : (s.setBatches v).xlat = s.xlat := rfl
@[simp] theorem State.setBatches_invQ (s : State) (v : List BatchSt) : (s.setBatches v).invQ = s.invQ := rfl
@[simp] theorem State.setBatches_pager (s : State) (v : List BatchSt) : (s.setBatches v).pager = s.pager := rfl
@[simp] theorem State.setBatches_sync (s : State) (v : List BatchSt) : (s.setBatches v).sync = s.sync := rfl
@[simp] theorem State.setBatches_disp (s : State) (v : List BatchSt) : (s.setBatches v).disp = s.disp := rfl
@[simp] theorem State.setBatches_comet (s : State) (v : List BatchSt) : (s.setBatches v).comet = s.comet := rfl
@[simp] theorem State.setBatches_wv (s : State) (v : List BatchSt) : (s.setBatches v).wv = s.wv := rfl
@[simp] theorem State.setBatches_gdesc (s : State) (v : List BatchSt) : (s.setBatches v).gdesc = s.gdesc := rfl
@[simp] theorem State.setBatches_emb (s : State) (v : List BatchSt) : (s.setBatches v).emb = s.emb := rfl
@[simp] theorem State.setBatches_parts (s : State) (v : List BatchSt) : (s.setBatches v).parts = s.parts := rfl
@[simp] theorem State.setBatches_batches (s : State) (v : List BatchSt) : (s.setBatches v).batches = v := rfl
@[simp] theorem State.setBatches_swarms (s : State) (v : List BatchSt) : (s.setBatches v).swarms = s.swarms := rfl
@[simp] theorem State.setBatches_ids (s : State) (v : List BatchSt) : (s.setBatches v).ids = s.ids := rfl
@[simp] theorem State.setBatches_mig (s : State) (v : List BatchSt) : (s.setBatches v).mig = s.mig := rfl
@[simp] theorem State.setBatches_moves (s : State) (v : List BatchSt) : (s.setBatches v).moves = s.moves := rfl
@[simp] theorem State.setBatches_mat (s : State) (v : List BatchSt) : (s.setBatches v).mat = s.mat := rfl
@[simp] theorem State.setBatches_relay (s : State) (v : List BatchSt) : (s.setBatches v).relay = s.relay := rfl
@[simp] theorem State.setBatches_gmx (s : State) (v : List BatchSt) : (s.setBatches v).gmx = s.gmx := rfl
@[simp] theorem State.setBatches_vec (s : State) (v : List BatchSt) : (s.setBatches v).vec = s.vec := rfl
@[simp] theorem State.setBatches_eth (s : State) (v : List BatchSt) : (s.setBatches v).eth = s.eth := rfl
@[simp] theorem State.setBatches_served (s : State) (v : List BatchSt) : (s.setBatches v).served = s.served := rfl
@[simp] theorem State.setBatches_frames (s : State) (v : List BatchSt) : (s.setBatches v).frames = s.frames := rfl
@[simp] theorem State.setBatches_snap (s : State) (v : List BatchSt) : (s.setBatches v).snap = s.snap := rfl
@[simp] theorem State.setBatches_out (s : State) (v : List BatchSt) : (s.setBatches v).out = s.out := rfl
@[simp] theorem State.setBatches_free (s : State) (v : List BatchSt) : (s.setBatches v).free = s.free := rfl
@[simp] theorem State.setSwarms_pending (s : State) (v : List SwarmSt) : (s.setSwarms v).pending = s.pending := rfl
@[simp] theorem State.setSwarms_regs (s : State) (v : List SwarmSt) : (s.setSwarms v).regs = s.regs := rfl
@[simp] theorem State.setSwarms_errKeys (s : State) (v : List SwarmSt) : (s.setSwarms v).errKeys = s.errKeys := rfl
@[simp] theorem State.setSwarms_time (s : State) (v : List SwarmSt) : (s.setSwarms v).time = s.time := rfl
@[simp] theorem State.setSwarms_dram (s : State) (v : List SwarmSt) : (s.setSwarms v).dram = s.dram := rfl
@[simp] theorem State.setSwarms_cell (s : State) (v : List SwarmSt) : (s.setSwarms v).cell = s.cell := rfl
@[simp] theorem State.setSwarms_spad (s : State) (v : List SwarmSt) : (s.setSwarms v).spad = s.spad := rfl
@[simp] theorem State.setSwarms_store (s : State) (v : List SwarmSt) : (s.setSwarms v).store = s.store := rfl
@[simp] theorem State.setSwarms_stk (s : State) (v : List SwarmSt) : (s.setSwarms v).stk = s.stk := rfl
@[simp] theorem State.setSwarms_pch (s : State) (v : List SwarmSt) : (s.setSwarms v).pch = s.pch := rfl
@[simp] theorem State.setSwarms_region (s : State) (v : List SwarmSt) : (s.setSwarms v).region = s.region := rfl
@[simp] theorem State.setSwarms_dom (s : State) (v : List SwarmSt) : (s.setSwarms v).dom = s.dom := rfl
@[simp] theorem State.setSwarms_pwr (s : State) (v : List SwarmSt) : (s.setSwarms v).pwr = s.pwr := rfl
@[simp] theorem State.setSwarms_host (s : State) (v : List SwarmSt) : (s.setSwarms v).host = s.host := rfl
@[simp] theorem State.setSwarms_rings (s : State) (v : List SwarmSt) : (s.setSwarms v).rings = s.rings := rfl
@[simp] theorem State.setSwarms_slots (s : State) (v : List SwarmSt) : (s.setSwarms v).slots = s.slots := rfl
@[simp] theorem State.setSwarms_graphs (s : State) (v : List SwarmSt) : (s.setSwarms v).graphs = s.graphs := rfl
@[simp] theorem State.setSwarms_streams (s : State) (v : List SwarmSt) : (s.setSwarms v).streams = s.streams := rfl
@[simp] theorem State.setSwarms_qps (s : State) (v : List SwarmSt) : (s.setSwarms v).qps = s.qps := rfl
@[simp] theorem State.setSwarms_dev (s : State) (v : List SwarmSt) : (s.setSwarms v).dev = s.dev := rfl
@[simp] theorem State.setSwarms_flash (s : State) (v : List SwarmSt) : (s.setSwarms v).flash = s.flash := rfl
@[simp] theorem State.setSwarms_cores (s : State) (v : List SwarmSt) : (s.setSwarms v).cores = s.cores := rfl
@[simp] theorem State.setSwarms_sess (s : State) (v : List SwarmSt) : (s.setSwarms v).sess = s.sess := rfl
@[simp] theorem State.setSwarms_conns (s : State) (v : List SwarmSt) : (s.setSwarms v).conns = s.conns := rfl
@[simp] theorem State.setSwarms_clu (s : State) (v : List SwarmSt) : (s.setSwarms v).clu = s.clu := rfl
@[simp] theorem State.setSwarms_tel (s : State) (v : List SwarmSt) : (s.setSwarms v).tel = s.tel := rfl
@[simp] theorem State.setSwarms_dbg (s : State) (v : List SwarmSt) : (s.setSwarms v).dbg = s.dbg := rfl
@[simp] theorem State.setSwarms_pins (s : State) (v : List SwarmSt) : (s.setSwarms v).pins = s.pins := rfl
@[simp] theorem State.setSwarms_xlat (s : State) (v : List SwarmSt) : (s.setSwarms v).xlat = s.xlat := rfl
@[simp] theorem State.setSwarms_invQ (s : State) (v : List SwarmSt) : (s.setSwarms v).invQ = s.invQ := rfl
@[simp] theorem State.setSwarms_pager (s : State) (v : List SwarmSt) : (s.setSwarms v).pager = s.pager := rfl
@[simp] theorem State.setSwarms_sync (s : State) (v : List SwarmSt) : (s.setSwarms v).sync = s.sync := rfl
@[simp] theorem State.setSwarms_disp (s : State) (v : List SwarmSt) : (s.setSwarms v).disp = s.disp := rfl
@[simp] theorem State.setSwarms_comet (s : State) (v : List SwarmSt) : (s.setSwarms v).comet = s.comet := rfl
@[simp] theorem State.setSwarms_wv (s : State) (v : List SwarmSt) : (s.setSwarms v).wv = s.wv := rfl
@[simp] theorem State.setSwarms_gdesc (s : State) (v : List SwarmSt) : (s.setSwarms v).gdesc = s.gdesc := rfl
@[simp] theorem State.setSwarms_emb (s : State) (v : List SwarmSt) : (s.setSwarms v).emb = s.emb := rfl
@[simp] theorem State.setSwarms_parts (s : State) (v : List SwarmSt) : (s.setSwarms v).parts = s.parts := rfl
@[simp] theorem State.setSwarms_batches (s : State) (v : List SwarmSt) : (s.setSwarms v).batches = s.batches := rfl
@[simp] theorem State.setSwarms_swarms (s : State) (v : List SwarmSt) : (s.setSwarms v).swarms = v := rfl
@[simp] theorem State.setSwarms_ids (s : State) (v : List SwarmSt) : (s.setSwarms v).ids = s.ids := rfl
@[simp] theorem State.setSwarms_mig (s : State) (v : List SwarmSt) : (s.setSwarms v).mig = s.mig := rfl
@[simp] theorem State.setSwarms_moves (s : State) (v : List SwarmSt) : (s.setSwarms v).moves = s.moves := rfl
@[simp] theorem State.setSwarms_mat (s : State) (v : List SwarmSt) : (s.setSwarms v).mat = s.mat := rfl
@[simp] theorem State.setSwarms_relay (s : State) (v : List SwarmSt) : (s.setSwarms v).relay = s.relay := rfl
@[simp] theorem State.setSwarms_gmx (s : State) (v : List SwarmSt) : (s.setSwarms v).gmx = s.gmx := rfl
@[simp] theorem State.setSwarms_vec (s : State) (v : List SwarmSt) : (s.setSwarms v).vec = s.vec := rfl
@[simp] theorem State.setSwarms_eth (s : State) (v : List SwarmSt) : (s.setSwarms v).eth = s.eth := rfl
@[simp] theorem State.setSwarms_served (s : State) (v : List SwarmSt) : (s.setSwarms v).served = s.served := rfl
@[simp] theorem State.setSwarms_frames (s : State) (v : List SwarmSt) : (s.setSwarms v).frames = s.frames := rfl
@[simp] theorem State.setSwarms_snap (s : State) (v : List SwarmSt) : (s.setSwarms v).snap = s.snap := rfl
@[simp] theorem State.setSwarms_out (s : State) (v : List SwarmSt) : (s.setSwarms v).out = s.out := rfl
@[simp] theorem State.setSwarms_free (s : State) (v : List SwarmSt) : (s.setSwarms v).free = s.free := rfl
@[simp] theorem State.setIds_pending (s : State) (v : Nat) : (s.setIds v).pending = s.pending := rfl
@[simp] theorem State.setIds_regs (s : State) (v : Nat) : (s.setIds v).regs = s.regs := rfl
@[simp] theorem State.setIds_errKeys (s : State) (v : Nat) : (s.setIds v).errKeys = s.errKeys := rfl
@[simp] theorem State.setIds_time (s : State) (v : Nat) : (s.setIds v).time = s.time := rfl
@[simp] theorem State.setIds_dram (s : State) (v : Nat) : (s.setIds v).dram = s.dram := rfl
@[simp] theorem State.setIds_cell (s : State) (v : Nat) : (s.setIds v).cell = s.cell := rfl
@[simp] theorem State.setIds_spad (s : State) (v : Nat) : (s.setIds v).spad = s.spad := rfl
@[simp] theorem State.setIds_store (s : State) (v : Nat) : (s.setIds v).store = s.store := rfl
@[simp] theorem State.setIds_stk (s : State) (v : Nat) : (s.setIds v).stk = s.stk := rfl
@[simp] theorem State.setIds_pch (s : State) (v : Nat) : (s.setIds v).pch = s.pch := rfl
@[simp] theorem State.setIds_region (s : State) (v : Nat) : (s.setIds v).region = s.region := rfl
@[simp] theorem State.setIds_dom (s : State) (v : Nat) : (s.setIds v).dom = s.dom := rfl
@[simp] theorem State.setIds_pwr (s : State) (v : Nat) : (s.setIds v).pwr = s.pwr := rfl
@[simp] theorem State.setIds_host (s : State) (v : Nat) : (s.setIds v).host = s.host := rfl
@[simp] theorem State.setIds_rings (s : State) (v : Nat) : (s.setIds v).rings = s.rings := rfl
@[simp] theorem State.setIds_slots (s : State) (v : Nat) : (s.setIds v).slots = s.slots := rfl
@[simp] theorem State.setIds_graphs (s : State) (v : Nat) : (s.setIds v).graphs = s.graphs := rfl
@[simp] theorem State.setIds_streams (s : State) (v : Nat) : (s.setIds v).streams = s.streams := rfl
@[simp] theorem State.setIds_qps (s : State) (v : Nat) : (s.setIds v).qps = s.qps := rfl
@[simp] theorem State.setIds_dev (s : State) (v : Nat) : (s.setIds v).dev = s.dev := rfl
@[simp] theorem State.setIds_flash (s : State) (v : Nat) : (s.setIds v).flash = s.flash := rfl
@[simp] theorem State.setIds_cores (s : State) (v : Nat) : (s.setIds v).cores = s.cores := rfl
@[simp] theorem State.setIds_sess (s : State) (v : Nat) : (s.setIds v).sess = s.sess := rfl
@[simp] theorem State.setIds_conns (s : State) (v : Nat) : (s.setIds v).conns = s.conns := rfl
@[simp] theorem State.setIds_clu (s : State) (v : Nat) : (s.setIds v).clu = s.clu := rfl
@[simp] theorem State.setIds_tel (s : State) (v : Nat) : (s.setIds v).tel = s.tel := rfl
@[simp] theorem State.setIds_dbg (s : State) (v : Nat) : (s.setIds v).dbg = s.dbg := rfl
@[simp] theorem State.setIds_pins (s : State) (v : Nat) : (s.setIds v).pins = s.pins := rfl
@[simp] theorem State.setIds_xlat (s : State) (v : Nat) : (s.setIds v).xlat = s.xlat := rfl
@[simp] theorem State.setIds_invQ (s : State) (v : Nat) : (s.setIds v).invQ = s.invQ := rfl
@[simp] theorem State.setIds_pager (s : State) (v : Nat) : (s.setIds v).pager = s.pager := rfl
@[simp] theorem State.setIds_sync (s : State) (v : Nat) : (s.setIds v).sync = s.sync := rfl
@[simp] theorem State.setIds_disp (s : State) (v : Nat) : (s.setIds v).disp = s.disp := rfl
@[simp] theorem State.setIds_comet (s : State) (v : Nat) : (s.setIds v).comet = s.comet := rfl
@[simp] theorem State.setIds_wv (s : State) (v : Nat) : (s.setIds v).wv = s.wv := rfl
@[simp] theorem State.setIds_gdesc (s : State) (v : Nat) : (s.setIds v).gdesc = s.gdesc := rfl
@[simp] theorem State.setIds_emb (s : State) (v : Nat) : (s.setIds v).emb = s.emb := rfl
@[simp] theorem State.setIds_parts (s : State) (v : Nat) : (s.setIds v).parts = s.parts := rfl
@[simp] theorem State.setIds_batches (s : State) (v : Nat) : (s.setIds v).batches = s.batches := rfl
@[simp] theorem State.setIds_swarms (s : State) (v : Nat) : (s.setIds v).swarms = s.swarms := rfl
@[simp] theorem State.setIds_ids (s : State) (v : Nat) : (s.setIds v).ids = v := rfl
@[simp] theorem State.setIds_mig (s : State) (v : Nat) : (s.setIds v).mig = s.mig := rfl
@[simp] theorem State.setIds_moves (s : State) (v : Nat) : (s.setIds v).moves = s.moves := rfl
@[simp] theorem State.setIds_mat (s : State) (v : Nat) : (s.setIds v).mat = s.mat := rfl
@[simp] theorem State.setIds_relay (s : State) (v : Nat) : (s.setIds v).relay = s.relay := rfl
@[simp] theorem State.setIds_gmx (s : State) (v : Nat) : (s.setIds v).gmx = s.gmx := rfl
@[simp] theorem State.setIds_vec (s : State) (v : Nat) : (s.setIds v).vec = s.vec := rfl
@[simp] theorem State.setIds_eth (s : State) (v : Nat) : (s.setIds v).eth = s.eth := rfl
@[simp] theorem State.setIds_served (s : State) (v : Nat) : (s.setIds v).served = s.served := rfl
@[simp] theorem State.setIds_frames (s : State) (v : Nat) : (s.setIds v).frames = s.frames := rfl
@[simp] theorem State.setIds_snap (s : State) (v : Nat) : (s.setIds v).snap = s.snap := rfl
@[simp] theorem State.setIds_out (s : State) (v : Nat) : (s.setIds v).out = s.out := rfl
@[simp] theorem State.setIds_free (s : State) (v : Nat) : (s.setIds v).free = s.free := rfl
@[simp] theorem State.setMig_pending (s : State) (v : SMap MigSt) : (s.setMig v).pending = s.pending := rfl
@[simp] theorem State.setMig_regs (s : State) (v : SMap MigSt) : (s.setMig v).regs = s.regs := rfl
@[simp] theorem State.setMig_errKeys (s : State) (v : SMap MigSt) : (s.setMig v).errKeys = s.errKeys := rfl
@[simp] theorem State.setMig_time (s : State) (v : SMap MigSt) : (s.setMig v).time = s.time := rfl
@[simp] theorem State.setMig_dram (s : State) (v : SMap MigSt) : (s.setMig v).dram = s.dram := rfl
@[simp] theorem State.setMig_cell (s : State) (v : SMap MigSt) : (s.setMig v).cell = s.cell := rfl
@[simp] theorem State.setMig_spad (s : State) (v : SMap MigSt) : (s.setMig v).spad = s.spad := rfl
@[simp] theorem State.setMig_store (s : State) (v : SMap MigSt) : (s.setMig v).store = s.store := rfl
@[simp] theorem State.setMig_stk (s : State) (v : SMap MigSt) : (s.setMig v).stk = s.stk := rfl
@[simp] theorem State.setMig_pch (s : State) (v : SMap MigSt) : (s.setMig v).pch = s.pch := rfl
@[simp] theorem State.setMig_region (s : State) (v : SMap MigSt) : (s.setMig v).region = s.region := rfl
@[simp] theorem State.setMig_dom (s : State) (v : SMap MigSt) : (s.setMig v).dom = s.dom := rfl
@[simp] theorem State.setMig_pwr (s : State) (v : SMap MigSt) : (s.setMig v).pwr = s.pwr := rfl
@[simp] theorem State.setMig_host (s : State) (v : SMap MigSt) : (s.setMig v).host = s.host := rfl
@[simp] theorem State.setMig_rings (s : State) (v : SMap MigSt) : (s.setMig v).rings = s.rings := rfl
@[simp] theorem State.setMig_slots (s : State) (v : SMap MigSt) : (s.setMig v).slots = s.slots := rfl
@[simp] theorem State.setMig_graphs (s : State) (v : SMap MigSt) : (s.setMig v).graphs = s.graphs := rfl
@[simp] theorem State.setMig_streams (s : State) (v : SMap MigSt) : (s.setMig v).streams = s.streams := rfl
@[simp] theorem State.setMig_qps (s : State) (v : SMap MigSt) : (s.setMig v).qps = s.qps := rfl
@[simp] theorem State.setMig_dev (s : State) (v : SMap MigSt) : (s.setMig v).dev = s.dev := rfl
@[simp] theorem State.setMig_flash (s : State) (v : SMap MigSt) : (s.setMig v).flash = s.flash := rfl
@[simp] theorem State.setMig_cores (s : State) (v : SMap MigSt) : (s.setMig v).cores = s.cores := rfl
@[simp] theorem State.setMig_sess (s : State) (v : SMap MigSt) : (s.setMig v).sess = s.sess := rfl
@[simp] theorem State.setMig_conns (s : State) (v : SMap MigSt) : (s.setMig v).conns = s.conns := rfl
@[simp] theorem State.setMig_clu (s : State) (v : SMap MigSt) : (s.setMig v).clu = s.clu := rfl
@[simp] theorem State.setMig_tel (s : State) (v : SMap MigSt) : (s.setMig v).tel = s.tel := rfl
@[simp] theorem State.setMig_dbg (s : State) (v : SMap MigSt) : (s.setMig v).dbg = s.dbg := rfl
@[simp] theorem State.setMig_pins (s : State) (v : SMap MigSt) : (s.setMig v).pins = s.pins := rfl
@[simp] theorem State.setMig_xlat (s : State) (v : SMap MigSt) : (s.setMig v).xlat = s.xlat := rfl
@[simp] theorem State.setMig_invQ (s : State) (v : SMap MigSt) : (s.setMig v).invQ = s.invQ := rfl
@[simp] theorem State.setMig_pager (s : State) (v : SMap MigSt) : (s.setMig v).pager = s.pager := rfl
@[simp] theorem State.setMig_sync (s : State) (v : SMap MigSt) : (s.setMig v).sync = s.sync := rfl
@[simp] theorem State.setMig_disp (s : State) (v : SMap MigSt) : (s.setMig v).disp = s.disp := rfl
@[simp] theorem State.setMig_comet (s : State) (v : SMap MigSt) : (s.setMig v).comet = s.comet := rfl
@[simp] theorem State.setMig_wv (s : State) (v : SMap MigSt) : (s.setMig v).wv = s.wv := rfl
@[simp] theorem State.setMig_gdesc (s : State) (v : SMap MigSt) : (s.setMig v).gdesc = s.gdesc := rfl
@[simp] theorem State.setMig_emb (s : State) (v : SMap MigSt) : (s.setMig v).emb = s.emb := rfl
@[simp] theorem State.setMig_parts (s : State) (v : SMap MigSt) : (s.setMig v).parts = s.parts := rfl
@[simp] theorem State.setMig_batches (s : State) (v : SMap MigSt) : (s.setMig v).batches = s.batches := rfl
@[simp] theorem State.setMig_swarms (s : State) (v : SMap MigSt) : (s.setMig v).swarms = s.swarms := rfl
@[simp] theorem State.setMig_ids (s : State) (v : SMap MigSt) : (s.setMig v).ids = s.ids := rfl
@[simp] theorem State.setMig_mig (s : State) (v : SMap MigSt) : (s.setMig v).mig = v := rfl
@[simp] theorem State.setMig_moves (s : State) (v : SMap MigSt) : (s.setMig v).moves = s.moves := rfl
@[simp] theorem State.setMig_mat (s : State) (v : SMap MigSt) : (s.setMig v).mat = s.mat := rfl
@[simp] theorem State.setMig_relay (s : State) (v : SMap MigSt) : (s.setMig v).relay = s.relay := rfl
@[simp] theorem State.setMig_gmx (s : State) (v : SMap MigSt) : (s.setMig v).gmx = s.gmx := rfl
@[simp] theorem State.setMig_vec (s : State) (v : SMap MigSt) : (s.setMig v).vec = s.vec := rfl
@[simp] theorem State.setMig_eth (s : State) (v : SMap MigSt) : (s.setMig v).eth = s.eth := rfl
@[simp] theorem State.setMig_served (s : State) (v : SMap MigSt) : (s.setMig v).served = s.served := rfl
@[simp] theorem State.setMig_frames (s : State) (v : SMap MigSt) : (s.setMig v).frames = s.frames := rfl
@[simp] theorem State.setMig_snap (s : State) (v : SMap MigSt) : (s.setMig v).snap = s.snap := rfl
@[simp] theorem State.setMig_out (s : State) (v : SMap MigSt) : (s.setMig v).out = s.out := rfl
@[simp] theorem State.setMig_free (s : State) (v : SMap MigSt) : (s.setMig v).free = s.free := rfl
@[simp] theorem State.setMoves_pending (s : State) (v : List RowMove) : (s.setMoves v).pending = s.pending := rfl
@[simp] theorem State.setMoves_regs (s : State) (v : List RowMove) : (s.setMoves v).regs = s.regs := rfl
@[simp] theorem State.setMoves_errKeys (s : State) (v : List RowMove) : (s.setMoves v).errKeys = s.errKeys := rfl
@[simp] theorem State.setMoves_time (s : State) (v : List RowMove) : (s.setMoves v).time = s.time := rfl
@[simp] theorem State.setMoves_dram (s : State) (v : List RowMove) : (s.setMoves v).dram = s.dram := rfl
@[simp] theorem State.setMoves_cell (s : State) (v : List RowMove) : (s.setMoves v).cell = s.cell := rfl
@[simp] theorem State.setMoves_spad (s : State) (v : List RowMove) : (s.setMoves v).spad = s.spad := rfl
@[simp] theorem State.setMoves_store (s : State) (v : List RowMove) : (s.setMoves v).store = s.store := rfl
@[simp] theorem State.setMoves_stk (s : State) (v : List RowMove) : (s.setMoves v).stk = s.stk := rfl
@[simp] theorem State.setMoves_pch (s : State) (v : List RowMove) : (s.setMoves v).pch = s.pch := rfl
@[simp] theorem State.setMoves_region (s : State) (v : List RowMove) : (s.setMoves v).region = s.region := rfl
@[simp] theorem State.setMoves_dom (s : State) (v : List RowMove) : (s.setMoves v).dom = s.dom := rfl
@[simp] theorem State.setMoves_pwr (s : State) (v : List RowMove) : (s.setMoves v).pwr = s.pwr := rfl
@[simp] theorem State.setMoves_host (s : State) (v : List RowMove) : (s.setMoves v).host = s.host := rfl
@[simp] theorem State.setMoves_rings (s : State) (v : List RowMove) : (s.setMoves v).rings = s.rings := rfl
@[simp] theorem State.setMoves_slots (s : State) (v : List RowMove) : (s.setMoves v).slots = s.slots := rfl
@[simp] theorem State.setMoves_graphs (s : State) (v : List RowMove) : (s.setMoves v).graphs = s.graphs := rfl
@[simp] theorem State.setMoves_streams (s : State) (v : List RowMove) : (s.setMoves v).streams = s.streams := rfl
@[simp] theorem State.setMoves_qps (s : State) (v : List RowMove) : (s.setMoves v).qps = s.qps := rfl
@[simp] theorem State.setMoves_dev (s : State) (v : List RowMove) : (s.setMoves v).dev = s.dev := rfl
@[simp] theorem State.setMoves_flash (s : State) (v : List RowMove) : (s.setMoves v).flash = s.flash := rfl
@[simp] theorem State.setMoves_cores (s : State) (v : List RowMove) : (s.setMoves v).cores = s.cores := rfl
@[simp] theorem State.setMoves_sess (s : State) (v : List RowMove) : (s.setMoves v).sess = s.sess := rfl
@[simp] theorem State.setMoves_conns (s : State) (v : List RowMove) : (s.setMoves v).conns = s.conns := rfl
@[simp] theorem State.setMoves_clu (s : State) (v : List RowMove) : (s.setMoves v).clu = s.clu := rfl
@[simp] theorem State.setMoves_tel (s : State) (v : List RowMove) : (s.setMoves v).tel = s.tel := rfl
@[simp] theorem State.setMoves_dbg (s : State) (v : List RowMove) : (s.setMoves v).dbg = s.dbg := rfl
@[simp] theorem State.setMoves_pins (s : State) (v : List RowMove) : (s.setMoves v).pins = s.pins := rfl
@[simp] theorem State.setMoves_xlat (s : State) (v : List RowMove) : (s.setMoves v).xlat = s.xlat := rfl
@[simp] theorem State.setMoves_invQ (s : State) (v : List RowMove) : (s.setMoves v).invQ = s.invQ := rfl
@[simp] theorem State.setMoves_pager (s : State) (v : List RowMove) : (s.setMoves v).pager = s.pager := rfl
@[simp] theorem State.setMoves_sync (s : State) (v : List RowMove) : (s.setMoves v).sync = s.sync := rfl
@[simp] theorem State.setMoves_disp (s : State) (v : List RowMove) : (s.setMoves v).disp = s.disp := rfl
@[simp] theorem State.setMoves_comet (s : State) (v : List RowMove) : (s.setMoves v).comet = s.comet := rfl
@[simp] theorem State.setMoves_wv (s : State) (v : List RowMove) : (s.setMoves v).wv = s.wv := rfl
@[simp] theorem State.setMoves_gdesc (s : State) (v : List RowMove) : (s.setMoves v).gdesc = s.gdesc := rfl
@[simp] theorem State.setMoves_emb (s : State) (v : List RowMove) : (s.setMoves v).emb = s.emb := rfl
@[simp] theorem State.setMoves_parts (s : State) (v : List RowMove) : (s.setMoves v).parts = s.parts := rfl
@[simp] theorem State.setMoves_batches (s : State) (v : List RowMove) : (s.setMoves v).batches = s.batches := rfl
@[simp] theorem State.setMoves_swarms (s : State) (v : List RowMove) : (s.setMoves v).swarms = s.swarms := rfl
@[simp] theorem State.setMoves_ids (s : State) (v : List RowMove) : (s.setMoves v).ids = s.ids := rfl
@[simp] theorem State.setMoves_mig (s : State) (v : List RowMove) : (s.setMoves v).mig = s.mig := rfl
@[simp] theorem State.setMoves_moves (s : State) (v : List RowMove) : (s.setMoves v).moves = v := rfl
@[simp] theorem State.setMoves_mat (s : State) (v : List RowMove) : (s.setMoves v).mat = s.mat := rfl
@[simp] theorem State.setMoves_relay (s : State) (v : List RowMove) : (s.setMoves v).relay = s.relay := rfl
@[simp] theorem State.setMoves_gmx (s : State) (v : List RowMove) : (s.setMoves v).gmx = s.gmx := rfl
@[simp] theorem State.setMoves_vec (s : State) (v : List RowMove) : (s.setMoves v).vec = s.vec := rfl
@[simp] theorem State.setMoves_eth (s : State) (v : List RowMove) : (s.setMoves v).eth = s.eth := rfl
@[simp] theorem State.setMoves_served (s : State) (v : List RowMove) : (s.setMoves v).served = s.served := rfl
@[simp] theorem State.setMoves_frames (s : State) (v : List RowMove) : (s.setMoves v).frames = s.frames := rfl
@[simp] theorem State.setMoves_snap (s : State) (v : List RowMove) : (s.setMoves v).snap = s.snap := rfl
@[simp] theorem State.setMoves_out (s : State) (v : List RowMove) : (s.setMoves v).out = s.out := rfl
@[simp] theorem State.setMoves_free (s : State) (v : List RowMove) : (s.setMoves v).free = s.free := rfl
@[simp] theorem State.setMat_pending (s : State) (v : SMap MatSt) : (s.setMat v).pending = s.pending := rfl
@[simp] theorem State.setMat_regs (s : State) (v : SMap MatSt) : (s.setMat v).regs = s.regs := rfl
@[simp] theorem State.setMat_errKeys (s : State) (v : SMap MatSt) : (s.setMat v).errKeys = s.errKeys := rfl
@[simp] theorem State.setMat_time (s : State) (v : SMap MatSt) : (s.setMat v).time = s.time := rfl
@[simp] theorem State.setMat_dram (s : State) (v : SMap MatSt) : (s.setMat v).dram = s.dram := rfl
@[simp] theorem State.setMat_cell (s : State) (v : SMap MatSt) : (s.setMat v).cell = s.cell := rfl
@[simp] theorem State.setMat_spad (s : State) (v : SMap MatSt) : (s.setMat v).spad = s.spad := rfl
@[simp] theorem State.setMat_store (s : State) (v : SMap MatSt) : (s.setMat v).store = s.store := rfl
@[simp] theorem State.setMat_stk (s : State) (v : SMap MatSt) : (s.setMat v).stk = s.stk := rfl
@[simp] theorem State.setMat_pch (s : State) (v : SMap MatSt) : (s.setMat v).pch = s.pch := rfl
@[simp] theorem State.setMat_region (s : State) (v : SMap MatSt) : (s.setMat v).region = s.region := rfl
@[simp] theorem State.setMat_dom (s : State) (v : SMap MatSt) : (s.setMat v).dom = s.dom := rfl
@[simp] theorem State.setMat_pwr (s : State) (v : SMap MatSt) : (s.setMat v).pwr = s.pwr := rfl
@[simp] theorem State.setMat_host (s : State) (v : SMap MatSt) : (s.setMat v).host = s.host := rfl
@[simp] theorem State.setMat_rings (s : State) (v : SMap MatSt) : (s.setMat v).rings = s.rings := rfl
@[simp] theorem State.setMat_slots (s : State) (v : SMap MatSt) : (s.setMat v).slots = s.slots := rfl
@[simp] theorem State.setMat_graphs (s : State) (v : SMap MatSt) : (s.setMat v).graphs = s.graphs := rfl
@[simp] theorem State.setMat_streams (s : State) (v : SMap MatSt) : (s.setMat v).streams = s.streams := rfl
@[simp] theorem State.setMat_qps (s : State) (v : SMap MatSt) : (s.setMat v).qps = s.qps := rfl
@[simp] theorem State.setMat_dev (s : State) (v : SMap MatSt) : (s.setMat v).dev = s.dev := rfl
@[simp] theorem State.setMat_flash (s : State) (v : SMap MatSt) : (s.setMat v).flash = s.flash := rfl
@[simp] theorem State.setMat_cores (s : State) (v : SMap MatSt) : (s.setMat v).cores = s.cores := rfl
@[simp] theorem State.setMat_sess (s : State) (v : SMap MatSt) : (s.setMat v).sess = s.sess := rfl
@[simp] theorem State.setMat_conns (s : State) (v : SMap MatSt) : (s.setMat v).conns = s.conns := rfl
@[simp] theorem State.setMat_clu (s : State) (v : SMap MatSt) : (s.setMat v).clu = s.clu := rfl
@[simp] theorem State.setMat_tel (s : State) (v : SMap MatSt) : (s.setMat v).tel = s.tel := rfl
@[simp] theorem State.setMat_dbg (s : State) (v : SMap MatSt) : (s.setMat v).dbg = s.dbg := rfl
@[simp] theorem State.setMat_pins (s : State) (v : SMap MatSt) : (s.setMat v).pins = s.pins := rfl
@[simp] theorem State.setMat_xlat (s : State) (v : SMap MatSt) : (s.setMat v).xlat = s.xlat := rfl
@[simp] theorem State.setMat_invQ (s : State) (v : SMap MatSt) : (s.setMat v).invQ = s.invQ := rfl
@[simp] theorem State.setMat_pager (s : State) (v : SMap MatSt) : (s.setMat v).pager = s.pager := rfl
@[simp] theorem State.setMat_sync (s : State) (v : SMap MatSt) : (s.setMat v).sync = s.sync := rfl
@[simp] theorem State.setMat_disp (s : State) (v : SMap MatSt) : (s.setMat v).disp = s.disp := rfl
@[simp] theorem State.setMat_comet (s : State) (v : SMap MatSt) : (s.setMat v).comet = s.comet := rfl
@[simp] theorem State.setMat_wv (s : State) (v : SMap MatSt) : (s.setMat v).wv = s.wv := rfl
@[simp] theorem State.setMat_gdesc (s : State) (v : SMap MatSt) : (s.setMat v).gdesc = s.gdesc := rfl
@[simp] theorem State.setMat_emb (s : State) (v : SMap MatSt) : (s.setMat v).emb = s.emb := rfl
@[simp] theorem State.setMat_parts (s : State) (v : SMap MatSt) : (s.setMat v).parts = s.parts := rfl
@[simp] theorem State.setMat_batches (s : State) (v : SMap MatSt) : (s.setMat v).batches = s.batches := rfl
@[simp] theorem State.setMat_swarms (s : State) (v : SMap MatSt) : (s.setMat v).swarms = s.swarms := rfl
@[simp] theorem State.setMat_ids (s : State) (v : SMap MatSt) : (s.setMat v).ids = s.ids := rfl
@[simp] theorem State.setMat_mig (s : State) (v : SMap MatSt) : (s.setMat v).mig = s.mig := rfl
@[simp] theorem State.setMat_moves (s : State) (v : SMap MatSt) : (s.setMat v).moves = s.moves := rfl
@[simp] theorem State.setMat_mat (s : State) (v : SMap MatSt) : (s.setMat v).mat = v := rfl
@[simp] theorem State.setMat_relay (s : State) (v : SMap MatSt) : (s.setMat v).relay = s.relay := rfl
@[simp] theorem State.setMat_gmx (s : State) (v : SMap MatSt) : (s.setMat v).gmx = s.gmx := rfl
@[simp] theorem State.setMat_vec (s : State) (v : SMap MatSt) : (s.setMat v).vec = s.vec := rfl
@[simp] theorem State.setMat_eth (s : State) (v : SMap MatSt) : (s.setMat v).eth = s.eth := rfl
@[simp] theorem State.setMat_served (s : State) (v : SMap MatSt) : (s.setMat v).served = s.served := rfl
@[simp] theorem State.setMat_frames (s : State) (v : SMap MatSt) : (s.setMat v).frames = s.frames := rfl
@[simp] theorem State.setMat_snap (s : State) (v : SMap MatSt) : (s.setMat v).snap = s.snap := rfl
@[simp] theorem State.setMat_out (s : State) (v : SMap MatSt) : (s.setMat v).out = s.out := rfl
@[simp] theorem State.setMat_free (s : State) (v : SMap MatSt) : (s.setMat v).free = s.free := rfl
@[simp] theorem State.setRelay_pending (s : State) (v : SMap (List Chunk)) : (s.setRelay v).pending = s.pending := rfl
@[simp] theorem State.setRelay_regs (s : State) (v : SMap (List Chunk)) : (s.setRelay v).regs = s.regs := rfl
@[simp] theorem State.setRelay_errKeys (s : State) (v : SMap (List Chunk)) : (s.setRelay v).errKeys = s.errKeys := rfl
@[simp] theorem State.setRelay_time (s : State) (v : SMap (List Chunk)) : (s.setRelay v).time = s.time := rfl
@[simp] theorem State.setRelay_dram (s : State) (v : SMap (List Chunk)) : (s.setRelay v).dram = s.dram := rfl
@[simp] theorem State.setRelay_cell (s : State) (v : SMap (List Chunk)) : (s.setRelay v).cell = s.cell := rfl
@[simp] theorem State.setRelay_spad (s : State) (v : SMap (List Chunk)) : (s.setRelay v).spad = s.spad := rfl
@[simp] theorem State.setRelay_store (s : State) (v : SMap (List Chunk)) : (s.setRelay v).store = s.store := rfl
@[simp] theorem State.setRelay_stk (s : State) (v : SMap (List Chunk)) : (s.setRelay v).stk = s.stk := rfl
@[simp] theorem State.setRelay_pch (s : State) (v : SMap (List Chunk)) : (s.setRelay v).pch = s.pch := rfl
@[simp] theorem State.setRelay_region (s : State) (v : SMap (List Chunk)) : (s.setRelay v).region = s.region := rfl
@[simp] theorem State.setRelay_dom (s : State) (v : SMap (List Chunk)) : (s.setRelay v).dom = s.dom := rfl
@[simp] theorem State.setRelay_pwr (s : State) (v : SMap (List Chunk)) : (s.setRelay v).pwr = s.pwr := rfl
@[simp] theorem State.setRelay_host (s : State) (v : SMap (List Chunk)) : (s.setRelay v).host = s.host := rfl
@[simp] theorem State.setRelay_rings (s : State) (v : SMap (List Chunk)) : (s.setRelay v).rings = s.rings := rfl
@[simp] theorem State.setRelay_slots (s : State) (v : SMap (List Chunk)) : (s.setRelay v).slots = s.slots := rfl
@[simp] theorem State.setRelay_graphs (s : State) (v : SMap (List Chunk)) : (s.setRelay v).graphs = s.graphs := rfl
@[simp] theorem State.setRelay_streams (s : State) (v : SMap (List Chunk)) : (s.setRelay v).streams = s.streams := rfl
@[simp] theorem State.setRelay_qps (s : State) (v : SMap (List Chunk)) : (s.setRelay v).qps = s.qps := rfl
@[simp] theorem State.setRelay_dev (s : State) (v : SMap (List Chunk)) : (s.setRelay v).dev = s.dev := rfl
@[simp] theorem State.setRelay_flash (s : State) (v : SMap (List Chunk)) : (s.setRelay v).flash = s.flash := rfl
@[simp] theorem State.setRelay_cores (s : State) (v : SMap (List Chunk)) : (s.setRelay v).cores = s.cores := rfl
@[simp] theorem State.setRelay_sess (s : State) (v : SMap (List Chunk)) : (s.setRelay v).sess = s.sess := rfl
@[simp] theorem State.setRelay_conns (s : State) (v : SMap (List Chunk)) : (s.setRelay v).conns = s.conns := rfl
@[simp] theorem State.setRelay_clu (s : State) (v : SMap (List Chunk)) : (s.setRelay v).clu = s.clu := rfl
@[simp] theorem State.setRelay_tel (s : State) (v : SMap (List Chunk)) : (s.setRelay v).tel = s.tel := rfl
@[simp] theorem State.setRelay_dbg (s : State) (v : SMap (List Chunk)) : (s.setRelay v).dbg = s.dbg := rfl
@[simp] theorem State.setRelay_pins (s : State) (v : SMap (List Chunk)) : (s.setRelay v).pins = s.pins := rfl
@[simp] theorem State.setRelay_xlat (s : State) (v : SMap (List Chunk)) : (s.setRelay v).xlat = s.xlat := rfl
@[simp] theorem State.setRelay_invQ (s : State) (v : SMap (List Chunk)) : (s.setRelay v).invQ = s.invQ := rfl
@[simp] theorem State.setRelay_pager (s : State) (v : SMap (List Chunk)) : (s.setRelay v).pager = s.pager := rfl
@[simp] theorem State.setRelay_sync (s : State) (v : SMap (List Chunk)) : (s.setRelay v).sync = s.sync := rfl
@[simp] theorem State.setRelay_disp (s : State) (v : SMap (List Chunk)) : (s.setRelay v).disp = s.disp := rfl
@[simp] theorem State.setRelay_comet (s : State) (v : SMap (List Chunk)) : (s.setRelay v).comet = s.comet := rfl
@[simp] theorem State.setRelay_wv (s : State) (v : SMap (List Chunk)) : (s.setRelay v).wv = s.wv := rfl
@[simp] theorem State.setRelay_gdesc (s : State) (v : SMap (List Chunk)) : (s.setRelay v).gdesc = s.gdesc := rfl
@[simp] theorem State.setRelay_emb (s : State) (v : SMap (List Chunk)) : (s.setRelay v).emb = s.emb := rfl
@[simp] theorem State.setRelay_parts (s : State) (v : SMap (List Chunk)) : (s.setRelay v).parts = s.parts := rfl
@[simp] theorem State.setRelay_batches (s : State) (v : SMap (List Chunk)) : (s.setRelay v).batches = s.batches := rfl
@[simp] theorem State.setRelay_swarms (s : State) (v : SMap (List Chunk)) : (s.setRelay v).swarms = s.swarms := rfl
@[simp] theorem State.setRelay_ids (s : State) (v : SMap (List Chunk)) : (s.setRelay v).ids = s.ids := rfl
@[simp] theorem State.setRelay_mig (s : State) (v : SMap (List Chunk)) : (s.setRelay v).mig = s.mig := rfl
@[simp] theorem State.setRelay_moves (s : State) (v : SMap (List Chunk)) : (s.setRelay v).moves = s.moves := rfl
@[simp] theorem State.setRelay_mat (s : State) (v : SMap (List Chunk)) : (s.setRelay v).mat = s.mat := rfl
@[simp] theorem State.setRelay_relay (s : State) (v : SMap (List Chunk)) : (s.setRelay v).relay = v := rfl
@[simp] theorem State.setRelay_gmx (s : State) (v : SMap (List Chunk)) : (s.setRelay v).gmx = s.gmx := rfl
@[simp] theorem State.setRelay_vec (s : State) (v : SMap (List Chunk)) : (s.setRelay v).vec = s.vec := rfl
@[simp] theorem State.setRelay_eth (s : State) (v : SMap (List Chunk)) : (s.setRelay v).eth = s.eth := rfl
@[simp] theorem State.setRelay_served (s : State) (v : SMap (List Chunk)) : (s.setRelay v).served = s.served := rfl
@[simp] theorem State.setRelay_frames (s : State) (v : SMap (List Chunk)) : (s.setRelay v).frames = s.frames := rfl
@[simp] theorem State.setRelay_snap (s : State) (v : SMap (List Chunk)) : (s.setRelay v).snap = s.snap := rfl
@[simp] theorem State.setRelay_out (s : State) (v : SMap (List Chunk)) : (s.setRelay v).out = s.out := rfl
@[simp] theorem State.setRelay_free (s : State) (v : SMap (List Chunk)) : (s.setRelay v).free = s.free := rfl
@[simp] theorem State.setGmx_pending (s : State) (v : SMap UnitSt) : (s.setGmx v).pending = s.pending := rfl
@[simp] theorem State.setGmx_regs (s : State) (v : SMap UnitSt) : (s.setGmx v).regs = s.regs := rfl
@[simp] theorem State.setGmx_errKeys (s : State) (v : SMap UnitSt) : (s.setGmx v).errKeys = s.errKeys := rfl
@[simp] theorem State.setGmx_time (s : State) (v : SMap UnitSt) : (s.setGmx v).time = s.time := rfl
@[simp] theorem State.setGmx_dram (s : State) (v : SMap UnitSt) : (s.setGmx v).dram = s.dram := rfl
@[simp] theorem State.setGmx_cell (s : State) (v : SMap UnitSt) : (s.setGmx v).cell = s.cell := rfl
@[simp] theorem State.setGmx_spad (s : State) (v : SMap UnitSt) : (s.setGmx v).spad = s.spad := rfl
@[simp] theorem State.setGmx_store (s : State) (v : SMap UnitSt) : (s.setGmx v).store = s.store := rfl
@[simp] theorem State.setGmx_stk (s : State) (v : SMap UnitSt) : (s.setGmx v).stk = s.stk := rfl
@[simp] theorem State.setGmx_pch (s : State) (v : SMap UnitSt) : (s.setGmx v).pch = s.pch := rfl
@[simp] theorem State.setGmx_region (s : State) (v : SMap UnitSt) : (s.setGmx v).region = s.region := rfl
@[simp] theorem State.setGmx_dom (s : State) (v : SMap UnitSt) : (s.setGmx v).dom = s.dom := rfl
@[simp] theorem State.setGmx_pwr (s : State) (v : SMap UnitSt) : (s.setGmx v).pwr = s.pwr := rfl
@[simp] theorem State.setGmx_host (s : State) (v : SMap UnitSt) : (s.setGmx v).host = s.host := rfl
@[simp] theorem State.setGmx_rings (s : State) (v : SMap UnitSt) : (s.setGmx v).rings = s.rings := rfl
@[simp] theorem State.setGmx_slots (s : State) (v : SMap UnitSt) : (s.setGmx v).slots = s.slots := rfl
@[simp] theorem State.setGmx_graphs (s : State) (v : SMap UnitSt) : (s.setGmx v).graphs = s.graphs := rfl
@[simp] theorem State.setGmx_streams (s : State) (v : SMap UnitSt) : (s.setGmx v).streams = s.streams := rfl
@[simp] theorem State.setGmx_qps (s : State) (v : SMap UnitSt) : (s.setGmx v).qps = s.qps := rfl
@[simp] theorem State.setGmx_dev (s : State) (v : SMap UnitSt) : (s.setGmx v).dev = s.dev := rfl
@[simp] theorem State.setGmx_flash (s : State) (v : SMap UnitSt) : (s.setGmx v).flash = s.flash := rfl
@[simp] theorem State.setGmx_cores (s : State) (v : SMap UnitSt) : (s.setGmx v).cores = s.cores := rfl
@[simp] theorem State.setGmx_sess (s : State) (v : SMap UnitSt) : (s.setGmx v).sess = s.sess := rfl
@[simp] theorem State.setGmx_conns (s : State) (v : SMap UnitSt) : (s.setGmx v).conns = s.conns := rfl
@[simp] theorem State.setGmx_clu (s : State) (v : SMap UnitSt) : (s.setGmx v).clu = s.clu := rfl
@[simp] theorem State.setGmx_tel (s : State) (v : SMap UnitSt) : (s.setGmx v).tel = s.tel := rfl
@[simp] theorem State.setGmx_dbg (s : State) (v : SMap UnitSt) : (s.setGmx v).dbg = s.dbg := rfl
@[simp] theorem State.setGmx_pins (s : State) (v : SMap UnitSt) : (s.setGmx v).pins = s.pins := rfl
@[simp] theorem State.setGmx_xlat (s : State) (v : SMap UnitSt) : (s.setGmx v).xlat = s.xlat := rfl
@[simp] theorem State.setGmx_invQ (s : State) (v : SMap UnitSt) : (s.setGmx v).invQ = s.invQ := rfl
@[simp] theorem State.setGmx_pager (s : State) (v : SMap UnitSt) : (s.setGmx v).pager = s.pager := rfl
@[simp] theorem State.setGmx_sync (s : State) (v : SMap UnitSt) : (s.setGmx v).sync = s.sync := rfl
@[simp] theorem State.setGmx_disp (s : State) (v : SMap UnitSt) : (s.setGmx v).disp = s.disp := rfl
@[simp] theorem State.setGmx_comet (s : State) (v : SMap UnitSt) : (s.setGmx v).comet = s.comet := rfl
@[simp] theorem State.setGmx_wv (s : State) (v : SMap UnitSt) : (s.setGmx v).wv = s.wv := rfl
@[simp] theorem State.setGmx_gdesc (s : State) (v : SMap UnitSt) : (s.setGmx v).gdesc = s.gdesc := rfl
@[simp] theorem State.setGmx_emb (s : State) (v : SMap UnitSt) : (s.setGmx v).emb = s.emb := rfl
@[simp] theorem State.setGmx_parts (s : State) (v : SMap UnitSt) : (s.setGmx v).parts = s.parts := rfl
@[simp] theorem State.setGmx_batches (s : State) (v : SMap UnitSt) : (s.setGmx v).batches = s.batches := rfl
@[simp] theorem State.setGmx_swarms (s : State) (v : SMap UnitSt) : (s.setGmx v).swarms = s.swarms := rfl
@[simp] theorem State.setGmx_ids (s : State) (v : SMap UnitSt) : (s.setGmx v).ids = s.ids := rfl
@[simp] theorem State.setGmx_mig (s : State) (v : SMap UnitSt) : (s.setGmx v).mig = s.mig := rfl
@[simp] theorem State.setGmx_moves (s : State) (v : SMap UnitSt) : (s.setGmx v).moves = s.moves := rfl
@[simp] theorem State.setGmx_mat (s : State) (v : SMap UnitSt) : (s.setGmx v).mat = s.mat := rfl
@[simp] theorem State.setGmx_relay (s : State) (v : SMap UnitSt) : (s.setGmx v).relay = s.relay := rfl
@[simp] theorem State.setGmx_gmx (s : State) (v : SMap UnitSt) : (s.setGmx v).gmx = v := rfl
@[simp] theorem State.setGmx_vec (s : State) (v : SMap UnitSt) : (s.setGmx v).vec = s.vec := rfl
@[simp] theorem State.setGmx_eth (s : State) (v : SMap UnitSt) : (s.setGmx v).eth = s.eth := rfl
@[simp] theorem State.setGmx_served (s : State) (v : SMap UnitSt) : (s.setGmx v).served = s.served := rfl
@[simp] theorem State.setGmx_frames (s : State) (v : SMap UnitSt) : (s.setGmx v).frames = s.frames := rfl
@[simp] theorem State.setGmx_snap (s : State) (v : SMap UnitSt) : (s.setGmx v).snap = s.snap := rfl
@[simp] theorem State.setGmx_out (s : State) (v : SMap UnitSt) : (s.setGmx v).out = s.out := rfl
@[simp] theorem State.setGmx_free (s : State) (v : SMap UnitSt) : (s.setGmx v).free = s.free := rfl
@[simp] theorem State.setVec_pending (s : State) (v : SMap UnitSt) : (s.setVec v).pending = s.pending := rfl
@[simp] theorem State.setVec_regs (s : State) (v : SMap UnitSt) : (s.setVec v).regs = s.regs := rfl
@[simp] theorem State.setVec_errKeys (s : State) (v : SMap UnitSt) : (s.setVec v).errKeys = s.errKeys := rfl
@[simp] theorem State.setVec_time (s : State) (v : SMap UnitSt) : (s.setVec v).time = s.time := rfl
@[simp] theorem State.setVec_dram (s : State) (v : SMap UnitSt) : (s.setVec v).dram = s.dram := rfl
@[simp] theorem State.setVec_cell (s : State) (v : SMap UnitSt) : (s.setVec v).cell = s.cell := rfl
@[simp] theorem State.setVec_spad (s : State) (v : SMap UnitSt) : (s.setVec v).spad = s.spad := rfl
@[simp] theorem State.setVec_store (s : State) (v : SMap UnitSt) : (s.setVec v).store = s.store := rfl
@[simp] theorem State.setVec_stk (s : State) (v : SMap UnitSt) : (s.setVec v).stk = s.stk := rfl
@[simp] theorem State.setVec_pch (s : State) (v : SMap UnitSt) : (s.setVec v).pch = s.pch := rfl
@[simp] theorem State.setVec_region (s : State) (v : SMap UnitSt) : (s.setVec v).region = s.region := rfl
@[simp] theorem State.setVec_dom (s : State) (v : SMap UnitSt) : (s.setVec v).dom = s.dom := rfl
@[simp] theorem State.setVec_pwr (s : State) (v : SMap UnitSt) : (s.setVec v).pwr = s.pwr := rfl
@[simp] theorem State.setVec_host (s : State) (v : SMap UnitSt) : (s.setVec v).host = s.host := rfl
@[simp] theorem State.setVec_rings (s : State) (v : SMap UnitSt) : (s.setVec v).rings = s.rings := rfl
@[simp] theorem State.setVec_slots (s : State) (v : SMap UnitSt) : (s.setVec v).slots = s.slots := rfl
@[simp] theorem State.setVec_graphs (s : State) (v : SMap UnitSt) : (s.setVec v).graphs = s.graphs := rfl
@[simp] theorem State.setVec_streams (s : State) (v : SMap UnitSt) : (s.setVec v).streams = s.streams := rfl
@[simp] theorem State.setVec_qps (s : State) (v : SMap UnitSt) : (s.setVec v).qps = s.qps := rfl
@[simp] theorem State.setVec_dev (s : State) (v : SMap UnitSt) : (s.setVec v).dev = s.dev := rfl
@[simp] theorem State.setVec_flash (s : State) (v : SMap UnitSt) : (s.setVec v).flash = s.flash := rfl
@[simp] theorem State.setVec_cores (s : State) (v : SMap UnitSt) : (s.setVec v).cores = s.cores := rfl
@[simp] theorem State.setVec_sess (s : State) (v : SMap UnitSt) : (s.setVec v).sess = s.sess := rfl
@[simp] theorem State.setVec_conns (s : State) (v : SMap UnitSt) : (s.setVec v).conns = s.conns := rfl
@[simp] theorem State.setVec_clu (s : State) (v : SMap UnitSt) : (s.setVec v).clu = s.clu := rfl
@[simp] theorem State.setVec_tel (s : State) (v : SMap UnitSt) : (s.setVec v).tel = s.tel := rfl
@[simp] theorem State.setVec_dbg (s : State) (v : SMap UnitSt) : (s.setVec v).dbg = s.dbg := rfl
@[simp] theorem State.setVec_pins (s : State) (v : SMap UnitSt) : (s.setVec v).pins = s.pins := rfl
@[simp] theorem State.setVec_xlat (s : State) (v : SMap UnitSt) : (s.setVec v).xlat = s.xlat := rfl
@[simp] theorem State.setVec_invQ (s : State) (v : SMap UnitSt) : (s.setVec v).invQ = s.invQ := rfl
@[simp] theorem State.setVec_pager (s : State) (v : SMap UnitSt) : (s.setVec v).pager = s.pager := rfl
@[simp] theorem State.setVec_sync (s : State) (v : SMap UnitSt) : (s.setVec v).sync = s.sync := rfl
@[simp] theorem State.setVec_disp (s : State) (v : SMap UnitSt) : (s.setVec v).disp = s.disp := rfl
@[simp] theorem State.setVec_comet (s : State) (v : SMap UnitSt) : (s.setVec v).comet = s.comet := rfl
@[simp] theorem State.setVec_wv (s : State) (v : SMap UnitSt) : (s.setVec v).wv = s.wv := rfl
@[simp] theorem State.setVec_gdesc (s : State) (v : SMap UnitSt) : (s.setVec v).gdesc = s.gdesc := rfl
@[simp] theorem State.setVec_emb (s : State) (v : SMap UnitSt) : (s.setVec v).emb = s.emb := rfl
@[simp] theorem State.setVec_parts (s : State) (v : SMap UnitSt) : (s.setVec v).parts = s.parts := rfl
@[simp] theorem State.setVec_batches (s : State) (v : SMap UnitSt) : (s.setVec v).batches = s.batches := rfl
@[simp] theorem State.setVec_swarms (s : State) (v : SMap UnitSt) : (s.setVec v).swarms = s.swarms := rfl
@[simp] theorem State.setVec_ids (s : State) (v : SMap UnitSt) : (s.setVec v).ids = s.ids := rfl
@[simp] theorem State.setVec_mig (s : State) (v : SMap UnitSt) : (s.setVec v).mig = s.mig := rfl
@[simp] theorem State.setVec_moves (s : State) (v : SMap UnitSt) : (s.setVec v).moves = s.moves := rfl
@[simp] theorem State.setVec_mat (s : State) (v : SMap UnitSt) : (s.setVec v).mat = s.mat := rfl
@[simp] theorem State.setVec_relay (s : State) (v : SMap UnitSt) : (s.setVec v).relay = s.relay := rfl
@[simp] theorem State.setVec_gmx (s : State) (v : SMap UnitSt) : (s.setVec v).gmx = s.gmx := rfl
@[simp] theorem State.setVec_vec (s : State) (v : SMap UnitSt) : (s.setVec v).vec = v := rfl
@[simp] theorem State.setVec_eth (s : State) (v : SMap UnitSt) : (s.setVec v).eth = s.eth := rfl
@[simp] theorem State.setVec_served (s : State) (v : SMap UnitSt) : (s.setVec v).served = s.served := rfl
@[simp] theorem State.setVec_frames (s : State) (v : SMap UnitSt) : (s.setVec v).frames = s.frames := rfl
@[simp] theorem State.setVec_snap (s : State) (v : SMap UnitSt) : (s.setVec v).snap = s.snap := rfl
@[simp] theorem State.setVec_out (s : State) (v : SMap UnitSt) : (s.setVec v).out = s.out := rfl
@[simp] theorem State.setVec_free (s : State) (v : SMap UnitSt) : (s.setVec v).free = s.free := rfl
@[simp] theorem State.setEth_pending (s : State) (v : EthSt) : (s.setEth v).pending = s.pending := rfl
@[simp] theorem State.setEth_regs (s : State) (v : EthSt) : (s.setEth v).regs = s.regs := rfl
@[simp] theorem State.setEth_errKeys (s : State) (v : EthSt) : (s.setEth v).errKeys = s.errKeys := rfl
@[simp] theorem State.setEth_time (s : State) (v : EthSt) : (s.setEth v).time = s.time := rfl
@[simp] theorem State.setEth_dram (s : State) (v : EthSt) : (s.setEth v).dram = s.dram := rfl
@[simp] theorem State.setEth_cell (s : State) (v : EthSt) : (s.setEth v).cell = s.cell := rfl
@[simp] theorem State.setEth_spad (s : State) (v : EthSt) : (s.setEth v).spad = s.spad := rfl
@[simp] theorem State.setEth_store (s : State) (v : EthSt) : (s.setEth v).store = s.store := rfl
@[simp] theorem State.setEth_stk (s : State) (v : EthSt) : (s.setEth v).stk = s.stk := rfl
@[simp] theorem State.setEth_pch (s : State) (v : EthSt) : (s.setEth v).pch = s.pch := rfl
@[simp] theorem State.setEth_region (s : State) (v : EthSt) : (s.setEth v).region = s.region := rfl
@[simp] theorem State.setEth_dom (s : State) (v : EthSt) : (s.setEth v).dom = s.dom := rfl
@[simp] theorem State.setEth_pwr (s : State) (v : EthSt) : (s.setEth v).pwr = s.pwr := rfl
@[simp] theorem State.setEth_host (s : State) (v : EthSt) : (s.setEth v).host = s.host := rfl
@[simp] theorem State.setEth_rings (s : State) (v : EthSt) : (s.setEth v).rings = s.rings := rfl
@[simp] theorem State.setEth_slots (s : State) (v : EthSt) : (s.setEth v).slots = s.slots := rfl
@[simp] theorem State.setEth_graphs (s : State) (v : EthSt) : (s.setEth v).graphs = s.graphs := rfl
@[simp] theorem State.setEth_streams (s : State) (v : EthSt) : (s.setEth v).streams = s.streams := rfl
@[simp] theorem State.setEth_qps (s : State) (v : EthSt) : (s.setEth v).qps = s.qps := rfl
@[simp] theorem State.setEth_dev (s : State) (v : EthSt) : (s.setEth v).dev = s.dev := rfl
@[simp] theorem State.setEth_flash (s : State) (v : EthSt) : (s.setEth v).flash = s.flash := rfl
@[simp] theorem State.setEth_cores (s : State) (v : EthSt) : (s.setEth v).cores = s.cores := rfl
@[simp] theorem State.setEth_sess (s : State) (v : EthSt) : (s.setEth v).sess = s.sess := rfl
@[simp] theorem State.setEth_conns (s : State) (v : EthSt) : (s.setEth v).conns = s.conns := rfl
@[simp] theorem State.setEth_clu (s : State) (v : EthSt) : (s.setEth v).clu = s.clu := rfl
@[simp] theorem State.setEth_tel (s : State) (v : EthSt) : (s.setEth v).tel = s.tel := rfl
@[simp] theorem State.setEth_dbg (s : State) (v : EthSt) : (s.setEth v).dbg = s.dbg := rfl
@[simp] theorem State.setEth_pins (s : State) (v : EthSt) : (s.setEth v).pins = s.pins := rfl
@[simp] theorem State.setEth_xlat (s : State) (v : EthSt) : (s.setEth v).xlat = s.xlat := rfl
@[simp] theorem State.setEth_invQ (s : State) (v : EthSt) : (s.setEth v).invQ = s.invQ := rfl
@[simp] theorem State.setEth_pager (s : State) (v : EthSt) : (s.setEth v).pager = s.pager := rfl
@[simp] theorem State.setEth_sync (s : State) (v : EthSt) : (s.setEth v).sync = s.sync := rfl
@[simp] theorem State.setEth_disp (s : State) (v : EthSt) : (s.setEth v).disp = s.disp := rfl
@[simp] theorem State.setEth_comet (s : State) (v : EthSt) : (s.setEth v).comet = s.comet := rfl
@[simp] theorem State.setEth_wv (s : State) (v : EthSt) : (s.setEth v).wv = s.wv := rfl
@[simp] theorem State.setEth_gdesc (s : State) (v : EthSt) : (s.setEth v).gdesc = s.gdesc := rfl
@[simp] theorem State.setEth_emb (s : State) (v : EthSt) : (s.setEth v).emb = s.emb := rfl
@[simp] theorem State.setEth_parts (s : State) (v : EthSt) : (s.setEth v).parts = s.parts := rfl
@[simp] theorem State.setEth_batches (s : State) (v : EthSt) : (s.setEth v).batches = s.batches := rfl
@[simp] theorem State.setEth_swarms (s : State) (v : EthSt) : (s.setEth v).swarms = s.swarms := rfl
@[simp] theorem State.setEth_ids (s : State) (v : EthSt) : (s.setEth v).ids = s.ids := rfl
@[simp] theorem State.setEth_mig (s : State) (v : EthSt) : (s.setEth v).mig = s.mig := rfl
@[simp] theorem State.setEth_moves (s : State) (v : EthSt) : (s.setEth v).moves = s.moves := rfl
@[simp] theorem State.setEth_mat (s : State) (v : EthSt) : (s.setEth v).mat = s.mat := rfl
@[simp] theorem State.setEth_relay (s : State) (v : EthSt) : (s.setEth v).relay = s.relay := rfl
@[simp] theorem State.setEth_gmx (s : State) (v : EthSt) : (s.setEth v).gmx = s.gmx := rfl
@[simp] theorem State.setEth_vec (s : State) (v : EthSt) : (s.setEth v).vec = s.vec := rfl
@[simp] theorem State.setEth_eth (s : State) (v : EthSt) : (s.setEth v).eth = v := rfl
@[simp] theorem State.setEth_served (s : State) (v : EthSt) : (s.setEth v).served = s.served := rfl
@[simp] theorem State.setEth_frames (s : State) (v : EthSt) : (s.setEth v).frames = s.frames := rfl
@[simp] theorem State.setEth_snap (s : State) (v : EthSt) : (s.setEth v).snap = s.snap := rfl
@[simp] theorem State.setEth_out (s : State) (v : EthSt) : (s.setEth v).out = s.out := rfl
@[simp] theorem State.setEth_free (s : State) (v : EthSt) : (s.setEth v).free = s.free := rfl
@[simp] theorem State.setServed_pending (s : State) (v : SMap Nat) : (s.setServed v).pending = s.pending := rfl
@[simp] theorem State.setServed_regs (s : State) (v : SMap Nat) : (s.setServed v).regs = s.regs := rfl
@[simp] theorem State.setServed_errKeys (s : State) (v : SMap Nat) : (s.setServed v).errKeys = s.errKeys := rfl
@[simp] theorem State.setServed_time (s : State) (v : SMap Nat) : (s.setServed v).time = s.time := rfl
@[simp] theorem State.setServed_dram (s : State) (v : SMap Nat) : (s.setServed v).dram = s.dram := rfl
@[simp] theorem State.setServed_cell (s : State) (v : SMap Nat) : (s.setServed v).cell = s.cell := rfl
@[simp] theorem State.setServed_spad (s : State) (v : SMap Nat) : (s.setServed v).spad = s.spad := rfl
@[simp] theorem State.setServed_store (s : State) (v : SMap Nat) : (s.setServed v).store = s.store := rfl
@[simp] theorem State.setServed_stk (s : State) (v : SMap Nat) : (s.setServed v).stk = s.stk := rfl
@[simp] theorem State.setServed_pch (s : State) (v : SMap Nat) : (s.setServed v).pch = s.pch := rfl
@[simp] theorem State.setServed_region (s : State) (v : SMap Nat) : (s.setServed v).region = s.region := rfl
@[simp] theorem State.setServed_dom (s : State) (v : SMap Nat) : (s.setServed v).dom = s.dom := rfl
@[simp] theorem State.setServed_pwr (s : State) (v : SMap Nat) : (s.setServed v).pwr = s.pwr := rfl
@[simp] theorem State.setServed_host (s : State) (v : SMap Nat) : (s.setServed v).host = s.host := rfl
@[simp] theorem State.setServed_rings (s : State) (v : SMap Nat) : (s.setServed v).rings = s.rings := rfl
@[simp] theorem State.setServed_slots (s : State) (v : SMap Nat) : (s.setServed v).slots = s.slots := rfl
@[simp] theorem State.setServed_graphs (s : State) (v : SMap Nat) : (s.setServed v).graphs = s.graphs := rfl
@[simp] theorem State.setServed_streams (s : State) (v : SMap Nat) : (s.setServed v).streams = s.streams := rfl
@[simp] theorem State.setServed_qps (s : State) (v : SMap Nat) : (s.setServed v).qps = s.qps := rfl
@[simp] theorem State.setServed_dev (s : State) (v : SMap Nat) : (s.setServed v).dev = s.dev := rfl
@[simp] theorem State.setServed_flash (s : State) (v : SMap Nat) : (s.setServed v).flash = s.flash := rfl
@[simp] theorem State.setServed_cores (s : State) (v : SMap Nat) : (s.setServed v).cores = s.cores := rfl
@[simp] theorem State.setServed_sess (s : State) (v : SMap Nat) : (s.setServed v).sess = s.sess := rfl
@[simp] theorem State.setServed_conns (s : State) (v : SMap Nat) : (s.setServed v).conns = s.conns := rfl
@[simp] theorem State.setServed_clu (s : State) (v : SMap Nat) : (s.setServed v).clu = s.clu := rfl
@[simp] theorem State.setServed_tel (s : State) (v : SMap Nat) : (s.setServed v).tel = s.tel := rfl
@[simp] theorem State.setServed_dbg (s : State) (v : SMap Nat) : (s.setServed v).dbg = s.dbg := rfl
@[simp] theorem State.setServed_pins (s : State) (v : SMap Nat) : (s.setServed v).pins = s.pins := rfl
@[simp] theorem State.setServed_xlat (s : State) (v : SMap Nat) : (s.setServed v).xlat = s.xlat := rfl
@[simp] theorem State.setServed_invQ (s : State) (v : SMap Nat) : (s.setServed v).invQ = s.invQ := rfl
@[simp] theorem State.setServed_pager (s : State) (v : SMap Nat) : (s.setServed v).pager = s.pager := rfl
@[simp] theorem State.setServed_sync (s : State) (v : SMap Nat) : (s.setServed v).sync = s.sync := rfl
@[simp] theorem State.setServed_disp (s : State) (v : SMap Nat) : (s.setServed v).disp = s.disp := rfl
@[simp] theorem State.setServed_comet (s : State) (v : SMap Nat) : (s.setServed v).comet = s.comet := rfl
@[simp] theorem State.setServed_wv (s : State) (v : SMap Nat) : (s.setServed v).wv = s.wv := rfl
@[simp] theorem State.setServed_gdesc (s : State) (v : SMap Nat) : (s.setServed v).gdesc = s.gdesc := rfl
@[simp] theorem State.setServed_emb (s : State) (v : SMap Nat) : (s.setServed v).emb = s.emb := rfl
@[simp] theorem State.setServed_parts (s : State) (v : SMap Nat) : (s.setServed v).parts = s.parts := rfl
@[simp] theorem State.setServed_batches (s : State) (v : SMap Nat) : (s.setServed v).batches = s.batches := rfl
@[simp] theorem State.setServed_swarms (s : State) (v : SMap Nat) : (s.setServed v).swarms = s.swarms := rfl
@[simp] theorem State.setServed_ids (s : State) (v : SMap Nat) : (s.setServed v).ids = s.ids := rfl
@[simp] theorem State.setServed_mig (s : State) (v : SMap Nat) : (s.setServed v).mig = s.mig := rfl
@[simp] theorem State.setServed_moves (s : State) (v : SMap Nat) : (s.setServed v).moves = s.moves := rfl
@[simp] theorem State.setServed_mat (s : State) (v : SMap Nat) : (s.setServed v).mat = s.mat := rfl
@[simp] theorem State.setServed_relay (s : State) (v : SMap Nat) : (s.setServed v).relay = s.relay := rfl
@[simp] theorem State.setServed_gmx (s : State) (v : SMap Nat) : (s.setServed v).gmx = s.gmx := rfl
@[simp] theorem State.setServed_vec (s : State) (v : SMap Nat) : (s.setServed v).vec = s.vec := rfl
@[simp] theorem State.setServed_eth (s : State) (v : SMap Nat) : (s.setServed v).eth = s.eth := rfl
@[simp] theorem State.setServed_served (s : State) (v : SMap Nat) : (s.setServed v).served = v := rfl
@[simp] theorem State.setServed_frames (s : State) (v : SMap Nat) : (s.setServed v).frames = s.frames := rfl
@[simp] theorem State.setServed_snap (s : State) (v : SMap Nat) : (s.setServed v).snap = s.snap := rfl
@[simp] theorem State.setServed_out (s : State) (v : SMap Nat) : (s.setServed v).out = s.out := rfl
@[simp] theorem State.setServed_free (s : State) (v : SMap Nat) : (s.setServed v).free = s.free := rfl
@[simp] theorem State.setFrames_pending (s : State) (v : SMap Nat) : (s.setFrames v).pending = s.pending := rfl
@[simp] theorem State.setFrames_regs (s : State) (v : SMap Nat) : (s.setFrames v).regs = s.regs := rfl
@[simp] theorem State.setFrames_errKeys (s : State) (v : SMap Nat) : (s.setFrames v).errKeys = s.errKeys := rfl
@[simp] theorem State.setFrames_time (s : State) (v : SMap Nat) : (s.setFrames v).time = s.time := rfl
@[simp] theorem State.setFrames_dram (s : State) (v : SMap Nat) : (s.setFrames v).dram = s.dram := rfl
@[simp] theorem State.setFrames_cell (s : State) (v : SMap Nat) : (s.setFrames v).cell = s.cell := rfl
@[simp] theorem State.setFrames_spad (s : State) (v : SMap Nat) : (s.setFrames v).spad = s.spad := rfl
@[simp] theorem State.setFrames_store (s : State) (v : SMap Nat) : (s.setFrames v).store = s.store := rfl
@[simp] theorem State.setFrames_stk (s : State) (v : SMap Nat) : (s.setFrames v).stk = s.stk := rfl
@[simp] theorem State.setFrames_pch (s : State) (v : SMap Nat) : (s.setFrames v).pch = s.pch := rfl
@[simp] theorem State.setFrames_region (s : State) (v : SMap Nat) : (s.setFrames v).region = s.region := rfl
@[simp] theorem State.setFrames_dom (s : State) (v : SMap Nat) : (s.setFrames v).dom = s.dom := rfl
@[simp] theorem State.setFrames_pwr (s : State) (v : SMap Nat) : (s.setFrames v).pwr = s.pwr := rfl
@[simp] theorem State.setFrames_host (s : State) (v : SMap Nat) : (s.setFrames v).host = s.host := rfl
@[simp] theorem State.setFrames_rings (s : State) (v : SMap Nat) : (s.setFrames v).rings = s.rings := rfl
@[simp] theorem State.setFrames_slots (s : State) (v : SMap Nat) : (s.setFrames v).slots = s.slots := rfl
@[simp] theorem State.setFrames_graphs (s : State) (v : SMap Nat) : (s.setFrames v).graphs = s.graphs := rfl
@[simp] theorem State.setFrames_streams (s : State) (v : SMap Nat) : (s.setFrames v).streams = s.streams := rfl
@[simp] theorem State.setFrames_qps (s : State) (v : SMap Nat) : (s.setFrames v).qps = s.qps := rfl
@[simp] theorem State.setFrames_dev (s : State) (v : SMap Nat) : (s.setFrames v).dev = s.dev := rfl
@[simp] theorem State.setFrames_flash (s : State) (v : SMap Nat) : (s.setFrames v).flash = s.flash := rfl
@[simp] theorem State.setFrames_cores (s : State) (v : SMap Nat) : (s.setFrames v).cores = s.cores := rfl
@[simp] theorem State.setFrames_sess (s : State) (v : SMap Nat) : (s.setFrames v).sess = s.sess := rfl
@[simp] theorem State.setFrames_conns (s : State) (v : SMap Nat) : (s.setFrames v).conns = s.conns := rfl
@[simp] theorem State.setFrames_clu (s : State) (v : SMap Nat) : (s.setFrames v).clu = s.clu := rfl
@[simp] theorem State.setFrames_tel (s : State) (v : SMap Nat) : (s.setFrames v).tel = s.tel := rfl
@[simp] theorem State.setFrames_dbg (s : State) (v : SMap Nat) : (s.setFrames v).dbg = s.dbg := rfl
@[simp] theorem State.setFrames_pins (s : State) (v : SMap Nat) : (s.setFrames v).pins = s.pins := rfl
@[simp] theorem State.setFrames_xlat (s : State) (v : SMap Nat) : (s.setFrames v).xlat = s.xlat := rfl
@[simp] theorem State.setFrames_invQ (s : State) (v : SMap Nat) : (s.setFrames v).invQ = s.invQ := rfl
@[simp] theorem State.setFrames_pager (s : State) (v : SMap Nat) : (s.setFrames v).pager = s.pager := rfl
@[simp] theorem State.setFrames_sync (s : State) (v : SMap Nat) : (s.setFrames v).sync = s.sync := rfl
@[simp] theorem State.setFrames_disp (s : State) (v : SMap Nat) : (s.setFrames v).disp = s.disp := rfl
@[simp] theorem State.setFrames_comet (s : State) (v : SMap Nat) : (s.setFrames v).comet = s.comet := rfl
@[simp] theorem State.setFrames_wv (s : State) (v : SMap Nat) : (s.setFrames v).wv = s.wv := rfl
@[simp] theorem State.setFrames_gdesc (s : State) (v : SMap Nat) : (s.setFrames v).gdesc = s.gdesc := rfl
@[simp] theorem State.setFrames_emb (s : State) (v : SMap Nat) : (s.setFrames v).emb = s.emb := rfl
@[simp] theorem State.setFrames_parts (s : State) (v : SMap Nat) : (s.setFrames v).parts = s.parts := rfl
@[simp] theorem State.setFrames_batches (s : State) (v : SMap Nat) : (s.setFrames v).batches = s.batches := rfl
@[simp] theorem State.setFrames_swarms (s : State) (v : SMap Nat) : (s.setFrames v).swarms = s.swarms := rfl
@[simp] theorem State.setFrames_ids (s : State) (v : SMap Nat) : (s.setFrames v).ids = s.ids := rfl
@[simp] theorem State.setFrames_mig (s : State) (v : SMap Nat) : (s.setFrames v).mig = s.mig := rfl
@[simp] theorem State.setFrames_moves (s : State) (v : SMap Nat) : (s.setFrames v).moves = s.moves := rfl
@[simp] theorem State.setFrames_mat (s : State) (v : SMap Nat) : (s.setFrames v).mat = s.mat := rfl
@[simp] theorem State.setFrames_relay (s : State) (v : SMap Nat) : (s.setFrames v).relay = s.relay := rfl
@[simp] theorem State.setFrames_gmx (s : State) (v : SMap Nat) : (s.setFrames v).gmx = s.gmx := rfl
@[simp] theorem State.setFrames_vec (s : State) (v : SMap Nat) : (s.setFrames v).vec = s.vec := rfl
@[simp] theorem State.setFrames_eth (s : State) (v : SMap Nat) : (s.setFrames v).eth = s.eth := rfl
@[simp] theorem State.setFrames_served (s : State) (v : SMap Nat) : (s.setFrames v).served = s.served := rfl
@[simp] theorem State.setFrames_frames (s : State) (v : SMap Nat) : (s.setFrames v).frames = v := rfl
@[simp] theorem State.setFrames_snap (s : State) (v : SMap Nat) : (s.setFrames v).snap = s.snap := rfl
@[simp] theorem State.setFrames_out (s : State) (v : SMap Nat) : (s.setFrames v).out = s.out := rfl
@[simp] theorem State.setFrames_free (s : State) (v : SMap Nat) : (s.setFrames v).free = s.free := rfl
@[simp] theorem State.setSnap_pending (s : State) (v : Option SnapSt) : (s.setSnap v).pending = s.pending := rfl
@[simp] theorem State.setSnap_regs (s : State) (v : Option SnapSt) : (s.setSnap v).regs = s.regs := rfl
@[simp] theorem State.setSnap_errKeys (s : State) (v : Option SnapSt) : (s.setSnap v).errKeys = s.errKeys := rfl
@[simp] theorem State.setSnap_time (s : State) (v : Option SnapSt) : (s.setSnap v).time = s.time := rfl
@[simp] theorem State.setSnap_dram (s : State) (v : Option SnapSt) : (s.setSnap v).dram = s.dram := rfl
@[simp] theorem State.setSnap_cell (s : State) (v : Option SnapSt) : (s.setSnap v).cell = s.cell := rfl
@[simp] theorem State.setSnap_spad (s : State) (v : Option SnapSt) : (s.setSnap v).spad = s.spad := rfl
@[simp] theorem State.setSnap_store (s : State) (v : Option SnapSt) : (s.setSnap v).store = s.store := rfl
@[simp] theorem State.setSnap_stk (s : State) (v : Option SnapSt) : (s.setSnap v).stk = s.stk := rfl
@[simp] theorem State.setSnap_pch (s : State) (v : Option SnapSt) : (s.setSnap v).pch = s.pch := rfl
@[simp] theorem State.setSnap_region (s : State) (v : Option SnapSt) : (s.setSnap v).region = s.region := rfl
@[simp] theorem State.setSnap_dom (s : State) (v : Option SnapSt) : (s.setSnap v).dom = s.dom := rfl
@[simp] theorem State.setSnap_pwr (s : State) (v : Option SnapSt) : (s.setSnap v).pwr = s.pwr := rfl
@[simp] theorem State.setSnap_host (s : State) (v : Option SnapSt) : (s.setSnap v).host = s.host := rfl
@[simp] theorem State.setSnap_rings (s : State) (v : Option SnapSt) : (s.setSnap v).rings = s.rings := rfl
@[simp] theorem State.setSnap_slots (s : State) (v : Option SnapSt) : (s.setSnap v).slots = s.slots := rfl
@[simp] theorem State.setSnap_graphs (s : State) (v : Option SnapSt) : (s.setSnap v).graphs = s.graphs := rfl
@[simp] theorem State.setSnap_streams (s : State) (v : Option SnapSt) : (s.setSnap v).streams = s.streams := rfl
@[simp] theorem State.setSnap_qps (s : State) (v : Option SnapSt) : (s.setSnap v).qps = s.qps := rfl
@[simp] theorem State.setSnap_dev (s : State) (v : Option SnapSt) : (s.setSnap v).dev = s.dev := rfl
@[simp] theorem State.setSnap_flash (s : State) (v : Option SnapSt) : (s.setSnap v).flash = s.flash := rfl
@[simp] theorem State.setSnap_cores (s : State) (v : Option SnapSt) : (s.setSnap v).cores = s.cores := rfl
@[simp] theorem State.setSnap_sess (s : State) (v : Option SnapSt) : (s.setSnap v).sess = s.sess := rfl
@[simp] theorem State.setSnap_conns (s : State) (v : Option SnapSt) : (s.setSnap v).conns = s.conns := rfl
@[simp] theorem State.setSnap_clu (s : State) (v : Option SnapSt) : (s.setSnap v).clu = s.clu := rfl
@[simp] theorem State.setSnap_tel (s : State) (v : Option SnapSt) : (s.setSnap v).tel = s.tel := rfl
@[simp] theorem State.setSnap_dbg (s : State) (v : Option SnapSt) : (s.setSnap v).dbg = s.dbg := rfl
@[simp] theorem State.setSnap_pins (s : State) (v : Option SnapSt) : (s.setSnap v).pins = s.pins := rfl
@[simp] theorem State.setSnap_xlat (s : State) (v : Option SnapSt) : (s.setSnap v).xlat = s.xlat := rfl
@[simp] theorem State.setSnap_invQ (s : State) (v : Option SnapSt) : (s.setSnap v).invQ = s.invQ := rfl
@[simp] theorem State.setSnap_pager (s : State) (v : Option SnapSt) : (s.setSnap v).pager = s.pager := rfl
@[simp] theorem State.setSnap_sync (s : State) (v : Option SnapSt) : (s.setSnap v).sync = s.sync := rfl
@[simp] theorem State.setSnap_disp (s : State) (v : Option SnapSt) : (s.setSnap v).disp = s.disp := rfl
@[simp] theorem State.setSnap_comet (s : State) (v : Option SnapSt) : (s.setSnap v).comet = s.comet := rfl
@[simp] theorem State.setSnap_wv (s : State) (v : Option SnapSt) : (s.setSnap v).wv = s.wv := rfl
@[simp] theorem State.setSnap_gdesc (s : State) (v : Option SnapSt) : (s.setSnap v).gdesc = s.gdesc := rfl
@[simp] theorem State.setSnap_emb (s : State) (v : Option SnapSt) : (s.setSnap v).emb = s.emb := rfl
@[simp] theorem State.setSnap_parts (s : State) (v : Option SnapSt) : (s.setSnap v).parts = s.parts := rfl
@[simp] theorem State.setSnap_batches (s : State) (v : Option SnapSt) : (s.setSnap v).batches = s.batches := rfl
@[simp] theorem State.setSnap_swarms (s : State) (v : Option SnapSt) : (s.setSnap v).swarms = s.swarms := rfl
@[simp] theorem State.setSnap_ids (s : State) (v : Option SnapSt) : (s.setSnap v).ids = s.ids := rfl
@[simp] theorem State.setSnap_mig (s : State) (v : Option SnapSt) : (s.setSnap v).mig = s.mig := rfl
@[simp] theorem State.setSnap_moves (s : State) (v : Option SnapSt) : (s.setSnap v).moves = s.moves := rfl
@[simp] theorem State.setSnap_mat (s : State) (v : Option SnapSt) : (s.setSnap v).mat = s.mat := rfl
@[simp] theorem State.setSnap_relay (s : State) (v : Option SnapSt) : (s.setSnap v).relay = s.relay := rfl
@[simp] theorem State.setSnap_gmx (s : State) (v : Option SnapSt) : (s.setSnap v).gmx = s.gmx := rfl
@[simp] theorem State.setSnap_vec (s : State) (v : Option SnapSt) : (s.setSnap v).vec = s.vec := rfl
@[simp] theorem State.setSnap_eth (s : State) (v : Option SnapSt) : (s.setSnap v).eth = s.eth := rfl
@[simp] theorem State.setSnap_served (s : State) (v : Option SnapSt) : (s.setSnap v).served = s.served := rfl
@[simp] theorem State.setSnap_frames (s : State) (v : Option SnapSt) : (s.setSnap v).frames = s.frames := rfl
@[simp] theorem State.setSnap_snap (s : State) (v : Option SnapSt) : (s.setSnap v).snap = v := rfl
@[simp] theorem State.setSnap_out (s : State) (v : Option SnapSt) : (s.setSnap v).out = s.out := rfl
@[simp] theorem State.setSnap_free (s : State) (v : Option SnapSt) : (s.setSnap v).free = s.free := rfl
@[simp] theorem State.setOut_pending (s : State) (v : List Emit) : (s.setOut v).pending = s.pending := rfl
@[simp] theorem State.setOut_regs (s : State) (v : List Emit) : (s.setOut v).regs = s.regs := rfl
@[simp] theorem State.setOut_errKeys (s : State) (v : List Emit) : (s.setOut v).errKeys = s.errKeys := rfl
@[simp] theorem State.setOut_time (s : State) (v : List Emit) : (s.setOut v).time = s.time := rfl
@[simp] theorem State.setOut_dram (s : State) (v : List Emit) : (s.setOut v).dram = s.dram := rfl
@[simp] theorem State.setOut_cell (s : State) (v : List Emit) : (s.setOut v).cell = s.cell := rfl
@[simp] theorem State.setOut_spad (s : State) (v : List Emit) : (s.setOut v).spad = s.spad := rfl
@[simp] theorem State.setOut_store (s : State) (v : List Emit) : (s.setOut v).store = s.store := rfl
@[simp] theorem State.setOut_stk (s : State) (v : List Emit) : (s.setOut v).stk = s.stk := rfl
@[simp] theorem State.setOut_pch (s : State) (v : List Emit) : (s.setOut v).pch = s.pch := rfl
@[simp] theorem State.setOut_region (s : State) (v : List Emit) : (s.setOut v).region = s.region := rfl
@[simp] theorem State.setOut_dom (s : State) (v : List Emit) : (s.setOut v).dom = s.dom := rfl
@[simp] theorem State.setOut_pwr (s : State) (v : List Emit) : (s.setOut v).pwr = s.pwr := rfl
@[simp] theorem State.setOut_host (s : State) (v : List Emit) : (s.setOut v).host = s.host := rfl
@[simp] theorem State.setOut_rings (s : State) (v : List Emit) : (s.setOut v).rings = s.rings := rfl
@[simp] theorem State.setOut_slots (s : State) (v : List Emit) : (s.setOut v).slots = s.slots := rfl
@[simp] theorem State.setOut_graphs (s : State) (v : List Emit) : (s.setOut v).graphs = s.graphs := rfl
@[simp] theorem State.setOut_streams (s : State) (v : List Emit) : (s.setOut v).streams = s.streams := rfl
@[simp] theorem State.setOut_qps (s : State) (v : List Emit) : (s.setOut v).qps = s.qps := rfl
@[simp] theorem State.setOut_dev (s : State) (v : List Emit) : (s.setOut v).dev = s.dev := rfl
@[simp] theorem State.setOut_flash (s : State) (v : List Emit) : (s.setOut v).flash = s.flash := rfl
@[simp] theorem State.setOut_cores (s : State) (v : List Emit) : (s.setOut v).cores = s.cores := rfl
@[simp] theorem State.setOut_sess (s : State) (v : List Emit) : (s.setOut v).sess = s.sess := rfl
@[simp] theorem State.setOut_conns (s : State) (v : List Emit) : (s.setOut v).conns = s.conns := rfl
@[simp] theorem State.setOut_clu (s : State) (v : List Emit) : (s.setOut v).clu = s.clu := rfl
@[simp] theorem State.setOut_tel (s : State) (v : List Emit) : (s.setOut v).tel = s.tel := rfl
@[simp] theorem State.setOut_dbg (s : State) (v : List Emit) : (s.setOut v).dbg = s.dbg := rfl
@[simp] theorem State.setOut_pins (s : State) (v : List Emit) : (s.setOut v).pins = s.pins := rfl
@[simp] theorem State.setOut_xlat (s : State) (v : List Emit) : (s.setOut v).xlat = s.xlat := rfl
@[simp] theorem State.setOut_invQ (s : State) (v : List Emit) : (s.setOut v).invQ = s.invQ := rfl
@[simp] theorem State.setOut_pager (s : State) (v : List Emit) : (s.setOut v).pager = s.pager := rfl
@[simp] theorem State.setOut_sync (s : State) (v : List Emit) : (s.setOut v).sync = s.sync := rfl
@[simp] theorem State.setOut_disp (s : State) (v : List Emit) : (s.setOut v).disp = s.disp := rfl
@[simp] theorem State.setOut_comet (s : State) (v : List Emit) : (s.setOut v).comet = s.comet := rfl
@[simp] theorem State.setOut_wv (s : State) (v : List Emit) : (s.setOut v).wv = s.wv := rfl
@[simp] theorem State.setOut_gdesc (s : State) (v : List Emit) : (s.setOut v).gdesc = s.gdesc := rfl
@[simp] theorem State.setOut_emb (s : State) (v : List Emit) : (s.setOut v).emb = s.emb := rfl
@[simp] theorem State.setOut_parts (s : State) (v : List Emit) : (s.setOut v).parts = s.parts := rfl
@[simp] theorem State.setOut_batches (s : State) (v : List Emit) : (s.setOut v).batches = s.batches := rfl
@[simp] theorem State.setOut_swarms (s : State) (v : List Emit) : (s.setOut v).swarms = s.swarms := rfl
@[simp] theorem State.setOut_ids (s : State) (v : List Emit) : (s.setOut v).ids = s.ids := rfl
@[simp] theorem State.setOut_mig (s : State) (v : List Emit) : (s.setOut v).mig = s.mig := rfl
@[simp] theorem State.setOut_moves (s : State) (v : List Emit) : (s.setOut v).moves = s.moves := rfl
@[simp] theorem State.setOut_mat (s : State) (v : List Emit) : (s.setOut v).mat = s.mat := rfl
@[simp] theorem State.setOut_relay (s : State) (v : List Emit) : (s.setOut v).relay = s.relay := rfl
@[simp] theorem State.setOut_gmx (s : State) (v : List Emit) : (s.setOut v).gmx = s.gmx := rfl
@[simp] theorem State.setOut_vec (s : State) (v : List Emit) : (s.setOut v).vec = s.vec := rfl
@[simp] theorem State.setOut_eth (s : State) (v : List Emit) : (s.setOut v).eth = s.eth := rfl
@[simp] theorem State.setOut_served (s : State) (v : List Emit) : (s.setOut v).served = s.served := rfl
@[simp] theorem State.setOut_frames (s : State) (v : List Emit) : (s.setOut v).frames = s.frames := rfl
@[simp] theorem State.setOut_snap (s : State) (v : List Emit) : (s.setOut v).snap = s.snap := rfl
@[simp] theorem State.setOut_out (s : State) (v : List Emit) : (s.setOut v).out = v := rfl
@[simp] theorem State.setOut_free (s : State) (v : List Emit) : (s.setOut v).free = s.free := rfl
@[simp] theorem State.setFree_pending (s : State) (v : Nat) : (s.setFree v).pending = s.pending := rfl
@[simp] theorem State.setFree_regs (s : State) (v : Nat) : (s.setFree v).regs = s.regs := rfl
@[simp] theorem State.setFree_errKeys (s : State) (v : Nat) : (s.setFree v).errKeys = s.errKeys := rfl
@[simp] theorem State.setFree_time (s : State) (v : Nat) : (s.setFree v).time = s.time := rfl
@[simp] theorem State.setFree_dram (s : State) (v : Nat) : (s.setFree v).dram = s.dram := rfl
@[simp] theorem State.setFree_cell (s : State) (v : Nat) : (s.setFree v).cell = s.cell := rfl
@[simp] theorem State.setFree_spad (s : State) (v : Nat) : (s.setFree v).spad = s.spad := rfl
@[simp] theorem State.setFree_store (s : State) (v : Nat) : (s.setFree v).store = s.store := rfl
@[simp] theorem State.setFree_stk (s : State) (v : Nat) : (s.setFree v).stk = s.stk := rfl
@[simp] theorem State.setFree_pch (s : State) (v : Nat) : (s.setFree v).pch = s.pch := rfl
@[simp] theorem State.setFree_region (s : State) (v : Nat) : (s.setFree v).region = s.region := rfl
@[simp] theorem State.setFree_dom (s : State) (v : Nat) : (s.setFree v).dom = s.dom := rfl
@[simp] theorem State.setFree_pwr (s : State) (v : Nat) : (s.setFree v).pwr = s.pwr := rfl
@[simp] theorem State.setFree_host (s : State) (v : Nat) : (s.setFree v).host = s.host := rfl
@[simp] theorem State.setFree_rings (s : State) (v : Nat) : (s.setFree v).rings = s.rings := rfl
@[simp] theorem State.setFree_slots (s : State) (v : Nat) : (s.setFree v).slots = s.slots := rfl
@[simp] theorem State.setFree_graphs (s : State) (v : Nat) : (s.setFree v).graphs = s.graphs := rfl
@[simp] theorem State.setFree_streams (s : State) (v : Nat) : (s.setFree v).streams = s.streams := rfl
@[simp] theorem State.setFree_qps (s : State) (v : Nat) : (s.setFree v).qps = s.qps := rfl
@[simp] theorem State.setFree_dev (s : State) (v : Nat) : (s.setFree v).dev = s.dev := rfl
@[simp] theorem State.setFree_flash (s : State) (v : Nat) : (s.setFree v).flash = s.flash := rfl
@[simp] theorem State.setFree_cores (s : State) (v : Nat) : (s.setFree v).cores = s.cores := rfl
@[simp] theorem State.setFree_sess (s : State) (v : Nat) : (s.setFree v).sess = s.sess := rfl
@[simp] theorem State.setFree_conns (s : State) (v : Nat) : (s.setFree v).conns = s.conns := rfl
@[simp] theorem State.setFree_clu (s : State) (v : Nat) : (s.setFree v).clu = s.clu := rfl
@[simp] theorem State.setFree_tel (s : State) (v : Nat) : (s.setFree v).tel = s.tel := rfl
@[simp] theorem State.setFree_dbg (s : State) (v : Nat) : (s.setFree v).dbg = s.dbg := rfl
@[simp] theorem State.setFree_pins (s : State) (v : Nat) : (s.setFree v).pins = s.pins := rfl
@[simp] theorem State.setFree_xlat (s : State) (v : Nat) : (s.setFree v).xlat = s.xlat := rfl
@[simp] theorem State.setFree_invQ (s : State) (v : Nat) : (s.setFree v).invQ = s.invQ := rfl
@[simp] theorem State.setFree_pager (s : State) (v : Nat) : (s.setFree v).pager = s.pager := rfl
@[simp] theorem State.setFree_sync (s : State) (v : Nat) : (s.setFree v).sync = s.sync := rfl
@[simp] theorem State.setFree_disp (s : State) (v : Nat) : (s.setFree v).disp = s.disp := rfl
@[simp] theorem State.setFree_comet (s : State) (v : Nat) : (s.setFree v).comet = s.comet := rfl
@[simp] theorem State.setFree_wv (s : State) (v : Nat) : (s.setFree v).wv = s.wv := rfl
@[simp] theorem State.setFree_gdesc (s : State) (v : Nat) : (s.setFree v).gdesc = s.gdesc := rfl
@[simp] theorem State.setFree_emb (s : State) (v : Nat) : (s.setFree v).emb = s.emb := rfl
@[simp] theorem State.setFree_parts (s : State) (v : Nat) : (s.setFree v).parts = s.parts := rfl
@[simp] theorem State.setFree_batches (s : State) (v : Nat) : (s.setFree v).batches = s.batches := rfl
@[simp] theorem State.setFree_swarms (s : State) (v : Nat) : (s.setFree v).swarms = s.swarms := rfl
@[simp] theorem State.setFree_ids (s : State) (v : Nat) : (s.setFree v).ids = s.ids := rfl
@[simp] theorem State.setFree_mig (s : State) (v : Nat) : (s.setFree v).mig = s.mig := rfl
@[simp] theorem State.setFree_moves (s : State) (v : Nat) : (s.setFree v).moves = s.moves := rfl
@[simp] theorem State.setFree_mat (s : State) (v : Nat) : (s.setFree v).mat = s.mat := rfl
@[simp] theorem State.setFree_relay (s : State) (v : Nat) : (s.setFree v).relay = s.relay := rfl
@[simp] theorem State.setFree_gmx (s : State) (v : Nat) : (s.setFree v).gmx = s.gmx := rfl
@[simp] theorem State.setFree_vec (s : State) (v : Nat) : (s.setFree v).vec = s.vec := rfl
@[simp] theorem State.setFree_eth (s : State) (v : Nat) : (s.setFree v).eth = s.eth := rfl
@[simp] theorem State.setFree_served (s : State) (v : Nat) : (s.setFree v).served = s.served := rfl
@[simp] theorem State.setFree_frames (s : State) (v : Nat) : (s.setFree v).frames = s.frames := rfl
@[simp] theorem State.setFree_snap (s : State) (v : Nat) : (s.setFree v).snap = s.snap := rfl
@[simp] theorem State.setFree_out (s : State) (v : Nat) : (s.setFree v).out = s.out := rfl
@[simp] theorem State.setFree_free (s : State) (v : Nat) : (s.setFree v).free = v := rfl

end Sys2Proof.Machine
end

