-- ==== Sys2Proof/Laws/Books.lean ====
section
/-! SUPPORT. What booking an event can do: counts, status bits, error records, notifications, completions and messages
change registers, the event log, the rings, the queue pairs and what leaves the block, and nothing else; and they change
a register outside the counter values and the RDMA pages only where it is named. -/

namespace Sys2Proof.Machine

/-! ## Registers -/

/-- A register reads what was written last. -/
@[simp] theorem rg_setRg_same (s : State) (pg off : Nat) (v : Word) : (s.setRg pg off v).rg pg off = v := by
  simp [State.rg, State.setRg]

/-- Registers of different keys do not touch each other. -/
theorem rg_setRg_other (s : State) (pg off pg' off' : Nat) (v : Word) (h : regKey pg' off' ≠ regKey pg off) :
    (s.setRg pg off v).rg pg' off' = s.rg pg' off' := by
  simp only [State.rg, State.setRg, State.setRegs_regs]
  exact smapGet_set_other _ _ _ _ _ h

/-- Register update on a page leaves other pages alone. -/
theorem rg_setRg_page (s : State) (pg off pg' off' : Nat) (v : Word) (h : pg' ≠ pg) (ho : off < 4096) (ho' : off' < 4096) :
    (s.setRg pg off v).rg pg' off' = s.rg pg' off' := by
  apply rg_setRg_other; simp only [regKey]; omega

/-! ## Keys that booking may change -/

/-- A register key that booking an event leaves alone unless it is named: no counter selection or value, and no block register of an
RDMA page. -/
def keyPlain (k : Nat) : Prop := k % 512 < 32 ∨ (48 ≤ k % 512 ∧ k / 524288 ≠ 0x21)

/-- The registers of plain keys are kept. -/
def RegsKept (s t : State) : Prop := ∀ k, keyPlain k → smapGet regReset t.regs k = smapGet regReset s.regs k

/-- Booking: nothing changes outside the books, and no plain register does. -/
def Books (s t : State) : Prop := Booked s t ∧ RegsKept s t

theorem booked_refl (s : State) : Booked s s := rfl

theorem booked_trans {s t u : State} (h : Booked s t) (k : Booked t u) : Booked s u := by
  unfold Booked at *
  rw [k, h]

theorem regsKept_refl (s : State) : RegsKept s s := fun _ _ => rfl

theorem regsKept_trans {s t u : State} (h : RegsKept s t) (k : RegsKept t u) : RegsKept s u :=
  fun i hi => (k i hi).trans (h i hi)

theorem books_refl (s : State) : Books s s := ⟨booked_refl s, regsKept_refl s⟩

theorem books_trans {s t u : State} (h : Books s t) (k : Books t u) : Books s u :=
  ⟨booked_trans h.1 k.1, regsKept_trans h.2 k.2⟩

/-- A register of a plain key reads as before. -/
theorem regsKept_rg {s t : State} (h : RegsKept s t) (pg off : Nat) (hp : keyPlain (regKey pg off)) : t.rg pg off = s.rg pg off :=
  h _ hp

/-- A header register of any page is plain. -/
theorem keyPlain_head (pg off : Nat) (h : off < 0x100) : keyPlain (regKey pg off) := by
  unfold keyPlain regKey
  omega

/-- A header or block register of a page outside RDMA is plain. -/
theorem keyPlain_of (pg off : Nat) (h : off < 0x100 ∨ (0x180 ≤ off ∧ off < 4096)) (hp : pg / 1024 ≠ 0x21) : keyPlain (regKey pg off) := by
  unfold keyPlain regKey
  omega

/-! ## Fields kept -/

section
variable {s t : State} (h : Booked s t)
include h
theorem booked_pending : t.pending = s.pending := by rw [h]
theorem booked_time : t.time = s.time := by rw [h]
theorem booked_dram : t.dram = s.dram := by rw [h]
theorem booked_spad : t.spad = s.spad := by rw [h]
theorem booked_store : t.store = s.store := by rw [h]
theorem booked_stk : t.stk = s.stk := by rw [h]
theorem booked_pch : t.pch = s.pch := by rw [h]
theorem booked_region : t.region = s.region := by rw [h]
theorem booked_dom : t.dom = s.dom := by rw [h]
theorem booked_pwr : t.pwr = s.pwr := by rw [h]
theorem booked_slots : t.slots = s.slots := by rw [h]
theorem booked_graphs : t.graphs = s.graphs := by rw [h]
theorem booked_streams : t.streams = s.streams := by rw [h]
theorem booked_dev : t.dev = s.dev := by rw [h]
theorem booked_pins : t.pins = s.pins := by rw [h]
theorem booked_xlat : t.xlat = s.xlat := by rw [h]
theorem booked_invQ : t.invQ = s.invQ := by rw [h]
theorem booked_wv : t.wv = s.wv := by rw [h]
theorem booked_emb : t.emb = s.emb := by rw [h]
theorem booked_parts : t.parts = s.parts := by rw [h]
theorem booked_mig : t.mig = s.mig := by rw [h]
theorem booked_moves : t.moves = s.moves := by rw [h]
theorem booked_mat : t.mat = s.mat := by rw [h]
theorem booked_gmx : t.gmx = s.gmx := by rw [h]
theorem booked_vec : t.vec = s.vec := by rw [h]
theorem booked_relay : t.relay = s.relay := by rw [h]
theorem booked_sync : t.sync = s.sync := by rw [h]
theorem booked_disp : t.disp = s.disp := by rw [h]
theorem booked_comet : t.comet = s.comet := by rw [h]
theorem booked_flash : t.flash = s.flash := by rw [h]
theorem booked_cores : t.cores = s.cores := by rw [h]
theorem booked_clu : t.clu = s.clu := by rw [h]
theorem booked_dbg : t.dbg = s.dbg := by rw [h]
theorem booked_eth : t.eth = s.eth := by rw [h]
theorem booked_snap : t.snap = s.snap := by rw [h]
theorem booked_sess : t.sess = s.sess := by rw [h]
theorem booked_cell : t.cell = s.cell := by rw [h]
theorem booked_cellErr (d a : Nat) : t.cellErr d a = s.cellErr d a := by simp only [State.cellErr, booked_cell h]
theorem booked_stkAt (n : Nat) : t.stkAt n = s.stkAt n := by unfold State.stkAt; rw [booked_stk h]
theorem booked_pchAt (n : Nat) : t.pchAt n = s.pchAt n := by unfold State.pchAt; rw [booked_pch h]
theorem booked_regionAt (n : Nat) : t.regionAt n = s.regionAt n := by unfold State.regionAt; rw [booked_region h]
theorem booked_poisonDef : t.poisonDef = s.poisonDef := by
  funext k; simp only [State.poisonDef, State.stkAt, booked_stk h]
theorem booked_accPoison (d a : Nat) : t.accPoison d a = s.accPoison d a := by
  simp only [State.accPoison, booked_poisonDef h, booked_dram h]
theorem booked_accData (d a : Nat) : t.accData d a = s.accData d a := by
  simp only [State.accData, booked_dram h]
end

/-! ## The fields of the books -/

theorem booked_setRegs (s : State) (v : SMap Word) : Booked s (s.setRegs v) := rfl
theorem booked_setErrKeys (s : State) v : Booked s (s.setErrKeys v) := rfl
theorem booked_setTel (s : State) v : Booked s (s.setTel v) := rfl
theorem booked_setHost (s : State) v : Booked s (s.setHost v) := rfl
theorem booked_setRings (s : State) v : Booked s (s.setRings v) := rfl
theorem booked_setQps (s : State) v : Booked s (s.setQps v) := rfl
theorem booked_setServed (s : State) v : Booked s (s.setServed v) := rfl
theorem booked_setFrames (s : State) v : Booked s (s.setFrames v) := rfl
theorem booked_setOut (s : State) v : Booked s (s.setOut v) := rfl
theorem booked_setFree (s : State) v : Booked s (s.setFree v) := rfl

theorem books_setErrKeys (s : State) v : Books s (s.setErrKeys v) := ⟨rfl, fun _ _ => rfl⟩
theorem books_setTel (s : State) v : Books s (s.setTel v) := ⟨rfl, fun _ _ => rfl⟩
theorem books_setHost (s : State) v : Books s (s.setHost v) := ⟨rfl, fun _ _ => rfl⟩
theorem books_putRing (s : State) r v : Books s (s.putRing r v) := ⟨rfl, fun _ _ => rfl⟩
theorem books_putQp (s : State) q v : Books s (s.putQp q v) := ⟨rfl, fun _ _ => rfl⟩
theorem books_emit (s : State) e : Books s (s.emit e) := ⟨rfl, fun _ _ => rfl⟩
theorem books_setFrames (s : State) v : Books s (s.setFrames v) := ⟨rfl, fun _ _ => rfl⟩
theorem books_setServed (s : State) v : Books s (s.setServed v) := ⟨rfl, fun _ _ => rfl⟩
theorem books_draw (s : State) : Books s s.draw.2 := ⟨rfl, fun _ _ => rfl⟩
theorem booked_setRg (s : State) pg off v : Booked s (s.setRg pg off v) := rfl

/-- A register that is not plain may be written. -/
theorem books_setRg (s : State) (pg off : Nat) (v : Word) (h : ¬ keyPlain (regKey pg off)) : Books s (s.setRg pg off v) := by
  refine ⟨rfl, fun k hk => ?_⟩
  simp only [State.setRg, State.setRegs_regs]
  refine smapGet_set_other _ _ _ _ _ (fun e => h (e ▸ hk))

theorem books_foldl {α : Type} (f : State → α → State) (l : List α) (h : ∀ s, ∀ a ∈ l, Books s (f s a)) (s : State) :
    Books s (l.foldl f s) := by
  induction l generalizing s with
  | nil => exact books_refl s
  | cons a l ih =>
    exact books_trans (h s a (by simp)) (ih (fun s b hb => h s b (List.mem_cons_of_mem _ hb)) _)

/-! ## Counting -/

theorem books_cntOne (s : State) (pg src n i : Nat) (hi : i < 8) : Books s (s.cntOne pg src n i) := by
  unfold State.cntOne
  simp only
  split
  · refine books_setRg _ _ _ _ ?_
    simp only [keyPlain, regKey, oCntVal]; omega
  · exact books_refl s

theorem books_cntSrc (s : State) (pg src n : Nat) : Books s (s.cntSrc pg src n) := by
  unfold State.cntSrc
  split
  · exact books_foldl _ _ (fun s i hi => books_cntOne s pg src n i (List.mem_range.1 hi)) s
  · exact books_refl s

theorem books_conflict (s : State) (pg : Nat) : Books s (s.conflict pg) := books_cntSrc _ _ _ _

theorem booked_count (s : State) (pg off n : Nat) : Booked s (s.count pg off n) :=
  booked_trans (booked_setRg _ _ _ _) (books_cntSrc _ _ _ _).1

/-- A count keeps every plain register but its own. -/
theorem count_rg_other (s : State) (pg off n pg' off' : Nat) (hp : keyPlain (regKey pg' off')) (h : regKey pg' off' ≠ regKey pg off) :
    (s.count pg off n).rg pg' off' = s.rg pg' off' := by
  unfold State.count
  rw [regsKept_rg (books_cntSrc _ _ _ _).2 _ _ hp, rg_setRg_other _ _ _ _ _ _ h]

/-- A count adds to its own register. -/
theorem count_rg_same (s : State) (pg off n : Nat) (hp : keyPlain (regKey pg off)) :
    (s.count pg off n).rg pg off = s.rg pg off + word n := by
  unfold State.count
  rw [regsKept_rg (books_cntSrc _ _ _ _).2 _ _ hp, rg_setRg_same]

theorem books_count (s : State) (pg off n : Nat) (h : ¬ keyPlain (regKey pg off)) : Books s (s.count pg off n) :=
  books_trans (books_setRg _ _ _ _ h) (books_cntSrc _ _ _ _)

/-- The 14-bit queue pair numbers count on RDMA pages. -/
theorem books_countRdma (s : State) (p off n : Nat) (hp : p < 1024) (ho : 0x100 ≤ off) (ho' : off < 4096) : Books s (s.count (pgRdma p) off n) := by
  refine books_count _ _ _ _ ?_
  simp only [keyPlain, regKey, pgRdma]; omega

/-! ## Messages and completions -/

theorem books_sendFrames (s : State) (n : Nat) (h : FrameHdr) (e : Emit) : Books s (s.sendFrames n h e) :=
  books_trans (books_setFrames _ _) (books_trans (books_cntSrc _ _ _ _) (books_emit _ _))

theorem books_sendOn (s : State) (l n : Nat) (e : Emit) : Books s (s.sendOn l n e) := books_sendFrames _ _ _ _

theorem books_sendQp (s : State) (q n : Nat) (e : Emit) : Books s (s.sendQp q n e) := books_sendFrames _ _ _ _

theorem books_txNow (s : State) (q : Nat) (m : TxMsg) (hq : q < 2 ^ 14) : Books s (s.txNow q m) := by
  unfold State.txNow
  refine books_trans (books_putQp _ _ _) (books_trans (books_countRdma _ _ _ _ (by omega) (by decide) (by decide))
    (books_trans (books_countRdma _ _ _ _ (by omega) (by decide) (by decide))
      (books_trans (books_sendQp _ _ _ _) (books_setServed _ _))))

theorem books_txDrain (q : Nat) (hq : q < 2 ^ 14) (n : Nat) (s : State) : Books s (s.txDrain q n) := by
  induction n generalizing s with
  | zero => exact books_refl s
  | succ n ih =>
    unfold State.txDrain
    simp only
    split
    · exact books_refl s
    · split
      · exact books_trans (books_trans (books_putQp _ _ _) (books_txNow _ _ _ hq)) (ih _)
      · exact books_refl s

theorem books_txPost (s : State) (q : Nat) (m : TxMsg) (hq : q < 2 ^ 14) : Books s (s.txPost q m) := by
  unfold State.txPost
  simp only
  split
  · exact books_trans (books_putQp _ _ _) (books_txDrain _ hq _ _)
  · exact books_refl s

theorem books_writeCpl (s : State) (r kind status cmdId result detail source obj : Nat) :
    Books s (s.writeCpl r kind status cmdId result detail source obj) := by
  unfold State.writeCpl
  simp only
  split
  · exact books_trans (books_putRing _ _ _) (books_emit _ _)
  · refine books_trans (books_putRing _ _ _) (books_txPost _ _ _ ?_)
    exact Nat.lt_of_lt_of_le (Nat.mod_lt _ (by decide)) (by decide)

theorem books_noteOut (l : List Nat) (s : State) : Books s (s.noteOut l) := by
  induction l generalizing s with
  | nil => exact books_setHost _ _
  | cons a l ih =>
    unfold State.noteOut
    simp only
    split
    · exact books_setHost _ _
    · exact books_trans (books_writeCpl _ _ _ _ _ _ _ _ _) (ih _)

theorem books_flushNotes (s : State) : Books s s.flushNotes := books_noteOut _ _

theorem books_notify (s : State) (pg : Nat) : Books s (s.notify pg) := by
  unfold State.notify
  split
  · refine books_trans ?_ (books_flushNotes _)
    split
    · exact books_refl s
    · exact books_setHost _ _
  · exact books_refl s

theorem books_logPush (s : State) (e : LogEnt) : Books s (s.logPush e) := by
  unfold State.logPush
  split
  · exact books_setTel _ _
  · exact books_refl s

/-! ## Status bits -/

/-- A set of a status bit is the new EVT_STATUS and booking. -/
theorem setEvt_books (s : State) (pg b : Nat) :
    Books (s.setRg pg oEvtStatus (s.rg pg oEvtStatus ||| bitW b)) (s.setEvt pg b) := by
  unfold State.setEvt
  simp only
  have h0 := books_cntSrc (s.setRg pg oEvtStatus (s.rg pg oEvtStatus ||| bitW b)) pg (256 + b) 1
  generalize (s.setRg pg oEvtStatus (s.rg pg oEvtStatus ||| bitW b)).cntSrc pg (256 + b) 1 = u at *
  split <;> split
  · exact books_trans h0 (books_trans (books_logPush _ _) (books_notify _ _))
  · exact books_trans h0 (books_logPush _ _)
  · exact books_trans h0 (books_notify _ _)
  · exact h0

theorem booked_setEvt (s : State) (pg b : Nat) : Booked s (s.setEvt pg b) :=
  booked_trans (booked_setRg _ _ _ _) (setEvt_books s pg b).1

theorem setEvt_rg_other (s : State) (pg b pg' off' : Nat) (hp : keyPlain (regKey pg' off')) (h : regKey pg' off' ≠ regKey pg oEvtStatus) :
    (s.setEvt pg b).rg pg' off' = s.rg pg' off' := by
  rw [regsKept_rg (setEvt_books s pg b).2 _ _ hp, rg_setRg_other _ _ _ _ _ _ h]

theorem setEvt_status (s : State) (pg b : Nat) :
    (s.setEvt pg b).rg pg oEvtStatus = s.rg pg oEvtStatus ||| bitW b := by
  rw [regsKept_rg (setEvt_books s pg b).2 _ _ (keyPlain_head _ _ (by decide)), rg_setRg_same]

theorem bit_or (a b : Word) (i : Nat) : bit (a ||| b) i = (bit a i || bit b i) := by simp [bit]

theorem bit_bitW (b i : Nat) (hb : b < 64) : bit (bitW b) i = decide (b = i) := by
  unfold bit bitW word
  rw [BitVec.toNat_ofNat, Nat.mod_eq_of_lt (Nat.pow_lt_pow_right (by decide) hb), Nat.testBit_two_pow]

/-- The bit is set afterwards. -/
theorem setEvt_bit (s : State) (pg b : Nat) (hb : b < 64) :
    bit ((s.setEvt pg b).rg pg oEvtStatus) b = true := by
  rw [setEvt_status, bit_or, bit_bitW _ _ hb]; simp

theorem booked_foldl {α : Type} (f : State → α → State) (l : List α) (h : ∀ s a, Booked s (f s a)) (s : State) :
    Booked s (l.foldl f s) := by
  induction l generalizing s with
  | nil => exact booked_refl s
  | cons a l ih => exact booked_trans (h s a) (ih _)

theorem booked_setEvts (s : State) (pg : Nat) (bs : List Nat) : Booked s (s.setEvts pg bs) :=
  booked_foldl _ _ (fun _ _ => booked_setEvt _ _ _) s

theorem booked_putErr (s : State) (pg off : Nat) (e : ErrInfo) (c : Nat) : Booked s (s.putErr pg off e c) := by
  unfold State.putErr
  exact booked_trans (booked_setRg _ _ _ _) (booked_trans (booked_setRg _ _ _ _) (booked_trans (booked_setRg _ _ _ _)
    (booked_trans (booked_setRg _ _ _ _) (booked_setRg _ _ _ _))))

/-- An error record is booking. -/
theorem booked_error (s : State) (pg : Nat) (e : ErrInfo) : Booked s (s.error pg e) := by
  unfold State.error
  simp only
  refine booked_trans ?_ (books_logPush _ _).1
  refine booked_trans ?_ (books_cntSrc _ _ _ _).1
  refine booked_trans ?_ (books_cntSrc _ _ _ _).1
  have hp : ∀ (u : State) off c k, Booked u ((u.putErr pg off e c).setErrKeys k) :=
    fun u off c k => booked_trans (booked_putErr u pg off e c) (booked_setErrKeys _ _)
  split <;> split
  · exact booked_trans (hp _ _ _ _) (booked_setRg _ _ _ _)
  · exact booked_trans (hp _ _ _ _) (hp _ _ _ _)
  · exact booked_setRg _ _ _ _
  · exact hp _ _ _ _

end Sys2Proof.Machine
end

