-- ==== Sys2Proof/Laws/Ops.lean ====
section
/-! SUPPORT. The stores: a byte reads what was written last, a write leaves every other byte alone, and every operation keeps
the canonical form. -/

namespace Sys2Proof.Machine

/-! ## Bytes -/

theorem byte_setByte (m : Mem) (a b : Nat) (v : Byte) : (m.setByte a v).byte b = if b = a then v else m.byte b := by
  simp only [Mem.byte, Mem.setByte, smapGet_set]

theorem setBytes_poison (bs : List Byte) (m : Mem) (a : Nat) : (m.setBytes a bs).poison = m.poison := by
  induction bs generalizing m a with
  | nil => rfl
  | cons b bs ih => simp only [Mem.setBytes, ih]; rfl

/-- Bytes written from an address are read there, and no other byte changes. -/
theorem byte_setBytes (bs : List Byte) (m : Mem) (a b : Nat) :
    (m.setBytes a bs).byte b = if a ≤ b ∧ b < a + bs.length then bs.getD (b - a) 0 else m.byte b := by
  induction bs generalizing m a with
  | nil => simp only [Mem.setBytes, List.length_nil, Nat.add_zero]; split
           · omega
           · rfl
  | cons v bs ih =>
    simp only [Mem.setBytes, ih, byte_setByte, List.length_cons]
    by_cases h : b = a
    · subst h
      simp
    · by_cases h2 : a + 1 ≤ b ∧ b < a + 1 + bs.length
      · have : a ≤ b ∧ b < a + (bs.length + 1) := by omega
        rw [if_pos h2, if_pos this]
        have : b - a = (b - (a + 1)) + 1 := by omega
        rw [this]; simp
      · have : ¬ (a ≤ b ∧ b < a + (bs.length + 1)) := by omega
        rw [if_neg h2, if_neg this, if_neg h]

theorem bytes_setBytes (bs : List Byte) (m : Mem) (a : Nat) : (m.setBytes a bs).bytes a bs.length = bs := by
  apply List.ext_getElem
  · simp [Mem.bytes]
  · intro i h1 h2
    simp only [Mem.bytes, List.getElem_map, List.getElem_range, byte_setBytes]
    simp [h2]

/-! ## The canonical form -/

theorem setByte_wf (m : Mem) (a : Nat) (b : Byte) (h : m.wf = true) : (m.setByte a b).wf = true := by
  simp only [Mem.wf, Mem.setByte, Bool.and_eq_true] at h ⊢
  exact ⟨smapWf_set _ _ _ _ h.1, h.2⟩

theorem setPoison_wf (m : Mem) (k : Nat) (p : Bool) (h : m.wf = true) : (m.setPoison k p).wf = true := by
  simp only [Mem.wf, Mem.setPoison, Bool.and_eq_true] at h ⊢
  exact ⟨h.1, smapWf_set _ _ _ _ h.2⟩

theorem setBytes_wf (bs : List Byte) (m : Mem) (a : Nat) (h : m.wf = true) : (m.setBytes a bs).wf = true := by
  induction bs generalizing m a with
  | nil => exact h
  | cons b bs ih => exact ih _ _ (setByte_wf _ _ _ h)

theorem setBytes_cells_wf (bs : List Byte) (m : Mem) (a : Nat) (h : smapWf (fun _ => (0 : Byte)) m.cells = true) :
    smapWf (fun _ => (0 : Byte)) (m.setBytes a bs).cells = true := by
  induction bs generalizing m a with
  | nil => exact h
  | cons b bs ih => exact ih _ _ (smapWf_set _ _ _ _ h)

/-- The stores after reset have their canonical form. -/
theorem reset_memSound : State.reset.memSound := ⟨by decide, by decide, by decide, by decide⟩

/-- Writing the bytes of a scratchpad keeps the canonical form. -/
theorem spadWr1_wf (s : State) (c a : Nat) (d : List Byte) (p : Bool) (h : s.spad.wf = true) : (s.spadWr1 c a d p).spad.wf = true :=
  setPoison_wf _ _ _ (setBytes_wf _ _ _ h)

theorem spadWrN_wf (c : Nat) (p : Bool) (n : Nat) (s : State) (a : Nat) (d : List Byte) (h : s.spad.wf = true) :
    (s.spadWrN c n a d p).spad.wf = true := by
  induction n generalizing s a d with
  | zero => exact h
  | succ n ih =>
    unfold State.spadWrN
    cases d with
    | nil => exact h
    | cons b d => exact ih _ _ _ (spadWr1_wf _ _ _ _ _ h)

/-- A write of a scratchpad keeps the canonical form. -/
theorem spadWr_wf (s : State) (c a : Nat) (d : List Byte) (p : Bool) (h : s.spad.wf = true) : (s.spadWr c a d p).spad.wf = true :=
  spadWrN_wf _ _ _ _ _ _ h

/-! ## One access -/

theorem storeAcc_poisonDef (s : State) (d a : Nat) (x : List Byte) (p : Bool) : (s.storeAcc d a x p).poisonDef = s.poisonDef := rfl
theorem storeAcc_stk (s : State) (d a : Nat) (x : List Byte) (p : Bool) : (s.storeAcc d a x p).stk = s.stk := rfl

theorem sliceB_all (x : List Byte) (n : Nat) (h : x.length = n) : sliceB x 0 n = x := by
  subst h
  apply List.ext_getElem
  · simp [sliceB]
  · intro i h1 h2; simp [sliceB]

theorem sliceB_length (x : List Byte) (a n : Nat) : (sliceB x a n).length = n := by simp [sliceB]

/-- What an access holds after a store. -/
theorem storeAcc_byte (s : State) (d a b : Nat) (x : List Byte) (p : Bool) :
    (s.storeAcc d a x p).dram.byte b =
      if accByte d a ≤ b ∧ b < accByte d a + 32 then x.getD (b - accByte d a) 0 else s.dram.byte b := by
  have := byte_setBytes (sliceB x 0 32) s.dram (accByte d a) b
  rw [sliceB_length] at this
  have e : (s.storeAcc d a x p).dram.byte b = (s.dram.setBytes (accByte d a) (sliceB x 0 32)).byte b := rfl
  rw [e, this]
  split
  · rename_i h
    have : b - accByte d a < 32 := by omega
    rw [List.getD_eq_getElem?_getD, List.getD_eq_getElem?_getD]
    simp only [sliceB, List.drop_zero, List.length_take]
    by_cases hl : b - accByte d a < x.length
    · rw [List.getElem?_append_left (by simp; omega), List.getElem?_take_of_lt this]
    · rw [List.getElem?_append_right (by simp; omega), List.getElem?_eq_none (l := x) (by omega)]
      simp only [List.length_take, List.getElem?_replicate]
      split <;> rfl
  · rfl

theorem storeAcc_accPoison (s : State) (d a e b : Nat) (x : List Byte) (p : Bool) :
    (s.storeAcc d a x p).accPoison e b = if accKey e b = accKey d a then p else s.accPoison e b := by
  simp only [State.accPoison, storeAcc_poisonDef]
  show smapGet s.poisonDef (smapSet s.poisonDef s.dram.poison (accKey d a) p) (accKey e b) = _
  rw [smapGet_set]

/-- A store of one access keeps the canonical form. -/
theorem storeAcc_sound (s : State) (d a : Nat) (x : List Byte) (p : Bool) (h : s.memSound) : (s.storeAcc d a x p).memSound := by
  obtain ⟨h1, h2, h3, h4⟩ := h
  exact ⟨setBytes_cells_wf _ _ _ h1, smapWf_set _ _ _ _ h2, h3, h4⟩

/-- Booking keeps the canonical form. -/
theorem booked_sound {s t : State} (h : Booked s t) (k : s.memSound) : t.memSound := by
  obtain ⟨h1, h2, h3, h4⟩ := k
  refine ⟨?_, ?_, ?_, ?_⟩
  · rw [booked_dram h]; exact h1
  · rw [booked_dram h, booked_poisonDef h]; exact h2
  · rw [booked_spad h]; exact h3
  · rw [booked_store h]; exact h4

/-- Decoding without an error agrees with the decoder. -/
theorem accDecode_eq (p : Bool) (e : List Byte) : accDecode p e = rsDecode p e := by
  cases e with
  | nil => cases p <;> decide +kernel
  | cons x xs => rfl

/-- A read without an error of the interface, of cells without one, sees none. -/
theorem accErr_none (s : State) (d a : Nat) (hc : s.cellErr d a = []) : s.accErr d a AccErr.none = (AccErr.none, s) := by
  unfold State.accErr
  rw [hc]
  rfl

/-- A read without an error of the interface or the cells answers the stored bytes and mark. -/
theorem readAcc_value (s : State) (d a : Nat) (hc : s.cellErr d a = []) : (s.readAcc d a).1 = (s.accData d a, s.accPoison d a) := by
  unfold State.readAcc State.readAccE
  rw [accErr_none s d a hc]
  simp only [AccErr.none]
  cases h : s.accPoison d a <;> simp [accDecode, rsData, allZero]

/-- A read without an error of the interface or the cells changes nothing but books. -/
theorem readAcc_booked (s : State) (d a : Nat) (hc : s.cellErr d a = []) : Booked s (s.readAcc d a).2 := by
  unfold State.readAcc State.readAccE
  rw [accErr_none s d a hc]
  simp only [AccErr.none]
  cases h : s.accPoison d a
  · simp [accDecode, booked_refl]
  · simp only [accDecode, List.isEmpty_nil, if_true]
    exact booked_trans (booked_count _ _ _ _) (booked_setEvt _ _ _)

end Sys2Proof.Machine
end

