-- ==== Sys2Proof/Laws/PerInstr.lean ====
section
/-! SUPPORT. Well-formedness by constructor: a row without data beside a length has no ill-formed command. -/

namespace Sys2Proof.Laws.Wf

/-- The rows whose operands carry data beside a length, an error list, or an address that must be aligned. -/
def carries : Instr → Bool
  | .rd _ _ _ => true
  | .wr _ _ => true
  | .wrm _ _ => true
  | .flitFence _ _ => true
  | .gpool _ _ => true
  | .gpoolRow _ _ => true
  | .rupd _ _ => true
  | .scrub _ _ => true
  | .patch _ _ => true
  | .ppr _ _ => true
  | .stackTempReading _ _ _ _ => true
  | .pageIn _ _ _ => true
  | .hotspotReading _ _ => true
  | .pfcFrameRx _ _ _ => true
  | _ => false

/-- A command of a row that carries none of these is well formed. -/
def Statement (i : Instr) : Prop := carries i = false → i.wf = true

theorem ptpMessageRx (port : Fin 4) (m : PtpMsg) : Statement (.ptpMessageRx port m) := fun _ => rfl
theorem ppsEdge : Statement (.ppsEdge) := fun _ => rfl
theorem ppsLost : Statement (.ppsLost) := fun _ => rfl
theorem cadenceExchange (port : Fin 4) (m : CadenceMsg) : Statement (.cadenceExchange port m) := fun _ => rfl
theorem holdoverEntry : Statement (.holdoverEntry) := fun _ => rfl
theorem stNsRead : Statement (.stNsRead) := fun _ => rfl
theorem stSet (v : Word) : Statement (.stSet v) := fun _ => rfl
theorem ppsOutPulse : Statement (.ppsOutPulse) := fun _ => rfl
theorem eventDelivery : Statement (.eventDelivery) := fun _ => rfl
theorem launchEvent : Statement (.launchEvent) := fun _ => rfl
theorem barrierEvent : Statement (.barrierEvent) := fun _ => rfl
theorem versionRegionSwitch : Statement (.versionRegionSwitch) := fun _ => rfl
theorem versionDeviceSwitch : Statement (.versionDeviceSwitch) := fun _ => rfl
theorem powerEvent : Statement (.powerEvent) := fun _ => rfl
theorem scrubOpen : Statement (.scrubOpen) := fun _ => rfl
theorem scrubClose : Statement (.scrubClose) := fun _ => rfl
theorem deadlineMiss (slot : Fin 4096) : Statement (.deadlineMiss slot) := fun _ => rfl
theorem rd (stk : Region) (f : PortCmd) (errs : List AccErr) : Statement (.rd stk f errs) := by simp [Statement, carries]
theorem wr (stk : Region) (f : PortCmd) : Statement (.wr stk f) := by simp [Statement, carries]
theorem wrm (stk : Region) (f : PortCmd) : Statement (.wrm stk f) := by simp [Statement, carries]
theorem flitFence (stk : Region) (f : PortCmd) : Statement (.flitFence stk f) := by simp [Statement, carries]
theorem gpool (stk : Region) (f : PortCmd) : Statement (.gpool stk f) := by simp [Statement, carries]
theorem gpoolRow (stk : Region) (f : PortCmd) : Statement (.gpoolRow stk f) := by simp [Statement, carries]
theorem poolLaneDone (stk : Region) (tag : BitVec 16) : Statement (.poolLaneDone stk tag) := fun _ => rfl
theorem rupd (stk : Region) (f : PortCmd) : Statement (.rupd stk f) := by simp [Statement, carries]
theorem scrub (stk : Region) (errs : List AccErr) : Statement (.scrub stk errs) := by simp [Statement, carries]
theorem train (stk : Region) : Statement (.train stk) := fun _ => rfl
theorem retrain (stk : Region) : Statement (.retrain stk) := fun _ => rfl
theorem marginT (stk : Region) : Statement (.marginT stk) := fun _ => rfl
theorem marginV (stk : Region) : Statement (.marginV stk) := fun _ => rfl
theorem patch (stk : Region) (errs : List AccErr) : Statement (.patch stk errs) := by simp [Statement, carries]
theorem ppr (stk : Region) (errs : List AccErr) : Statement (.ppr stk errs) := by simp [Statement, carries]
theorem pchRetire (stk : Region) : Statement (.pchRetire stk) := fun _ => rfl
theorem responseFlit (stk : Region) : Statement (.responseFlit stk) := fun _ => rfl
theorem replay (stk : Region) (path : ReplayPath) : Statement (.replay stk path) := fun _ => rfl
theorem trainDone (d : Pch) (pass : Bool) : Statement (.trainDone d pass) := fun _ => rfl
theorem retrainDone (d : Pch) (pass : Bool) : Statement (.retrainDone d pass) := fun _ => rfl
theorem marginStepDone (d : Pch) (found : Option MarginEdges) : Statement (.marginStepDone d found) := fun _ => rfl
theorem stackTempReading (stk : Region) (core : List Int) (base : Int) (pchTemps : List Int) : Statement (.stackTempReading stk core base pchTemps) := by simp [Statement, carries]
theorem refresh (d : Pch) (bank : Fin 64) : Statement (.refresh d bank) := fun _ => rfl
theorem stackClearDone (stk : Region) : Statement (.stackClearDone stk) := fun _ => rfl
theorem stackPortTrained (stk : Region) : Statement (.stackPortTrained stk) := fun _ => rfl
theorem svcCmdHiWrite (stk : Region) (v : Word) : Statement (.svcCmdHiWrite stk v) := fun _ => rfl
theorem slotGrant (d : Pch) : Statement (.slotGrant d) := fun _ => rfl
theorem translate (u : Fin 13) (q : XReq) : Statement (.translate u q) := fun _ => rfl
theorem walkReadReturn (u : Fin 13) (walk : Nat) : Statement (.walkReadReturn u walk) := fun _ => rfl
theorem dBitCompareDone (u : Fin 13) (walk : Nat) : Statement (.dBitCompareDone u walk) := fun _ => rfl
theorem xlatRootWrite (v : Word) : Statement (.xlatRootWrite v) := fun _ => rfl
theorem invCmd (u : Fin 13) (v : Word) : Statement (.invCmd u v) := fun _ => rfl
theorem invDone : Statement (.invDone) := fun _ => rfl
theorem resumeRetry (u : Fin 13) (slot : Fin 64) : Statement (.resumeRetry u slot) := fun _ => rfl
theorem resumeAbort (u : Fin 13) (slot : Fin 64) : Statement (.resumeAbort u slot) := fun _ => rfl
theorem faultStallRetry (u : Fin 13) : Statement (.faultStallRetry u) := fun _ => rfl
theorem pageIn (va : Word) (frame : BitVec 42) (data : List Byte) : Statement (.pageIn va frame data) := by simp [Statement, carries]
theorem pageEvict (va : Word) (tag : BitVec 32) : Statement (.pageEvict va tag) := fun _ => rfl
theorem tblBaseWrite (r : Region) (v : Word) : Statement (.tblBaseWrite r v) := fun _ => rfl
theorem tblCountWrite (r : Region) (v : Word) : Statement (.tblCountWrite r v) := fun _ => rfl
theorem tblInv (r : Region) (v : Word) : Statement (.tblInv r v) := fun _ => rfl
theorem lookup (r : Region) : Statement (.lookup r) := fun _ => rfl
theorem accReserve (r : Region) (bag : Nat) : Statement (.accReserve r bag) := fun _ => rfl
theorem bagFinish (r : Region) (bag : Nat) : Statement (.bagFinish r bag) := fun _ => rfl
theorem lookupDone (r : Region) (task : Nat) : Statement (.lookupDone r task) := fun _ => rfl
theorem update (r : Region) : Statement (.update r) := fun _ => rfl
theorem updateBatchDone (batch : Nat) : Statement (.updateBatchDone batch) := fun _ => rfl
theorem loadWindowBoundary : Statement (.loadWindowBoundary) := fun _ => rfl
theorem loadReportRx (n from_ : Region) : Statement (.loadReportRx n from_) := fun _ => rfl
theorem migrationDecision (n : Region) : Statement (.migrationDecision n) := fun _ => rfl
theorem dirBroadcastApply (n : Region) (mv : Nat) : Statement (.dirBroadcastApply n mv) := fun _ => rfl
theorem dirBroadcastAck (mv : Nat) : Statement (.dirBroadcastAck mv) := fun _ => rfl
theorem moveFencesDone (mv : Nat) : Statement (.moveFencesDone mv) := fun _ => rfl
theorem moveCopyWritten (mv : Nat) : Statement (.moveCopyWritten mv) := fun _ => rfl
theorem switchDrained (mv : Nat) : Statement (.switchDrained mv) := fun _ => rfl
theorem moveAbort (mv : Nat) : Statement (.moveAbort mv) := fun _ => rfl
theorem holdQueueRelease (r : Region) : Statement (.holdQueueRelease r) := fun _ => rfl
theorem dataArrival (c : CtxRef) (req : Nat) (e : SpadErr) : Statement (.dataArrival c req e) := fun _ => rfl
theorem weevilGate (clu : Clu) (wv : Fin 4) : Statement (.weevilGate clu wv) := fun _ => rfl
theorem walkerBagQueueFree (r : Region) : Statement (.walkerBagQueueFree r) := fun _ => rfl
theorem wNop (c : CtxRef) : Statement (.wNop c) := fun _ => rfl
theorem wAdd (c : CtxRef) : Statement (.wAdd c) := fun _ => rfl
theorem wSub (c : CtxRef) : Statement (.wSub c) := fun _ => rfl
theorem wMul (c : CtxRef) : Statement (.wMul c) := fun _ => rfl
theorem wMulhu (c : CtxRef) : Statement (.wMulhu c) := fun _ => rfl
theorem wAnd (c : CtxRef) : Statement (.wAnd c) := fun _ => rfl
theorem wOr (c : CtxRef) : Statement (.wOr c) := fun _ => rfl
theorem wXor (c : CtxRef) : Statement (.wXor c) := fun _ => rfl
theorem wShl (c : CtxRef) : Statement (.wShl c) := fun _ => rfl
theorem wShr (c : CtxRef) : Statement (.wShr c) := fun _ => rfl
theorem wSar (c : CtxRef) : Statement (.wSar c) := fun _ => rfl
theorem wMinu (c : CtxRef) : Statement (.wMinu c) := fun _ => rfl
theorem wMaxu (c : CtxRef) : Statement (.wMaxu c) := fun _ => rfl
theorem wSel (c : CtxRef) : Statement (.wSel c) := fun _ => rfl
theorem wAddi (c : CtxRef) : Statement (.wAddi c) := fun _ => rfl
theorem wMuli (c : CtxRef) : Statement (.wMuli c) := fun _ => rfl
theorem wAndi (c : CtxRef) : Statement (.wAndi c) := fun _ => rfl
theorem wOri (c : CtxRef) : Statement (.wOri c) := fun _ => rfl
theorem wXori (c : CtxRef) : Statement (.wXori c) := fun _ => rfl
theorem wShli (c : CtxRef) : Statement (.wShli c) := fun _ => rfl
theorem wShri (c : CtxRef) : Statement (.wShri c) := fun _ => rfl
theorem wMovi (c : CtxRef) : Statement (.wMovi c) := fun _ => rfl
theorem wMovhi (c : CtxRef) : Statement (.wMovhi c) := fun _ => rfl
theorem wSari (c : CtxRef) : Statement (.wSari c) := fun _ => rfl
theorem wCmp (c : CtxRef) : Statement (.wCmp c) := fun _ => rfl
theorem wCmpi (c : CtxRef) : Statement (.wCmpi c) := fun _ => rfl
theorem wPlog (c : CtxRef) : Statement (.wPlog c) := fun _ => rfl
theorem wMovs (c : CtxRef) : Statement (.wMovs c) := fun _ => rfl
theorem wLea (c : CtxRef) : Statement (.wLea c) := fun _ => rfl
theorem wIdx (c : CtxRef) : Statement (.wIdx c) := fun _ => rfl
theorem wLd (c : CtxRef) : Statement (.wLd c) := fun _ => rfl
theorem wSt (c : CtxRef) : Statement (.wSt c) := fun _ => rfl
theorem wLds (c : CtxRef) (e : SpadErr) : Statement (.wLds c e) := fun _ => rfl
theorem wSts (c : CtxRef) (e : SpadErr) : Statement (.wSts c e) := fun _ => rfl
theorem wGather (c : CtxRef) : Statement (.wGather c) := fun _ => rfl
theorem wPut (c : CtxRef) : Statement (.wPut c) := fun _ => rfl
theorem wFence (c : CtxRef) : Statement (.wFence c) := fun _ => rfl
theorem wDeg (c : CtxRef) : Statement (.wDeg c) := fun _ => rfl
theorem wSample (c : CtxRef) : Statement (.wSample c) := fun _ => rfl
theorem wPf (c : CtxRef) : Statement (.wPf c) := fun _ => rfl
theorem wGrl (c : CtxRef) : Statement (.wGrl c) := fun _ => rfl
theorem wGrn (c : CtxRef) : Statement (.wGrn c) := fun _ => rfl
theorem wSadd (c : CtxRef) : Statement (.wSadd c) := fun _ => rfl
theorem wSclose (c : CtxRef) : Statement (.wSclose c) := fun _ => rfl
theorem wCinc (c : CtxRef) : Statement (.wCinc c) := fun _ => rfl
theorem wCwait (c : CtxRef) : Statement (.wCwait c) := fun _ => rfl
theorem wRand (c : CtxRef) : Statement (.wRand c) := fun _ => rfl
theorem wBr (c : CtxRef) : Statement (.wBr c) := fun _ => rfl
theorem wEnd (c : CtxRef) : Statement (.wEnd c) := fun _ => rfl
theorem wTrap (c : CtxRef) : Statement (.wTrap c) := fun _ => rfl
theorem undefinedOpcode (c : CtxRef) : Statement (.undefinedOpcode c) := fun _ => rfl
theorem heldException (c : CtxRef) : Statement (.heldException c) := fun _ => rfl
theorem moments (clu : Clu) : Statement (.moments clu) := fun _ => rfl
theorem swarmPiece (r : Region) : Statement (.swarmPiece r) := fun _ => rfl
theorem swarmSetRx (clu : Clu) : Statement (.swarmSetRx clu) := fun _ => rfl
theorem matrixTask (clu : Clu) (e : SpadErr) : Statement (.matrixTask clu e) := fun _ => rfl
theorem taskEndDrain (clu : Clu) : Statement (.taskEndDrain clu) := fun _ => rfl
theorem outputPath (clu : Clu) : Statement (.outputPath clu) := fun _ => rfl
theorem dbgSelWrite (clu : Clu) (v : Word) : Statement (.dbgSelWrite clu v) := fun _ => rfl
theorem relayChunkRx (clu : Clu) : Statement (.relayChunkRx clu) := fun _ => rfl
theorem relayCreditReturn (clu : Clu) : Statement (.relayCreditReturn clu) := fun _ => rfl
theorem unitGate (clu : Clu) (u : UnitKind) : Statement (.unitGate clu u) := fun _ => rfl
theorem compress (clu : Clu) : Statement (.compress clu) := fun _ => rfl
theorem digest (clu : Clu) : Statement (.digest clu) := fun _ => rfl
theorem expand (clu : Clu) : Statement (.expand clu) := fun _ => rfl
theorem digClrWrite (clu : Clu) (v : Word) : Statement (.digClrWrite clu v) := fun _ => rfl
theorem transferPost (r : Region) : Statement (.transferPost r) := fun _ => rfl
theorem transferActivate (r : Region) (q : Fin 64) : Statement (.transferActivate r q) := fun _ => rfl
theorem rowDelivered (r : Region) (slot : Fin 1024) (row : Nat) : Statement (.rowDelivered r slot row) := fun _ => rfl
theorem transferHalt (r : Region) (slot : Fin 1024) : Statement (.transferHalt r slot) := fun _ => rfl
theorem transferDrainDone (r : Region) (slot : Fin 1024) : Statement (.transferDrainDone r slot) := fun _ => rfl
theorem counterIncrement (r : Region) (ctr : Fin 4096) : Statement (.counterIncrement r ctr) := fun _ => rfl
theorem waitRelease (r : Region) : Statement (.waitRelease r) := fun _ => rfl
theorem waitReoffer (r : Region) : Statement (.waitReoffer r) := fun _ => rfl
theorem waitTimeout (r : Region) (wait : Nat) : Statement (.waitTimeout r wait) := fun _ => rfl
theorem ctrSetWrite (r : Region) (v : Word) : Statement (.ctrSetWrite r v) := fun _ => rfl
theorem ctrIncWrite (r : Region) (v : Word) : Statement (.ctrIncWrite r v) := fun _ => rfl
theorem taskEntryRead (r : Region) : Statement (.taskEntryRead r) := fun _ => rfl
theorem ask (clu : Clu) (u : UnitKind) : Statement (.ask clu u) := fun _ => rfl
theorem taskDeliver (r : Region) (k : TaskKind) : Statement (.taskDeliver r k) := fun _ => rfl
theorem signalTask (r : Region) : Statement (.signalTask r) := fun _ => rfl
theorem remoteIncrementRx (h : RxHdr) (payload : List Byte) : Statement (.remoteIncrementRx h payload) := fun _ => rfl
theorem pendingSignalApply (e : Fin 4) (entry : Nat) : Statement (.pendingSignalApply e entry) := fun _ => rfl
theorem snapCmd (v : Word) : Statement (.snapCmd v) := fun _ => rfl
theorem snapshotLatch : Statement (.snapshotLatch) := fun _ => rfl
theorem snapshotDone : Statement (.snapshotDone) := fun _ => rfl
theorem ethCfgWrite (port : Fin 4) (v : Word) : Statement (.ethCfgWrite port v) := fun _ => rfl
theorem linkTrained (l : Fin 16) : Statement (.linkTrained l) := fun _ => rfl
theorem linkLoss (l : Fin 16) : Statement (.linkLoss l) := fun _ => rfl
theorem linkRetryTimer (l : Fin 16) : Statement (.linkRetryTimer l) := fun _ => rfl
theorem pfcFrameRx (port : Fin 4) (mask : Byte) (quanta : List (BitVec 16)) : Statement (.pfcFrameRx port mask quanta) := by simp [Statement, carries]
theorem pfcStorm (port : Fin 4) (prio : Fin 8) : Statement (.pfcStorm port prio) := fun _ => rfl
theorem neighborPacketRx (l : Fin 16) (p : NeighborPkt) : Statement (.neighborPacketRx l p) := fun _ => rfl
theorem addrChange (l : Fin 16) (a : AddrInfo) : Statement (.addrChange l a) := fun _ => rfl
theorem discoveryAnnounce (l : Fin 16) : Statement (.discoveryAnnounce l) := fun _ => rfl
theorem discoveryQueryRx (l : Fin 16) (own : Bool) : Statement (.discoveryQueryRx l own) := fun _ => rfl
theorem discoveryQueryAnswer (l : Fin 16) : Statement (.discoveryQueryAnswer l) := fun _ => rfl
theorem discoveryRx (l : Fin 16) (payload : List Byte) : Statement (.discoveryRx l payload) := fun _ => rfl
theorem cmReq (m : CmMsg) : Statement (.cmReq m) := fun _ => rfl
theorem cmRep (m : CmMsg) : Statement (.cmRep m) := fun _ => rfl
theorem cmRtu (m : CmMsg) : Statement (.cmRtu m) := fun _ => rfl
theorem cmRej (m : CmMsg) : Statement (.cmRej m) := fun _ => rfl
theorem cmDreq (m : CmMsg) : Statement (.cmDreq m) := fun _ => rfl
theorem cmDrep (m : CmMsg) : Statement (.cmDrep m) := fun _ => rfl
theorem rxSend (h : RxHdr) (payload : List Byte) : Statement (.rxSend h payload) := fun _ => rfl
theorem rxSendImm (h : RxHdr) (imm : BitVec 32) (payload : List Byte) : Statement (.rxSendImm h imm payload) := fun _ => rfl
theorem rxWrite (h : RxHdr) (va : Word) (rkey : BitVec 32) (data : List Byte) : Statement (.rxWrite h va rkey data) := fun _ => rfl
theorem rxWriteImm (h : RxHdr) (imm : BitVec 32) (va : Word) (rkey : BitVec 32) (data : List Byte) : Statement (.rxWriteImm h imm va rkey data) := fun _ => rfl
theorem rxRead (h : RxHdr) (va : Word) (rkey : BitVec 32) (len : Nat) : Statement (.rxRead h va rkey len) := fun _ => rfl
theorem rxFetchAdd (h : RxHdr) (va : Word) (rkey : BitVec 32) (add : Word) : Statement (.rxFetchAdd h va rkey add) := fun _ => rfl
theorem rxCmpSwap (h : RxHdr) (va : Word) (rkey : BitVec 32) (cmp swap : Word) : Statement (.rxCmpSwap h va rkey cmp swap) := fun _ => rfl
theorem ackRx (qp : Fin 16384) (psn : BitVec 24) (credits : BitVec 5) : Statement (.ackRx qp psn credits) := fun _ => rfl
theorem nakRx (qp : Fin 16384) (psn : BitVec 24) (k : NakKind) : Statement (.nakRx qp psn k) := fun _ => rfl
theorem ackTimeout (qp : Fin 16384) : Statement (.ackTimeout qp) := fun _ => rfl
theorem creditAck (qp : Fin 16384) : Statement (.creditAck qp) := fun _ => rfl
theorem wqeWrite (qp : Fin 16384) : Statement (.wqeWrite qp) := fun _ => rfl
theorem wqeWriteImm (qp : Fin 16384) : Statement (.wqeWriteImm qp) := fun _ => rfl
theorem wqeSend (qp : Fin 16384) : Statement (.wqeSend qp) := fun _ => rfl
theorem wqeSendImm (qp : Fin 16384) : Statement (.wqeSendImm qp) := fun _ => rfl
theorem wqeRead (qp : Fin 16384) : Statement (.wqeRead qp) := fun _ => rfl
theorem wqeFetchAdd (qp : Fin 16384) : Statement (.wqeFetchAdd qp) := fun _ => rfl
theorem wqeCmpSwap (qp : Fin 16384) : Statement (.wqeCmpSwap qp) := fun _ => rfl
theorem wqeSignal (qp : Fin 16384) : Statement (.wqeSignal qp) := fun _ => rfl
theorem wqeComplete (qp : Fin 16384) : Statement (.wqeComplete qp) := fun _ => rfl
theorem cnpRx (qp : Fin 16384) : Statement (.cnpRx qp) := fun _ => rfl
theorem ratePeriod (e : Fin 4) : Statement (.ratePeriod e) := fun _ => rfl
theorem evtStatusClear (p : PageRef) (v : Word) (collide : Word) : Statement (.evtStatusClear p v collide) := fun _ => rfl
theorem evtSetWrite (p : PageRef) (v : Word) : Statement (.evtSetWrite p v) := fun _ => rfl
theorem cntSelWrite (p : PageRef) (i : Fin 8) (v : Word) : Statement (.cntSelWrite p i v) := fun _ => rfl
theorem cntValWrite (p : PageRef) (i : Fin 8) (v : Word) (counted : Word) : Statement (.cntValWrite p i v counted) := fun _ => rfl
theorem pageCtlCommit (p : PageRef) (v : Word) : Statement (.pageCtlCommit p v) := fun _ => rfl
theorem errValidClear (p : PageRef) (last : ErrSel) (v : Word) : Statement (.errValidClear p last v) := fun _ => rfl
theorem registerWrite (addr : BitVec 28) (v : Word) : Statement (.registerWrite addr v) := fun _ => rfl
theorem doorbell (r : Fin 63) (v : Word) : Statement (.doorbell r v) := fun _ => rfl
theorem cplHeadWrite (v : Word) : Statement (.cplHeadWrite v) := fun _ => rfl
theorem nopCommand (src : CmdSrc) : Statement (.nopCommand src) := fun _ => rfl
theorem launch (src : CmdSrc) : Statement (.launch src) := fun _ => rfl
theorem cancel (src : CmdSrc) : Statement (.cancel src) := fun _ => rfl
theorem sched (src : CmdSrc) : Statement (.sched src) := fun _ => rfl
theorem schedCancel (src : CmdSrc) : Statement (.schedCancel src) := fun _ => rfl
theorem graphLoad (src : CmdSrc) : Statement (.graphLoad src) := fun _ => rfl
theorem graphUnload (src : CmdSrc) : Statement (.graphUnload src) := fun _ => rfl
theorem slotLoadBegin (src : CmdSrc) : Statement (.slotLoadBegin src) := fun _ => rfl
theorem slotLoadEnd (src : CmdSrc) : Statement (.slotLoadEnd src) := fun _ => rfl
theorem slotLoadAbort (src : CmdSrc) : Statement (.slotLoadAbort src) := fun _ => rfl
theorem slotFree (src : CmdSrc) : Statement (.slotFree src) := fun _ => rfl
theorem qpModify (src : CmdSrc) : Statement (.qpModify src) := fun _ => rfl
theorem streamOpen (src : CmdSrc) : Statement (.streamOpen src) := fun _ => rfl
theorem streamClose (src : CmdSrc) : Statement (.streamClose src) := fun _ => rfl
theorem bind (src : CmdSrc) : Statement (.bind src) := fun _ => rfl
theorem unbind (src : CmdSrc) : Statement (.unbind src) := fun _ => rfl
theorem fwWrite (src : CmdSrc) (sigOk : Bool) : Statement (.fwWrite src sigOk) := fun _ => rfl
theorem fwActivate (src : CmdSrc) : Statement (.fwActivate src) := fun _ => rfl
theorem stop (src : CmdSrc) : Statement (.stop src) := fun _ => rfl
theorem reset (src : CmdSrc) : Statement (.reset src) := fun _ => rfl
theorem admitSlot (slot : Fin 4096) : Statement (.admitSlot slot) := fun _ => rfl
theorem requestComplete (slot : Fin 4096) : Statement (.requestComplete slot) := fun _ => rfl
theorem cancelDone (slot : Fin 4096) : Statement (.cancelDone slot) := fun _ => rfl
theorem serviceRequest (stream : Fin 16) : Statement (.serviceRequest stream) := fun _ => rfl
theorem getVersion (src : SpdmSrc) : Statement (.getVersion src) := fun _ => rfl
theorem getCapabilities (src : SpdmSrc) : Statement (.getCapabilities src) := fun _ => rfl
theorem negotiateAlgorithms (src : SpdmSrc) (offered : Bool) : Statement (.negotiateAlgorithms src offered) := fun _ => rfl
theorem getDigests (src : SpdmSrc) : Statement (.getDigests src) := fun _ => rfl
theorem getCertificate (src : SpdmSrc) (slot : Byte) (offset len : BitVec 16) : Statement (.getCertificate src slot offset len) := fun _ => rfl
theorem challenge (src : SpdmSrc) (slot : Byte) : Statement (.challenge src slot) := fun _ => rfl
theorem getMeasurements (src : SpdmSrc) (index : Byte) : Statement (.getMeasurements src index) := fun _ => rfl
theorem keyExchange (src : SpdmSrc) (slot : Byte) (mutualAuth : Bool) : Statement (.keyExchange src slot mutualAuth) := fun _ => rfl
theorem finish (src : SpdmSrc) (session : Fin 4) (verified : Bool) (chain : List Byte) : Statement (.finish src session verified chain) := fun _ => rfl
theorem heartbeat (session : Fin 4) : Statement (.heartbeat session) := fun _ => rfl
theorem keyUpdate (session : Fin 4) : Statement (.keyUpdate session) := fun _ => rfl
theorem endSession (session : Fin 4) : Statement (.endSession session) := fun _ => rfl
theorem pwrdReqOn (d : Fin 199) : Statement (.pwrdReqOn d) := fun _ => rfl
theorem pwrdReqRet (d : Fin 199) : Statement (.pwrdReqRet d) := fun _ => rfl
theorem pwrdReqOff (d : Fin 199) : Statement (.pwrdReqOff d) := fun _ => rfl
theorem domainDrainDone (d : Fin 199) : Statement (.domainDrainDone d) := fun _ => rfl
theorem domainWakeDone (d : Fin 199) : Statement (.domainWakeDone d) := fun _ => rfl
theorem domainDemand (d : Fin 199) (source : BitVec 16) : Statement (.domainDemand d source) := fun _ => rfl
theorem powerEstimate (watts : Nat) : Statement (.powerEstimate watts) := fun _ => rfl
theorem pmbusPoll (readPin : List (Option Nat)) : Statement (.pmbusPoll readPin) := fun _ => rfl
theorem pmbAlert (status : List (BitVec 16)) : Statement (.pmbAlert status) := fun _ => rfl
theorem hotspotReading (regions : List Int) (dies : List Int) : Statement (.hotspotReading regions dies) := by simp [Statement, carries]
theorem thermalTrip (die : Fin 3) : Statement (.thermalTrip die) := fun _ => rfl
theorem scrubPace (stk : Region) : Statement (.scrubPace stk) := fun _ => rfl
theorem scrubPeriodEnd (stk : Region) : Statement (.scrubPeriodEnd stk) := fun _ => rfl
theorem rowRepair (stk : Region) (pprLeft : Bool) : Statement (.rowRepair stk pprLeft) := fun _ => rfl
theorem moveCmd (r : Region) (v : Word) : Statement (.moveCmd r v) := fun _ => rfl
theorem granuleMoveDone (r : Region) : Statement (.granuleMoveDone r) := fun _ => rfl
theorem epochAdopt (r : Region) : Statement (.epochAdopt r) := fun _ => rfl
theorem stackReturn (stk : Region) : Statement (.stackReturn stk) := fun _ => rfl
theorem subst (r : Region) (v : Word) : Statement (.subst r v) := fun _ => rfl
theorem loopbackDone (l : Fin 16) (badLanes : Byte) : Statement (.loopbackDone l badLanes) := fun _ => rfl
theorem svcWatchdog (core : Fin 8) : Statement (.svcWatchdog core) := fun _ => rfl
theorem resetRelease : Statement (.resetRelease) := fun _ => rfl
theorem enterEarly : Statement (.enterEarly) := fun _ => rfl
theorem enterFull : Statement (.enterFull) := fun _ => rfl
theorem regionRelease (r : Region) (pass : Bool) : Statement (.regionRelease r pass) := fun _ => rfl
theorem identityReady (digest : BitVec 384) : Statement (.identityReady digest) := fun _ => rfl
theorem activationPartDone (rep : PartReport) : Statement (.activationPartDone rep) := fun _ => rfl
theorem logWrite : Statement (.logWrite) := fun _ => rfl
theorem telemetrySample : Statement (.telemetrySample) := fun _ => rfl
theorem marginCmd (v : Word) : Statement (.marginCmd v) := fun _ => rfl
theorem halt (wv : Fin 4) (ctx : Fin 512) (all : Bool) : Statement (.halt wv ctx all) := fun _ => rfl
theorem resume (wv : Fin 4) (ctx : Fin 512) (all : Bool) : Statement (.resume wv ctx all) := fun _ => rfl
theorem step (wv : Fin 4) (ctx : Fin 512) : Statement (.step wv ctx) := fun _ => rfl
theorem haltUnits : Statement (.haltUnits) := fun _ => rfl
theorem resumeUnits : Statement (.resumeUnits) := fun _ => rfl
theorem dbgModeWrite (v : Word) : Statement (.dbgModeWrite v) := fun _ => rfl
theorem pwrOkRise : Statement (.pwrOkRise) := fun _ => rfl
theorem pwrOkFall : Statement (.pwrOkFall) := fun _ => rfl
theorem resetNLow : Statement (.resetNLow) := fun _ => rfl
theorem refclkEthLoss (port : Fin 4) : Statement (.refclkEthLoss port) := fun _ => rfl
theorem refclkLoss (k : Fin 3) : Statement (.refclkLoss k) := fun _ => rfl
theorem bootStepDone (f : BootFindings) : Statement (.bootStepDone f) := fun _ => rfl
theorem fwWriteComplete (readBackOk : Bool) : Statement (.fwWriteComplete readBackOk) := fun _ => rfl
theorem coreRestartDone (core : Fin 8) : Statement (.coreRestartDone core) := fun _ => rfl
theorem linkTrainingFailure (l : Fin 16) : Statement (.linkTrainingFailure l) := fun _ => rfl
theorem fecUncorrectableCodeword (l : Fin 16) : Statement (.fecUncorrectableCodeword l) := fun _ => rfl
theorem pfcPauseExpiry (port : Fin 4) (prio : Fin 8) : Statement (.pfcPauseExpiry port prio) := fun _ => rfl
theorem rdmaReadResponseRx (qp : Fin 16384) (data : List Byte) : Statement (.rdmaReadResponseRx qp data) := fun _ => rfl
theorem testPortInstruction (i : JtagInstr) : Statement (.testPortInstruction i) := fun _ => rfl

end Sys2Proof.Laws.Wf
end

