-- ==== Sys2Proof/Laws/Ports.lean ====
section
/-! SUPPORT. What a stack port does with a data command that it serves at once. -/

namespace Sys2Proof.Machine

theorem portSent_books (s : State) (n : Nat) (f : PortCmd) : (s.portSent n f) = s.setParts (s.parts.map (fun p => if p.stk = n ∧ p.flit = f then { p with sent := true } else p)) := rfl

/-- A data command that is served at once is executed, and its slot marks follow. -/
theorem portCmd_serves (s : State) (n : Nat) (c : SlotCmd) (h : s.servesNow n c) :
    s.portCmd n c = ((s.portSent n c.f).serveData n c (n * 64 + c.f.pch.toNat) c.f.addr.toNat).slotMarks (n * 64 + c.f.pch.toNat) := by
  obtain ⟨h1, h2, h3, h4, h5, h6, h7, h8, h9, h10, h11, h12, h13⟩ := h
  have hm : (s.portSent n c.f).mustPark n c = false := h6
  have hg : (s.portSent n c.f).cmdGranules n c = s.cmdGranules n c := rfl
  have hs : ∀ d l, (s.portSent n c.f).serveAt d l = s.serveAt d l := fun _ _ => rfl
  have hb : (s.portSent n c.f).takeBehind n (n * 64 + c.f.pch.toNat) c = false := h10
  have hd : (s.portSent n c.f).stkDead n = false := by
    show s.stkDead n = false
    simp [State.stkDead, h7, h8]
  have hr : (s.portSent n c.f).regionAt n = s.regionAt n := rfl
  have hp : ∀ m, (s.portSent n c.f).pchAt m = s.pchAt m := fun _ => rfl
  have hn : (n * 64 + c.f.pch.toNat) / 64 = n := by
    have := c.f.pch.isLt
    omega
  have hv : (s.cmdGranules n c).any ((s.portSent n c.f).movingNow (n * 64 + c.f.pch.toNat)) = false := by
    rw [List.any_eq_false]
    intro l _
    simp [State.movingNow, hn, hr, h9]
  have hx : (s.cmdGranules n c).any (fun l => decide (s.serveAt (n * 64 + c.f.pch.toNat) l ≠ (n * 64 + c.f.pch.toNat, l))) = false := by
    rw [List.any_eq_false]
    intro l hl
    simp [h11 l hl]
  have hh : ∀ d, (s.portSent n c.f).granuleHeld n d = false := by
    intro d
    simp [State.granuleHeld, hr, h9]
  unfold State.portCmd State.portTake State.takeUp
  simp only [h1, h2, h3, h4, h5, hm, hd, hg, hr, hh, hb, hv, hs, hp, h12, PchSt.busy, h13, hx]
  simp

/-- A command on a device that is not held in reset has its effect. -/
theorem live_awake (s : State) (o : Out State) (h : s.awake) : s.live o = o := by
  unfold State.live
  unfold State.awake at h
  simp [h]

/-- A response changes its stack only, and no mark that unlisted accesses read. -/
theorem poisonDef_respond (s : State) (n : Nat) (r : Resp) : (s.respond n r).poisonDef = s.poisonDef := by
  funext k
  simp only [State.poisonDef, State.respond, State.stkAt, State.putStk, State.setStk_stk, smapGet_set]
  split <;> simp_all

theorem respond_dram (s : State) (n : Nat) (r : Resp) : (s.respond n r).dram = s.dram := rfl
theorem respond_spad (s : State) (n : Nat) (r : Resp) : (s.respond n r).spad = s.spad := rfl
theorem respond_store (s : State) (n : Nat) (r : Resp) : (s.respond n r).store = s.store := rfl

/-- A response keeps the canonical form. -/
theorem respond_sound (s : State) (n : Nat) (r : Resp) (h : s.memSound) : (s.respond n r).memSound := by
  obtain ⟨h1, h2, h3, h4⟩ := h
  exact ⟨h1, by rw [poisonDef_respond]; exact h2, h3, h4⟩

/-- The marks of used slots are registers of the pseudo-channel and of its stack. -/
theorem slotMarks_booked (s : State) (d : Nat) : Booked s (s.slotMarks d) := by
  unfold State.slotMarks
  simp only
  split <;> split
  · exact booked_trans (booked_setRg _ _ _ _) (booked_setRg _ _ _ _)
  · exact booked_setRg _ _ _ _
  · exact booked_setRg _ _ _ _
  · exact booked_refl _

/-- A run of stores, byte by byte. -/
theorem writeRun_byte (d : Nat) (p : Bool) (k : Nat) (s : State) (a : Nat) (data : List Byte) (b : Nat) (hl : data.length = 32 * k) :
    (s.writeRun d k a data p).dram.byte b =
      if accByte d a ≤ b ∧ b < accByte d a + 32 * k then data.getD (b - accByte d a) 0 else s.dram.byte b := by
  induction k generalizing s a data with
  | zero => simp only [State.writeRun]; split
            · omega
            · rfl
  | succ k ih =>
    have h1 : accByte d (a + 1) = accByte d a + 32 := by simp only [accByte]; omega
    rw [State.writeRun, ih _ _ _ (by simp; omega), storeAcc_byte, h1]
    by_cases h : accByte d a + 32 ≤ b ∧ b < accByte d a + 32 + 32 * k
    · have h' : accByte d a ≤ b ∧ b < accByte d a + 32 * (k + 1) := by omega
      rw [if_pos h, if_pos h']
      simp only [List.getD_eq_getElem?_getD, List.getElem?_drop]
      congr 2; omega
    · rw [if_neg h]
      by_cases h2 : accByte d a ≤ b ∧ b < accByte d a + 32
      · have h' : accByte d a ≤ b ∧ b < accByte d a + 32 * (k + 1) := by omega
        rw [if_pos h2, if_pos h']
        simp only [List.getD_eq_getElem?_getD]
        rw [List.getElem?_take_of_lt (by omega)]
      · have h' : ¬ (accByte d a ≤ b ∧ b < accByte d a + 32 * (k + 1)) := by omega
        rw [if_neg h2, if_neg h']

/-- A run of stores, mark by mark. -/
theorem writeRun_poison (d : Nat) (p : Bool) (k : Nat) (s : State) (a : Nat) (data : List Byte) (e b : Nat) :
    (s.writeRun d k a data p).accPoison e b =
      if accKey d a ≤ accKey e b ∧ accKey e b < accKey d a + k then p else s.accPoison e b := by
  induction k generalizing s a data with
  | zero => simp only [State.writeRun]; split
            · omega
            · rfl
  | succ k ih =>
    have h1 : accKey d (a + 1) = accKey d a + 1 := by simp only [accKey]; omega
    rw [State.writeRun, ih, storeAcc_accPoison, h1]
    by_cases h : accKey d a + 1 ≤ accKey e b ∧ accKey e b < accKey d a + 1 + k
    · rw [if_pos h, if_pos (by omega)]
    · rw [if_neg h]
      by_cases h2 : accKey e b = accKey d a
      · rw [if_pos h2, if_pos (by omega)]
      · rw [if_neg h2, if_neg (by omega)]

/-- A run of stores keeps the canonical form. -/
theorem writeRun_sound (d : Nat) (p : Bool) (k : Nat) (s : State) (a : Nat) (data : List Byte) (h : s.memSound) :
    (s.writeRun d k a data p).memSound := by
  induction k generalizing s a data with
  | zero => exact h
  | succ k ih => exact ih _ _ _ (storeAcc_sound _ _ _ _ _ h)

theorem writeRun_stores (d : Nat) (p : Bool) (k : Nat) (s : State) (a : Nat) (data : List Byte) :
    (s.writeRun d k a data p).spad = s.spad ∧ (s.writeRun d k a data p).store = s.store ∧
      (s.writeRun d k a data p).stk = s.stk := by
  induction k generalizing s a data with
  | zero => exact ⟨rfl, rfl, rfl⟩
  | succ k ih => exact ih _ _ _

/-- A run of reads without an error of the interface or the cells answers the stored bytes and marks. -/
theorem readRun_value (d : Nat) (k : Nat) (s : State) (a : Nat) (hc : ∀ i, i < k → s.cellErr d (a + i) = []) :
    (s.readRun d a k []).1 = (List.range k).map (fun i => (s.accData d (a + i), s.accPoison d (a + i))) ∧
      Booked s (s.readRun d a k []).2 := by
  induction k generalizing s a with
  | zero => exact ⟨rfl, booked_refl s⟩
  | succ k ih =>
    have h0 : s.cellErr d a = [] := hc 0 (by omega)
    have hv : (s.readAccE d a AccErr.none).1 = (s.accData d a, s.accPoison d a) := readAcc_value s d a h0
    have hb : Booked s (s.readAccE d a AccErr.none).2 := readAcc_booked s d a h0
    have := ih (s.readAccE d a AccErr.none).2 (a + 1) (by
      intro i hi
      rw [booked_cellErr hb, show a + 1 + i = a + (i + 1) by omega]
      exact hc _ (by omega))
    constructor
    · show ((s.readAccE d a AccErr.none).1 :: ((s.readAccE d a AccErr.none).2.readRun d (a + 1) k []).1) = _
      rw [this.1, hv, List.range_succ_eq_map]
      simp only [List.map_cons, List.map_map, Nat.add_zero]
      congr 1
      apply List.map_congr_left
      intro i _
      simp only [Function.comp, booked_accData hb, booked_accPoison hb]
      have : a + 1 + i = a + i.succ := by omega
      rw [this]
    · exact booked_trans hb this.2

theorem putStk_stkAt (s : State) (n : Nat) (v : StkSt) : (s.putStk n v).stkAt n = v := by
  simp only [State.stkAt, State.putStk, State.setStk_stk, smapGet_set_same]

theorem respond_resp (s : State) (n : Nat) (r : Resp) : ((s.respond n r).stkAt n).resp = (s.stkAt n).resp ++ [r] := by
  unfold State.respond
  simp only [putStk_stkAt]

/-- The port commands run when the device is awake and the command is well formed. -/
theorem exec_rd (n : Region) (f : PortCmd) (errs : List AccErr) (s : State) (h : s.awake) (hw : (Instr.rd n f errs).wf = true) :
    exec (.rd n f errs) s = .next (s.portCmd n.val ⟨0x01, f, errs⟩) := by
  simp only [exec, execRd, live_awake _ _ h]
  rw [if_pos (by exact hw)]

theorem exec_wr (n : Region) (f : PortCmd) (s : State) (h : s.awake) (hw : (Instr.wr n f).wf = true) :
    exec (.wr n f) s = .next (s.portCmd n.val ⟨0x02, f, []⟩) := by
  simp only [exec, execWr, live_awake _ _ h]
  rw [if_pos (by exact hw)]

theorem exec_wrm (n : Region) (f : PortCmd) (s : State) (h : s.awake) (hw : (Instr.wrm n f).wf = true) :
    exec (.wrm n f) s = .next (s.portCmd n.val ⟨0x03, f, []⟩) := by
  simp only [exec, execWrm, live_awake _ _ h]
  rw [if_pos (by exact hw)]

theorem exec_flitFence (n : Region) (f : PortCmd) (s : State) (h : s.awake) (hw : (Instr.flitFence n f).wf = true) :
    exec (.flitFence n f) s = .next (s.portCmd n.val ⟨0x08, f, []⟩) := by
  simp only [exec, execFlitFence, live_awake _ _ h]
  rw [if_pos (by exact hw)]

end Sys2Proof.Machine
end

