-- ==== Sys2Proof/Laws/Sound.lean ====
section
/-! SUPPORT. Memory operations and stack commands keep the canonical form of the stores. -/

namespace Sys2Proof.Machine

/-- The stores and the reading of unlisted marks are the same. -/
def MemSame (s t : State) : Prop := t.dram = s.dram ∧ t.spad = s.spad ∧ t.store = s.store ∧ t.poisonDef = s.poisonDef

theorem memSame_refl (s : State) : MemSame s s := ⟨rfl, rfl, rfl, rfl⟩

theorem memSame_trans {s t u : State} (h : MemSame s t) (k : MemSame t u) : MemSame s u :=
  ⟨k.1.trans h.1, k.2.1.trans h.2.1, k.2.2.1.trans h.2.2.1, k.2.2.2.trans h.2.2.2⟩

theorem memSame_sound {s t : State} (h : MemSame s t) (k : s.memSound) : t.memSound := by
  obtain ⟨h1, h2, h3, h4⟩ := k
  refine ⟨?_, ?_, ?_, ?_⟩
  · rw [h.1]; exact h1
  · rw [h.1, h.2.2.2]; exact h2
  · rw [h.2.1]; exact h3
  · rw [h.2.2.1]; exact h4

theorem memSame_booked {s t : State} (h : Booked s t) : MemSame s t :=
  ⟨booked_dram h, booked_spad h, booked_store h, booked_poisonDef h⟩

/-- A stack replaced keeps the readings if its poison flag stays. -/
theorem memSame_putStk (s : State) (n : Nat) (v : StkSt) (h : v.poisonAll = (s.stkAt n).poisonAll) : MemSame s (s.putStk n v) := by
  refine ⟨rfl, rfl, rfl, ?_⟩
  funext k
  simp only [State.poisonDef, State.stkAt, State.putStk, State.setStk_stk, smapGet_set] at h ⊢
  by_cases hk : k / 2 ^ 31 = n
  · simp only [hk, if_true]; rw [h]
  · simp only [hk, if_false]

theorem memSame_putPch (s : State) (d : Nat) (v : PchSt) : MemSame s (s.putPch d v) := ⟨rfl, rfl, rfl, rfl⟩
theorem memSame_putRegion (s : State) (r : Nat) (v : RegionSt) : MemSame s (s.putRegion r v) := ⟨rfl, rfl, rfl, rfl⟩
theorem memSame_setParts (s : State) v : MemSame s (s.setParts v) := ⟨rfl, rfl, rfl, rfl⟩
theorem memSame_setRg (s : State) (pg off : Nat) (v : Word) : MemSame s (s.setRg pg off v) := ⟨rfl, rfl, rfl, rfl⟩
theorem memSame_count (s : State) (pg off n : Nat) : MemSame s (s.count pg off n) := memSame_booked (booked_count _ _ _ _)
theorem memSame_setEvt (s : State) (pg b : Nat) : MemSame s (s.setEvt pg b) := memSame_booked (booked_setEvt _ _ _)
theorem memSame_error (s : State) (pg : Nat) (e : ErrInfo) : MemSame s (s.error pg e) := memSame_booked (booked_error _ _ _)
theorem memSame_conflict (s : State) (pg : Nat) : MemSame s (s.conflict pg) := memSame_booked (books_conflict _ _).1
theorem memSame_draw (s : State) : MemSame s s.draw.2 := memSame_booked (books_draw _).1
theorem memSame_respond (s : State) (n : Nat) (r : Resp) : MemSame s (s.respond n r) := memSame_putStk _ _ _ rfl

theorem memSame_foldl {α : Type} (f : State → α → State) (l : List α) (h : ∀ s a, MemSame s (f s a)) (s : State) : MemSame s (l.foldl f s) := by
  induction l generalizing s with
  | nil => exact memSame_refl s
  | cons a l ih => exact memSame_trans (h s a) (ih _)

theorem sound_foldl {α : Type} (f : State → α → State) (l : List α) (h : ∀ s a, s.memSound → (f s a).memSound) (s : State) (hs : s.memSound) :
    (l.foldl f s).memSound := by
  induction l generalizing s with
  | nil => exact hs
  | cons a l ih => exact ih _ (h s a hs)

/-! ## Single accesses -/

theorem memSame_failRow (s : State) (d a : Nat) : MemSame s (s.failRow d a) := by
  unfold State.failRow
  simp only
  split
  · exact memSame_refl s
  · exact memSame_putStk _ _ _ rfl

theorem memSame_memCe (s : State) (d a : Nat) : MemSame s (s.memCe d a) := by
  unfold State.memCe
  simp only
  have h1 : MemSame s ((((s.count (pgPch d) oPchCe 1).count (pgStk (d / 64)) oStkCe 1)).setEvt (pgPch d) 3) :=
    memSame_trans (memSame_count _ _ _ _) (memSame_trans (memSame_count _ _ _ _) (memSame_setEvt _ _ _))
  generalize (((s.count (pgPch d) oPchCe 1).count (pgStk (d / 64)) oStkCe 1)).setEvt (pgPch d) 3 = u at *
  have h2 : ∀ v : StkSt, v.poisonAll = (u.stkAt (d / 64)).poisonAll → ∀ e, MemSame s ((u.putStk (d / 64) v).error (pgPch d) e) :=
    fun v hv e => memSame_trans h1 (memSame_trans (memSame_putStk _ _ _ hv) (memSame_error _ _ _))
  split
  · exact memSame_trans (h2 _ (by rfl) _) (memSame_failRow _ _ _)
  · exact h2 _ (by rfl) _

theorem memSame_memUe (s : State) (d a : Nat) : MemSame s (s.memUe d a) := by
  unfold State.memUe
  exact memSame_trans (memSame_count _ _ _ _) (memSame_trans (memSame_count _ _ _ _) (memSame_trans (memSame_setEvt _ _ _)
    (memSame_trans (memSame_error _ _ _) (memSame_failRow _ _ _))))

theorem memSame_memPoisonRd (s : State) (d : Nat) : MemSame s (s.memPoisonRd d) := by
  unfold State.memPoisonRd
  exact memSame_trans (memSame_count _ _ _ _) (memSame_setEvt _ _ _)

theorem memSame_accErr (s : State) (d a : Nat) (e : AccErr) : MemSame s (s.accErr d a e).2 := by
  unfold State.accErr
  split
  · exact memSame_refl s
  · exact ⟨rfl, rfl, rfl, rfl⟩

/-- A read of an access changes no store. -/
theorem memSame_readAccE (s : State) (d a : Nat) (e : AccErr) : MemSame s (s.readAccE d a e).2 := by
  unfold State.readAccE
  have h := memSame_accErr s d a e
  generalize s.accErr d a e = x at *
  obtain ⟨e', u⟩ := x
  dsimp only at h ⊢
  split
  · exact h
  · exact memSame_trans h (memSame_memPoisonRd _ _)
  · exact memSame_trans h (memSame_memCe _ _ _)
  · split
    · exact memSame_trans h (memSame_memCe _ _ _)
    · exact memSame_trans h (memSame_memCe _ _ _)
    · exact memSame_trans h (memSame_memPoisonRd _ _)
    · exact memSame_trans h (memSame_memUe _ _ _)

theorem memSame_readAcc (s : State) (d a : Nat) : MemSame s (s.readAcc d a).2 := memSame_readAccE _ _ _ _

theorem memSame_readRun (d : Nat) (k : Nat) (s : State) (a : Nat) (es : List AccErr) : MemSame s (s.readRun d a k es).2 := by
  induction k generalizing s a es with
  | zero => exact memSame_refl s
  | succ k ih => exact memSame_trans (memSame_readAccE s d a _) (ih _ _ _)

theorem memSame_fwdCount (s : State) (u d : Nat) (t : Nat × Nat) (l : Nat) : MemSame s (s.fwdCount u d t l) := by
  unfold State.fwdCount
  split
  · exact memSame_refl s
  · split
    · exact memSame_refl s
    · exact memSame_count _ _ _ _

theorem memSame_deadAcc (s : State) (d : Nat) : MemSame s (s.deadAcc d) := by
  unfold State.deadAcc
  split
  · exact memSame_refl s
  · exact memSame_trans (memSame_count _ _ _ _) (memSame_conflict _ _)

/-- A read by physical address changes no store. -/
theorem memSame_readPa (s : State) (u src pa : Nat) : MemSame s (s.readPa u src pa).2 := by
  unfold State.readPa
  split
  · simp only [State.addrErr]
    split
    · exact memSame_trans (memSame_count _ _ _ _) (memSame_error _ _ _)
    · exact memSame_error _ _ _
  · rename_i d a _
    simp only
    split
    · exact memSame_trans (memSame_fwdCount _ _ _ _ _) (memSame_trans (memSame_count _ _ _ _) (memSame_readAcc _ _ _))
    · exact memSame_trans (memSame_fwdCount _ _ _ _ _) (memSame_deadAcc _ _)

/-- A write by physical address keeps the canonical form. -/
theorem writePa_sound (s : State) (u src pa : Nat) (data : List Byte) (p : Bool) (h : s.memSound) : (s.writePa u src pa data p).memSound := by
  unfold State.writePa
  split
  · simp only [State.addrErr]
    split
    · exact memSame_sound (memSame_trans (memSame_count _ _ _ _) (memSame_error _ _ _)) h
    · exact memSame_sound (memSame_error _ _ _) h
  · rename_i d a _
    simp only
    split
    · split
      · exact storeAcc_sound _ _ _ _ _ (memSame_sound (memSame_trans (memSame_fwdCount _ _ _ _ _) (memSame_count _ _ _ _)) h)
      · exact storeAcc_sound _ _ _ _ _ (memSame_sound (memSame_trans (memSame_fwdCount _ _ _ _ _)
          (memSame_trans (memSame_count _ _ _ _) (memSame_readAcc _ _ _))) h)
    · exact memSame_sound (memSame_trans (memSame_fwdCount _ _ _ _ _) (memSame_deadAcc _ _)) h

theorem poisonKeep_sound (s : State) (pa : Nat) (old : List Byte) (h : s.memSound) : (s.poisonKeep pa old).memSound := by
  unfold State.poisonKeep
  split
  · exact h
  · simp only
    split
    · exact storeAcc_sound _ _ _ _ _ h
    · exact h

/-- A read-modify-write keeps the canonical form. -/
theorem rmwPa_sound (s : State) (u src pa : Nat) (f : Word → Word) (h : s.memSound) : (s.rmwPa u src pa f).2.memSound := by
  unfold State.rmwPa
  have := memSame_readPa s u src (pa / 32 * 32)
  rcases hr : s.readPa u src (pa / 32 * 32) with ⟨⟨bs, p⟩, s'⟩
  rw [hr] at this
  simp only
  split
  · exact poisonKeep_sound _ _ _ (memSame_sound this h)
  · exact writePa_sound _ _ _ _ _ _ (memSame_sound this h)

/-! ## Commands of a stack port -/

theorem rupdRun_sound (d fmt uop cols : Nat) (opnd : List Byte) (p : Bool) (k : Nat) (s : State) (i a : Nat) (h : s.memSound) :
    (s.rupdRun d fmt uop cols opnd p k i a).memSound := by
  induction k generalizing s i a with
  | zero => exact h
  | succ k ih =>
    unfold State.rupdRun
    simp only
    apply ih
    split
    · exact storeAcc_sound _ _ _ _ _ h
    · have hr := memSame_sound (memSame_readAcc s d a) h
      split
      · split
        · exact storeAcc_sound _ _ _ _ _ hr
        · exact hr
      · exact storeAcc_sound _ _ _ _ _ hr

theorem memSame_poolRow (s : State) (n : Nat) (f : PortCmd) accs : MemSame s (s.poolRow n f accs) := memSame_putStk _ _ _ rfl

/-- A data command that is served keeps the canonical form. -/
theorem serveData_sound (s : State) (n : Nat) (c : SlotCmd) (d a : Nat) (h : s.memSound) : (s.serveData n c d a).memSound := by
  unfold State.serveData
  simp only
  split
  · exact memSame_sound (memSame_trans (memSame_readRun _ _ _ _ _) (memSame_trans (memSame_count _ _ _ _) (memSame_respond _ _ _))) h
  · exact memSame_sound (memSame_trans (memSame_count _ _ _ _) (memSame_respond _ _ _)) (writeRun_sound _ _ _ _ _ _ h)
  · exact memSame_sound (memSame_trans (memSame_count _ _ _ _) (memSame_respond _ _ _))
      (storeAcc_sound _ _ _ _ _ (memSame_sound (memSame_readAcc _ _ _) h))
  · exact memSame_sound (memSame_trans (memSame_readRun _ _ _ _ _) (memSame_trans (memSame_count _ _ _ _) (memSame_poolRow _ _ _ _))) h
  · exact memSame_sound (memSame_trans (memSame_count _ _ _ _) (memSame_respond _ _ _)) (rupdRun_sound _ _ _ _ _ _ _ _ _ _ h)
  · exact memSame_sound (memSame_respond _ _ _) h

theorem memSame_deadData (s : State) (n : Nat) (c : SlotCmd) (d a : Nat) : MemSame s (s.deadData n c d a) := by
  unfold State.deadData
  simp only
  split
  · exact memSame_respond _ _ _
  · exact memSame_poolRow _ _ _ _
  · exact memSame_respond _ _ _

theorem memSame_portConflict (s : State) (n : Nat) (f : PortCmd) : MemSame s (s.portConflict n f) := by
  unfold State.portConflict
  exact memSame_trans (memSame_count _ _ _ _) (memSame_trans (memSame_conflict _ _) (memSame_respond _ _ _))

theorem memSame_takeWait (s : State) (d : Nat) (c : SlotCmd) : MemSame s (s.takeWait d c) := memSame_putPch _ _ _

theorem memSame_readMoved (d : Nat) (k : Nat) (s : State) (a : Nat) : MemSame s (s.readMoved d a k).2 := by
  induction k generalizing s a with
  | zero => exact memSame_refl s
  | succ k ih =>
    unfold State.readMoved
    dsimp only
    split
    · exact memSame_trans (memSame_trans (memSame_count _ _ _ _) (memSame_readAcc _ _ _)) (ih _ _)
    · exact ih _ _

/-- A command served where its granules have moved to keeps the canonical form. -/
theorem serveMoved_sound (s : State) (n : Nat) (c : SlotCmd) (d a : Nat) (h : s.memSound) : (s.serveMoved n c d a).memSound := by
  unfold State.serveMoved
  simp only
  split
  · exact memSame_sound (memSame_trans (memSame_readMoved _ _ _ _) (memSame_poolRow _ _ _ _)) h
  · refine memSame_sound (memSame_respond _ _ _) (sound_foldl _ _ ?_ _ h)
    intro t i ht
    split
    · exact memSame_sound (memSame_count _ _ _ _) (rupdRun_sound _ _ _ _ _ _ _ _ _ _ ht)
    · exact ht
  · split
    · exact serveData_sound _ _ _ _ _ h
    · exact memSame_sound (memSame_deadData _ _ _ _ _) h

/-- A command taken up keeps the canonical form. -/
theorem takeUp_sound (s : State) (n : Nat) (c : SlotCmd) (h : s.memSound) : (s.takeUp n c).memSound := by
  unfold State.takeUp
  dsimp only
  by_cases h1 : s.stkDead n = true
  · rw [if_pos h1]; exact memSame_sound (memSame_deadData _ _ _ _ _) h
  rw [if_neg h1]
  split
  · exact memSame_sound (memSame_putRegion _ _ _) h
  · split
    · exact memSame_sound (memSame_takeWait _ _ _) h
    · split
      · split
        · exact serveMoved_sound _ _ _ _ _ (memSame_sound (memSame_count _ _ _ _) h)
        · exact memSame_sound (memSame_takeWait _ _ _) h
      · split
        · exact memSame_sound (memSame_deadData _ _ _ _ _) h
        · exact memSame_sound (memSame_portConflict _ _ _) h
        · exact memSame_sound (memSame_portConflict _ _ _) h
        · split
          · exact memSame_sound (memSame_takeWait _ _ _) h
          · exact serveData_sound _ _ _ _ _ h

theorem memSame_slotMarks (s : State) (d : Nat) : MemSame s (s.slotMarks d) := memSame_booked (slotMarks_booked s d)

theorem memSame_portRefuse (s : State) (n : Nat) (f : PortCmd) : MemSame s (s.portRefuse n f) := by
  unfold State.portRefuse
  exact memSame_trans (memSame_count _ _ _ _) (memSame_trans (memSame_setEvt _ _ _) (memSame_respond _ _ _))

theorem portTake_sound (s : State) (n : Nat) (c : SlotCmd) (h : s.memSound) : (s.portTake n c).memSound := by
  unfold State.portTake
  simp only
  split
  · exact memSame_sound (memSame_putPch _ _ _) h
  · exact memSame_sound (memSame_slotMarks _ _) (takeUp_sound _ _ _ h)

/-- A data command offered at a stack port keeps the canonical form. -/
theorem portCmd_sound (s : State) (n : Nat) (c : SlotCmd) (h : s.memSound) : (s.portCmd n c).memSound := by
  unfold State.portCmd
  simp only
  have hp : (s.portSent n c.f).memSound := memSame_sound (memSame_setParts _ _) h
  split
  · exact h
  · split
    · exact memSame_sound (memSame_portRefuse _ _ _) hp
    · split
      · exact memSame_sound (memSame_trans (memSame_setEvt _ _ _) (memSame_portRefuse _ _ _)) hp
      · exact portTake_sound _ _ _ hp

/-! ## Service commands -/

theorem memSame_svcAnswer (s : State) (n rsp st : Nat) : MemSame s (s.svcAnswer n rsp st) := by
  unfold State.svcAnswer
  simp only
  split
  · exact memSame_refl s
  · have h := memSame_putStk s n { s.stkAt n with svc := none } rfl
    generalize s.putStk n { s.stkAt n with svc := none } = u at *
    exact memSame_trans h (memSame_trans (memSame_setRg _ _ _ _) (memSame_setEvt _ _ _))

theorem memSame_svcConflict (s : State) (n : Nat) : MemSame s (s.svcConflict n) := by
  unfold State.svcConflict
  split
  · exact memSame_refl s
  · rename_i o f _
    have h := memSame_trans (memSame_count s (pgPch (n * 64 + f.pch.toNat)) oPchConflicts 1)
      (memSame_conflict (s.count (pgPch (n * 64 + f.pch.toNat)) oPchConflicts 1) (pgPch (n * 64 + f.pch.toNat)))
    simp only
    generalize (s.count (pgPch (n * 64 + f.pch.toNat)) oPchConflicts 1).conflict (pgPch (n * 64 + f.pch.toNat)) = u at *
    exact memSame_trans h (memSame_svcAnswer _ _ _ _)

theorem scrubSlot_sound (s : State) (d slot : Nat) (errs : List AccErr) (h : s.memSound) : (s.scrubSlot d slot errs).memSound := by
  unfold State.scrubSlot
  dsimp only
  have hr := memSame_sound (memSame_readRun d 8 s (slot * 8) errs) h
  generalize s.readRun d (slot * 8) 8 errs = r at *
  obtain ⟨accs, u⟩ := r
  refine sound_foldl _ _ ?_ _ hr
  intro t x ht
  split
  · exact ht
  · exact storeAcc_sound _ _ _ _ _ ht

theorem rewriteRow_sound (s : State) (d bank row : Nat) (errs : List AccErr) (h : s.memSound) : (s.rewriteRow d bank row errs).memSound := by
  unfold State.rewriteRow
  refine sound_foldl _ _ ?_ _ h
  intro t x ht
  have hr := memSame_sound (memSame_readRun d 8 t (x.1 * 8) (errs.drop (8 * x.2))) ht
  generalize t.readRun d (x.1 * 8) 8 (errs.drop (8 * x.2)) = r at *
  obtain ⟨accs, u⟩ := r
  exact sound_foldl _ _ (fun u y hu => storeAcc_sound _ _ _ _ _ hu) _ hr

theorem rowSpoil_sound (s : State) (d bank row : Nat) (h : s.memSound) : (s.rowSpoil d bank row).memSound := by
  unfold State.rowSpoil
  refine sound_foldl _ _ ?_ _ h
  intro t x ht
  refine sound_foldl _ _ ?_ _ ht
  intro u i hu
  exact storeAcc_sound _ _ _ _ _ (memSame_sound (memSame_trans (memSame_draw _) (memSame_trans (memSame_draw _) (memSame_draw _))) hu)

theorem memSame_setRf (s : State) (pg off hi lo v : Nat) : MemSame s (s.setRf pg off hi lo v) := memSame_setRg _ _ _ _

theorem memSame_rowRepaired (s : State) (n pch addr step : Nat) : MemSame s (s.rowRepaired n pch addr step) := by
  unfold State.rowRepaired
  dsimp only
  have h : ∀ v : StkSt, v.poisonAll = (s.stkAt n).poisonAll → MemSame s (s.putStk n v) := fun v hv => memSame_putStk _ _ _ hv
  generalize hu : s.putStk n _ = u
  have hs : MemSame s u := hu ▸ h _ rfl
  clear h hu
  have tail : ∀ w : State, MemSame s w → ∀ e, MemSame s (((w.setEvt (pgRegion n) 0).error (pgPch (n * 64 + pch)) e).svcAnswer n 0 0) :=
    fun w hw e => memSame_trans hw (memSame_trans (memSame_setEvt _ _ _) (memSame_trans (memSame_error _ _ _) (memSame_svcAnswer _ _ _ _)))
  split
  · exact tail _ (memSame_trans hs (memSame_setRf _ _ _ _ _ _)) _
  · exact tail _ (memSame_trans hs (memSame_setRf _ _ _ _ _ _)) _

theorem patchPut_sound (s : State) (n e pch bank row : Nat) (h : s.memSound) : (s.patchPut n e pch bank row).memSound := by
  unfold State.patchPut
  simp only
  have h0 : ∀ v : StkSt, v.poisonAll = (s.stkAt n).poisonAll → (s.putStk n v).memSound := fun v hv => memSame_sound (memSame_putStk _ _ _ hv) h
  have key : ∀ u : State, u.memSound → ∀ b : Prop, ∀ [Decidable b], (if b then u.setEvt (pgStk n) 2 else u).memSound := by
    intro u hu b _
    split
    · exact memSame_sound (memSame_setEvt _ _ _) hu
    · exact hu
  apply key
  split
  · split
    · exact rowSpoil_sound _ _ _ _ (h0 _ rfl)
    · exact h0 _ rfl
  · exact h0 _ rfl

end Sys2Proof.Machine
end

