-- ==== Sys2Proof/Laws/Walker.lean ====
section
/-! SUPPORT. Walker contexts: reading a context after writing one, and what issuing the next word does. -/

namespace Sys2Proof.Machine

theorem wvAt_putWv (s : State) (w k : Nat) (v : WvSt) : (s.putWv w v).wvAt k = if k = w then v else s.wvAt k := by
  simp only [State.wvAt, State.putWv, State.setWv_wv, smapGet_set]

theorem wv_putCtx (v : WvSt) (i j : Nat) (x : CtxSt) : (v.putCtx i x).ctxAt j = if j = i then x else v.ctxAt j := by
  simp only [WvSt.ctxAt, WvSt.putCtx, smapGet_set]

theorem ctxWv_inj (c d : CtxRef) (h : ctxWv c = ctxWv d) (k : c.ctx.val = d.ctx.val) : c = d := by
  obtain ⟨a, b, e⟩ := c
  obtain ⟨a', b', e'⟩ := d
  simp only [ctxWv] at h
  have := b.isLt
  have := b'.isLt
  have h1 : a.val = a'.val := by omega
  have h2 : b.val = b'.val := by omega
  simp only at k
  rw [CtxRef.mk.injEq]
  exact ⟨Fin.ext h1, Fin.ext h2, Fin.ext k⟩

/-- A context reads what was written last, and every other context is left alone. -/
theorem ctxAt_putCtx (s : State) (c d : CtxRef) (x : CtxSt) : (s.putCtx c x).ctxAt d = if d = c then x else s.ctxAt d := by
  simp only [State.ctxAt, State.putCtx, wvAt_putWv]
  by_cases h : d = c
  · subst h; simp [wv_putCtx]
  · by_cases k : ctxWv d = ctxWv c
    · rw [if_pos k, if_neg h, wv_putCtx, if_neg, k]
      intro e; exact h (ctxWv_inj _ _ k e)
    · rw [if_neg k, if_neg h]

theorem booked_ctxAt {s t : State} (h : Booked s t) (c : CtxRef) : t.ctxAt c = s.ctxAt c := by
  simp only [State.ctxAt, State.wvAt, booked_wv h]

/-- Issuing the word at the program counter has the effect of its opcode, and takes the context's turn. -/
theorem wIssue_runs (s : State) (c : CtxRef) (w : Word) (f : CtxSt → Word → State → State) (h : s.issues c w) (opc : Nat) (ho : wOpc w = opc) :
    s.wIssue c opc f = (f (s.ctxAt c) w s).wTurn c := by
  obtain ⟨h0, h1, h2, h3, h4, h5, h6, h7⟩ := h
  have hw : s.wOpcAt c = some opc := by simp [State.wOpcAt, h3, ho]
  have hr : s.wRun c f = f (s.ctxAt c) w s := by simp [State.wRun, h3, h4, h5, h6]
  have hd : ∀ t, stepDone c (opc == 0x51) s t = t := by
    intro t
    unfold stepDone
    exact if_pos (by rw [h7]; rfl)
  unfold State.wIssue State.wIssueAt
  rw [if_pos ⟨h1, h2, hw⟩, if_neg (by rw [h5]; decide), if_pos h0, hr, hd]

end Sys2Proof.Machine
end

