-- ==== Sys2Proof/Tests/Slice0.lean ====
section
/-! SUPPORT. Tests: the refusal of ill-formed commands, concrete states that meet the hypotheses of each statement, and small
checks whose expected results come from the spec's worked examples or are computed from its rules by hand. -/

namespace Sys2Proof.Tests
open Sys2Proof.Machine

set_option Elab.async false

/-! ## Small states -/

/-- A FULL pseudo-channel. -/
def fullPch : PchSt := { PchSt.reset with st := .full }
/-- A leaf of 1 GiB that maps address 0 to the NEAR band of stack 0: valid, every permission, written, for RDMA. -/
def leafW : Word := word (2 ^ 41 + 0x33B)
/-- The leaf as a unit caches it. -/
def leafT : TlbEnt := ⟨0, 2, leafW, 0⟩
/-- A state in service: stack 0 FULL and all in its NEAR band, translation on, the leaf cached in every unit. -/
def base : State :=
  let s := (State.reset.setRg (pgStk 0) oStkBandNear 3906250).setRg (pgXlat 0) oXlatRoot 1
  { s with pch := (List.range 64).map (fun d => (d, fullPch)), stk := [(0, { StkSt.reset with st := .full })], xlat := (List.range 13).map (fun u => (u, { XlatSt.reset with tlb := [leafT] })) }
/-- Bytes placed at an address, a multiple of 32, through the leaf. -/
def putAt (s : State) (va : Nat) (bs : List Byte) : State :=
  (List.range ((bs.length + 31) / 32)).foldl (fun t i => t.writePa 0 0 (2 ^ 41 + va + 32 * i) ((bs.drop (32 * i)).take 32) false) s
/-- Words placed at an address. -/
def putW (s : State) (va : Nat) (ws : List Word) : State := putAt s va (wordsBytes ws)
/-- The base state at a time, ns. -/
def atNs (s : State) (n : Nat) : State := { s with time := { s.time with st := n * 2 ^ 40 } }
/-- A poisoned access at an address. -/
def poisonAt (s : State) (va : Nat) : State := s.writePa 0 0 (2 ^ 41 + va) (List.replicate 32 0) true
/-- A plain port command. -/
def flit (pch addr count arg : Nat) (data : List Byte) : PortCmd :=
  { src := .fabric, pch := BitVec.ofNat 6 pch, addr := BitVec.ofNat 25 addr, count := BitVec.ofNat 8 count, tag := 7, poison := false, arg := BitVec.ofNat 32 arg, data := data }
/-- n bytes of one value. -/
def bytes (n v : Nat) : List Byte := List.replicate n (BitVec.ofNat 8 v)
/-- A table descriptor of TABLE_ID 0: HOME, format 0 (FP32), DIM 8, 100 rows, directory off; slot states by list. -/
def tdBytes (home : Nat) (states : List Nat) : List Byte :=
  wordsBytes ([word (home * 2 ^ 49 + 8 * 2 ^ 14), 100, 8 * 2 ^ 16, 0, 0, 0, 0, 0] ++
    states.flatMap (fun k => [word (k * 2 ^ 56 + if k = 0 then 0 else 0x20000), if k = 0 then 0 else 100])) ++ bytes (256 - 64 - 16 * states.length) 0
/-- The table at 0x10000 and its count. -/
def withTable (s : State) (home : Nat) (states : List Nat) : State :=
  putAt (((List.range 12).foldl (fun t r => (t.setRg (pgEmb r) oEmbTblBase 0x10000).setRg (pgEmb r) oEmbTblCount 1) s)) 0x10000 (tdBytes home states)
/-- The base state with the clusters of region 11 mapped in order. -/
def baseM : State := base.putRegion 11 { RegionSt.reset with released := true, map := List.range 12 }

/-! ## Witnesses: the block and the time unit -/

/-- PTP on port 3 in domain 0. -/
def sPtp : State := base.setRg pgTime oTimeSrcCtl 0x82
/-- The same with port 3 the best master, a Sync that waits for its Follow_Up, and a delay request sent. -/
def sPtp2 : State :=
  { sPtp with time := { sPtp.time with masters := [⟨3, 9, 5, 0, 10 ^ 9, 2⟩], twoStep := [(3, 2 ^ 50, 7, 125000000)], syncTs := [(3, 10, 20)], reqTs := [(3, 30)] } }

theorem wit_stepRuns : ({ base with pending := [.ppsEdge] } : State).pending = [.ppsEdge] ∧ base.pending = [] := ⟨rfl, rfl⟩
theorem wit_wellFormed : (Instr.rd 11 (flit 63 7 1 0 []) []).wf = true ∧ (Instr.pageIn 0 0 (bytes 65536 0)).wf = true := by decide +kernel
theorem wit_held : ({ base with pins := { base.pins with held := true } } : State).pins.held = true := rfl
theorem wit_illFormed : base.pins.held = false ∧ (Instr.rd 0 (flit 0 0 8 0 (bytes 1 0)) []).wf = false ∧
    (Instr.wr 11 (flit 0 0 8 0 (bytes 255 0))).wf = false ∧ (Instr.wrm 0 (flit 0 0 1 1 [])).wf = false ∧
    (Instr.rupd 0 (flit 0 0 1 0x101 (bytes 31 0))).wf = false ∧ (BitVec.ofNat 28 4).toNat % 8 ≠ 0 := by decide +kernel
theorem wit_walkWords : (⟨0, 0x17, 0, 0, 0, .i 8 0 0 0x400000⟩ : WInstr).wf = true := by decide +kernel

theorem wit_ptp : sPtp.pins.held = false ∧ sPtp.ptpOn 3 0 = true ∧ sPtp.time.masters.find? (fun m => decide (m.port = 3) && decide (m.source = 9)) = none ∧
    sPtp2.pins.held = false ∧ sPtp2.ptpOn 3 0 = true ∧
    sPtp2.time.masters.find? (fun m => decide (m.port = 3) && decide (m.source = 9)) = some ⟨3, 9, 5, 0, 10 ^ 9, 2⟩ ∧
    sPtp2.time.st < 4 * (10 ^ 9 * 2 ^ 40) ∧ sPtp2.bestMaster = some ⟨3, 9, 5, 0, 10 ^ 9, 2⟩ ∧ sPtp2.isBest 3 9 = true ∧
    sPtp2.time.twoStep.find? (fun x => x.1 = 3) = some (3, 2 ^ 50, 7, 125000000) ∧ fld sPtp2.srcCtl 3 2 = 0 ∧
    sPtp2.time.syncTs.find? (fun x => x.1 = 3) = some (3, 10, 20) ∧ sPtp2.time.reqTs.find? (fun x => x.1 = 3) = some (3, 30) ∧
    (sPtp2.setRg pgTime oTimeSrcCtl 0x86).ptpOn 3 0 = true ∧ fld (sPtp2.setRg pgTime oTimeSrcCtl 0x86).srcCtl 3 2 = 1 ∧
    bit (base.setRg pgTime oTimeSrcCtl 0x80000).srcCtl 19 = true := by
  decide +kernel

/-- The pulse source alone, and the pulse beside PTP off. -/
def sPps : State := atNs (base.setRg pgTime oTimeSrcCtl 0x100) (3 * 10 ^ 9)
def sPps4 (u : State) : State := (u.setRg pgTime oTimePpsInTs (word u.ns)).setTime { u.time with ppsLast := some u.time.st, ppsQual := true, ppsSeen := true }
def sPpsOn : State := { sPps with time := { sPps.time with ppsLast := some (10 ^ 9 * 2 ^ 40), ppsQual := true } }
def sCad : State := sPps.setRg pgTime oTimeSrcCtl 0x4100
def sCad0 : State := { sCad with time := { sCad.time with cadAt := some (sCad.time.st, 10 ^ 9) } }
def sLock : State := { atNs base 3000 with time := { (atNs base 3000).time with sync := .locked, interval := 1000 } }

theorem wit_timeSources : sPps.pins.held = false ∧ bit sPps.srcCtl 8 = true ∧ sPps.time.ppsLast = none ∧ (sPps4 sPps).srcNow = 4 ∧
    bit sCad0.srcCtl 8 = true ∧ sCad0.time.ppsLast = none ∧ (sPps4 sCad0).srcNow = 1 ∧
    bit sPpsOn.srcCtl 8 = true ∧ sPpsOn.time.ppsLast = some (10 ^ 9 * 2 ^ 40) ∧ sPpsOn.time.ppsQual = true ∧
    10 ^ 9 * 2 ^ 40 + sec40 + window40 < sPpsOn.time.st ∧ sCad.pins.held = false ∧ sCad.cadPort = some 3 ∧
    sLock.pins.held = false ∧ sLock.time.sync = .locked ∧ sLock.time.lastMeas + 3 * (sLock.time.interval * 2 ^ 40) ≤ sLock.time.st := by
  decide +kernel

def sStep : State := { atNs base 5 with time := { (atNs base 5).time with sync := .acquiring } }
theorem wit_timeReads : sStep.pins.held = false ∧ sStep.stepOk = true ∧ sStep.time.st + 1000 * 2 ^ 40 < (1006 : Word).toNat * 2 ^ 40 ∧
    base.stepOk = false ∧ bit ((base.setRg pgTime oTimePpsOut 1).rg pgTime oTimePpsOut) 0 = true ∧
    (atNs base (10 ^ 9)).ns % 10 ^ 9 = 0 ∧ (atNs base (10 ^ 9)).ns ≠ (atNs base (10 ^ 9)).time.ppsOutAt := by decide +kernel

/-- One delivered entry that is due. -/
def sEnt (kind target arg : Nat) : State :=
  { atNs base 1000 with time := { (atNs base 1000).time with delivered := [⟨5 * 2 ^ 16, kind, target, arg, false, 1, 0⟩] } }
def ent (kind target arg : Nat) : SchedEnt := ⟨5 * 2 ^ 16, kind, target, arg, false, 1, 0⟩
def sLaunch : State := (sEnt 1 pgHcmd 4095).putSlot 4095 { AdmSt.reset with st := .held, admitSt := word allBits }
theorem wit_scheduledEntries :
    (sLaunch.schedNext (fun x => decide (x.kind = 1)) = some (ent 1 pgHcmd 4095) ∧ ((sLaunch.schedTake (ent 1 pgHcmd 4095)).slotAt 4095).st = .held ∧
      ((sLaunch.schedTake (ent 1 pgHcmd 4095)).slotAt 4095).admitSt = word allBits ∧ (sLaunch.schedTake (ent 1 pgHcmd 4095)).admReady 4095 = true) ∧
    ((sEnt 2 (pgDisp 11) 0).schedNext (fun x => decide (x.kind = 2)) = some (ent 2 (pgDisp 11) 0) ∧ pgDisp 11 ≠ pgDev) ∧
    ((sEnt 4 (pgPwrd 155) 1).schedNext (fun x => decide (x.kind = 4)) = some (ent 4 (pgPwrd 155) 1) ∧
      (((sEnt 4 (pgPwrd 155) 1).schedTake (ent 4 (pgPwrd 155) 1)).pwrdReq 155 1).1 = true) ∧
    ((sEnt 5 (pgRegion 11) 0).schedNext (fun x => decide (x.kind = 5)) = some (ent 5 (pgRegion 11) 0)) ∧
    ((sEnt 6 (pgRegion 11) 0).schedNext (fun x => decide (x.kind = 6)) = some (ent 6 (pgRegion 11) 0)) ∧
    ((sEnt 5 (pgRegion 0) 1).schedNext (fun x => decide (x.kind = 5)) = some (ent 5 (pgRegion 0) 1) ∧ (1 : Nat) ≠ 0) := by decide +kernel

def sVer (target : Nat) : State := withTable (sEnt 3 target (1 * 2 ^ 10)) 0 [3, 2, 0, 0, 0, 0, 0, 0]
theorem wit_versions :
    ((sVer (pgEmb 0)).schedNext (fun x => decide (x.kind = 3) && decide (x.target ≠ pgDev)) = some (ent 3 (pgEmb 0) 1024) ∧
      (sVer (pgEmb 0)).parkedAt 0 versionWho = false ∧
      ((sVer (pgEmb 0)).tdFind 0 versionWho 0).1 = .ok (tdBytes 0 [3, 2, 0, 0, 0, 0, 0, 0]) ∧ tdHome (tdBytes 0 [3, 2, 0, 0, 0, 0, 0, 0]) = 0 ∧
      tdState (tdBytes 0 [3, 2, 0, 0, 0, 0, 0, 0]) 1 = svReady ∧
      (((sVer (pgEmb 0)).tdFind 0 versionWho 0).2.versionSwitch 0 1 (tdBytes 0 [3, 2, 0, 0, 0, 0, 0, 0])).1 = true) ∧
    ((sVer pgDev).schedNext (fun x => decide (x.kind = 3) && decide (x.target = pgDev)) = some (ent 3 pgDev 1024) ∧
      (((sVer pgDev).tdFind 0 versionWho 0).2.versionSwitch 0 1 (tdBytes 0 [3, 2, 0, 0, 0, 0, 0, 0])).1 = true) := by decide +kernel

/-! ## Witnesses: stacks and translation -/

/-- The last access of the last data granule of the last pseudo-channel. -/
def fRd : PortCmd := flit 63 31249999 1 0 []
def fWr : PortCmd := flit 63 31249992 8 0 (bytes 256 0xA5)
def fWrm : PortCmd := flit 63 31249999 1 0x80000001 (bytes 32 0x5A)

theorem wit_data :
    base.pins.held = false ∧ ((Instr.rd 0 fRd []).wf = true ∧ (Instr.wr 0 fWr).wf = true ∧ (Instr.wrm 0 fWrm).wf = true ∧
      (Instr.flitFence 0 (flit 63 0 0 0 [])).wf = true) ∧
    base.servesNow 0 ⟨0x01, fRd, []⟩ ∧ base.servesNow 0 ⟨0x02, fWr, []⟩ ∧ base.servesNow 0 ⟨0x03, fWrm, []⟩ ∧
    base.servesNow 0 ⟨0x08, flit 63 0 0 0 [], []⟩ ∧ base.cellErr (0 * 64 + 63) 31249999 = [] := by
  unfold State.servesNow
  decide +kernel

theorem wit_refusals :
    ((Instr.wr 0 (flit 0 7 2 0 (bytes 64 0))).wf = true ∧ (base.stkAt 0).gp = none ∧ base.portOwn 0 0x02 (flit 0 7 2 0 (bytes 64 0)) = true ∧
      base.parkFull 0 .fabric = false ∧ portFieldsOk 0x02 (flit 0 7 2 0 (bytes 64 0)) = false) ∧
    ((Instr.wr 0 (flit 0 31250000 1 0 (bytes 32 0))).wf = true ∧ base.portOwn 0 0x02 (flit 0 31250000 1 0 (bytes 32 0)) = true ∧
      portFieldsOk 0x02 (flit 0 31250000 1 0 (bytes 32 0)) = true ∧ portAddrOk 0x02 (flit 0 31250000 1 0 (bytes 32 0)) = false) := by
  decide +kernel

theorem wit_interleave : paMap 3845214 0 0 0 = some (0, 0) ∧ paMap 3845214 0 0 255 = some (0, 0) ∧
    paMap 0 0 3906250 (2 ^ 41 + 11 * 2 ^ 36) = some (704, 0) := by decide +kernel

/-- A command parked at the last pseudo-channel of stack 0. -/
def sPark : State := base.putPch 63 { fullPch with parked := [⟨0x01, fRd, []⟩] }
theorem wit_housekeeping :
    ((sPark.pchAt 63).parked = ⟨0x01, fRd, []⟩ :: [] ∧ (sPark.stkAt (63 / 64)).st = .full ∧ sPark.slotsUsed 63 < slotCap) ∧
    ((base.stkAt 11).st = .down) ∧ ((base.stkAt (63 / 64)).st = .full ∧ (base.pchAt 63).st = .full) ∧
    (((base.putPch 63 { fullPch with st := .retrain }).pchAt 63).st = .retrain ∧
      ((base.putPch 63 { fullPch with st := .retrain }).pchAt 63).postponed.contains 63 = false) := by decide +kernel

/-- A service command outstanding at stack 0. -/
def sSvc (opc : Nat) (f : PortCmd) (st : PchState) : State :=
  (base.putStk 0 { base.stkAt 0 with svc := some (opc, f) }).putPch 63 { fullPch with st := st }
theorem wit_service :
    ((Instr.scrub 0 []).wf = true ∧ (sSvc 0x20 fRd .full).svcIs 0 0x20 = some fRd ∧ ((sSvc 0x20 fRd .full).pchAt (0 * 64 + fRd.pch.toNat)).st = .full ∧
      ((sSvc 0x20 fRd .full).pchAt (0 * 64 + fRd.pch.toNat)).training = false) ∧
    ((sSvc 0x30 (flit 63 0 0 100 []) .base).svcIs 0 0x30 = some (flit 63 0 0 100 []) ∧ ((sSvc 0x30 (flit 63 0 0 100 []) .base).pchAt 63).st = .base ∧
      (flit 63 0 0 100 []).arg.toNat % 256 = 100 ∧ ((sSvc 0x30 (flit 63 0 0 100 []) .base).pchAt 63).training = false) ∧
    ((sSvc 0x30 fRd .full).svcIs 0 0x30 = some fRd ∧ ((sSvc 0x30 fRd .full).pchAt 63).st = .full) ∧
    ((sSvc 0x31 fRd .full).svcIs 0 0x31 = some fRd ∧ ((sSvc 0x31 fRd .full).pchAt 63).st = .full) ∧
    ((sSvc 0x32 fRd .full).svcIs 0 0x32 = some fRd ∧ ((sSvc 0x32 fRd .full).stkAt 0).margin = none) ∧
    ((sSvc 0x33 fRd .full).svcIs 0 0x33 = some fRd ∧ ((sSvc 0x33 fRd .full).stkAt 0).margin = none) ∧
    ((Instr.patch 0 []).wf = true ∧ (sSvc 0x38 fRd .full).svcIs 0 0x38 = some fRd ∧ ((sSvc 0x38 fRd .full).repairGate 0 63).isNone = true ∧
      (sSvc 0x38 fRd .full).rowLive 63 = true) ∧
    ((Instr.ppr 0 []).wf = true ∧ (sSvc 0x39 fRd .base).svcIs 0 0x39 = some fRd ∧ ((sSvc 0x39 fRd .base).repairGate 0 63).isNone = true ∧
      (sSvc 0x39 fRd .base).rowLive 63 = true) ∧
    ((sSvc 0x3A fRd .failed).svcIs 0 0x3A = some fRd ∧ ((sSvc 0x3A fRd .failed).pchAt 63).st ≠ .retired) := by decide +kernel

/-- A read by a walker of cluster 0. -/
def xq (va : Word) : XReq := ⟨va, .read, false, .walker ⟨0, 0, 0⟩ 0⟩
theorem wit_leafChecks :
    ptePermits 1 (xq 0) = false ∧ (ptePermits 0x49 (xq 0) = true ∧ bit (0x49 : Word) 6 = true) ∧
    (ptePermits 0x89 (xq 0) = true ∧ bit (0x89 : Word) 6 = false ∧ bit (0x89 : Word) 7 = true) ∧
    (ptePermits 0x9 (xq 0) = true ∧ bit (0x9 : Word) 6 = false ∧ bit (0x9 : Word) 7 = false) ∧ bit (2 : Word) 0 = false ∧
    (bit (3 : Word) 0 = true ∧ bit (3 : Word) 1 = true) ∧ (bit (1 : Word) 0 = true ∧ bit (1 : Word) 1 = false) ∧
    (bit (0x8001 : Word) 0 = true ∧ fld (0x8001 : Word) 15 10 ≠ 0) := by decide +kernel

theorem wit_noncanon : base.pins.held = false ∧ 2 ^ 52 ≤ (xq (2 ^ 52)).va.toNat ∧ whoSvc (xq 0).who = none ∧ whoDetail (xq 0).who = (0, 0) ∧ (whoUnit (xq 0).who).getD 0 = 0 ∧
    (∀ i, i < 64 → ((base.xlatAt 12).recAt i).valid = false) := by decide +kernel

/-- Two walks: one at its last read, one waiting for its D bit, and a stalled request; the tables stand at 0x40000. -/
def sWalk : State :=
  let x : XlatSt := { XlatSt.reset with walks := [⟨0, [xq 0x40000000], 2, 2 ^ 41 + 0x40000, none, false, 0⟩, ⟨1, [xq 0x80000000], 0, 2 ^ 41 + 0x41000, none, false, 0⟩, ⟨2, [⟨0, .write, false, .walker ⟨0, 0, 0⟩ 1⟩], 2, 0, some ⟨0, 2, word (2 ^ 41 + 0x23B), 2 ^ 41 + 0x42000⟩, false, 0⟩], stalled := [xq 0x40000000] }
  (putW (putW (putW base 0x40000 [0, word (2 ^ 41 + 0x50001)]) 0x41000 [word (2 ^ 41 + 0x33B)]) 0x42000 [word (2 ^ 41 + 0x23B)]).putXlat 0 x
def walk0 : WalkSt := ⟨0, [xq 0x40000000], 2, 2 ^ 41 + 0x40000, none, false, 0⟩
def walk1 : WalkSt := ⟨1, [xq 0x80000000], 0, 2 ^ 41 + 0x41000, none, false, 0⟩
def walk2 : WalkSt := ⟨2, [⟨0, .write, false, .walker ⟨0, 0, 0⟩ 1⟩], 2, 0, some ⟨0, 2, word (2 ^ 41 + 0x23B), 2 ^ 41 + 0x42000⟩, false, 0⟩
def sFullWalks : State := sWalk.putXlat 0 { sWalk.xlatAt 0 with walks := (List.range 32).map (fun i => { walk0 with id := i }) }
theorem wit_translation :
    (bit (base.rg (pgXlat 0) oXlatRoot) 0 = true ∧ (base.xlatAt 12).tlb.any (fun t => t.hits 0x1234) = true ∧
      (base.tlbLook 12 (xq 0x1234)).1 = some leafT) ∧
    ((sFullWalks.xlatAt 0).tlb.any (fun t => t.hits 0x1234) = false ∧ findIdx (fun w => w.dset = none && w.reqs.any (fun r => sFullWalks.samePage r.va.toNat 0x1234)) (sFullWalks.xlatAt 0).walks = none ∧
      32 ≤ (sFullWalks.xlatAt 0).walksAct) ∧
    ((sWalk.xlatAt 0).walks.find? (fun w => w.id = 0 && w.dset = none) = some walk0 ∧ walk0.reqs.head? = some (xq 0x40000000) ∧
      (sWalk.walkStep 0 (whoSource (xq 0).who) 0x40000000 2 walk0.tbl).1 = .next 1 (2 ^ 41 + 0x50000)) ∧
    ((sWalk.xlatAt 0).walks.find? (fun w => w.id = 1 && w.dset = none) = some walk1 ∧
      (sWalk.walkStep 0 (whoSource (xq 0).who) 0x80000000 0 walk1.tbl).1 = .leaf ⟨0x80000000, 0, word (2 ^ 41 + 0x33B), 2 ^ 41 + 0x41000⟩) ∧
    ((sWalk.xlatAt 0).walks.find? (fun w => w.id = 2) = some walk2 ∧
      ((sWalk.putXlat 0 { sWalk.xlatAt 0 with walks := (sWalk.xlatAt 0).walks.filter (fun v => v.id ≠ 2) }).setD 0
        (whoSource (xq 0).who) ⟨0, 2, word (2 ^ 41 + 0x23B), 2 ^ 41 + 0x42000⟩).1 = .set) ∧
    ((sWalk.xlatAt 0).stalled = xq 0x40000000 :: [] ∧ (List.range 64).all (fun i => ((sWalk.xlatAt 0).recAt i).valid) = false ∧
      (sWalk.xlatAt 0).walksAct < 32) := by decide +kernel

def sInv8 : State := { base with invQ := List.replicate 8 ⟨true, 0, 0, []⟩ }
theorem wit_invalidation : (fld (0x80000000000000 : Word) 55 54 ≠ 3 ∧ base.invQ.length < invCap) ∧
    (bit (2 ^ 56 + 3 * 2 ^ 54 : Word) 56 = true) ∧ invCap ≤ sInv8.invQ.length ∧ sInv8.invQ = ⟨true, 0, 0, []⟩ :: List.replicate 7 ⟨true, 0, 0, []⟩ := by
  decide +kernel

/-- A fault record in the last slot, and a tree of one 64 KiB leaf at 0, not resident. -/
def sRec : State := base.putXlat 12 ((base.xlatAt 12).putRec 63 { FaultRec.reset with valid := true, parked := [xq 5] })
def sTree (leaf : Word) : State :=
  ((putW (putW (putW (putW base 0x10000 [word (2 ^ 41 + 0x20001)]) 0x20000 [word (2 ^ 41 + 0x30001)]) 0x30000 [word (2 ^ 41 + 0x40001)]) 0x40000 [leaf]).setRg
    (pgXlat 0) oXlatRoot (word (2 ^ 41 + 0x10001))).setRg (pgXlat 12) oXlatPoolBase (word (2 ^ 41))
def sPool (leaf : Word) : State := ((sTree leaf).setRg (pgXlat 12) oXlatPoolSize (word (2 ^ 30))).setRg (pgXlat 12) oXlatBackCount 4
/-- The same with a valid backing entry of TAG 0 that names queue pair 16383, which is ready to send, on link 15. -/
def sBack : State :=
  let s := (putW (sPool 0x7B) 0x60000 [word (16383 * 2 ^ 16 + 1), 0x1000]).setRg (pgXlat 12) oXlatBackBase (word (2 ^ 41 + 0x60000))
  (s.putLink 15 { LinkSt.reset with st := .up }).putQp 16383 { QpSt.reset with st := .rts, ctx := wordsBytes [word (3 * 2 ^ 6)] ++ bytes 120 0 }
def evict0 : EvictSt := ⟨0, 0, 2 ^ 41 + 0x50000, false, 3, 0, none⟩
def sEvict : State := let s := sPool 0x7B; s.setPager { s.pager with outs := [evict0] }
theorem wit_paging :
    ((sRec.xlatAt 12).recAt 63).valid = true ∧ ((base.xlatAt 12).recAt 63).valid = false ∧
    (sBack.leafAt 0 = some (0, 0x7B, 2 ^ 41 + 0x40000) ∧ bit (0x7B : Word) 6 = true ∧ (bytes (2 ^ 16) 1).length = 2 ^ lvlBits 0 ∧
      sBack.backPa (fld (0x7B : Word) 47 16) = some (2 ^ 41 + 0x60000) ∧
      sBack.inPool (BitVec.ofNat 42 (2 ^ 41 + 0x50000)).toNat (lvlBits 0) = true ∧ sBack.frameFree (2 ^ 41 + 0x50000) (lvlBits 0) = true ∧
      sBack.evictAt 0 = none ∧ sBack.paServes 12 sBack.pagerSrc (2 ^ 41 + 0x40000) = true ∧
      sBack.paServes 12 sBack.pagerSrc ((2 ^ 41 + 0x60000) / 32 * 32) = true ∧
      (sBack.backRead (2 ^ 41 + 0x60000)).1 = some ⟨0x1000, 0, 16383, true⟩ ∧
      (sBack.backRead (2 ^ 41 + 0x60000)).2.txReady 16383 (plainTx (.read 0x1000 0 (2 ^ lvlBits 0))) = true) ∧
    ((sPool (word (2 ^ 41 + 0x5003B))).evictAt 0 = none ∧
      (sPool (word (2 ^ 41 + 0x5003B))).leafAt 0 = some (0, word (2 ^ 41 + 0x5003B), 2 ^ 41 + 0x40000) ∧ bit (word (2 ^ 41 + 0x5003B)) 6 = false ∧
      (sPool (word (2 ^ 41 + 0x5003B))).inPool (ptePa (word (2 ^ 41 + 0x5003B))) (lvlBits 0) = true ∧
      (sPool (word (2 ^ 41 + 0x5003B))).invQ.length < invCap ∧ ((sPool (word (2 ^ 41 + 0x5003B))).backPa 3).isSome = true ∧
      (sPool (word (2 ^ 41 + 0x5003B))).paServes 12 (sPool (word (2 ^ 41 + 0x5003B))).pagerSrc (2 ^ 41 + 0x40000) = true) ∧
    (sEvict.evictAt 0 = some evict0 ∧ (sEvict.backPa evict0.tag).isSome = true ∧
      evict0.ticket.toNat ≤ (sEvict.rg (pgXlat 0) oXlatInvDone).toNat ∧ evict0.dirty = false) := by decide +kernel
/-- Every access of stack 0 is served there. -/
theorem back_serves (d a : Nat) (h : d < 64) : sBack.portServes 12 sBack.pagerSrc d a = true := by
  have h0 : d / 64 = 0 := Nat.div_eq_of_lt h
  have hp : ∀ d, d < 64 → sBack.pchAt d = fullPch := by decide +kernel
  have hw : ∀ d, d < 64 → sBack.slotsUsed d < slotCap := by decide +kernel
  have hm : (sBack.regionAt 0).move = none := by decide +kernel
  have hd : sBack.stkDead 0 = false := by decide +kernel
  have hs : sBack.stkServes 0 = true := by decide +kernel
  have hg : (sBack.stkAt 0).gp = none := by decide +kernel
  have hk : sBack.parkedBy 0 (sBack.portSrc 0 12 sBack.pagerSrc) < parkCap := by decide +kernel
  have hf : fullPch.parked = [] ∧ fullPch.waiting = [] ∧ fullPch.st ≠ .retired ∧ fullPch.busy = false := by decide +kernel
  simp [State.portServes, State.movingNow, State.slotWaiters, State.granuleServes, State.serveAt, h0, hp d h, hw d h, hm, hd, hs, hg, hk, hf]
theorem wit_pageRange : sBack.rangeServes (BitVec.ofNat 42 (2 ^ 41 + 0x50000)).toNat (2 ^ lvlBits 0 / 32) = true := by
  have hb : sBack.bandS = 0 ∧ sBack.bandD = 0 ∧ sBack.bandN = 3906250 := by decide +kernel
  have hm : ∀ i, i < 2048 → (paMap 0 0 3906250 (2 ^ 41 + 0x50000 + 32 * i)).all (fun e => decide (e.1 < 64)) = true := by decide +kernel
  simp only [State.rangeServes, List.all_eq_true, List.mem_range]
  intro i hi
  have hi : i < 2048 := hi
  have h := hm i hi
  show sBack.paServes 12 sBack.pagerSrc (2 ^ 41 + 0x50000 + 32 * i) = true
  simp only [State.paServes, State.paAcc, hb]
  cases e : paMap 0 0 3906250 (2 ^ 41 + 0x50000 + 32 * i) with
  | none => rfl
  | some x =>
    rw [e] at h
    exact back_serves _ _ (by simpa using h)

/-! ## Witnesses: embedding engine -/

/-- One LOOKUP task at engine 0 with a descriptor: GATHER of 2 indices from table 0 to 0x30000, its lists at 0x28000. -/
def lkPayload (op count : Nat) : List Byte :=
  wordsBytes [word (count * 2 ^ 32 + 1 * 2 ^ 20 + op * 2 ^ 10), word 0x27000, word 0x28000, 0, word 0x30000, word 32, word (2 ^ 64 - 1), word 9] ++ bytes 128 0
/-- Engine 0 with a task in entry 5 of admission slot 1. -/
def sTask (kind : Nat) (update started : Bool) (payload : List Byte) : State :=
  let s := withTable base 0 [3, 0, 0, 0, 0, 0, 0, 0]
  let s := s.putSlot 1 { AdmSt.reset with st := .running, pins := [(0, 0)] }
  let s := s.putTask 0 5 { TaskSt.reset with st := .running, slot := 1, kind := kind, hdr := bytes 64 0, payload := payload }
  s.putEmb 0 { s.embAt 0 with tasks := [⟨5, 1, update, started, 0⟩] }
def td0 : List Byte := tdBytes 0 [3, 0, 0, 0, 0, 0, 0, 0]
theorem wit_lookups :
    ((sTask 5 false false (lkPayload 0 2)).pins.held = false ∧
      (((sTask 5 false false (lkPayload 0 2)).embAt 0).tasks.find? (fun x => !x.update && !x.started)).map (·.entry) = some 5 ∧
      (sTask 5 false false (lkPayload 0 2)).parkedAt 0 (.engine 0 5) = false ∧ lkOk (((sTask 5 false false (lkPayload 0 2)).taskAt 0 5).payload) 0 = true ∧
      ((sTask 5 false false (lkPayload 0 2)).tdRead 0 (.engine 0 5) (lkTable ((sTask 5 false false (lkPayload 0 2)).taskAt 0 5).payload)).1 = .ok td0 ∧
      lkOk (lkPayload 0 2) (tdFmt td0) = true ∧ lkOp ((sTask 5 false false (lkPayload 0 2)).taskAt 0 5).payload = 0 ∧
      ((sTask 5 false false (lkPayload 0 2)).tdRead 0 (.engine 0 5) 0).2.pinUse 0 1 0 td0 = .ok 0) ∧
    (lkOk ((sTask 5 false false (bytes 192 255)).taskAt 0 5).payload 0 = false ∧
      (sTask 5 false false (bytes 192 255)).parkedAt 0 (.engine 0 5) = false) ∧
    (((sTask 5 false true (lkPayload 0 2)).embAt 0).tasks.any (fun x => decide (x.entry = 5) && !x.update && x.started) = true ∧
      ((sTask 5 false true (lkPayload 0 2)).embAt 0).bags.any (fun b => b.owner = .task 5) = false ∧
      (((sTask 5 false true (lkPayload 0 2)).embDrop 0 5).taskAt 0 5).st = .running) := by decide +kernel

/-- A bag of one index, the index 99 at 0x28000. -/
def bag1 (op : Nat) (started : Bool) : BagSt :=
  { id := 3, owner := .task 5, slot := 1, table := 0, ver := 0, op := op, fmt := 0, sr := false, stream := 0, b := 0, fast := false, clu := 0, idx64 := false, list := false, idxVa := 0x28000, wgtVa := 0, n := 1, pad := none, out := 0x30000, offBad := false, started := started, count := 1, acc := if started then List.replicate 8 XAcc.zero else [], run := [], got := [], poison := false }
def sBag (op : Nat) (started : Bool) : State :=
  let s := putW (sTask 5 false true (lkPayload op 1)) 0x28000 [99]
  s.putEmb 0 { s.embAt 0 with bags := [bag1 op started], nextBag := 4 }
/-- Every accumulator of VEC 0 taken by a bag of 8192 columns. -/
def sAccFull : State :=
  let s := sBag 1 false
  s.putEmb 0 { s.embAt 0 with bags := [bag1 1 false, { bag1 1 true with id := 9, acc := List.replicate 8192 XAcc.zero }] }
def bagZ : State := ((sBag 0 false).tdRead 0 (.bag 0 3) 0).2
def bagL : Option (List (Nat × Option Nat) × Bool) × State := bagZ.bagLists 0 (bag1 0 false)
def bagRows : List (Nat × Option Nat) := [(99, none)]
def bagLoc : Option (List (Nat × List PieceAt)) × State := bagL.2.locRows 0 (.bag 0 3) td0 0 bagRows
/-- A bag whose table is no longer counted. -/
def sNoTable : State := (sBag 0 false).setRg (pgEmb 0) oEmbTblCount 0
theorem wit_bags :
    ((sBag 0 false).bagAt 0 3 = some (bag1 0 false) ∧ (bag1 0 false).started = false ∧ (sBag 0 false).parkedAt 0 (.bag 0 3) = false ∧
      ((sBag 0 false).tdRead 0 (.bag 0 3) 0).1 = .ok td0 ∧ bagZ.accFits 0 0 = true ∧ bagL.1 = some (bagRows, false) ∧
      bagRows.filter (fun x => idxKind td0 0 false none x.1 = .keep) = bagRows ∧ bagLoc.1.isSome = true ∧
      (bagLoc.2.bagStart 0 (bag1 0 false) td0 (bagRows.map (·.1)) false bagRows (bagLoc.1.getD [])).isSome = true) ∧
    (sAccFull.bagAt 0 3 = some (bag1 1 false) ∧ sAccFull.parkedAt 0 (.bag 0 3) = false ∧ (sAccFull.tdRead 0 (.bag 0 3) 0).1 = .ok td0 ∧
      (bag1 1 false).op ≠ 0 ∧ (sAccFull.tdRead 0 (.bag 0 3) 0).2.accFits 0 (tdDim td0) = false) ∧
    ((sBag 1 true).bagAt 0 3 = some (bag1 1 true) ∧ (sBag 1 true).bagBusy 0 3 = false ∧ (sBag 1 true).parkedAt 0 (.bag 0 3) = false ∧
      ((sBag 1 true).tdRead 0 (.bag 0 3) 0).1 = .ok td0 ∧
      (((sBag 1 true).tdRead 0 (.bag 0 3) 0).2.bagWrite 0 (bag1 1 true) td0).1 = true) ∧
    (sNoTable.bagAt 0 3 = some (bag1 0 false) ∧ sNoTable.parkedAt 0 (.bag 0 3) = false ∧ (sNoTable.tdRead 0 (.bag 0 3) 0).1 = .bad) := by
  decide +kernel

/-- A GPOOL header of 2 rows and its rows. -/
def fGp : PortCmd := flit 0 0 2 0x10000 []
def fRow : PortCmd := flit 63 31249999 0 0 []
def sGp : State := base.putStk 0 { base.stkAt 0 with gp := some (7, 2), pools := [⟨fGp, [], []⟩] }
def sGpDone : State := base.putStk 0 { base.stkAt 0 with pools := [⟨fGp, [fRow, fRow], [⟨63, 31249999, [(bytes 32 0, false)]⟩, ⟨63, 31249999, [(bytes 32 0, false)]⟩]⟩] }
theorem wit_pools :
    ((Instr.gpool 0 fGp).wf = true ∧ (base.stkAt 0).gp = none ∧ base.portOwn 0 0x10 fGp = true ∧
      (base.stkAt 0).pools.any (fun j => j.f.tag = fGp.tag) = false ∧ base.parkFull 0 fGp.src = false ∧ portFieldsOk 0x10 fGp = true) ∧
    ((Instr.gpoolRow 0 fRow).wf = true ∧ (sGp.stkAt 0).gp = some (fRow.tag.toNat, 2) ∧ 1 < 2 ∧
      sGp.parts.find? (fun p => decide (p.stk = 0) && decide (p.opc = 0x10) && decide (p.flit.tag.toNat = fRow.tag.toNat) && p.sent) = none ∧
      sGp.parkFull 0 fRow.src = false ∧ portFieldsOk 0x11 fRow = true ∧ portAddrOk 0x11 fRow = true) ∧ ((sGpDone.putDom 168 ⟨.off⟩).domAt (168 + 0)).st ≠ .on ∧
    ((sGpDone.stkAt 0).pools.find? (fun j => j.f.tag = 7) = some ⟨fGp, [fRow, fRow], [⟨63, 31249999, [(bytes 32 0, false)]⟩, ⟨63, 31249999, [(bytes 32 0, false)]⟩]⟩) ∧
    ((base.putStk 0 { base.stkAt 0 with resp := [plainResp fRow 0 0 true] }).stkAt 0).resp = plainResp fRow 0 0 true :: [] ∧ base.parts = [] := by decide +kernel

/-- A RUPD of one access: format 0, operation 3. -/
def fUp : PortCmd := flit 63 31249999 1 0x103 (bytes 32 0)
def fRowUpd : State := base.storeAcc 0 0 (bytes 32 1) true
theorem wit_rowUpdates : (Instr.rupd 0 fUp).wf = true ∧ base.servesNow 0 ⟨0x18, fUp, []⟩ ∧ base.parts = [] ∧ fRowUpd.accPoison 0 0 = true ∧ fRowUpd.cellErr 0 0 = [] := by
  unfold State.servesNow
  decide +kernel

/-! ## Witnesses: updates and migration -/

/-- UPDATE of one row: WRITE into slot 0, its index at 0x28000, its value at 0x30000. -/
def upPayload : List Byte :=
  wordsBytes [word (1 * 2 ^ 32), word 0x28000, word 0x30000, word 32, word (2 ^ 64 - 1), 9] ++ bytes 144 0
def sUpd : State := putW (sTask 6 true false upPayload) 0x28000 [99]
def updZ : State := (sUpd.tdRead 0 (.engine 0 5) 0).2
def updI : Option (List (Nat × Bool)) × State := updZ.readList 0 (.engine 0 5) 0x28000 4 1
def updE : Option (List UpdEnt) × State := updI.2.updRead 0 (.engine 0 5) 0x30000 32 32 [(0, 99)]
def updM : Option (List MergeRow × List Nat) × State := updE.2.mergeAll 0 (.engine 0 5) td0 upPayload 0 [] [] (updE.1.getD [])
/-- A closed batch with nothing left to send. -/
def batch1 : BatchSt :=
  { id := 4, region := 0, slot := 1, task := some 5, desc := 0, body := upPayload, ver := 0, rows := [], closed := true, todo := [], issued := true, cancel := false }
def sBatch : State := { sTask 6 true true upPayload with batches := [batch1] }
/-- A RUPD in the hold queue of engine 0. -/
def held1 : RupdWait := ⟨0, fUp, 0, 0, 0, 99, 0, 4, none, false⟩
def sHold : State := sBatch.putMig 0 { MigSt.reset with hold := [held1] }
def holdZ : State := (sHold.tdRead 0 (batchWho batch1) 0).2
def holdP : Option (RowAt × Nat × Bool) × State := holdZ.rowPlace 0 (mergeWho 0 batch1.id) td0 0 99
/-- A move of row 99 to a frame at 0x60000. -/
def mv (ph : MovePhase) (acks : List Nat) : RowMove :=
  { id := 2, n := 0, table := 0, ver := 0, row := 99, pieces := 1, homeVa := 0x20000, entVa := 0x50000, ent := [word (2 * 2 ^ 61 + 99), 0, word (2 ^ 41 + 0x60000), 5], home := false, frame := some (2 ^ 41 + 0x60000), old := none, phase := ph, acks := acks, epochs := [(3, 1)], copied := 0, delayed := [], stale := false }
/-- The same RUPD while its row is in the copying phase of a move. -/
def sHoldMv : State := { sHold with moves := [mv .copy []] }
def holdMvZ : State := (sHoldMv.tdRead 0 (batchWho batch1) 0).2
theorem wit_updates :
    (sUpd.parkedAt 0 (.engine 0 5) = false ∧ upOk (sUpd.taskAt 0 5).payload = true ∧ upOk (bytes 192 255) = false ∧
      (sUpd.tdRead 0 (.engine 0 5) (upTable (sUpd.taskAt 0 5).payload)).1 = .ok td0 ∧ upOp (sUpd.taskAt 0 5).payload ≠ 1 ∧
      updZ.upTarget 0 1 upPayload td0 = .ok 0 ∧ upCount upPayload = 1 ∧ updI.1 = some [(99, false)] ∧
      idxKind td0 0 (upIdx64 upPayload) (some (upPad upPayload)) 99 = .keep ∧ tblRowBytes (tdFmt td0) (tdDim td0) = 32 ∧
      updE.1.isSome = true ∧ updM.1.isSome = true) ∧
    (sBatch.batchAt 4 = some batch1 ∧ sBatch.parkedAt 0 (batchWho batch1) = false ∧ (sBatch.pump 4).batchAt 4 = some batch1 ∧
      (sBatch.pump 4).batchQuiet batch1 = true) ∧
    ((sHold.migAt 0).hold = [held1] ∧ (sHold.moveOf 0 0 99).isNone = true ∧ sHold.batchAt 4 = some batch1 ∧
      (sHold.tdRead 0 (batchWho batch1) 0).1 = .ok td0 ∧ (holdZ.moveOf 0 0 99).isNone = true ∧ holdP.1.isSome = true ∧
      (holdP.2.rupdIssue batch1 held1 td0 ((holdP.1.map (·.1)).getD .home) none).1 = true ∧
      (holdP.2.rupdIssue batch1 held1 td0 ((holdP.1.map (·.1)).getD .home) none).2.batches.filter (fun c => c.todo.any (fun x => x.m = 0)) = []) ∧
    ((sHoldMv.migAt 0).hold = [held1] ∧ sHoldMv.moveOf 0 0 99 = some (mv .copy []) ∧ (mv .copy []).phase = .copy ∧
      (mv .copy []).frame = some (2 ^ 41 + 0x60000) ∧ sHoldMv.batchAt 4 = some batch1 ∧ (sHoldMv.tdRead 0 (batchWho batch1) 0).1 = .ok td0 ∧
      holdMvZ.moveOf 0 0 99 = some (mv .copy []) ∧ (holdMvZ.rupdIssue batch1 held1 td0 (.copy (2 ^ 41 + 0x60000)) (some 2)).1 = true ∧ held1.sadd = none ∧
      (holdMvZ.rupdIssue batch1 held1 td0 (.copy (2 ^ 41 + 0x60000)) (some 2)).2.batches.filter (fun c => c.todo.any (fun x => x.m = 0)) = []) := by
  decide +kernel

/-- A load report of engine 3 for the boundary at 4000 ns. -/
def rpt (k : Nat) : LoadRpt := ⟨k, false, 4000, 10, []⟩
def sRpt (now : Nat) : State := (atNs base now).putMig 11 { MigSt.reset with bound := 4000, inbox := [rpt 3] }
def sDecide : State := ((atNs base 6000).putMig 11 { MigSt.reset with bound := 4000, rpts := (List.range 12).map rpt }).setRg (pgMig 11) oMigCtl 1
def sFwd : State := (atNs base 6000).putMig 11 { MigSt.reset with bound := 4000, inbox := [{ rpt 3 with fwd := true }] }
def sTwelve : State :=
  (atNs base 6000).putMig 11 { MigSt.reset with bound := 4000, inbox := [rpt 3], rpts := ((List.range 12).filter (fun k => k ≠ 3)).map rpt }
theorem wit_reports :
    ((sRpt 6000).migAt 11).inbox.find? (fun r => r.from_ = 3) = some (rpt 3) ∧ (rpt 3).bound = ((sRpt 6000).migAt 11).bound ∧
    (sRpt 6000).ns ≤ (rpt 3).bound + 2000 ∧ ((sRpt 6000).migAt 11).decided = false ∧ (rpt 3).fwd = false ∧
    ((sRpt 6000).migAt 11).rpts.any (fun x => x.from_ = (rpt 3).from_) = false ∧ ((sRpt 6000).migAt 11).rpts.length < 11 ∧
    (rpt 3).bound + 2000 < (sRpt 6001).ns ∧
    ((sFwd.migAt 11).inbox.find? (fun r => r.from_ = 3) = some { rpt 3 with fwd := true } ∧ (sFwd.migAt 11).decided = false) ∧
    ((sTwelve.migAt 11).inbox.find? (fun r => r.from_ = 3) = some (rpt 3) ∧ (sTwelve.migAt 11).rpts.length = 11 ∧
      (sTwelve.migAt 11).rpts.any (fun x => x.from_ = 3) = false) := by decide +kernel
theorem wit_decision :
    sDecide.migOn 11 = true ∧ (sDecide.migAt 11).decided = false ∧ (sDecide.migAt 11).bound ≠ 0 ∧ (sDecide.migAt 11).bound + 2000 ≤ sDecide.ns ∧
    12 ≤ (sDecide.migAt 11).rpts.length ∧
    (migPairs (sDecide.rf (pgMig 11) oMigThresh 7 0) (sDecide.rf (pgMig 11) oMigThresh 15 8)
      ((List.range 12).filterMap (fun k => (sDecide.migLoad 11 k).map (fun l => (k, l))))) = [] ∧
    sDecide.migCands 11 = [] ∧ bit (sDecide.rg (pgMig 11) oMigCtl) 1 = false ∧ (sDecide.migAt 11).copies.any (fun c => c.gone) = false := by
  decide +kernel

def sMove (ph : MovePhase) (acks : List Nat) : State := { (withTable base 0 [3, 0, 0, 0, 0, 0, 0, 0]) with moves := [mv ph acks] }
theorem wit_moves :
    ((sMove .fence [3, 11]).moveAt 2 = some (mv .fence [3, 11]) ∧ (mv .fence [3, 11]).acks.contains 11 = true ∧ (mv .fence [3, 11]).phase ≠ .switch) ∧
    ((sMove .switch [11]).moveAt 2 = some (mv .switch [11]) ∧ (mv .switch [11]).acks.contains 11 = true ∧ ((sMove .switch [11]).migAt 11).epoch < 7) ∧
    ((sMove .start []).moveAt 2 = some (mv .start []) ∧ (mv .start []).acks = [] ∧ ((sMove .start []).moveFences (mv .start [])).isSome = true) ∧
    ((sMove .last []).moveAt 2 = some (mv .last [])) ∧ ((sMove .freed []).moveAt 2 = some (mv .freed [])) ∧
    ((sMove .fence []).moveAt 2 = some (mv .fence []) ∧ (sMove .fence []).moveFenced (mv .fence []) = false ∧ (mv .fence []).copied = 0 ∧
      ((sMove .fence []).migAt 0).copied + 1 ≤ (sMove .fence []).rf (pgMig 0) oMigCopyBudget 31 0 ∧ (sMove .fence []).parkedAt 0 (migWho 0) = false ∧
      ((sMove .fence []).movePieces (mv .fence []) 1 0).1 = 1) ∧
    ((sMove .copy []).moveAt 2 = some (mv .copy []) ∧ (sMove .copy []).moveHeld (mv .copy []) = false ∧
      ((sMove .copy []).entWrite 0 0x50000 ((entState (mv .copy []).ent 3).set 3 ((mv .copy []).ent.getD 3 0 + 1))).1 = true) ∧
    ((sMove .drain []).moveAt 2 = some (mv .drain []) ∧
      (mv .drain []).epochs.any (fun e => (sMove .drain []).readsOf e.1 (fun k => decide (k ≤ e.2)) ≠ 0) = false ∧
      ((sMove .drain []).entWrite 0 0x50000 [setFld (setFld ((mv .drain []).ent.getD 0 0) 63 61 4) 60 60 (b2n (mv .drain []).home), (mv .drain []).ent.getD 2 0, (mv .drain []).ent.getD 2 0, (mv .drain []).ent.getD 3 0]).1 = true) ∧
    ((((sMove .copy []).putStk 0 { (sMove .copy []).stkAt 0 with st := .shutdown }).moveDead (mv .copy [])) = true ∧
      (((sMove .copy []).putStk 0 { (sMove .copy []).stkAt 0 with st := .shutdown }).entWrite 0 0x50000 [0, 0, 0, 0]).1 = true) := by decide +kernel

/-! ## Walk programs -/

/-- The last context of the last cluster. -/
def cx : CtxRef := ⟨155, 3, 511⟩
/-- Its READY state in a walk task of window entry 2: registers by list, outstanding requests. -/
def cxAt (g : SMap Word) (rq : List WReq) : CtxSt := { CtxSt.reset with st := .ready, entry := 2, g := g, reqs := rq, next := 3 }
/-- A program of one word, held by the context's Weevil. -/
def prog1 (w : Word) : WalkTask := ⟨2, 0, 0, 1, [w], [false], true, 0, 0, 1, 0, 7, 1, none, false⟩
/-- A state whose context cx is x, at a program of the word w. -/
def sCx (s : State) (w : Word) (x : CtxSt) : State := s.putWv (ctxWv cx) { WvSt.reset with cur := some (prog1 w), ctxs := [(511, x)] }
/-- cx READY at the word of opcode o with the other bits of v. -/
def sOp (o v : Nat) : State := sCx base (word (o * 2 ^ 56 + v)) (cxAt [] [])

/-- Decidable form of State.issues for the tests. -/
theorem issues_of (s : State) (w : Word) (h : ((s.wvAt (ctxWv cx)).turn cx.ctx.val && decide ((s.ctxAt cx).st = .ready) && decide ((s.ctxAt cx).held = none) &&
    decide ((s.wvAt (ctxWv cx)).wordOf (s.ctxAt cx) = some (w, false)) && !wIllegal w && !(s.wvAt (ctxWv cx)).blocked (s.ctxAt cx) &&
    wGuard (s.ctxAt cx) w && !s.dbg.step.contains (ctxWv cx, cx.ctx.val)) = true) : s.issues cx w := by
  simp only [Bool.and_eq_true, decide_eq_true_eq, Bool.not_eq_true'] at h
  exact ⟨h.1.1.1.1.1.1.1, h.1.1.1.1.1.1.2, h.1.1.1.1.1.2, h.1.1.1.1.2, h.1.1.1.2, h.1.1.2, h.1.2, h.2⟩

theorem wit_registerInstructions :
    (sOp 0 0).pins.held = false ∧
    (∀ o ∈ [0x01, 0x02, 0x03, 0x04, 0x05, 0x06, 0x07, 0x08, 0x09, 0x0A, 0x0B, 0x0C, 0x0D, 0x10, 0x11, 0x12, 0x13, 0x14, 0x15, 0x16, 0x17,
      0x18, 0x19, 0x1D, 0x20, 0x21], (sOp o (31 * 2 ^ 46)).issues cx (word (o * 2 ^ 56 + 31 * 2 ^ 46)) ∧ wOpc (word (o * 2 ^ 56 + 31 * 2 ^ 46)) = o) := by
  refine ⟨by decide +kernel, fun o ho => ⟨issues_of _ _ ?_, ?_⟩⟩ <;> revert o <;> decide +kernel

/-- An exception held by cx. -/
def sExc (rq : List WReq) : State := sCx base 0 { cxAt [] rq with held := some (0x0A, 0x60, 0) }
theorem wit_predicateAndControl :
    (∀ o ∈ [0x00, 0x1A, 0x1B, 0x1C, 0x2E, 0x50, 0x51, 0x52], (sOp o 0).issues cx (word (o * 2 ^ 56)) ∧ wOpc (word (o * 2 ^ 56)) = o) ∧
    ((sOp 0x50 0).wvAt (ctxWv cx)).taskOf ((sOp 0x50 0).ctxAt cx) = some (prog1 (word (0x50 * 2 ^ 56))) ∧
    wTarget (word (0x50 * 2 ^ 56)) < (prog1 (word (0x50 * 2 ^ 56))).len := by
  refine ⟨fun o ho => ⟨issues_of _ _ ?_, ?_⟩, ?_, ?_⟩ <;> (try revert o) <;> decide +kernel
theorem wit_exceptions : (((sExc []).wvAt (ctxWv cx)).turn cx.ctx.val = true ∧ ((sExc []).ctxAt cx).st = .ready ∧ ((sExc []).ctxAt cx).held = some (0x0A, 0x60, 0) ∧
      (sExc []).dbg.step.contains (ctxWv cx, cx.ctx.val) = false ∧ (sExc []).pins.held = false) ∧
    ((sExc [⟨2, 0, .st 0 [], []⟩]).ctxAt cx).reqs ≠ [] ∧
    (((sOp 0x7F 0).wvAt (ctxWv cx)).turn cx.ctx.val = true ∧ ((sOp 0x7F 0).ctxAt cx).st = .ready ∧ ((sOp 0x7F 0).ctxAt cx).held = none ∧ wDefined (wOpc (word (0x7F * 2 ^ 56))) = false ∧
      ((sOp 0x7F 0).wvAt (ctxWv cx)).wordOf ((sOp 0x7F 0).ctxAt cx) = some (word (0x7F * 2 ^ 56), false)) ∧
    ((sCx base (word (0x01 * 2 ^ 56 + 2 ^ 55)) (cxAt [] [])).wvAt (ctxWv cx)).blocked (cxAt [] []) = false ∧
    (wIllegal (word (0x01 * 2 ^ 56 + 2 ^ 55)) = false ∧ wGuard (cxAt [] []) (word (0x01 * 2 ^ 56 + 2 ^ 55)) = false ∧
      wOpc (word (0x01 * 2 ^ 56 + 2 ^ 55)) = 0x01) ∧
    (wIllegal (word (0x01 * 2 ^ 56 + 1)) = true ∧ wOpc (word (0x01 * 2 ^ 56 + 1)) = 0x01) ∧
    (bit (word (0x01 * 2 ^ 56 + 2 ^ 51)) 55 = false ∧ fld (word (0x01 * 2 ^ 56 + 2 ^ 51)) 54 51 ≠ 0) := by decide +kernel

/-- LD of 8 bytes, SAMPLE, GRL (SUM) and GRN (SUM) words with register 0 for every operand. -/
theorem wit_requests :
    (∀ e ∈ [(0x28, 3 * 2 ^ 32 + 2 ^ 46), (0x28, 3 * 2 ^ 32 + 2 ^ 46 + 1), (0x29, 3 * 2 ^ 32), (0x2C, 63), (0x2D, 63), (0x30, 0), (0x31, 0),
      (0x38, 0x400), (0x39, 0x400), (0x3A, 0), (0x3B, 0), (0x40, 0xFFFFFFFF)],
      (sOp e.1 e.2).issues cx (word (e.1 * 2 ^ 56 + e.2)) ∧ wOpc (word (e.1 * 2 ^ 56 + e.2)) = e.1) ∧
    (wAddr (cxAt [] []) (word (0x28 * 2 ^ 56 + 3 * 2 ^ 32 + 2 ^ 46))).toNat % wSize (word (0x28 * 2 ^ 56 + 3 * 2 ^ 32 + 2 ^ 46)) = 0 ∧
    (wAddr (cxAt [] []) (word (0x28 * 2 ^ 56 + 3 * 2 ^ 32 + 2 ^ 46 + 1))).toNat % wSize (word (0x28 * 2 ^ 56 + 3 * 2 ^ 32 + 2 ^ 46 + 1)) ≠ 0 ∧
    spadOperand cx 0 (wBlock (word (0x2C * 2 ^ 56 + 63))) = some 0 ∧ spadOperand cx 0 1 = some 0 ∧
    grCheck cx (cxAt [] []) (word (0x38 * 2 ^ 56 + 0x400)) false = none ∧
    grCheck cx (cxAt [] []) (word (0x39 * 2 ^ 56 + 0x400)) true = none ∧ wCtrOk 0xBFFF = true := by
  refine ⟨fun e he => ⟨issues_of _ _ ?_, ?_⟩, ?_⟩ <;> (try revert e) <;> decide +kernel

/-- The last word of the private slot of cx, its poison, and a graph descriptor of two vertices at 0x1000. -/
def sLds (p : Bool) : State := if p then (sOp 0x2A (2 * 2 ^ 32)).spadWr 155 0 [1, 2, 3, 4] true else sOp 0x2A (2 * 2 ^ 32)
def sPf : State := sCx (putW base 0x1000 [2, 0x2000, 0x3000, 0, 0, 1, 0, 0]) (word (0x32 * 2 ^ 56 + 1 * 2 ^ 41)) (cxAt [(1, 0x1000)] [])
theorem wit_immediate :
    ((sLds false).issues cx (word (0x2A * 2 ^ 56 + 2 * 2 ^ 32)) ∧ (sLds true).issues cx (word (0x2A * 2 ^ 56 + 2 * 2 ^ 32)) ∧
      (sOp 0x2B 0).issues cx (word (0x2B * 2 ^ 56)) ∧ sPf.issues cx (word (0x32 * 2 ^ 56 + 1 * 2 ^ 41)) ∧ (sOp 0x41 0).issues cx (word (0x41 * 2 ^ 56)) ∧
      (sOp 0x48 0).issues cx (word (0x48 * 2 ^ 56))) ∧
    (spadOperand cx (wAddr (cxAt [] []) (word (0x2A * 2 ^ 56 + 2 * 2 ^ 32))) (wSize (word (0x2A * 2 ^ 56 + 2 * 2 ^ 32))) = some 0 ∧
      (sLds false).spadPoison 155 0 4 = false ∧ (sLds true).spadPoison 155 0 4 = true) ∧
    ((sPf.ctxAt cx).reg 1).toNat % 64 = 0 ∧ (sPf.prefetch cx 0x1000 0).1 = true ∧
    ((sOp 0x41 0).waitOffer 0 (.walker cx) 0 0 0).1 = true ∧ ((sOp 0x41 0).waitOffer 0 (.walker cx) 0 1 0).1 = false ∧
    ((sOp 0x48 0).wvAt (ctxWv cx)).taskOf ((sOp 0x48 0).ctxAt cx) = some (prog1 (word (0x48 * 2 ^ 56))) := by
  refine ⟨⟨issues_of _ _ ?_, issues_of _ _ ?_, issues_of _ _ ?_, issues_of _ _ ?_, issues_of _ _ ?_, issues_of _ _ ?_⟩, ?_⟩ <;> decide +kernel

/-- A load outstanding at the request number 2, with and without a mapping, and a GRL that waits for the walker bag queue. -/
def rLd : WReq := ⟨2, 0, .ld 0x20 8 true 31, []⟩
def rGrl : WReq := ⟨2, 0, .grl 0 [] false, []⟩
def sArr (s : State) (r : WReq) : State := sCx s 0 (cxAt [] [r])
theorem wit_arrivals :
    ((sArr base rLd).ctxAt cx).reqs.find? (fun r => r.id = 2) = some rLd ∧
    (sArr base rLd).parkedAt 11 (.walker cx 2) = false ∧ ((sArr base rLd).ctxAt cx).mayArrive rLd = true ∧ (sArr base rLd).saddOut (cx, 2) = false ∧
    ((sArr base rLd).ctxAt cx).isOver = false ∧ cluRegion cx.clu.val = 11 ∧
    ((sArr base rLd).readVa1 11 ⟨word 0x20, .read, false, .walker cx 2⟩ 8).1 = some (bytes 8 0, false) ∧
    ((sArr (base.setRg (pgXlat 0) oXlatRoot 0) rLd).readVa1 11 ⟨word 0x20, .read, false, .walker cx 2⟩ 8).1 = none ∧
    ((base.wvAt 623).ctxs.any (fun e => e.2.st = .ready)) = false ∧
    ((sArr base rGrl).wv.filter (fun e => decide (cluRegion (e.1 / 4) = 11))).flatMap (fun e => e.2.ctxs.flatMap (fun x =>
      (x.2.reqs.filter (fun q => q.op.unsent && !x.2.isOver && !(sArr base rGrl).parkedAt 11 (.walker (ctxRef e.1 x.1) q.id))).map
        (fun q => (ctxRef e.1 x.1, q)))) = [(cx, rGrl)] ∧ (sArr base rGrl).grQueued 11 < walkerBags := by decide +kernel

/-! ## Counters, dispatchers, cluster units, Comet, ledger -/

/-- A wait of the SIGNAL task in entry 5 on counter 4095. -/
def wEnt (due : Option Nat) : WaitEnt := ⟨.task 11 5 0, 4095, 3, 1000, 0, 6, due⟩
def sWaits (due : Option Nat) (now : Nat) : State :=
  ((atNs base now).setRg (pgSync 11) oSyncCtrSel 4095).putSync 11 { SyncSt.reset with waits := [wEnt due], incQ := [⟨4095, 2, none⟩, ⟨7, 1, none⟩, ⟨4095, 1, none⟩] }
theorem wit_counters :
    (sWaits none 0).pins.held = false ∧ ((sWaits none 0).syncAt 11).incQ.any (fun i => i.ctr = 4095) = true ∧
    ((base.syncAt 11).waits ++ (base.syncAt 11).held).any (fun w => w.ctr = base.rf (pgSync 11) oSyncCtrSel 11 0) = false ∧
    base.ctrOwned 11 (base.rf (pgSync 11) oSyncCtrSel 11 0) = false ∧
    (((sWaits none 0).syncAt 11).waits ++ ((sWaits none 0).syncAt 11).held).any (fun w =>
      w.ctr = (sWaits none 0).rf (pgSync 11) oSyncCtrSel 11 0) = true ∧ fld (0x100000FFF : Word) 63 32 ≠ 0 ∧
    [wEnt (some 9)] = takeDue 16 (((sWaits (some 9) 20).syncAt 11).waits.filter (fun w => w.due.isSome)) ∧
    ((((sWaits none 1001).syncAt 11).waits ++ ((sWaits none 1001).syncAt 11).held).find? (fun w => w.seq = 6) = some (wEnt none) ∧
      (wEnt none).dead < (sWaits none 1001).ns) := by decide +kernel

/-- An admitted request whose task list for region 11 lies at 0x50000 with a SIGNAL entry. -/
def sigEntry : List Byte :=
  wordsBytes [word (7 * 2 ^ 60), 0, 0, 0, 0, 0, 0, word (5 * 2 ^ 32 + 0xBFFF)] ++ bytes 192 0
def listEnt : LaunchEnt := ⟨11, 0x50000, 1, 0, 0, List.replicate 12 0⟩
def sList : State := (putAt baseM 0x50000 sigEntry).putSlot 4 { AdmSt.reset with st := .running, ents := [listEnt] }
/-- The same with every window entry in use. -/
def sListFull : State := sList.putDisp 11 { sList.dispAt 11 with window := (List.range 2048).map (fun e => (e, { TaskSt.reset with st := .running })) }
/-- A READY task of a kind in entry 5, for the logical clusters of a mask. -/
def sReady (kind mask : Nat) : State :=
  (baseM.putSlot 4 { AdmSt.reset with st := .running }).putTask 11 5 { TaskSt.reset with st := .ready, slot := 4, kind := kind, hdr := wordsBytes [word (kind * 2 ^ 60 + mask * 2 ^ 48), 0, 0, 0, 0, 0, 0, word (5 * 2 ^ 32 + 0xBFFF)], payload := bytes 64 0 }
theorem wit_dispatch :
    (sList.nextList 11 = some (4, listEnt, 0) ∧ (sList.dispAt 11).freeEntry = some 0 ∧ sList.parkedAt 11 (.list 4 11) = false ∧
      (sList.readVa 11 (.list 4 11) false (listEnt.listVa + 256 * 0) 256).1 = some (sigEntry, List.replicate 8 false) ∧
      taskEntryOk sigEntry = true ∧ sList.pins.held = false) ∧
    ((sReady 1 0x001).logClu 154 = some 11 ∧ (sReady 1 0x001).unitAccepts 154 .mantis = true ∧
      ((sReady 1 0x001).dispAt 11).asks.contains (154, .mantis) = false ∧ ((sReady 1 0x001).domAt 154).st = .on ∧
      ((sReady 1 0x001).readyFirst 11 (unitKindCode .mantis) (fun t => t.cluMask.testBit 11)).map (·.1) = none) ∧
    ((sReady 1 0x800).readyFirst 11 (unitKindCode .mantis) (fun t => t.cluMask.testBit 11)).map (·.1) = some 5 ∧
    ((sReady 7 0).readyFirst 11 7 (fun _ => true)).map (·.1) = some 5 := by decide +kernel
/-- A map that gives every key of a list one value. -/
theorem smapGet_all {α : Type} (d : Nat → α) (x : α) (e : Nat) (l : List Nat) (h : e ∈ l) :
    smapGet d (l.map (fun e => (e, x))) e = x := by
  induction l with
  | nil => simp at h
  | cons k l ih =>
    simp only [List.map_cons, smapGet]
    split
    · rfl
    · rename_i hne; exact ih ((List.mem_cons.mp h).resolve_left hne)
theorem wit_windowFull : sListFull.nextList 11 = some (4, listEnt, 0) ∧ (sListFull.dispAt 11).freeEntry = none := by
  refine ⟨by decide +kernel, ?_⟩
  have h : (sListFull.dispAt 11).window = (List.range 2048).map (fun e => (e, { TaskSt.reset with st := .running })) := by
    simp only [sListFull, State.putDisp, State.dispAt, State.setDisp, smapGet_set_same]
  unfold DispSt.freeEntry windowCap
  rw [h, List.find?_eq_none]
  intro e he
  rw [smapGet_all _ _ _ _ he]; decide
/-- The Mantis, Scarab and Firefly of the last cluster have asked. -/
def sAsked : State := base.putDisp 11 { base.dispAt 11 with asks := [(155, .mantis), (155, .gmx), (155, .firefly)] }
theorem wit_gates : (sAsked.dispAt 11).asks.contains (155, .gmx) = true ∧ (sAsked.gmxAt 155).tasks = [] ∧
    (sAsked.dispAt 11).asks.contains (155, .firefly) = true ∧ (sAsked.vecAt 155).tasks = [] ∧
    (sAsked.dispAt 11).asks.contains (155, .mantis) = true ∧ (sAsked.matAt 155).tasks = [] ∧ (sAsked.matAt 155).bufs = [] ∧
    (sAsked.matAt 155).relay = [] := by decide +kernel

/-- A matrix task of 16 by 128 with one sum written out, before or after its groups. -/
def mtk (issued relay : Bool) : MatTask :=
  ⟨5, 4, wordsBytes [word 4, 0, word (b2n relay * 2 ^ 22), 0, 0, 0, 0, word (6 * 2 ^ 28)], [0x3F800000], [false], issued, [], []⟩
def sMat (ts bs : List MatTask) : State := baseM.putMat 154 { MatSt.reset with tasks := ts, bufs := bs }
def chk : Chunk := ⟨6, 1, bytes 32 9, [false], 4⟩
def sRelay : State := (sMat [mtk false true] []).putRelay 143 [chk]
theorem wit_matrix :
    ((sMat [mtk false false] []).matAccept 154 1).dbg.units.contains 154 = false ∧
    (((sMat [mtk false false] []).matAccept 154 1).matAt 154).tasks.find? (fun t => t.canIssue) = some (mtk false false) ∧
    ((sMat [mtk true false] []).matAt 154).tasks.find? (fun t => t.issued) = some (mtk true false) ∧ ((sMat [mtk true false] []).matAt 154).bufs.length < 2 ∧
    2 ≤ ((sMat [mtk true false] [mtk true false, mtk true false]).matAt 154).bufs.length ∧ base.dbg.mode.contains 155 = false ∧
    (({ base with dbg := { base.dbg with mode := [154] } } : State).dbg.mode.contains 154 = true ∧
      ((sMat [mtk false false] []).matAt 154).tasks.filter (fun t => !t.sums.isEmpty) = [mtk false false] ∧ (mtk false false).sums[0]? = some 0x3F800000) ∧
    ((sMat [] [mtk true false]).matAt 154).bufs = mtk true false :: [] ∧ (mtk true false).bad.any id = false ∧
    (sMat [] [mtk true false]).relayClear 154 (mtk true false) = true ∧
    (sRelay.relayKey 154 = some 143 ∧ sRelay.relayAt 143 = chk :: [] ∧ (sRelay.matAt 154).tasks = [mtk false true] ∧ (mtk false true).sums ≠ [] ∧
      mxRelay (mtk false true).body = true ∧ mxId (mtk false true).body = chk.id ∧ (mtk false true).chunks.contains chk.n = false ∧
      mxFwd (mtk false true).body = false) := by decide +kernel

/-- A GMX task of one tile of FP32 with the operation given; its area word, if it expands, lies at 0. -/
def gtk (op : Nat) (part : Option (Nat × Bool)) : UnitTask :=
  ⟨5, 4, wordsBytes [word (op * 2 ^ 48 + 2 ^ 11 + 1), word (128 * 2 ^ 32), 0, 0, 1, 0, 0, 0], part⟩
def sGmx (t : UnitTask) : State := baseM.putGmx 154 { UnitSt.reset with tasks := [t] }
def c154 : Clu := 154
/-- The compressed area of one zero tile of FP32: an area word of 24 bytes with one map word and one tile of a header alone. -/
theorem wit_gradient :
    ((sGmx (gtk 1 none)).gmxTake c154 1 = some (gtk 1 none) ∧ (gtk 1 none).part = none) ∧
    ((sGmx (gtk 0 (some (9, true)))).gmxTake c154 0 = some (gtk 0 (some (9, true)))) ∧ (sGmx (gtk 0 none)).gmxTake c154 0 = some (gtk 0 none) ∧
    ((sGmx (gtk 2 none)).gmxTake c154 2 = some (gtk 2 none) ∧ ((sGmx (gtk 2 none)).areaRead 154 (gxArea (gtk 2 none).body) 1 1 0).bad.isSome = true) := by
  decide +kernel

/-- The state in which a COMPRESS of the same descriptor has written its area. -/
def sExp : State :=
  let (ds, s) := (sGmx (gtk 2 none)).denseTiles 154 (gtk 2 none).body 4
  s.areaWrite 154 (gtk 2 none).body (ds.map (fun d => (tilePack 0 d.1 d.2, d.2)))
theorem wit_expand : sExp.gmxTake c154 2 = some (gtk 2 none) ∧
    (sExp.areaRead 154 (gxArea (gtk 2 none).body) (gxTr (gtk 2 none).body) (gxTc (gtk 2 none).body) (gxFmt (gtk 2 none).body)).bad = none ∧
    (sExp.areaRead 154 (gxArea (gtk 2 none).body) (gxTr (gtk 2 none).body) (gxTc (gtk 2 none).body) (gxFmt (gtk 2 none).body)).tiles.any
      (fun x => x.poison) = false := by decide +kernel

/-- A moments task of one row of one column, and one whose descriptor has a reserved bit. -/
def mot (bad : Bool) : UnitTask := ⟨5, 4, wordsBytes [word (2 ^ 32 + 2 ^ 18 + b2n bad * 2 ^ 63), 0, 0, 0, 0, 0, 0, 0], none⟩
def sMo (bad : Bool) : State := baseM.putVec 154 { UnitSt.reset with tasks := [mot bad] }
/-- A swarm of two pieces whose piece 0 waits at region 11 for cluster 154, and one whose set is on its way. -/
def swB (fast : Bool) : BagSt := { bag1 1 false with id := 0, owner := .walker cx 2, fast := fast, clu := 154 }
def sw (ship : List SwarmSet) (fast : Bool) : SwarmSt := ⟨8, cx, 2, 11, swB fast, 0, 0x28000, 0, 16385, 4, 2, 2, [], [], ship, none, 0⟩
def pieceT : PieceTask := ⟨11, 8, 0, 154, 4, 0⟩
def sSwarm (ship : List SwarmSet) (fast : Bool) : State :=
  let s := { baseM with swarms := [sw ship fast] }
  s.putDisp 11 { s.dispAt 11 with pieces := [pieceT] }
theorem wit_moments :
    (((sMo false).vecAt 154).tasks = mot false :: [] ∧ moFieldsOk (mot false).body = true ∧ (sMo false).moCounts 154 (mot false).body = some 0 ∧
      moRows (mot false).body + 0 ≤ 2 ^ 42 ∧ moExport (mot false).body = false ∧
      ((List.range (moCols (mot false).body)).map ((sMo false).moCol 154 (mot false).body)).any (fun m => m.bad) = false) ∧
    (((sMo true).vecAt 154).tasks = mot true :: [] ∧ moFieldsOk (mot true).body = false) ∧
    ((sSwarm [] false).swarmAt pieceT.bag = some (sw [] false) ∧ (sw [] false).sets.any (fun u => u.clu = pieceT.clu) = false ∧
(sSwarm [] false).lookupNext 11 = some (.inr pieceT)) ∧
    (({ sSwarm [swarmSet 154 4 true] true with swarms := [{ sw [swarmSet 154 4 true] true with ctx := ⟨154, 0, 0⟩ }] } : State).swarms.find?
        (fun w => decide (w.ctx.clu = c154) && !w.ship.isEmpty) = some { sw [swarmSet 154 4 true] true with ctx := ⟨154, 0, 0⟩ } ∧
      0 + (swarmSet 154 4 true).pieces < 2) := by decide +kernel

/-- A transfer of two rows of 32 B between memory and memory in slot 1023. -/
def xf (st : XferState) (rows : List Nat) (saved : Option Nat) : XferSt :=
  { XferSt.reset with st := st, desc := wordsBytes [word (2 * 2 ^ 62 + 2 * 2 ^ 59 + 32 * 2 ^ 36), 0x60000, 0x70000, 0x100000002, 0x100000001, 32, 0, 0, 0, 32, 0, 0, 0, 0, 0, 0], queue := 63, slot := 4, task := 5, prefix_ := 0, rows := rows, saved := saved, waitMet := true }
def sXf (s : State) (x : XferSt) : State := (((s.setRg (pgComet 11) (oCometQctl + 8 * 63) 0x10001).setRg (pgComet 11) oCometBufGranules 1).putXfer 11 1023 x)
def sXf0 : State := (sXf baseM (xf .active [] none)).setRg (pgComet 11) oCometBufGranules 2
/-- The same while its wait is not met, and while translation is off. -/
def sXfW : State := sXf0.putXfer 11 1023 { xf .active [] none with waitMet := false }
def sXfF : State := sXf0.setRg (pgXlat 0) oXlatRoot 0
def rowBuf1 : RowBuf := ⟨1, [1], [false]⟩
theorem wit_transfers :
    (bit ((sXf baseM (xf .queued [] none)).rg (pgComet 11) (oCometQctl + 8 * 63)) 16 = true ∧
      ((((sXf baseM (xf .queued [] none)).cometAt 11).queue 63).take ((sXf baseM (xf .queued [] none)).qDepth 11 63)).find? (fun e => e.2.st = .queued) =
        some (1023, xf .queued [] none)) ∧
    ((sXf0.xferAt 11 1023).st = .active ∧ 1 < (sXf0.xferAt 11 1023).total ∧ (sXf0.xferAt 11 1023).prefix_ ≤ 1 ∧
      (sXf0.xferAt 11 1023).rows.contains 1 = false ∧ (sXf0.xferAt 11 1023).saved = none ∧
      ((sXf0.rowIssue 11 1023 1).xferAt 11 1023).waitMet = true ∧
      (((sXf0.rowIssue 11 1023 1).xferAt 11 1023).bufs.find? (fun b => b.row = 1)) = some rowBuf1 ∧
      ((sXf0.rowIssue 11 1023 1).xferRow 11 1023 rowBuf1).1 = true) ∧
    ((sXfW.xferAt 11 1023).st = .active ∧ ((sXfW.rowIssue 11 1023 1).xferAt 11 1023).waitMet = false) ∧
    ((sXfF.xferRow 11 1023 rowBuf1).1 = false) ∧
    (((sXf baseM (xf .active [] (some 1))).xferAt 11 1023).st = .active ∧ ((sXf baseM (xf .active [] (some 1))).xferAt 11 1023).saved = some 1 ∧
      ((sXf baseM (xf .active [] (some 1))).xferAt 11 1023).bufs = []) ∧
    (((sXf baseM (xf .draining [] none)).xferAt 11 1023).st = .draining ∧ ((sXf baseM (xf .draining [] none)).xferAt 11 1023).ended = 0) := by decide +kernel

/-- A snapshot armed for 5000 ns, and latched. -/
def sSnap (n : Nat) (latched : Bool) : State := (atNs base n).setSnap (some ⟨5000, if latched then some base.books else none⟩)
theorem wit_snapshot : base.snap = none ∧ bit (1 : Word) 0 = true ∧ (sSnap 0 false).snap.isSome = true ∧
    ((sSnap 5000 false).snap = some ⟨5000, none⟩ ∧ 5000 ≤ (sSnap 5000 false).ns) ∧ ((sSnap 4999 false).snap = some ⟨5000, none⟩ ∧ (sSnap 4999 false).ns < 5000) ∧
    (sSnap 0 true).snap = some ⟨5000, some base.books⟩ := by decide +kernel

/-! ## Links, discovery, RDMA -/

/-- Every link of port 3 enabled, 4 links; link 15 in a state, at a time. -/
def sLink (st : LinkPhase) (fails : Nat) : State :=
  let s := (atNs base (2 * 10 ^ 9)).setRg (pgEth 3) oEthCfg (word (2 + 15 * 2 ^ 4 + 255 * 2 ^ 8))
  (s.putLink 15 { LinkSt.reset with st := st, fails := fails, downAt := some (1990000000) })
theorem wit_links :
    ((∀ k, k < 4 → (base.linkAt (3 * 4 + k)).st = .down) ∧ (base.domAt (180 + 3)).st = .on ∧ base.pins.held = false) ∧
    ((sLink .up 0).linkAt (3 * 4 + 3)).st ≠ .down ∧ ((sLink .training 0).linkAt 15).st = .training ∧
    (((sLink .down 2).linkAt 15).st = .down ∧ ((sLink .down 2).linkAt 15).fails < 3 ∧ (sLink .down 2).linkWanted 15 = true ∧
      ((sLink .down 2).linkAt 15).downAt = some 1990000000 ∧ 1990000000 + 10 ^ 7 ≤ (sLink .down 2).ns) ∧
    ((sLink .training 0).linkAt 15).fails ≠ 4 ∧
    (((sLink .up 0).linkAt 15).st = .up ∧
      (((sLink .up 0).linkAt 15).fec ++ [(sLink .up 0).ns]).countP (fun t => (sLink .up 0).ns < t + 10 ^ 9) ≤ 16) ∧
    ((sLink .down 3).linkAt 15).fails = 3 := by decide +kernel

/-- A pause of priority 7 of port 3 that has held for 100 ms. -/
def sPause : State := let s := atNs base (10 ^ 8 + 5); s.setEth { s.eth with pauses := [⟨3, 7, 5, 10 ^ 8 + 6, false⟩] }
theorem wit_pauses : (List.replicate 8 (0xFFFF : BitVec 16)).length = 8 ∧ sPause.eth.pauses = [⟨3, 7, 5, 10 ^ 8 + 6, false⟩] ∧
    sPause.ns < 10 ^ 8 + 6 ∧ 5 + 10 ^ 8 ≤ sPause.ns := by decide +kernel

/-- Link 15 UP with an IPv4 address of its own; a query due; a discovery message. -/
def sOwn : State := (sLink .up 0).setLinkRg 15 oEthIpv4 (word (2 * 2 ^ 40 + 24 * 2 ^ 32 + 0x0A000001))
def sDhcp : State := (sLink .up 0).setEth { (sLink .up 0).eth with dhcp := [(15, 2)] }
def ipv6a : AddrInfo := { ipv6 := true, source := 2, addr := 0xFE800000000000000000000000000001, prefixLen := 64 }
def sQuery : State := (sLink .up 0).setEth { (sLink .up 0).eth with queries := [(15, 2 * 10 ^ 9)] }
def discMsg : List Byte := wordsBytes [word (2 ^ 32 + 0x5A475631), 0, 0, 0, 0, 0, 0, 0]
theorem wit_neighbors :
    (sOwn.pins.held = false ∧ (sOwn.linkAt 15).st = .up ∧ sOwn.ownV4 15 0x0A000001 = true ∧ sOwn.ownV4 15 0x0A000002 = false) ∧
    (ipv6a.source = 2 ∧ (smapGet (fun _ => 0) sDhcp.eth.dhcp 15).testBit (b2n ipv6a.ipv6) = true ∧ sDhcp.addrSource 15 ipv6a.ipv6 ≠ 1 ∧
      (sDhcp.addrWrite 15 ipv6a).linkAt 15 ≠ sDhcp.linkAt 15) ∧
    ((sLink .up 0).linkAt 15).annAt + max 100 (fld ((sLink .up 0).linkRg 15 oEthDiscCtl) 15 0) * 1000000 ≤ (sLink .up 0).ns ∧
    (sQuery.eth.queries.find? (fun q => decide (q.1 = 15) && decide (q.2 ≤ sQuery.ns)) = some (15, 2 * 10 ^ 9) ∧ (sQuery.linkAt 15).st = .up) ∧
    (discMsg.length = 64 ∧ leAt discMsg 0 4 = 0x5A475631 ∧ leAt discMsg 4 1 = 1) := by decide +kernel

/-- Queue pair 16383 in a state, on link 15, with a work queue of 2 entries at 0x60000 and SIG_EN by choice. -/
def qpCtx (sig : Bool) : List Byte := wordsBytes [word (3 * 2 ^ 6 + b2n sig * 8), 0, word (255 * 2 ^ 24), 0, 0, word (2 ^ 52 + 0x60000), 0, 0, 0, 0, 0, 0, 0, 0, 0, 0]
def qpv (st : QpState) (sig : Bool) : QpSt := { QpSt.reset with st := st, ctx := qpCtx sig, owner := true, sqPsn := 5, rqPsn := 0xFFFFFF, avail := 1 }
def sQp (v : QpSt) : State := (sLink .up 0).putQp 16383 v
def cm15 : CmMsg := { port := 3, qp := 16383, peerQpn := 0xFFFFFF, peerPsn := 1 }
theorem wit_connections : cmMine cm15 = true ∧ mgmtQp 16383 = false ∧ (((sQp (qpv .init false)).demandNow 187 (pgRdma 3)).qpAt 16383).st = .init ∧
    (((sQp (qpv .rts false)).demandNow 187 (pgRdma 3)).qpAt 16383).st ≠ .init ∧ ((sQp (qpv .init false)).qpAt 16383).st = .init ∧
    ((sQp { qpv .init false with connected := true }).qpAt 16383).connected = true ∧ ((sQp (qpv .rts false)).qpAt 16383).up = true := by decide +kernel

def hdr15 (psn : BitVec 24) : RxHdr := { qp := 16383, psn := psn, ce := false }
theorem wit_received : (sQp (qpv .rtr false)).takesRx (hdr15 0) ∧ (hdr15 0xFFFFFF).psn.toNat = ((sQp (qpv .rtr false)).qpAt 16383).rqPsn ∧
    2 ^ 23 ≤ ((hdr15 0x7FFFFF).psn.toNat + 2 ^ 24 - ((sQp (qpv .rtr false)).qpAt 16383).rqPsn) % 2 ^ 24 ∧
    (0 < ((hdr15 0).psn.toNat + 2 ^ 24 - ((sQp (qpv .rtr false)).qpAt 16383).rqPsn) % 2 ^ 24 ∧
      ((hdr15 0x7FFFFE).psn.toNat + 2 ^ 24 - ((sQp (qpv .rtr false)).qpAt 16383).rqPsn) % 2 ^ 24 < 2 ^ 23) := by
  unfold State.takesRx; decide +kernel

/-- A READ outstanding at PSN 5; a WQE acknowledged; a pending remote increment whose WRITEs have landed. -/
def rdMsg : TxMsg := { psn := 5, npkt := 1, op := .read 0 0 8, cmpl := none, dest := some 0x61000, wqe := true, signal := false, fence := false, pages := false }
def psig15 : PSig := ⟨3, 9, 16383, 11, 4095, 1, [], 0⟩
def sPsig : State := (sQp (qpv .rts true)).setEth { (sQp (qpv .rts true)).eth with psig := [psig15] }
theorem wit_answers :
    (((sQp (qpv .rts false)).qpAt 16383).st = .rts ∧ ((sQp (qpv .rts false)).qpAt 16383).sigEn = false) ∧
    (((sQp (qpv .rts true)).qpAt 16383).sigEn = true ∧ (30 : BitVec 5).toNat ≤ 30) ∧
    ((sQp { qpv .rts false with unacked := [rdMsg] }).qpAt 16383).unacked ≠ [] ∧
    (((sQp { qpv .rts true with sigOwed := 1 }).qpAt 16383).up = true ∧ 0 < ((sQp { qpv .rts true with sigOwed := 1 }).qpAt 16383).sigOwed) ∧
    (((sQp { qpv .rts false with unacked := [rdMsg] }).qpAt 16383).rdHeld = [] ∧ ((sQp { qpv .rts false with unacked := [rdMsg] }).rdRun 16383 (bytes 8 1)).1 = true) ∧
    ((sQp { qpv .rts false with acked := [rdMsg] }).qpAt 16383).acked = rdMsg :: [] ∧
    (sPsig.eth.psig.find? (fun x => decide (x.eng = 3) && decide (x.id = 9)) = some psig15 ∧ sPsig.sigMet psig15 = true) := by decide +kernel

/-- A work-queue entry of an opcode: 32 bytes from 0x62000. -/
def wqe15 (op : Nat) : List Byte := wordsBytes [word op, 0x62000, 32, 0x1000, 77, 0, 0, 0]
def sWqe (op : Nat) : State := putAt (sQp { qpv .rts true with sigTx := 1 }) 0x60000 (wqe15 op)
theorem wit_wqes : ∀ op, op < 8 →
    ((sWqe op).qpAt 16383).st = .rts ∧ ((sWqe op).qpAt 16383).taken < ((sWqe op).qpAt 16383).avail ∧ fld (wordAt ((sWqe op).qpAt 16383).ctx 0x28) 55 52 ≠ 0 ∧
    ((sWqe op).qpAt 16383).txWait = [] ∧ (sWqe op).qpLinkUp 16383 = true ∧ (sWqe op).parkedAt 12 (.rdma 16383 0) = false ∧
    fld (wordAt ((sWqe op).qpAt 16383).ctx 0x28) 51 0 + 64 * (0 % 2) = 0x60000 ∧
    ((sWqe op).readVa 12 (.rdma 16383 0) true 0x60000 64).1 = some (wqe15 op, [false, false]) ∧ wqeOk (wqe15 op) = true ∧ wqeOp (wqe15 op) = op ∧
    ((sWqe op).qpAt 16383).mayTx (wqeTx (wqe15 op) ((sWqe op).wqeMsg (wqe15 op) [] false)) = true ∧
    (((sWqe op).readVa 12 (.rdma 16383 0) true 0x60000 64).2.readVa 12 (.rdma 16383 0) true (wqeLocal (wqe15 op)) (wqeLen (wqe15 op))).1 =
      some (bytes 32 0, [false]) := by decide +kernel

/-! ## The control window, the command unit, requests -/

/-- A page of a block type and instance. -/
def page (ty n : Nat) : PageRef := ⟨BitVec.ofNat 6 ty, BitVec.ofNat 10 n⟩
def sErrLast : State := base.setRg 0x4000 oErrLast (bitW 63)
theorem wit_pages : bit (sErrLast.rg (pageOf (page 0x10 0)) oErrLast) 63 = true ∧ base.pins.held = false ∧ pageExists (pageOf (page 0x10 0)) = true ∧ pageExists (pageOf (page 0x04 198)) = true ∧
    bit (bitW 63) 63 = true := by decide +kernel
theorem wit_registerWrites :
    (0xFFF8 % 8 = 0 ∧ pageExists (0xFFF8 / 4096) = false ∧ base.eth.rxHeld = []) ∧
    (∃ row, regRow 0x10 0x208 = some row ∧ row.w ≠ 0 ∧ row.rwl = false ∧ row.inst = none) := by
  refine ⟨by decide +kernel, ?_⟩
  exact ⟨_, rfl, by decide +kernel⟩

/-- Ring 62, enabled, with one command of eight words at 0x80000. -/
def r62 : CmdSrc := .ring 62
def sRing (s : State) (ws : List Nat) : State :=
  let ws := ws.map word ++ List.replicate (8 - ws.length) 0
  (putW s 0x80000 ws).putRing 62 { RingSt.reset with ctl := 0x441, cmdBase := 0x80000, prod := 1 }
/-- The words of the command, and the state in which it is taken. -/
def cw (ws : List Nat) : List Word := ws.map word ++ List.replicate (8 - ws.length) 0
def zRing (s : State) (opc : Nat) (ws : List Nat) : State := ((sRing s ws).cmdTake r62 (fun o => decide (o = opc))).2
/-- Ring 62 offers the command. -/
def off62 (s : State) (ws : List Nat) : Bool :=
  decide (((sRing s ws).cmdTake r62 (fun o => decide (o = ws.headD 0))).1 = some (cw ws, false))
theorem wit_reserved :
    (off62 base [1, 0x400] = true ∧ cmdBits (cw [1, 0x400]) [0x3FF, allBits, allBits, allBits, allBits] = false) ∧
    (off62 base [4, 0x10000] = true ∧ cmdBits (cw [4, 0x10000]) [0xFFFF] = false) ∧
    (off62 base [9, 0x100] = true ∧ cmdBits (cw [9, 0x100]) [0xFF] = false) := by decide +kernel

/-- The last entry of the queue, due at 2^40 and cancellable, and a graph image of no table at 0x82000. -/
def schedE : SchedEnt := ⟨2 ^ 60, 1, 0x8800, 0, false, 0xFFFF, 0⟩
def sSched : State := { base with time := { base.time with queue := [schedE] } }
def sImage : State := putW base 0x82000 [word (2 ^ 32 + 0x4F544731), 0]
def sReadyG : State := base.putGraph 255 ⟨.ready, []⟩
theorem wit_ringA :
    ((sRing base [0]).cmdTake r62 (fun o => decide (o = 0) || !opcDefined o)).1 = some (cw [0], false) ∧ cmdOpc (cw [0]) = 0 ∧ cmdBits (cw [0]) [] = true ∧
    (off62 base [3, 2 ^ 44, 0, 0x88000001] = true ∧
      cmdBits (cw [3, 2 ^ 44, 0, 0x88000001]) [allBits, 0xFFFF, 0xFFFF001F, 0xFFFFFFFF, 0xFFFF] = true ∧
      schedTarget (fld ((cw [3, 2 ^ 44, 0, 0x88000001]).getD 3 0) 3 0) (fld ((cw [3, 2 ^ 44, 0, 0x88000001]).getD 3 0) 31 16) = true ∧
      ((zRing base 3 [3, 2 ^ 44, 0, 0x88000001]).schedAccept ⟨2 ^ 60, 1, 0x8800, 0, false, 0, 0⟩).1 = some 0) ∧
    (off62 sSched [4, 0xFFFF] = true ∧ cmdBits (cw [4, 0xFFFF]) [0xFFFF] = true ∧
      (zRing sSched 4 [4, 0xFFFF]).time.queue.any (fun e => decide (e.tag = 0xFFFF) && !(zRing sSched 4 [4, 0xFFFF]).deliverNow e) = true) ∧
    (off62 sImage [8, 255, 0x82000] = true ∧ cmdBits (cw [8, 255, 0x82000]) [0xFF, allBits] = true ∧ ((zRing sImage 8 [8, 255, 0x82000]).graphAt 255).st = .empty ∧
      ((((zRing sImage 8 [8, 255, 0x82000]).cmdRead (cmdWho r62) 0x82000 256).1.map (fun x => (graphTables x.1 0, x.2))) = some (some [], false))) ∧
    (off62 sReadyG [9, 255] = true ∧ cmdBits (cw [9, 255]) [0xFF] = true ∧ ((zRing sReadyG 9 [9, 255]).graphAt 255).st = .ready ∧
      (zRing sReadyG 9 [9, 255]).graphStreams 255 = false ∧ (zRing sReadyG 9 [9, 255]).slotsBusy.any (fun a => a.graph = 255) = false) := by decide +kernel

/-- Table 0 with slot 7 in a state. -/
def slotT (st : Nat) : State := withTable base 0 [3, 0, 0, 0, 0, 0, 0, st]
def slotD (st : Nat) : List Byte := tdBytes 0 [3, 0, 0, 0, 0, 0, 0, st]
/-- What a slot command finds: its table, the state of slot 7, and that a word of the descriptor can be written. -/
def slotOk (opc st : Nat) (ws : List Nat) : Bool :=
  let z := zRing (slotT st) opc ws
  let f := z.tdFind 0 (cmdWho r62) 0
  off62 (slotT st) ws && decide (f.1 = .ok (slotD st)) && decide (tdState (slotD st) 7 = st) && decide (tdRegion (slotD st) = 0) &&
    (f.2.tdPut 0 (cmdWho r62) 0 0xB0 0).1 && (f.2.tdPut 0 (cmdWho r62) 0 0xB8 0).1 && decide (tdRows (slotD st) = 100)
theorem wit_tableSlots :
    (slotOk 0x10 0 [0x10, 0x1C00, 0x30000] = true ∧ cmdBits (cw [0x10, 0x1C00, 0x30000]) [0x1FFF, allBits] = true ∧ 0x30000 % 256 = 0) ∧
    (slotOk 0x11 1 [0x11, 0x1C00, 100] = true ∧ cmdBits (cw [0x11, 0x1C00, 100]) [0x1FFF, 2 ^ 40 - 1] = true) ∧
    slotOk 0x12 1 [0x12, 0x1C00] = true ∧ (slotOk 0x13 2 [0x13, 0x1C00] = true ∧ cmdBits (cw [0x13, 0x1C00]) [0x1FFF] = true) := by decide +kernel

/-- A stream block of one slot of 256 B at 0x90000 for graph 255, its response area at 0x80 and launch blocks at 0x94000. -/
def stBlock : List Byte := wordsBytes [word (2 ^ 16 + 255), word (2 ^ 16), 0x90000, word (0x80 * 2 ^ 32 + 256), word 64, 0x94000, 0, 0, 0, 0, 0, 0, 0, 0, 0, 0]
def sStream : State := putAt sReadyG 0x83000 stBlock
def sOpen : State := base.putStream 15 ⟨.open_, stBlock, [.posted]⟩
def w18 : List Nat := [0x18, 3 * 2 ^ 16 + 16383]
def qpAs (st : QpState) : State := base.putQp 16383 { QpSt.reset with st := st }
theorem wit_ringB :
    (off62 (qpAs .rtr) w18 = true ∧ cmdBits (cw w18) [0x73FFF] = true ∧ 16383 = fld ((cw w18).getD 1 0) 13 0 ∧ 3 ≤ 16383 % 4096 ∧
      fld ((cw w18).getD 1 0) 18 16 = 3 ∧ ((zRing (qpAs .rtr) 0x18 w18).qpAt 16383).st = .rtr) ∧
    (off62 base w18 = true ∧ ((zRing base 0x18 w18).qpAt 16383).st = .reset) ∧
    (off62 sStream [0x20, 15, 0x83000] = true ∧ cmdBits (cw [0x20, 15, 0x83000]) [0xF, allBits] = true ∧
      ((zRing sStream 0x20 [0x20, 15, 0x83000]).streamAt 15).st = .closed ∧
      ((zRing sStream 0x20 [0x20, 15, 0x83000]).cmdRead (cmdWho r62) 0x83000 128).1 = some (stBlock, false) ∧ streamOk stBlock = true ∧
      (((zRing sStream 0x20 [0x20, 15, 0x83000]).cmdRead (cmdWho r62) 0x83000 128).2.graphAt 255).st = .ready) ∧
    (off62 sOpen [0x21, 15] = true ∧ cmdBits (cw [0x21, 15]) [0xF] = true ∧ ((zRing sOpen 0x21 [0x21, 15]).streamAt 15).st = .open_) := by decide +kernel

/-- Session 3 is open and authenticated both ways; the device is bound to its certificate chain, or unbound. -/
def sSess (b : Bool) : State :=
  (base.putSess 3 ⟨true, true, true, true, [], 0, 0, []⟩).setHost { base.host with bound := b, owner := if b then digestBytes [] else [] }
theorem wit_binding :
    ((sSess false).offers (.mgmt 3 (cw [0x30])) 0x30 (cw [0x30]) (sSess false) ∧ (sSess false).host.bound = false) ∧
    ((sSess true).offers (.mgmt 3 (cw [0x30])) 0x30 (cw [0x30]) (sSess true) ∧ (sSess true).host.bound = true) ∧
    (sSess true).offers (.mgmt 3 (cw [0x31])) 0x31 (cw [0x31]) (sSess true) ∧ cmdBits (cw [0x31]) [] = true := by
  have h : ∀ b, (sSess b).sessAt 3 = ⟨true, true, true, true, [], 0, 0, []⟩ := by decide +kernel
  have o : (sSess true).host.owner = digestBytes [] := rfl
  have c0 : cmdOpc (cw [0x30]) = 0x30 := by decide +kernel
  have c1 : cmdOpc (cw [0x31]) = 0x31 := by decide +kernel
  have l0 : (cw [0x30]).length = 8 := by decide +kernel
  have l1 : (cw [0x31]).length = 8 := by decide +kernel
  refine ⟨⟨?_, rfl⟩, ⟨?_, rfl⟩, ?_, by decide +kernel⟩ <;>
    simp [State.offers, State.cmdTake, State.mgmtOk, h, o, c0, c1, l0, l1]

/-- An admission slot in a state, and the device in service. -/
def sAdm (a : AdmSt) (n : Nat) : State :=
  let s := ((atNs baseM n).putSlot 4095 a)
  (s.putGraph 255 ⟨.ready, []⟩).setHost { s.host with bound := true }
def adm (st : AdmState) : AdmSt := { AdmSt.reset with st := st, graph := 255, reqSeq := 9, admitSt := 5000 }
def sLaunch8 : State := let s := sAdm AdmSt.reset 0; { s with dev := { s.dev with st := .full } }
def w02 : List Nat := [2, 9 * 2 ^ 16 + 4095]
theorem wit_requestsLaunched :
    (off62 baseM [1, 255, 7, 0, 0, 0xA0000] = true ∧ cmdBits (cw [1, 255, 7, 0, 0, 0xA0000]) [0x3FF, allBits, allBits, allBits, allBits] = true ∧
      ((zRing baseM 1 [1, 255, 7, 0, 0, 0xA0000]).launch (cmdWho r62) { graph := 255, rt := false, abort := false, seed := 7, admitSt := 0, deadline := 0, va := 0xA0000, ring := 62, cmdId := 0, stream := none }).1 =
        some (.conflict pgHcmd 0)) ∧
    (off62 (sAdm (adm .running) 0) w02 = true ∧ cmdBits (cw w02) [allBits ^^^ 0xF000] = true ∧ 4095 = fld ((cw w02).getD 1 0) 11 0 ∧
      ((zRing (sAdm (adm .running) 0) 2 w02).slotAt 4095).st ≠ .free ∧ ((zRing (sAdm (adm .running) 0) 2 w02).slotAt 4095).st ≠ .ending ∧
      ((zRing (sAdm (adm .running) 0) 2 w02).slotAt 4095).reqSeq = fld ((cw w02).getD 1 0) 63 16) := by decide +kernel
/-- A held request on a graph that uses table 5, with the switch of table 5 due at 5000 ns. -/
def sSwitch : State :=
  let s := (sAdm (adm .held) 5000).putGraph 255 ⟨.ready, [5]⟩
  s.setTime { s.time with queue := [⟨5000 * 2 ^ 16, 3, pgEmb 0, 5, false, 0, 0⟩] }
theorem wit_requestsRun :
    (sSwitch.admReady 4095 = true ∧ sSwitch.versionDue 4095 = true ∧ (sAdm (adm .held) 5000).versionDue 4095 = false) ∧
    ((sAdm (adm .held) 5000).admReady 4095 = true ∧ ((sAdm (adm .held) 5000).slotAt 4095).admitSt ≠ word allBits ∧
      ((sAdm (adm .held) 5000).slotAt 4095).admitSt.toNat ≤ (sAdm (adm .held) 5000).ns) ∧
    ((sAdm (adm .held) 4999).admReady 4095 = true ∧ (sAdm (adm .held) 4999).ns < ((sAdm (adm .held) 4999).slotAt 4095).admitSt.toNat) ∧
    (((sAdm { adm .running with rt := true, deadline := 5000 } 5001).slotAt 4095).rt = true ∧
      ((sAdm { adm .running with rt := true, deadline := 5000 } 5001).slotAt 4095).deadline.toNat < (sAdm { adm .running with rt := true, deadline := 5000 } 5001).ns) ∧
    ((sAdm (adm .running) 0).reqDone 4095 = true ∧ ((sAdm (adm .running) 0).dropPins 4095 (admWho 4095) []).1 = true ∧
      ((sAdm (adm .running) 0).slotAt 4095).pins = [] ∧ ((sAdm (adm .running) 0).slotAt 4095).rt = false ∧ ((sAdm (adm .running) 0).slotAt 4095).missed = false) ∧
    ((sAdm { adm .ending with status := stMissed } 0).reqDrained 4095 = true ∧
      ((sAdm { adm .ending with status := stMissed } 0).slotAt 4095).pins = []) := by decide +kernel

/-- Stream 15 with a request landed in its slot: its first word is the magic number or not. -/
def sSvcReq (magic : Nat) : State :=
  let s := putW (sLaunch8.putStream 15 ⟨.open_, stBlock, [.landed 16383 32 5]⟩) 0x90000 [word magic, 1, 2, 96]
  s.putCore 7 { s.coreAt 7 with st := .running, services := 1 }
def hSvc (magic : Nat) : List Byte := wordsBytes [word magic, 1, 2, 96]
theorem wit_serviceRequest :
    ((sSvcReq 0).svcCore = some 7 ∧ ((sSvcReq 0).streamAt 15).firstLanded = some (0, 16383, 5) ∧
      ((sSvcReq 0).cmdRead (.svc 7) (stSlotVa ((sSvcReq 0).streamAt 15).block 0) 32).1 = some (hSvc 0, false) ∧ leAt (hSvc 0) 0 8 ≠ 0x5A475251) ∧
    ((sSvcReq 0x5A475251).svcCore = some 7 ∧ ((sSvcReq 0x5A475251).streamAt 15).firstLanded = some (0, 16383, 5) ∧
      ((sSvcReq 0x5A475251).cmdRead (.svc 7) (stSlotVa ((sSvcReq 0x5A475251).streamAt 15).block 0) 32).1 = some (hSvc 0x5A475251, false) ∧
      leAt (hSvc 0x5A475251) 0 8 = 0x5A475251 ∧ 32 + leAt (hSvc 0x5A475251) 0x18 4 ≤ stOutOff ((sSvcReq 0x5A475251).streamAt 15).block ∧
      (((sSvcReq 0x5A475251).cmdRead (.svc 7) 0x90000 32).2.launch (.svc 7) { graph := 255, rt := false, abort := false, seed := 0, admitSt := 0, deadline := 0, va := 0x94000, ring := 63, cmdId := 0, stream := some (15, 0) }).1.map
        (fun r => r.status) = some stOk) := by decide +kernel

/-! ## SPDM, power, repair, boot, logs, debug, pins -/

theorem wit_spdm : base.pins.held = false ∧ ((base.putConn 3 ⟨1⟩).connAt 3).phase = 1 ∧ (base.connAt 3).phase ≠ 1 ∧ ((base.putConn 3 ⟨2⟩).connAt 3).phase = 2 ∧
    (((base.putConn 3 ⟨3⟩).connAt 3).phase = 3 ∧ (List.range 4).find? (fun k => !((base.putConn 3 ⟨3⟩).sessAt k).open_) = some 0) ∧
    (((base.putSess 3 ⟨true, true, false, false, [], 0, 0, []⟩).sessAt 3).open_ = true ∧ ((base.putSess 3 ⟨true, true, false, false, [], 0, 0, []⟩).sessAt 3).finished = false ∧
      ((base.putSess 3 ⟨true, true, false, false, [], 0, 0, []⟩).sessAt 3).auth = true) := by decide +kernel

/-- Domain 198 in a state. -/
def sDom (st : DomState) : State := base.putDom 198 ⟨st⟩
theorem wit_power : ((sReady 1 0x800).logClu 154 = some 11 ∧ (sReady 1 0x800).askFor 11 1 0x800 = none ∧ (sReady 1 0x800).cluWanted 154 = true) ∧ ((sDom .ret).pwrdReq 198 0).1 = true ∧ ((sDom .on).pwrdReq 198 1).1 = true ∧ ((sDom .ret).pwrdReq 198 2).1 = true ∧
    ((sDom .toRet).domAt 198).st = .toRet ∧ ((sDom .toOff).domAt 198).st = .toOff ∧ ((sDom .waking).domAt 198).st = .waking ∧
    base.pwr.p ≤ 3 ∧ ({ base with dev := { base.dev with step := 4 } } : State).pmbusUp = true ∧ ([some 5, none] : List (Option Nat)).any Option.isSome = true := by
  decide +kernel
theorem wit_temperatures : (List.replicate 12 (1600 : Int)).length = 12 ∧ (List.replicate 3 (0 : Int)).length = 3 ∧
    (List.replicate 16 (1680 : Int)).length = 16 ∧ (List.replicate 64 (0 : Int)).length = 64 ∧
    16 * 105 ≤ (List.replicate 16 (1680 : Int)).foldl max 1680 ∧ (base.stkAt 0).st = .full ∧ base.dev.st ≠ .stopped := by decide +kernel

/-- Pseudo-channel 767 in a state of stack 11. -/
def sPch (v : PchSt) : State := base.putPch 767 v
def sMargin : State := (sPch { PchSt.reset with st := .margin }).putStk 11 { StkSt.reset with margin := some (1, false) }
theorem wit_training :
    (((sPch { PchSt.reset with training := true, fails := 1 }).pchAt 767).training = true ∧ 1 + 1 < 3 ∧ (sPch { PchSt.reset with training := true, fails := 1 }).svcIs 11 0x30 = none) ∧
    (((sPch { PchSt.reset with training := true, fails := 2 }).pchAt 767).training = true ∧ 3 ≤ ((sPch { PchSt.reset with training := true, fails := 2 }).pchAt 767).fails + 1) ∧
    ((sPch { PchSt.reset with training := true, rate := 100 }).pchAt 767).rate = 100 ∧
    (((sPch { PchSt.reset with st := .retrain, fails := 1 }).pchAt 767).st = .retrain ∧ (sPch { PchSt.reset with st := .retrain, fails := 1 }).svcIs 11 0x31 = none) ∧
    ((sMargin.stkAt 11).margin = some (1, false) ∧ (sMargin.pchAt 767).st = .margin) := by decide +kernel

/-- Stack 0 with its patrol scrub at its last slot, and with a failing row that has failed n times. -/
def sScrub : State := let s := base.setRg (pgRegion 0) oRegionScrubState 1; s.putStk 0 { s.stkAt 0 with scrubPos := 2 ^ 28 - 1 }
/-- The end of a period of one hour. -/
def sPeriod : State := atNs (base.setRg (pgRegion 0) oRegionScrubPeriod 1) (3600 * 10 ^ 9)
def failR : FailRow := ⟨63, 63, 7, 5⟩
def sFail (n : Nat) : State := base.putStk 0 { base.stkAt 0 with failing := [failR], rowFails := if n = 0 then [] else [(rowKey 63 63 7, n)] }
theorem wit_scrub :
    (bit (sScrub.rg (pgRegion 0) oRegionScrubState) 0 = true ∧ (sScrub.stkAt 0).svc = none ∧ sScrub.rf (pgRegion 0) oRegionScrubPos 27 0 < sScrub.scrubTotal 0 ∧
      sScrub.scrubFind 0 65 (sScrub.stkAt 0).scrubPos = some (2 ^ 28 - 1)) ∧
    (sPeriod.stkAt 0).scrubFrom + max 3600 (sPeriod.rf (pgRegion 0) oRegionScrubPeriod 31 0) * 10 ^ 9 ≤ sPeriod.ns ∧
    (((sFail 0).stkAt 0).repair = none ∧ ((sFail 0).stkAt 0).svc = none ∧ ((sFail 0).stkAt 0).nextFail = some failR ∧ ((sFail 0).pchAt 63).st = .full ∧
      smapGet (fun _ => 0) ((sFail 0).stkAt 0).rowFails (rowKey 63 63 7) = 0) ∧
    (((sFail 2).stkAt 0).nextFail = some failR ∧ 2 ≤ smapGet (fun _ => 0) ((sFail 2).stkAt 0).rowFails (rowKey 63 63 7)) := by decide +kernel

/-- Stack 0 as its base dies train; a lost stack; region 0 with a reserve; a relocation table at 0x100000 for pseudo-channel 0. -/
def sStk (v : StkSt) : State := base.putStk 11 v
def sClear : State :=
  ({ base with pch := (List.range 64).map (fun j => (704 + j, { PchSt.reset with st := .base })) }).putStk 11 { StkSt.reset with st := .training }
def sReserve (n : Nat) : State := base.setRg (pgRegion 0) oRegionReserveLeft (word n)
/-- The relocation directory full, of other pseudo-channels. -/
def sRelocFull : State :=
  let s := putW base 0x100000 ((List.range 12).flatMap (fun k => [word (2 ^ 63 + k), 0]))
  (s.setRg (pgRegion 0) oRegionRelocDir (word (2 ^ 41 + 0x100000))).setRg (pgRegion 0) oRegionReserveLeft (word 3906250)
def sMoving : State :=
  let s := putW (putW base 0x100000 [word (2 ^ 63 + 5), word (2 ^ 41 + 0x110000)]) 0x110000 [0, 0, 0, word (2 ^ 63 + 6 * 2 ^ 32 + 9)]
  (s.setRg (pgRegion 0) oRegionRelocDir (word (2 ^ 41 + 0x100000))).putRegion 0 { RegionSt.reset with move := some ⟨5, 16, 3, []⟩ }
theorem wit_retirement :
    ((sClear.stkAt 11).st = .training ∧ sClear.pchsAll 11 PchSt.passedBase = true ∧ (sClear.stkAt 11).returning = false) ∧
    (((sStk { StkSt.reset with lost := true }).stkAt 11).lost = true ∧ ((sStk { StkSt.reset with lost := true }).stkAt 11).returning = false) ∧
    (((sReserve 3906249).regionAt 0).move = none ∧ fld (63 : Word) 9 0 / 64 = 0 ∧ ((sReserve 3906249).pchAt 63).st ≠ .retired ∧
      (sReserve 3906249).rf (pgRegion 0) oRegionReserveLeft 25 0 < 3906250) ∧
    ((sRelocFull.regionAt 0).move = none ∧ (sRelocFull.pchAt 63).st ≠ .retired ∧
      3906250 ≤ sRelocFull.rf (pgRegion 0) oRegionReserveLeft 25 0 ∧ fld (63 : Word) 22 16 = 0 ∧
      ((sRelocFull.relocWrite 63).putRegion 0 { sRelocFull.regionAt 0 with move := some ⟨63, 16, 0, []⟩ }).moveFrom 63 0 = some 0) ∧
    ((sMoving.regionAt 0).move = some ⟨5, 16, 3, []⟩ ∧ sMoving.relocOf 5 3 = some (6, 9) ∧ sMoving.pchOut 5 = false ∧ sMoving.pchOut 6 = false ∧
      (sMoving.granuleCopy 5 3 6 9).moveFrom 5 4 = some 4) := by decide +kernel

/-- Region 11 paused with cluster 143 waiting for its substitute, the spare 155 in its OFF domain. -/
def sSubst : State :=
  ((base.putRegion 11 { RegionSt.reset with released := true, st := .paused, map := List.range 12, waiting := [143] }).putClu 155
    { CluSt.reset with st := .spare }).putDom 155 ⟨.off⟩
def zSubst : State :=
  let a := sSubst.putRegion 11 { sSubst.regionAt 11 with map := (sSubst.regionAt 11).map.set 0 12, waiting := [], subst := some (0, 155) }
  (((a.putClu 155 { a.cluAt 155 with st := .service }).cluRetire 143).mapCommit).setEvt (pgRegion 11) 4
theorem wit_subst : (sSubst.regionAt 11).waiting = 143 :: [] ∧ (sSubst.regionAt 11).st = .paused ∧ (sSubst.regionAt 11).subst = none ∧
    sSubst.regionBusy 11 = false ∧ fld (0xC0 : Word) 3 0 < 12 ∧ (sSubst.regionAt 11).map.getD (fld (0xC0 : Word) 3 0) 15 = 143 % 13 ∧ fld (0xC0 : Word) 7 4 < 13 ∧
    155 = 13 * 11 + fld (0xC0 : Word) 7 4 ∧ (sSubst.cluAt 155).st = .spare ∧ (zSubst.domAt 155).st = .off := by decide +kernel

/-- The device in a state, at a boot step. -/
def sDev (st : DevState) (step : Nat) : State := { base with dev := { base.dev with st := st, step := step, id := .ready } }
def sEarly : State := (sDev .boot 5).putLink 0 { LinkSt.reset with st := .up }
def sFull : State :=
  { sDev .early 6 with region := (List.range 12).map (fun r => (r, { RegionSt.reset with released := true })), stk := (List.range 12).map (fun n => (n, { StkSt.reset with st := .full })) }
def sRel : State := { sDev .boot 4 with region := (List.range 11).map (fun r => (r, { RegionSt.reset with released := true })) }
theorem wit_device :
    (({ base with pins := { base.pins with held := true } } : State).pins.held = true ∧ ({ base with pins := { base.pins with held := true } } : State).pins.pwrOk = true) ∧
    (sEarly.dev.st = .boot ∧ 5 ≤ sEarly.dev.step ∧ sEarly.dev.id = .ready ∧ sEarly.dev.untested = false ∧ sEarly.bootPort = true ∧ sEarly.pins.held = false) ∧
    (sFull.dev.st = .early ∧ sFull.regionsDone = true ∧ sFull.stacksDone true = true ∧ sFull.portsDone = true ∧ sFull.pins.held = false) ∧
    ((sDev .boot 0).dev.st = .boot ∧ (sDev .boot 0).dev.step = 0) ∧ (sDev .boot 1).dev.step = 1 ∧
    ({ base with dev := { base.dev with id := .deriving_ } } : State).dev.id = .deriving_ ∧
    (4 ≤ sRel.dev.step ∧ sRel.dev.st = .boot ∧ (sRel.regionAt 11).released = false ∧ (sRel.regionAt 11).st ≠ .lost ∧ ∀ q, q < 11 → (sRel.regionAt q).released = true) := by
  decide +kernel

/-- What session 3 of the owner offers. -/
theorem offers_mgmt (s : State) (o : Nat) (ws : List Word) (h : s.sessAt 3 = ⟨true, true, true, true, [], 0, 0, []⟩)
    (d : s.host.owner = digestBytes []) (c : cmdOpc ws = o) (l : ws.length = 8) : s.offers (.mgmt 3 ws) o ws s := by
  simp [State.offers, State.cmdTake, State.mgmtOk, h, d, c, l]
def cw38 : List Word := cw [0x38, 9, 0x200000, 0x4400]
theorem wit_fwWrite : (sSess true).offers (.mgmt 3 cw38) 0x38 cw38 (sSess true) ∧ cmdBits cw38 [0xF, allBits, 0xFFFFFFFF] = true ∧
    (sSess true).fwmState = 0 ∧ fld (cw38.getD 1 0) 3 0 = 9 :=
  ⟨offers_mgmt _ _ _ (by decide +kernel) rfl (by decide +kernel) (by decide +kernel), by decide +kernel⟩
/-- A CERTS item without payload verifies. -/
def certItem : List Byte := wordsBytes [word (9 * 2 ^ 40 + 2 ^ 32 + 0x5A474649), 1, 0, 0xFF] ++ bytes (payOff - 32) 0
theorem wit_fwItem : itOk [] [] 9 true certItem = true ∧ itOk [] [] 8 true certItem = false := by decide +kernel
def sPend : State := { base with dev := { base.dev with pendW := some (9, [], 67, 5) } }
def sStaged : State := (sSess true).putFwSlot 1 9 .staged
def rollP : Rollout := ⟨7, 3, 4, 0⟩
def sRoll : State := { base with dev := { base.dev with rollout := some rollP } }
theorem wit_firmware :
    (sPend.dev.pendW = some (9, [], 67, 5) ∧ sPend.dev.st ≠ .safe ∧ sPend.idleSlot 9 = 1) ∧
    (sStaged.offers (.mgmt 3 (cw [0x39, 0x19])) 0x39 (cw [0x39, 0x19]) sStaged ∧ cmdBits (cw [0x39, 0x19]) [0x1F] = true ∧
      fld ((cw [0x39, 0x19]).getD 1 0) 3 0 = 9 ∧ sStaged.fwmState = 0 ∧ sStaged.fwSlot (sStaged.idleSlot 9) 9 = .staged ∧ bit ((cw [0x39, 0x19]).getD 1 0) 4 = true) ∧
    (sRoll.dev.rollout = some rollP ∧ (sRoll.rollParts rollP.kind)[rollP.done]? = some 35 ∧ (sRoll.rollParts rollP.kind)[rollP.done + 1]? = none) := by
  refine ⟨by decide +kernel, ⟨offers_mgmt _ _ _ (by decide +kernel) rfl (by decide +kernel) (by decide +kernel), by decide +kernel⟩, by decide +kernel⟩
/-- Core 7 in a state, one second after its heartbeat. -/
def sCore (st : CoreState) : State := let s := atNs base (10 ^ 9); s.putCore 7 { s.coreAt 7 with st := st }
theorem wit_cores :
    (((sCore .running).coreAt 7).st = .running ∧ (sCore .running).dev.rollout = none ∧
      ((sCore .running).rg (pgSvc 7) oSvcHeartbeat).toNat + max 1000 ((sCore .running).rf (pgSvc 7) oSvcWdog 31 0) * 1000 ≤ (sCore .running).ns) ∧
    ((sCore .restarting).coreAt 7).st = .restarting ∧
    ((sSess true).offers (.mgmt 3 (cw [0x3A])) 0x3A (cw [0x3A]) (sSess true) ∧ (sSess true).dev.st ≠ .stopped) ∧
    (sSess true).offers (.mgmt 3 (cw [0x3B])) 0x3B (cw [0x3B]) (sSess true) ∧ cmdBits (cw [0x3B]) [] = true := by
  refine ⟨by decide +kernel, by decide +kernel, ⟨offers_mgmt _ _ _ (by decide +kernel) rfl (by decide +kernel) (by decide +kernel), by decide +kernel⟩,
    offers_mgmt _ _ _ (by decide +kernel) rfl (by decide +kernel) (by decide +kernel), by decide +kernel⟩

/-- The log ring at 0x140000 with an entry that waits or entries dropped; sampling on, a record in flight or none. -/
def logE : LogEnt := ⟨1000 * 2 ^ 40, 5, 1, 2, 3⟩
def sLog (dropped : Nat) : State :=
  let s := ((atNs base 5000).setRg pgTel oTelCtl 2).setRg pgTel oTelLogBase 0x140000
  { s with tel := { TelSt.reset with logQ := [logE], dropped := dropped } }
def sLogU : State := (sLog 0).setTel { (sLog 0).tel with logQ := (sLog 0).tel.logQ.erase logE }
def sTel (flight : Bool) : State :=
  let s := (((atNs base 10000).setRg pgTel oTelCtl 1).setRg pgTel oTelPeriod 1).putQp 0 { QpSt.reset with st := .rts }
  { s with tel := { TelSt.reset with flight := flight } }
theorem wit_telemetry :
    (bit ((sLog 3).rg pgTel oTelCtl) 1 = true ∧ (sLog 3).lostDue = true ∧ ((sLog 3).logPut (sLog 3).tel.lostWords).1 = .ok) ∧
    ((sLog 0).lostDue = false ∧ logFirst (sLog 0).tel.logQ = some logE ∧ logE.st + 4000 ≤ (sLog 0).ns ∧ sLogU.logHeld < sLogU.logCap ∧
      (sLogU.logPut [word logE.st, logE.w1, logE.w2, logE.w3]).1 = .ok) ∧
    ((sLogU.setRg pgTel oTelLogBase (word (2 ^ 51))).logPut [word logE.st, logE.w1, logE.w2, logE.w3]).1 = .fault ∧
    (sLogU.setRg pgTel oTelLogTail 4096).logCap ≤ (sLogU.setRg pgTel oTelLogTail 4096).logHeld ∧
    (bit ((sTel true).rg pgTel oTelCtl) 0 = true ∧ 10000 = (sTel true).ns / (sTel true).telPeriod * (sTel true).telPeriod ∧ (sTel true).tel.lastB < 10000 ∧
      (sTel true).tel.flight = true) ∧
    ((sTel false).tel.flight = false ∧ ((sTel false).qpAt ((sTel false).rf pgTel oTelQp 13 0)).st = .rts) ∧
    (base.tel.margin = none ∧ fld (11 : Word) 3 0 < 12) ∧ ({ base with tel := { base.tel with margin := some (0, 1, 0) } } : State).tel.margin.isSome = true := by
  decide +kernel

/-- Debug of the last cluster, on or off, with cx in a state. -/
def sDbg (on : Bool) (st : CtxState) : State :=
  let s := (sCx base 0 { cxAt [] [] with st := st }).setRg pgDbg oDbgCluSel 155
  { s with dbg := { s.dbg with mode := if on then [155] else [] } }
theorem wit_debug : ((sDbg true .halted).dbgName ((sDbg true .halted).dbgWv 3) 511).dbgOn = true ∧
    ((((sDbg true .ready).dbgName ((sDbg true .ready).dbgWv 3) 511).wvAt ((sDbg true .ready).dbgWv 3)).ctxAt 511).st ≠ .drain ∧
    ((((sDbg true .halted).dbgName ((sDbg true .halted).dbgWv 3) 511).wvAt ((sDbg true .halted).dbgWv 3)).ctxAt 511).st = .halted ∧
    ((sDbg false .ready).dbgName ((sDbg false .ready).dbgWv 3) 511).dbgOn = false ∧ (sDbg true .ready).dbg.units.contains (sDbg true .ready).dbgClu = false ∧
    (sDbg true .ready).dbgOn = true ∧ (sDbg false .ready).dbgOn = false ∧ (sDbg false .ready).dbgClu < 156 ∧ bit (1 : Word) 0 = true ∧ bit (2 : Word) 0 = false ∧
    (sDbg false .ready).dbg.mode.contains (sDbg false .ready).dbgClu = false := by decide +kernel
/-- Pins as a list of four: power good, RESET_N, held. -/
def sPins (p r h : Bool) : State := { base with pins := { base.pins with pwrOk := p, resetN := r, held := h } }
theorem wit_pins : ((sPins true true false).pins.pwrOk = true ∧ (sPins true true false).pins.held = false ∧ (sPins true true false).pins.resetN = true) ∧
    (sPins true false true).pins.held = true ∧ (sPins false false true).pins.pwrOk = false := by decide +kernel

/-- A SCRUB of a sound state ends in a next state. -/
theorem wit_memory : base.memSound ∧ ∃ t, exec (.stackReturn 11) (sStk { StkSt.reset with lost := true }) = .next t ∧ (sStk { StkSt.reset with lost := true }).memSound := by
  refine ⟨?_, _, rfl, ?_⟩ <;> unfold State.memSound <;> decide +kernel

/-! ## Ill-formed commands: one term for each check -/

theorem test_illFormedStack :
    (Instr.rd 0 (flit 0 0 1 0 [1]) []).wf = false ∧ (Instr.rd 0 (flit 0 0 1 0 []) [AccErr.none, AccErr.none]).wf = false ∧
    (Instr.rd 0 (flit 0 0 1 0 []) [⟨bytes 37 0, [], []⟩]).wf = false ∧ (Instr.rd 0 (flit 0 0 1 0 []) [⟨[], bytes 37 0, []⟩]).wf = false ∧
    (Instr.wr 0 (flit 0 0 1 0 (bytes 33 0))).wf = false ∧ (Instr.wrm 0 (flit 0 0 2 0 (bytes 32 0))).wf = false ∧
    (Instr.flitFence 0 (flit 0 0 0 0 [0])).wf = false ∧ (Instr.gpool 0 (flit 0 0 1 0 [0])).wf = false ∧
    (Instr.gpoolRow 0 (flit 0 0 1 0 [0])).wf = false ∧ (Instr.rupd 0 (flit 0 0 1 0x100 [])).wf = false ∧
    (Instr.scrub 0 (List.replicate 9 AccErr.none)).wf = false ∧ (Instr.patch 0 (List.replicate 33 AccErr.none)).wf = false ∧
    (Instr.ppr 0 (List.replicate 33 AccErr.none)).wf = false := by decide +kernel
theorem test_illFormedOther :
    (Instr.stackTempReading 0 (List.replicate 15 0) 0 (List.replicate 64 0)).wf = false ∧
    (Instr.stackTempReading 0 (List.replicate 16 0) 0 (List.replicate 63 0)).wf = false ∧ (Instr.pageIn 0 0 (bytes 32 0)).wf = false ∧
    (Instr.hotspotReading (List.replicate 11 0) (List.replicate 3 0)).wf = false ∧
    (Instr.hotspotReading (List.replicate 12 0) (List.replicate 2 0)).wf = false ∧ (Instr.pfcFrameRx 0 0 [1]).wf = false := by decide +kernel

/-! ## The spec's worked examples -/

/-- The address of COMET instance 5 (chapter Scope, R9 and R10). -/
theorem test_pageAddress : pageOf (page 0x10 5) = 0x04005018 / 4096 ∧ pageOf (page 0x10 5) = 0x4005 := by decide +kernel
/-- Decoding a spread address (chapter Stacks, channels and interleave). -/
theorem test_spreadAddress : paMap 3906250 0 0 0x0F424340 = some (113, 1302) ∧ 1302 * 8 + bitsOf 0x0F424340 7 5 = 10418 ∧
    bankOf 10418 = 22 ∧ rowOf 10418 = 5 := by decide +kernel
/-- The leaf of the worked translation (chapter Device addresses and paging). -/
theorem test_leaf : ptePa 0x0F40001B = 0x0F400000 ∧ 0x0F400000 + 0x24340 = 0x0F424340 := by decide +kernel
/-- Three words of the worked walk program, with their fields (chapter Walk program instruction set). -/
theorem test_walkWords :
    (wIllegal 0x1702000000400000 = false ∧ wOpc 0x1702000000400000 = 0x17 ∧ wD 0x1702000000400000 = 8 ∧ wImm 0x1702000000400000 = 0x400000) ∧
    (wIllegal 0x31028A748100000B = false ∧ wD 0x31028A748100000B = 10 ∧ wA 0x31028A748100000B = 5 ∧ wB 0x31028A748100000B = 7 ∧
      wC 0x31028A748100000B = 9 ∧ wE 0x31028A748100000B = 0 ∧ wF 0x31028A748100000B = 8 ∧ wSub 0x31028A748100000B = 11) ∧
    (wIllegal 0x380310A001691825 = false ∧ wD 0x380310A001691825 = 12 ∧ wA 0x380310A001691825 = 8 ∧ wB 0x380310A001691825 = 10 ∧
      wF 0x380310A001691825 = 11 ∧ wG 0x380310A001691825 = 9 ∧ wSub 0x380310A001691825 = 0x1825 ∧ wIllegal 0xB80310A001691825 = false ∧
      wMv 0xB80310A001691825 = true) := by decide +kernel
/-- One group with a sticky bit (chapter Mantis numerics): to even without it, up with it, and with SR by the halfword. -/
def stickyGroup : GVal :=
  groupVal (List.zipWith mxProd ([0x45C0, 0xC580, 0x3F80, 0x2E40].map bf16.decode) ([0x4580, 0x4580, 0x4000, 0x2E00].map bf16.decode))
theorem test_stickyGroup : mxFold fp32 .rne 0x3F000000 stickyGroup = 0x4B000003 ∧ mxFold fp32 (.sr 0x8000) 0x3F000000 stickyGroup = 0x4B000003 ∧
    mxFold fp32 (.sr 0x7FFF) 0x3F000000 stickyGroup = 0x4B000002 := by decide +kernel
/-- The header of the chained-tile SIGNAL (chapter Ethernet and remote memory). -/
theorem test_signalHeader : leAt (otferBody 1 0 0x18 2 0 0 false) 0 8 = 0x0000001800020101 := by decide +kernel

end Sys2Proof.Tests
end

section
/-! Proofs about the writes of a page: its common header (R779 to R786, R931) and the plain registers of its block (R12, R775 to R777). -/

namespace Sys2Proof.Machine

/-! ## Registers -/

/-- A register after a write: the new value under the written key, the old one under every other. -/
theorem rg_setRg (s : State) (pg off pg' off' : Nat) (v : Word) :
    (s.setRg pg off v).rg pg' off' = if regKey pg' off' = regKey pg off then v else s.rg pg' off' := by
  simp only [State.rg, State.setRg, State.setRegs_regs, smapGet_set]

/-- Zeroing registers of a page one by one: those that are named read 0, all others as before. -/
theorem rg_foldl_setRg_zero (pg pg' off' : Nat) (off : Nat → Nat) (l : List Nat) (s : State) :
    (l.foldl (fun t k => t.setRg pg (off k) 0) s).rg pg' off' =
      if ∃ k ∈ l, regKey pg' off' = regKey pg (off k) then 0 else s.rg pg' off' := by
  induction l generalizing s with
  | nil => simp
  | cons k l ih =>
    simp only [List.foldl_cons, ih, rg_setRg, List.exists_mem_cons_iff]
    by_cases hk : regKey pg' off' = regKey pg (off k) <;> simp [hk]

/-! ## Words as sets of bits -/

/-- Words with the same 64 bits are equal. -/
theorem word_ext {a b : Word} (h : ∀ i, i < 64 → bit a i = bit b i) : a = b :=
  BitVec.eq_of_getLsbD_eq h

theorem mem_bitsSet (m : Word) (i : Nat) : i ∈ bitsSet m ↔ i < 64 ∧ bit m i = true := by
  simp [bitsSet]

@[simp] theorem bitsSet_zero : bitsSet 0 = [] := by decide

theorem bit_foldl_or_bitW (bs : List Nat) (hbs : ∀ b ∈ bs, b < 64) (a : Word) (i : Nat) :
    bit (bs.foldl (fun w b => w ||| bitW b) a) i = (bit a i || decide (i ∈ bs)) := by
  induction bs generalizing a with
  | nil => simp
  | cons b bs ih =>
    rw [List.foldl_cons, ih (fun c hc => hbs c (List.mem_cons_of_mem _ hc)), bit_or, bit_bitW _ _ (hbs b List.mem_cons_self)]
    simp [Bool.or_assoc, eq_comm]

/-- Setting the bits of a mask one by one sets the mask. -/
theorem foldl_or_bitsSet (a m : Word) : (bitsSet m).foldl (fun w b => w ||| bitW b) a = a ||| m := by
  refine word_ext fun i hi => ?_
  rw [bit_foldl_or_bitW _ (fun b hb => ((mem_bitsSet m b).1 hb).1), bit_or]
  simp [mem_bitsSet, hi]

/-! ## EVT_STATUS -/

/-- A clear that meets no hardware set clears the named bits that the page defines, and nothing else (R785). -/
theorem evtClear_alone (s : State) (pg : Nat) (v : Word) :
    s.evtClear pg v 0 = s.setRg pg oEvtStatus (s.rg pg oEvtStatus &&& ~~~(v &&& word (evtMask (pg / 1024)))) := by
  have hnot : ~~~(0 : Word) = BitVec.allOnes 64 := BitVec.not_zero
  simp only [State.evtClear, hnot, BitVec.and_allOnes]
  rw [show v &&& word (evtMask (pg / 1024)) &&& 0 = 0 from BitVec.and_zero, bitsSet_zero, List.foldl_nil]

theorem setEvts_status (pg : Nat) (bs : List Nat) (s : State) :
    (s.setEvts pg bs).rg pg oEvtStatus = bs.foldl (fun w b => w ||| bitW b) (s.rg pg oEvtStatus) := by
  induction bs generalizing s with
  | nil => rfl
  | cons b bs ih => rw [List.foldl_cons, ← setEvt_status, ← ih]; rfl

/-- A write of EVT_SET sets the named bits that the page defines (R786). -/
theorem evtTest_status (s : State) (pg : Nat) (v : Word) :
    (s.evtTest pg v).rg pg oEvtStatus = s.rg pg oEvtStatus ||| (v &&& word (evtMask (pg / 1024))) := by
  rw [State.evtTest, setEvts_status, foldl_or_bitsSet]

/-! ## Error records -/

/-- Offset of the first word of an error record: ERR_LAST or ERR_FIRST (R779). -/
def errBase (last : Bool) : Nat := if last then oErrLast else oErrFirst

/-- The eight words of the two records of a page are sixteen different registers. -/
theorem regKey_errBase_inj (pg : Nat) (l m : Bool) {j k : Nat} (hj : j < 8) (hk : k < 8) :
    regKey pg (errBase l + 8 * j) = regKey pg (errBase m + 8 * k) ↔ l = m ∧ j = k := by
  cases l <;> cases m <;> simp [regKey, errBase, oErrLast, oErrFirst] <;> omega

/-- A clear of VALID zeroes the registers of its record and keeps all others (R781). -/
theorem errClear_rg (s : State) (pg off : Nat) (last : Bool) (v : Word) (hv : bit v 63 = true) :
    (s.errClear pg last v).rg pg off =
      if ∃ k ∈ List.range 8, regKey pg off = regKey pg (errBase last + 8 * k) then 0 else s.rg pg off := by
  rw [State.errClear, if_pos hv]
  exact rg_foldl_setRg_zero _ _ _ _ _ _

/-- A clear of VALID zeroes every word of its record. -/
theorem errClear_rg_record (s : State) (pg : Nat) (last : Bool) (v : Word) (hv : bit v 63 = true) {k : Nat} (hk : k < 8) :
    (s.errClear pg last v).rg pg (errBase last + 8 * k) = 0 := by
  rw [errClear_rg _ _ _ _ _ hv, if_pos ⟨k, List.mem_range.2 hk, rfl⟩]

/-- A clear of VALID keeps every word of the other record. -/
theorem errClear_rg_otherRecord (s : State) (pg : Nat) (last : Bool) (v : Word) (hv : bit v 63 = true) {k : Nat} (hk : k < 8) :
    (s.errClear pg last v).rg pg (errBase (!last) + 8 * k) = s.rg pg (errBase (!last) + 8 * k) := by
  rw [errClear_rg _ _ _ _ _ hv, if_neg]
  rintro ⟨j, hj, h⟩
  have hne := ((regKey_errBase_inj pg (!last) last hk (List.mem_range.1 hj)).1 h).1
  simp at hne

/-- A write of a record that meets none arriving is a clear. -/
theorem errWrite_alone (s : State) (pg : Nat) (last : Bool) (v : Word) : s.errWrite pg last v false = s.errClear pg last v := by
  simp [State.errWrite]

/-- A clear of VALID that meets a record arriving keeps that record (R781, R785). -/
theorem errWrite_collide (s : State) (pg : Nat) (last : Bool) (v : Word) (hv : bit v 63 = true) (hl : bit (s.rg pg oErrLast) 63 = true) :
    s.errWrite pg last v true = s.errKeep pg last := by
  simp [State.errWrite, hv, hl]

/-! ## Commands on a page -/

/-- A header command on a page that exists has its effect, on a device that is not held (R776, R966). -/
theorem live_onPage (s : State) (p : PageRef) (f : Nat → State) (ha : s.awake) (hp : pageExists (pageOf p) = true) :
    s.live (s.onPage p f) = .next (f (pageOf p)) := by
  rw [live_awake _ _ ha, State.onPage, if_pos hp]

section
variable (p : PageRef) (v : Word) (s : State) (ha : s.awake) (hp : pageExists (pageOf p) = true)
include ha hp

theorem exec_evtStatusClear (c : Word) : exec (.evtStatusClear p v c) s = .next (s.evtClear (pageOf p) v c) := live_onPage _ _ _ ha hp
theorem exec_evtSetWrite : exec (.evtSetWrite p v) s = .next (s.evtTest (pageOf p) v) := live_onPage _ _ _ ha hp
theorem exec_cntSelWrite (i : Fin 8) : exec (.cntSelWrite p i v) s = .next (s.cntSelect (pageOf p) i.val v) := live_onPage _ _ _ ha hp
theorem exec_cntValWrite (i : Fin 8) (n : Word) : exec (.cntValWrite p i v n) s = .next (s.cntStore (pageOf p) i.val v n) :=
  live_onPage _ _ _ ha hp
theorem exec_pageCtlCommit : exec (.pageCtlCommit p v) s = .next (s.pageCommit (pageOf p) v) := live_onPage _ _ _ ha hp
theorem exec_errValidClear (e : ErrSel) : exec (.errValidClear p e v) s = .next (s.errWrite (pageOf p) e.last v e.collide) :=
  live_onPage _ _ _ ha hp
end

/-! ## Register writes -/

/-- With no received request held, none goes on (R746). -/
theorem rxDrainAll_none (s : State) (h : s.eth.rxHeld = []) : s.rxDrainAll = s := by
  simp [State.rxDrainAll, h]

/-- An aligned register write is the write of its word, after which received requests may go on (R9, R775). -/
theorem exec_registerWrite (a : BitVec 28) (v : Word) (s : State) (ha : s.awake) (h8 : a.toNat % 8 = 0) :
    exec (.registerWrite a v) s = .next (s.regWrite (a.toNat / 4096) (a.toNat % 4096) v).rxDrainAll := by
  have hx : exec (.registerWrite a v) s = execRegisterWrite a v s := rfl
  rw [hx, execRegisterWrite, live_awake _ _ ha, if_neg (not_not_intro h8)]
  rfl

/-- A write to a page that does not exist changes nothing (R776). -/
theorem regWrite_noPage (s : State) (pg off : Nat) (v : Word) (h : pageExists pg = false) : s.regWrite pg off v = s := by
  simp [State.regWrite, h]

theorem regWrite_block (s : State) (pg off : Nat) (v : Word) (h : pageExists pg = true) (ho : 0x200 ≤ off) :
    s.regWrite pg off v = s.blockWrite pg off v := by
  simp [State.regWrite, h, Nat.not_lt.2 ho]

/-- Every register of a COMET page only has its bits set by a write. -/
theorem blockWrite_comet (s : State) (pg off : Nat) (v : Word) (h : pg / 1024 = 0x10) : s.blockWrite pg off v = s.rwWrite pg off v := by
  simp [State.blockWrite, h]

/-- An RW register that every page of its type has changes its writable bits and keeps the others (R12, R777). -/
theorem rwWrite_rw (s : State) (pg off : Nat) (v : Word) (row : RegRow) (hr : regRow (pg / 1024) off = some row) (hw : row.w ≠ 0)
    (hl : row.rwl = false) (hi : row.inst = none) :
    s.rwWrite pg off v = s.setRg pg off ((s.rg pg off &&& ~~~(word row.w)) ||| (v &&& word row.w)) := by
  simp [State.rwWrite, hr, hw, hl, hi]

/-- Settles O48: each header command is its write of the page, and a register write is the write of its word. -/
theorem pageWrites : Obligations.PageWrites := by
  unfold Obligations.PageWrites
  refine ⟨⟨?evtClear, ?evtSet, ?cntSel, ?cntVal, ?commit, ?errClear, ?errKeep⟩, ?noPage, ?plain⟩
  case evtClear =>
    intro p v s ha hp
    exact ⟨_, exec_evtStatusClear p v s ha hp 0, evtClear_alone _ _ _⟩
  case evtSet =>
    intro p v s ha hp
    exact ⟨_, exec_evtSetWrite p v s ha hp, evtTest_status _ _ _⟩
  case cntSel => exact fun p i v s ha hp => exec_cntSelWrite p v s ha hp i
  case cntVal => exact fun p i v n s ha hp => exec_cntValWrite p v s ha hp i n
  case commit => exact fun p v s ha hp => exec_pageCtlCommit p v s ha hp
  case errClear =>
    intro p last v s ha hp hv
    refine ⟨_, exec_errValidClear p v s ha hp _, ?_⟩
    rw [errWrite_alone]
    refine ⟨fun k hk => errClear_rg_record s _ last v hv hk, fun k hk => ?_⟩
    cases last
    · exact errClear_rg_otherRecord s _ false v hv hk
    · exact errClear_rg_otherRecord s _ true v hv hk
  case errKeep =>
    rintro p v u s ha hp hv hl rfl
    rw [exec_errValidClear p v s ha hp, errWrite_collide _ _ _ _ hv hl]
    rfl
  case noPage =>
    intro a v s ha h8 hp hq
    rw [exec_registerWrite a v s ha h8, regWrite_noPage _ _ _ _ hp, rxDrainAll_none _ hq]
  case plain =>
    intro a v row s ha h8 hp hc ho hq hr hw hl hi
    rw [exec_registerWrite a v s ha h8, regWrite_block _ _ _ _ hp ho, blockWrite_comet _ _ _ _ hc, rwWrite_rw _ _ _ _ row hr hw hl hi,
      rxDrainAll_none (s.setRg _ _ _) hq]

end Sys2Proof.Machine
end

section
/-! Proofs about the register, predicate and control instructions of the walk ISA (R375 to R382, R421 to R426): each is the issue of the
word at the program counter, and differs from the others in the effect of its opcode alone. -/

namespace Sys2Proof.Machine

/-! ## Issue -/

/-- A command that issues an opcode has that opcode's effect and takes the turn (R29, R368). -/
theorem exec_issues {i : Instr} {c : CtxRef} {w : Word} {opc : Nat} {f : CtxSt → Word → State → State} {s t : State} (ha : s.awake)
    (hi : s.issues c w) (hx : exec i s = s.live (.next (s.wIssue c opc f))) (ho : wOpc w = opc) (ht : f (s.ctxAt c) w s = t) :
    exec i s = .next (t.wTurn c) := by
  rw [hx, live_awake _ _ ha, wIssue_runs s c w f hi opc ho, ht]

/-- An attempt of a context that is not under STEP ends as it is (R947). -/
theorem stepDone_noStep (c : CtxRef) (fin : Bool) (s t : State) (h : s.dbg.step.contains (ctxWv c, c.ctx.val) = false) :
    stepDone c fin s t = t :=
  if_pos (by rw [h]; rfl)

/-- A context that is not blocked tries its word when its turn comes. -/
theorem wIssueAt_turn (s : State) (c : CtxRef) (fin : Bool) (f : CtxSt → Word → State → State)
    (ht : (s.wvAt (ctxWv c)).turn c.ctx.val = true) (hs : s.dbg.step.contains (ctxWv c, c.ctx.val) = false)
    (hb : (s.wvAt (ctxWv c)).blocked (s.ctxAt c) = false) : s.wIssueAt c fin f = (s.wRun c f).wTurn c := by
  simp [State.wIssueAt, hb, ht, stepDone_noStep c fin s _ hs]

/-- A READY context that holds no exception tries its word under the command of the word's opcode. -/
theorem wIssue_ready (s : State) (c : CtxRef) (w : Word) (opc : Nat) (f : CtxSt → Word → State → State) (hr : (s.ctxAt c).st = .ready)
    (hh : (s.ctxAt c).held = none) (hw : (s.wvAt (ctxWv c)).wordOf (s.ctxAt c) = some (w, false)) (ho : wOpc w = opc) :
    s.wIssue c opc f = s.wIssueAt c (opc == 0x51) f :=
  if_pos ⟨hr, hh, by simp [State.wOpcAt, hw, ho]⟩

/-! ## Words that raise ILLEGAL, and failed guards -/

/-- An opcode outside the table is illegal (R379). -/
theorem wIllegal_of_undefined (w : Word) (h : wDefined (wOpc w) = false) : wIllegal w = true := by
  simp [wIllegal, h]

/-- A guard field that is set without GE is illegal (R375). -/
theorem wIllegal_of_guardBits (w : Word) (hg : bit w 55 = false) (hf : fld w 54 51 ≠ 0) : wIllegal w = true := by
  simp [wIllegal, hg, hf]

section
variable (s : State) (c : CtxRef) (w : Word) (f : CtxSt → Word → State → State)
  (hw : (s.wvAt (ctxWv c)).wordOf (s.ctxAt c) = some (w, false))
include hw

/-- An illegal word waits for nothing. -/
theorem blocked_illegal (hi : wIllegal w = true) : (s.wvAt (ctxWv c)).blocked (s.ctxAt c) = false := by
  simp [WvSt.blocked, hw, hi]

/-- An illegal word raises ILLEGAL whatever its opcode does (R375). -/
theorem wRun_illegal (hi : wIllegal w = true) : s.wRun c f = s.wTake c 0x01 0 (s.ctxAt c).pc := by
  simp [State.wRun, hw, hi]

/-- A word whose guard fails only advances (R376). -/
theorem wRun_guardFails (hi : wIllegal w = false) (hb : (s.wvAt (ctxWv c)).blocked (s.ctxAt c) = false) (hg : wGuard (s.ctxAt c) w = false) :
    s.wRun c f = s.wNext c (s.ctxAt c) := by
  simp [State.wRun, hw, hi, hb, hg]
end

/-! ## Commands of a context whose turn it is -/

section
variable (s : State) (c : CtxRef) (ha : s.awake) (ht : (s.wvAt (ctxWv c)).turn c.ctx.val = true) (hr : (s.ctxAt c).st = .ready)
  (hs : s.dbg.step.contains (ctxWv c, c.ctx.val) = false)
include ha ht hr hs

/-- A held exception is taken in place of the next issue (R426). -/
theorem exec_heldException (k a p : Nat) (hh : (s.ctxAt c).held = some (k, a, p)) :
    exec (.heldException c) s = .next ((s.wTake c k a p).wTurn c) := by
  show execHeldException c s = _
  simp only [execHeldException, live_awake _ _ ha, hr, hh, ht, if_true, stepDone_noStep c _ s _ hs]

section
variable (w : Word) (hh : (s.ctxAt c).held = none) (hw : (s.wvAt (ctxWv c)).wordOf (s.ctxAt c) = some (w, false))
include hh hw

/-- An undefined opcode raises ILLEGAL (R379). -/
theorem exec_undefinedOpcode (hd : wDefined (wOpc w) = false) :
    exec (.undefinedOpcode c) s = .next ((s.wTake c 0x01 0 (s.ctxAt c).pc).wTurn c) := by
  have hi := wIllegal_of_undefined w hd
  have ho : s.wOpcAt c = some (wOpc w) := by simp [State.wOpcAt, hw]
  show execUndefinedOpcode c s = _
  simp only [execUndefinedOpcode, live_awake _ _ ha, hr, hh, ho, hd]
  rw [if_neg Bool.false_ne_true, wIssueAt_turn _ _ _ _ ht hs (blocked_illegal s c w hw hi), wRun_illegal s c w _ hw hi]

/-- An ADD that is not blocked tries its word. -/
theorem exec_wAdd (hb : (s.wvAt (ctxWv c)).blocked (s.ctxAt c) = false) (ho : wOpc w = 0x01) :
    exec (.wAdd c) s = .next ((s.wRun c (wDoAdd c)).wTurn c) := by
  show execWAdd c s = _
  rw [execWAdd, live_awake _ _ ha, wIssue_ready s c w _ _ hr hh hw ho, wIssueAt_turn _ _ _ _ ht hs hb]
end
end

/-- What BR does with a target inside the program (R421). -/
theorem wDoBr_inside (s : State) (c : CtxRef) (w : Word) (t : WalkTask) (ht : (s.wvAt (ctxWv c)).taskOf (s.ctxAt c) = some t)
    (hl : wTarget w < t.len) : wDoBr c (s.ctxAt c) w s = s.wGo c (s.ctxAt c) (wTarget w) := by
  simp [wDoBr, ht, hl]

/-! ## The statements -/

/-- Settles O27: every row of the two tables, and SEL, is the issue of its opcode with the effect the row names. -/
theorem registerInstructions : Obligations.RegisterInstructions := by
  unfold Obligations.RegisterInstructions
  refine ⟨?registers, ?immediates, ?sel⟩
  case registers =>
    intro c w s e ha hi he ho
    simp only [List.mem_cons, List.not_mem_nil, or_false] at he
    rcases he with rfl | rfl | rfl | rfl | rfl | rfl | rfl | rfl | rfl | rfl | rfl | rfl <;> exact exec_issues ha hi rfl ho rfl
  case immediates =>
    intro c w s e ha hi he ho
    simp only [List.mem_cons, List.not_mem_nil, or_false] at he
    rcases he with rfl | rfl | rfl | rfl | rfl | rfl | rfl | rfl | rfl | rfl | rfl | rfl | rfl <;> exact exec_issues ha hi rfl ho rfl
  case sel => exact fun c w s ha hi ho => exec_issues ha hi rfl ho rfl

/-- Settles O28: the instructions are issues of their opcodes; an illegal word and a failed guard do not reach the opcode's effect. -/
theorem predicateAndControl : Obligations.PredicateAndControl := by
  unfold Obligations.PredicateAndControl
  refine ⟨⟨?cmp, ?cmpi, ?plog, ?nop, ?fence, ?br, ?fin, ?trap, ?held, ?undefined⟩, ?guardFails, ?reserved, ?outside, ?guardBits⟩
  case cmp => exact fun c w s ha hi ho => exec_issues ha hi rfl ho rfl
  case cmpi => exact fun c w s ha hi ho => exec_issues ha hi rfl ho rfl
  case plog => exact fun c w s ha hi ho => exec_issues ha hi rfl ho rfl
  case nop => exact fun c w s ha hi ho => exec_issues ha hi rfl ho rfl
  case fence => exact fun c w s ha hi ho => exec_issues ha hi rfl ho rfl
  case br => exact fun c w s t ha hi ho ht hl => exec_issues ha hi rfl ho (wDoBr_inside s c w t ht hl)
  case fin => exact fun c w s ha hi ho => exec_issues ha hi rfl ho rfl
  case trap => exact fun c w s ha hi ho => exec_issues ha hi rfl ho rfl
  case held => exact fun c k a p s ha ht hr hh hs => exec_heldException s c ha ht hr hs k a p hh
  case undefined => exact fun c w s ha ht hr hh hw hd hs => exec_undefinedOpcode s c ha ht hr hs w hh hw hd
  case guardFails =>
    intro c w s ha ht hr hh hw hi hb hg hs ho
    rw [exec_wAdd s c ha ht hr hs w hh hw hb ho, wRun_guardFails s c w _ hw hi hb hg]
  case reserved =>
    intro c w s ha ht hr hh hw hi ho hs
    rw [exec_wAdd s c ha ht hr hs w hh hw (blocked_illegal s c w hw hi) ho, wRun_illegal s c w _ hw hi]
  case outside => exact wIllegal_of_undefined
  case guardBits => exact wIllegal_of_guardBits

end Sys2Proof.Machine
end

section
/-! Proofs about boot (R888 to R909), firmware in service (R915 to R921), the service cores (R53), STOP and RESET (R888, R924). -/

namespace Sys2Proof.Machine

/-! ## The service state -/

/-- Entering a service state changes DEV.ST and books (R888). -/
theorem devMark_booked (s : State) (st : DevState) : Booked (s.setDev { s.dev with st := st }) (s.devMark st) := by
  have h := booked_setEvt (s.setDev { s.dev with st := st }) pgDev 0
  cases st with
  | early => exact booked_trans h (booked_setRg _ _ _ _)
  | full => exact booked_trans h (booked_setRg _ _ _ _)
  | boot | degraded | safe | stopped => exact h

@[simp] theorem devMark_dev (s : State) (st : DevState) : (s.devMark st).dev = { s.dev with st := st } := booked_dev (devMark_booked s st)
@[simp] theorem devMark_pins (s : State) (st : DevState) : (s.devMark st).pins = s.pins :=
  (booked_pins (devMark_booked s st)).trans rfl

/-- The service state changes to one that keeps its requests and domains: any but STOPPED (R888, R891). -/
theorem devGo_running (s : State) (st : DevState) (h : st ≠ .stopped) : s.devGo st = if s.dev.st = st then s else s.devMark st := by
  cases st with
  | stopped => exact absurd rfl h
  | _ => rfl

theorem devGo_dev (s : State) (st : DevState) (h : st ≠ .stopped) : (s.devGo st).dev = { s.dev with st := st } := by
  rw [devGo_running s st h]
  split
  · next e => rw [← e]
  · exact devMark_dev s st

theorem devGo_pins (s : State) (st : DevState) (h : st ≠ .stopped) : (s.devGo st).pins = s.pins := by
  rw [devGo_running s st h]
  split
  · rfl
  · exact devMark_pins s st

/-- A bit of DEV.CAUSE changes nothing of the device's own state but DEV.ST (R888, R890). -/
theorem setCause_id (s : State) (b : Nat) (v : Bool) : (s.setCause b v).dev.id = s.dev.id := by
  have hb : ∀ z : State, (z.setEvt pgDev 3).dev = z.dev := fun z => booked_dev (booked_setEvt z pgDev 3)
  have hs : (s.setRf pgDev oDevCause b b (b2n v)).dev = s.dev := rfl
  unfold State.setCause
  split
  · rfl
  · simp only
    split
    · rw [devMark_dev]; simp [hb, hs]
    · split
      · rw [devMark_dev]; simp [hb, hs]
      · simp [hb, hs]

theorem toSafe_id (s : State) (cause : Nat) : (s.toSafe cause).dev.id = s.dev.id := by
  rw [State.toSafe, devGo_dev _ _ (by decide), setCause_id]

/-! ## Release of reset and SYS_READY -/

/-- A held device with PWR_OK high leaves reset and opens the flash (R966, R974). -/
theorem exec_resetRelease (s : State) (hh : s.pins.held = true) (hp : s.pins.pwrOk = true) :
    exec .resetRelease s = .next ((s.setPins s.pins.release).setRg pgDev oDevResetCause (word s.pins.cause)).spiStart :=
  if_pos (by rw [hh, hp]; rfl)

/-- A device in reset is not ready (R967). -/
theorem resetAll_sysReady (s : State) (c : Nat) : (s.resetAll c).sysReady = false := rfl

theorem sysReady_boot (s : State) (hb : s.dev.st = .boot) : s.sysReady = false := by
  simp [State.sysReady, hb]

theorem sysReady_early (s : State) (ha : s.awake) : (s.devGo .early).sysReady = true := by
  rw [State.sysReady, devGo_dev _ _ (by decide), devGo_pins _ _ (by decide), show s.pins.held = false from ha]
  rfl

/-! ## Boot -/

theorem exec_enterEarly (s : State) (ha : s.awake)
    (h : s.dev.st = .boot ∧ 5 ≤ s.dev.step ∧ s.dev.id = .ready ∧ s.dev.untested = false ∧ s.bootPort = true) :
    exec .enterEarly s = .next (s.devGo .early) :=
  (live_awake s _ ha).trans (if_pos h)

theorem exec_enterFull (s : State) (ha : s.awake)
    (h : s.dev.st = .early ∧ s.regionsDone = true ∧ s.stacksDone true = true ∧ s.portsDone = true) :
    exec .enterFull s = .next (s.devGo (if s.degrading then .degraded else .full)) :=
  (live_awake s _ ha).trans (if_pos h)

/-- The first boot steps of a device in BOOT (R905). -/
theorem exec_bootStep1 (f : BootFindings) (s : State) (ha : s.awake) (hb : s.dev.st = .boot) (h : s.dev.step = 0) :
    exec (.bootStepDone f) s = .next (s.boot1 f) := by
  show execBootStepDone f s = _
  simp [execBootStepDone, live_awake _ _ ha, h, hb]

theorem exec_bootStep2 (f : BootFindings) (s : State) (ha : s.awake) (hb : s.dev.st = .boot) (h : s.dev.step = 1) :
    exec (.bootStepDone f) s = .next (s.boot2 f) := by
  show execBootStepDone f s = _
  simp [execBootStepDone, live_awake _ _ ha, h, hb]

/-- The comparison with the leaf of CERTS never makes an identity underived (R909). -/
theorem idCheck_derived (s : State) (h : s.dev.id ≠ .deriving_) : s.idCheck.dev.id ≠ .deriving_ := by
  unfold State.idCheck
  split
  · simp only
    split
    · rw [toSafe_id]; exact nofun
    · exact nofun
  · exact h

/-- An identity that arrives is no longer being derived (R908). -/
theorem exec_identityReady (d : BitVec 384) (s : State) (ha : s.awake) (hd : s.dev.id = .deriving_) :
    ∃ t, exec (.identityReady d) s = .next t ∧ t.dev.id ≠ .deriving_ := by
  refine ⟨_, (live_awake s _ ha).trans (if_pos hd), idCheck_derived _ ?_⟩
  rw [booked_dev (booked_setEvt _ _ _), booked_dev (booked_foldl _ _ (fun _ _ => booked_setRg _ _ _ _) _)]
  exact nofun

/-- The next region in order, in BOOT, is released or LOST as its self-test says (R894, R905). -/
theorem exec_regionRelease (r : Region) (pass : Bool) (s : State) (ha : s.awake) (h4 : 4 ≤ s.dev.step) (hb : s.dev.st = .boot)
    (hr : (s.regionAt r.val).released = false) (hl : (s.regionAt r.val).st ≠ .lost) (ho : ∀ q, q < r.val → (s.regionAt q).released = true) :
    exec (.regionRelease r pass) s = .next (if pass then
      ((s.putRegion r.val { s.regionAt r.val with released := true, map := s.mapOf r.val }).cluSetup r.val).setEvt pgDev 1
      else s.regionLost r.val) := by
  have hlow : (List.range r.val).all (fun q => (s.regionAt q).released || decide ((s.regionAt q).st = .lost)) = true := by
    simp only [List.all_eq_true, List.mem_range]
    intro q hq
    rw [ho q hq, Bool.true_or]
  show execRegionRelease r pass s = _
  simp only [execRegionRelease, live_awake _ _ ha, h4, hr, hb, hlow, decide_eq_true hl]
  cases pass
  · exact if_neg (by decide)
  · exact if_neg (by decide)

/-! ## Completions and management commands -/

/-- A completion is booking. -/
theorem cplOut_booked (s : State) (ring kind cmdId : Nat) (r : CmdRes) : Booked s (s.cplOut ring kind cmdId r) := by
  have h : Booked s (if r.status = stConflict then (s.count pgHcmd oHcmdCmdConflict 1).conflict r.source else s) := by
    split
    · exact booked_trans (booked_count _ _ _ _) (books_conflict _ _).1
    · exact booked_refl s
  unfold State.cplOut
  simp only
  split
  · exact booked_trans h (booked_trans (books_putRing _ _ _).1 (books_writeCpl _ _ _ _ _ _ _ _ _).1)
  · exact booked_trans h (books_emit _ _).1

/-- Completing a command reaches no pin. -/
theorem cmdDone_pins (s : State) (src : CmdSrc) (ws : List Word) (r : CmdRes) : (s.cmdDone src ws r).pins = s.pins := by
  have hh : (s.holdCmd src []).pins = s.pins := by cases src <;> rfl
  have hc : ((s.holdCmd src []).count pgHcmd oHcmdCmds 1).pins = s.pins := (booked_pins (booked_count _ _ _ _)).trans hh
  unfold State.cmdDone
  simp only
  rw [booked_pins (cplOut_booked _ _ _ _ _)]
  split <;> exact hc

section
variable {k : Fin 4} {l : List Word} {s z : State} {opc : Nat} {ws : List Word} {masks : List Nat}
  {body : List Word → Who → State → Option CmdRes × State} (ho : s.offers (.mgmt k l) opc ws z) (hb : cmdBits ws masks = true)
include ho hb

/-- A management command whose body answers completes with that answer (R798 to R802, R914). -/
theorem runMgmt_answers {r : CmdRes} {t : State} (h : body ws (cmdWho (.mgmt k l)) z = (some r, t)) :
    s.runMgmt (.mgmt k l) opc masks body = t.cmdDone (.mgmt k l) ws r := by
  have ht : s.cmdTake (.mgmt k l) (fun o => decide (o = opc)) = (some (ws, false), z) := ho
  simp [State.runMgmt, State.runCmd, ht, hb, srcMgmt, h]

/-- A management command whose body has no answer yet waits (R180). -/
theorem runMgmt_waits {t : State} (h : body ws (cmdWho (.mgmt k l)) z = (none, t)) :
    s.runMgmt (.mgmt k l) opc masks body = t.cmdWait s (.mgmt k l) ws := by
  have ht : s.cmdTake (.mgmt k l) (fun o => decide (o = opc)) = (some (ws, false), z) := ho
  simp [State.runMgmt, State.runCmd, ht, hb, srcMgmt, h]
end

/-! ## Writing a firmware item (R915, R916) -/

section
variable (k : Fin 4) (l : List Word) (v : Bool) (ws : List Word) (z y : State) (n : Nat) (b : List Byte) (bad : Bool) (s : State) (ha : s.awake)
  (ho : s.offers (.mgmt k l) 0x38 ws z) (hb : cmdBits ws [0xF, allBits, 0xFFFFFFFF] = true) (hi : z.fwmState = 0)
  (hn : fld (ws.getD 1 0) 3 0 = n) (h1 : 1 ≤ n) (h9 : n ≤ 9)
include ha ho hb hi hn h1 h9

/-- A FW_WRITE whose object cannot be read yet waits. -/
theorem exec_fwWrite_unread (hr : z.cmdRead (cmdWho (.mgmt k l)) (ws.getD 2 0).toNat (fld (ws.getD 3 0) 31 0) = (none, y)) :
    exec (.fwWrite (.mgmt k l) v) s = .next (y.cmdWait s (.mgmt k l) ws) := by
  refine (live_awake s _ ha).trans (congrArg _ (runMgmt_waits ho hb ?_))
  have hk : ¬ (n = 0 ∨ 9 < n) := by omega
  simp only [hi, hn, hr, if_neg hk, ne_eq, not_true_eq_false, if_false]

/-- A good item is kept until the flash has it. -/
theorem exec_fwWrite_good (hr : z.cmdRead (cmdWho (.mgmt k l)) (ws.getD 2 0).toNat (fld (ws.getD 3 0) 31 0) = (some (b, bad), y))
    (hg : (!bad && itOk (y.itemUse 1) (itPayload (y.itemUse 3)) n v b) = true) :
    exec (.fwWrite (.mgmt k l) v) s =
      .next (((y.setDev { y.dev with pendW := some (n, b, 64 + k.val, fld (ws.getD 0 0) 63 32) }).setPins
        { y.pins with spiWp := true }).cmdWait s (.mgmt k l) ws) := by
  refine (live_awake s _ ha).trans (congrArg _ (runMgmt_waits ho hb ?_))
  have hk : ¬ (n = 0 ∨ 9 < n) := by omega
  simp only [hi, hn, hr, hg, if_neg hk, ne_eq, not_true_eq_false, if_false, if_true]
  rfl

/-- A bad item is refused and its slot is BAD. -/
theorem exec_fwWrite_bad (hr : z.cmdRead (cmdWho (.mgmt k l)) (ws.getD 2 0).toNat (fld (ws.getD 3 0) 31 0) = (some (b, bad), y))
    (hg : ¬ (!bad && itOk (y.itemUse 1) (itPayload (y.itemUse 3)) n v b) = true) :
    exec (.fwWrite (.mgmt k l) v) s =
      .next (((y.putFwSlot (y.idleSlot n) n .bad).fwmLast n 4).cmdDone (.mgmt k l) ws (.desc pgFwm 0)) := by
  refine (live_awake s _ ha).trans (congrArg _ (runMgmt_answers ho hb ?_))
  have hk : ¬ (n = 0 ∨ 9 < n) := by omega
  simp only [hi, hn, hr, if_neg hg, if_neg hk, ne_eq, not_true_eq_false, if_false]
end

section
variable (k : Nat) (b : List Byte) (ring c : Nat) (s z : State) (ha : s.awake) (hp : s.dev.pendW = some (k, b, ring, c))
  (hz : z = (((s.setDev { s.dev with pendW := none }).setPins { s.pins with spiWp := false }).putItem (s.idleSlot k) k b).count pgHcmd
    oHcmdCmds 1)
include ha hp hz

/-- An item that reads back wrong marks its slot BAD. -/
theorem exec_fwWriteComplete_wrong :
    exec (.fwWriteComplete false) s = .next (((z.putFwSlot (s.idleSlot k) k .bad).fwmLast k 4).cplOut ring 0 c (.desc pgFwm 0)) := by
  show execFwWriteComplete false s = _
  subst hz
  simp only [execFwWriteComplete, live_awake _ _ ha, hp]
  rfl

/-- Outside SAFE an item that is written is STAGED where the set it would join is tested, else UNTESTED. -/
theorem exec_fwWriteComplete_good (hs : (z.putFwSlot (s.idleSlot k) k (if z.joinTested k b then .staged else .untested)).dev.st ≠ .safe) :
    exec (.fwWriteComplete true) s = .next ((((z.putFwSlot (s.idleSlot k) k (if z.joinTested k b then .staged else .untested)).count pgFwm
      oFwmWrites 1).setEvt pgFwm 0).cplOut ring 0 c (.ok pgFwm 0)) := by
  show execFwWriteComplete true s = _
  subst hz
  simp only [execFwWriteComplete, live_awake _ _ ha, hp, if_true]
  rw [if_neg hs]
end

/-! ## Activation (R917 to R921) -/

/-- A STAGED item whose command asks for the next boot has its slot recorded (R918, R921). -/
theorem exec_fwActivate_later (k : Fin 4) (l ws : List Word) (z : State) (n : Nat) (s : State) (ha : s.awake)
    (ho : s.offers (.mgmt k l) 0x39 ws z) (hb : cmdBits ws [0x1F] = true) (hn : fld (ws.getD 1 0) 3 0 = n) (h1 : 1 ≤ n) (h9 : n ≤ 9)
    (hi : z.fwmState = 0) (hs : z.fwSlot (z.idleSlot n) n = .staged) (hl : bit (ws.getD 1 0) 4 = true) :
    exec (.fwActivate (.mgmt k l)) s = .next ((z.recSlot n (z.idleSlot n) false).cmdDone (.mgmt k l) ws (.ok pgFwm 0)) := by
  refine (live_awake s _ ha).trans (congrArg _ (runMgmt_answers ho hb ?_))
  have hk : ¬ (n = 0 ∨ 9 < n) := by omega
  simp only [hn, if_neg hk, hi, hs, hl, ne_eq, not_true_eq_false, if_false, Bool.true_or, if_true]

theorem exec_activationPartDone_failed (x : Rollout) (s : State) (ha : s.awake) (hx : s.dev.rollout = some x) :
    exec (.activationPartDone .failed) s = .next (s.rollFail x) := by
  show execActivationPartDone .failed s = _
  simp only [execActivationPartDone, live_awake _ _ ha, hx]

/-- The last part of a rollout ends it. -/
theorem exec_activationPartDone_last (x : Rollout) (p : Nat) (s : State) (ha : s.awake) (hx : s.dev.rollout = some x)
    (hp : (s.rollParts x.kind)[x.done]? = some p) (hl : (s.rollParts x.kind)[x.done + 1]? = none) :
    exec (.activationPartDone .ready) s =
      .next ((((s.partRun p (s.idleSlot x.kind)).setDev { (s.partRun p (s.idleSlot x.kind)).dev with
        rollout := some { x with done := x.done + 1 } }).rollShow).rollEnd x.kind) := by
  show execActivationPartDone .ready s = _
  simp only [execActivationPartDone, live_awake _ _ ha, hx, hp, hl]

/-! ## Service cores (R53, R926) -/

/-- What is noted of a core that its watchdog resets: the error, the count of restarts and the event. -/
def State.noteRestart (s : State) (c : Nat) : State :=
  ((s.error (pgSvc c) ⟨2, false, 0x0501, pgSvc c, 0, 0⟩).count (pgSvc c) oSvcRestarts 1).setEvt (pgSvc c) 0

theorem noteRestart_booked (s : State) (c : Nat) : Booked s (s.noteRestart c) :=
  booked_trans (booked_error _ _ _) (booked_trans (booked_count _ _ _ _) (booked_setEvt _ _ _))

theorem noteRestart_ns (s : State) (c : Nat) : (s.noteRestart c).ns = s.ns := by
  rw [State.ns, booked_time (noteRestart_booked s c)]; rfl

/-- A running core that is silent for its time restarts and is noted, outside an activation. -/
theorem exec_svcWatchdog_silent (c : Fin 8) (s : State) (ha : s.awake) (hr : (s.coreAt c.val).st = .running) (hn : s.dev.rollout = none)
    (ht : (s.rg (pgSvc c.val) oSvcHeartbeat).toNat + max 1000 (s.rf (pgSvc c.val) oSvcWdog 31 0) * 1000 ≤ s.ns) :
    exec (.svcWatchdog c) s = .next (((s.putCore c.val { s.coreAt c.val with st := .restarting, fails := (s.coreAt c.val).fails + 1 }).noteRestart
      c.val).setRg (pgSvc c.val) oSvcHeartbeat (word s.ns)) := by
  generalize hu : s.putCore c.val { s.coreAt c.val with st := .restarting, fails := (s.coreAt c.val).fails + 1 } = u
  have hdev : u.dev = s.dev := by rw [← hu]; rfl
  have hns : (u.noteRestart c.val).ns = s.ns := by rw [noteRestart_ns, ← hu]; rfl
  have hroll : (u.noteRestart c.val).dev.rollout = none := by rw [booked_dev (noteRestart_booked _ _), hdev, hn]
  show execSvcWatchdog c s = _
  simp only [execSvcWatchdog, live_awake _ _ ha, hr, Nat.not_lt.2 ht, reduceCtorEq, false_and, or_self, if_false, hu]
  rw [← hns]
  split
  · next x hx => exact absurd (hx.symm.trans hroll) nofun
  · rfl

/-- A core whose restart is done runs, outside an activation. -/
theorem exec_coreRestartDone (c : Fin 8) (s : State) (ha : s.awake) (hr : (s.coreAt c.val).st = .restarting) (hn : s.dev.rollout = none) :
    exec (.coreRestartDone c) s =
      .next ((s.putCore c.val { s.coreAt c.val with st := .running }).setRg (pgSvc c.val) oSvcHeartbeat (word s.ns)) := by
  show execCoreRestartDone c s = _
  simp only [execCoreRestartDone, live_awake _ _ ha, hr, hn, Option.any_none]
  rfl

/-! ## STOP and RESET (R888, R924) -/

theorem exec_stop (k : Fin 4) (l ws : List Word) (z s : State) (ha : s.awake) (ho : s.offers (.mgmt k l) 0x3A ws z)
    (hb : cmdBits ws [] = true) (hs : z.dev.st ≠ .stopped) :
    exec (.stop (.mgmt k l)) s = .next ((z.toStopped 19).cmdDone (.mgmt k l) ws (.ok pgDev 0)) :=
  (live_awake s _ ha).trans (congrArg _ (runMgmt_answers ho hb (if_neg hs)))

/-- A RESET completes, then resets the device with cause 2. -/
theorem exec_reset (k : Fin 4) (l ws : List Word) (z s : State) (ha : s.awake) (ho : s.offers (.mgmt k l) 0x3B ws z)
    (hb : cmdBits ws [] = true) :
    exec (.reset (.mgmt k l)) s =
      .next (((z.setPins { z.pins with held := true }).cmdDone (.mgmt k l) ws (.ok pgDev 0)).resetAll 2) := by
  have hheld : ((z.setPins { z.pins with held := true }).cmdDone (.mgmt k l) ws (.ok pgDev 0)).pins.held = true := by
    rw [cmdDone_pins]; rfl
  show execReset (.mgmt k l) s = _
  simp only [execReset, live_awake _ _ ha]
  rw [runMgmt_answers ho hb rfl, if_pos hheld]

/-! ## The statement -/

/-- Settles O58: boot, firmware and the cores each by the meaning of its command. -/
theorem bootAndFirmware : Obligations.BootAndFirmware := by
  unfold Obligations.BootAndFirmware
  refine ⟨⟨?release, ?inReset, ?ready, ?early, ?full, ?step1, ?step2, ?identity, ?region⟩,
    ⟨?write, ?written, ?activate, ?failed, ?last⟩, ?watchdog, ?restarted, ?stop, ?reset⟩
  case release => exact exec_resetRelease
  case inReset => exact resetAll_sysReady
  case ready => exact fun s ha hb => ⟨sysReady_boot s hb, sysReady_early s ha⟩
  case early => exact fun s ha hb h5 hi hu hp => exec_enterEarly s ha ⟨hb, h5, hi, hu, hp⟩
  case full => exact fun s ha he hr hs hp => exec_enterFull s ha ⟨he, hr, hs, hp⟩
  case step1 => exact exec_bootStep1
  case step2 => exact exec_bootStep2
  case identity => exact exec_identityReady
  case region =>
    intro r s ha h4 hb hr hl ho
    exact ⟨exec_regionRelease r true s ha h4 hb hr hl ho, exec_regionRelease r false s ha h4 hb hr hl ho⟩
  case write =>
    rintro k l v ws z n s ha ho hb hi rfl h1 h9
    rcases hr : z.cmdRead (cmdWho (.mgmt k l)) (ws.getD 2 0).toNat (fld (ws.getD 3 0) 31 0) with ⟨_ | ⟨b, bad⟩, y⟩
    · exact exec_fwWrite_unread k l v ws z y _ s ha ho hb hi rfl h1 h9 hr
    · by_cases hg : (!bad && itOk (y.itemUse 1) (itPayload (y.itemUse 3)) (fld (ws.getD 1 0) 3 0) v b) = true
      · rw [exec_fwWrite_good k l v ws z y _ b bad s ha ho hb hi rfl h1 h9 hr hg]
        exact congrArg _ (if_pos hg).symm
      · rw [exec_fwWrite_bad k l v ws z y _ b bad s ha ho hb hi rfl h1 h9 hr hg]
        exact congrArg _ (if_neg hg).symm
  case written =>
    rintro k b ring c _ z s ha hp rfl hz
    exact ⟨exec_fwWriteComplete_wrong k b ring c s z ha hp hz, fun _ hs => exec_fwWriteComplete_good k b ring c s z ha hp hz hs⟩
  case activate =>
    rintro k l ws z n _ s ha ho hb rfl h1 h9 hi rfl hs hl
    exact exec_fwActivate_later k l ws z _ s ha ho hb rfl h1 h9 hi hs hl
  case failed => exact exec_activationPartDone_failed
  case last =>
    rintro x p _ s ha hx hp hl rfl
    exact exec_activationPartDone_last x p s ha hx hp hl
  case watchdog => exact exec_svcWatchdog_silent
  case restarted => exact exec_coreRestartDone
  case stop => exact exec_stop
  case reset => exact exec_reset

end Sys2Proof.Machine
end

section
/-! Proofs about the step of the block and the time unit's sources (R55, R63 to R75, R970). -/

namespace Sys2Proof.Machine

/-! ## One step -/

/-- Settles O1: a step is by cases on the queue. -/
theorem stepRunsFrontCommand : Obligations.StepRunsFrontCommand := by
  unfold Obligations.StepRunsFrontCommand
  intro c rest s
  refine ⟨fun h => ?_, fun h => ?_⟩ <;> rw [step, h]

/-! ## What counting on a link leaves (R770) -/

/-- SRC_CTL is no counter: booking keeps it. -/
theorem regsKept_srcCtl {s t : State} (h : RegsKept s t) : t.srcCtl = s.srcCtl :=
  regsKept_rg h _ _ (keyPlain_of _ _ (by decide) (by decide))

@[simp] theorem linkCount_time (s : State) (l off n : Nat) : (s.linkCount l off n).time = s.time :=
  (booked_time (books_cntSrc (s.setLinkRg l off (s.linkRg l off + word n)) _ _ _).1).trans rfl

@[simp] theorem linkCount_srcCtl (s : State) (l off n : Nat) : (s.linkCount l off n).srcCtl = s.srcCtl :=
  (regsKept_srcCtl (books_cntSrc (s.setLinkRg l off (s.linkRg l off + word n)) _ _ _).2).trans rfl

@[simp] theorem heard_time (s : State) (l n bytes : Nat) : (s.heard l n bytes).time = s.time := by
  unfold State.heard
  split <;> simp

@[simp] theorem heard_srcCtl (s : State) (l n bytes : Nat) : (s.heard l n bytes).srcCtl = s.srcCtl := by
  unfold State.heard
  split <;> simp

@[simp] theorem heard_st16 (s : State) (l n bytes : Nat) : (s.heard l n bytes).st16 = s.st16 := by
  simp only [State.st16, heard_time]

@[simp] theorem heard_ptpOn (s : State) (l n bytes port dom : Nat) : (s.heard l n bytes).ptpOn port dom = s.ptpOn port dom := by
  simp only [State.ptpOn, heard_srcCtl]

@[simp] theorem heard_isBest (s : State) (l n bytes port source : Nat) :
    (s.heard l n bytes).isBest port source = s.isBest port source := by
  simp only [State.isBest, State.bestMaster, State.masterOk, heard_time, heard_srcCtl]

@[simp] theorem heard_cadPort (s : State) (l n bytes : Nat) : (s.heard l n bytes).cadPort = s.cadPort := by
  simp only [State.cadPort, heard_srcCtl]

@[simp] theorem sendOn_srcCtl (s : State) (l n : Nat) (e : Emit) : (s.sendOn l n e).srcCtl = s.srcCtl :=
  regsKept_srcCtl (books_sendOn s l n e).2

/-! ## The best master (R64) -/

theorem le_of_keyLt {a b : Nat} {as bs : List Nat} (h : keyLt (a :: as) (b :: bs) = true) : a ≤ b := by
  simp only [keyLt, Bool.or_eq_true, Bool.and_eq_true, decide_eq_true_eq] at h
  omega

theorem le_of_not_keyLt {a b : Nat} {as bs : List Nat} (h : ¬ keyLt (a :: as) (b :: bs) = true) : b ≤ a := by
  simp only [keyLt, Bool.or_eq_true, Bool.and_eq_true, decide_eq_true_eq] at h
  omega

theorem firstBy_eq_none {α : Type} (key : α → List Nat) (l : List α) (h : firstBy key l = none) : l = [] := by
  cases l with
  | nil => rfl
  | cons x xs =>
    unfold firstBy at h
    split at h
    · exact absurd h nofun
    · split at h <;> exact absurd h nofun

/-- The first in key order is of the list, and no element's key begins with a smaller number. -/
theorem firstBy_least {α : Type} (f : α → Nat) (g : α → List Nat) (l : List α) {b : α} (h : firstBy (fun m => f m :: g m) l = some b) :
    b ∈ l ∧ ∀ m ∈ l, f b ≤ f m := by
  induction l generalizing b with
  | nil => exact absurd h nofun
  | cons x xs ih =>
    rw [firstBy] at h
    split at h
    · next hn =>
      obtain rfl := Option.some.inj h
      rw [firstBy_eq_none _ _ hn]
      simp
    · next y hy =>
      obtain ⟨hmem, hle⟩ := ih hy
      split at h
      · next hk =>
        obtain rfl := Option.some.inj h
        exact ⟨List.mem_cons_of_mem _ hmem, List.forall_mem_cons.2 ⟨le_of_keyLt hk, hle⟩⟩
      · next hk =>
        obtain rfl := Option.some.inj h
        exact ⟨List.mem_cons_self, List.forall_mem_cons.2 ⟨Nat.le_refl _, fun m hm => Nat.le_trans (le_of_not_keyLt hk) (hle m hm)⟩⟩

theorem bestMaster_least (s : State) (b : PtpMaster) (h : s.bestMaster = some b) :
    b ∈ s.time.masters ∧ s.masterOk b = true ∧ bit s.srcCtl (4 + b.port) = true ∧
      ∀ m ∈ s.time.masters, s.masterOk m = true → bit s.srcCtl (4 + m.port) = true → b.rank ≤ m.rank := by
  obtain ⟨hb, hle⟩ := firstBy_least (fun m : PtpMaster => m.rank) (fun m => [m.port, m.source]) _ h
  simp only [List.mem_filter, Bool.and_eq_true] at hb hle
  obtain ⟨hmem, hok, hport⟩ := hb
  exact ⟨hmem, hok, hport, fun m hm ho hp => hle m ⟨hm, ho, hp⟩⟩

/-! ## Announce messages (R64) -/

/-- An Announce changes the masters heard of. -/
theorem announced_masters (s : State) (t : TimeSt) (ht : s.time = t) (port source rank interval : Nat) :
    s.announced port source rank interval = s.setTime { t with masters := (s.announced port source rank interval).time.masters } := by
  subst ht
  rfl

/-- The first Announce of a clock on a port. -/
theorem announced_new (s : State) (port source rank interval : Nat)
    (h : s.time.masters.find? (fun m => decide (m.port = port) && decide (m.source = source)) = none) :
    (⟨port, source, rank, s.time.st, interval, 1⟩ : PtpMaster) ∈ (s.announced port source rank interval).time.masters := by
  simp only [State.announced, h, State.setTime_time, List.mem_append, List.mem_singleton, or_true]

/-- An Announce within four intervals of the one before it. -/
theorem announced_again (s : State) (port source rank interval : Nat) (m : PtpMaster)
    (h : s.time.masters.find? (fun m => decide (m.port = port) && decide (m.source = source)) = some m)
    (hi : s.time.st < m.heardAt + 4 * (interval * 2 ^ 40)) :
    (⟨port, source, rank, s.time.st, interval, 2⟩ : PtpMaster) ∈ (s.announced port source rank interval).time.masters := by
  simp only [State.announced, h, if_pos hi, State.setTime_time, List.mem_append, List.mem_singleton, or_true]

/-! ## PTP messages (R64, R65) -/

theorem exec_ptpMessageRx (p : Fin 4) (m : PtpMsg) (s : State) : exec (.ptpMessageRx p m) s = execPtpMessageRx p m s := rfl

section
variable (p : Fin 4) (dom : Byte) (source : Nat) (s : State) (ha : s.awake) (hp : s.ptpOn p.val dom.toNat = true)
include ha hp

theorem exec_announce (rank i : Nat) :
    exec (.ptpMessageRx p (.announce dom source rank i)) s = .next ((s.heard (p.val * 4) 1 0).announced p.val source rank i) := by
  simp only [exec_ptpMessageRx, execPtpMessageRx, live_awake _ _ ha, heard_ptpOn, hp, if_true]

/-- The requester of a peer delay has its own stamp and the two of the answer. -/
theorem exec_pdelayResp (t2 t3 : Nat) (corr : Int) (r : Nat × Nat) (hm : fld s.srcCtl 3 2 = 1)
    (hr : s.time.reqTs.find? (fun x => x.1 = p.val) = some r) :
    exec (.ptpMessageRx p (.pdelayResp dom t2 t3 corr)) s =
      .next ((s.heard (p.val * 4) 1 0).setDelay p.val ((((s.st16 : Int) - r.2) - ((t3 : Int) - t2) - corr) / 2)) := by
  simp only [exec_ptpMessageRx, execPtpMessageRx, live_awake _ _ ha, heard_ptpOn, heard_srcCtl, heard_time, heard_st16, hp, hm, hr, decide_true, Bool.and_self,
    if_true]

variable (hb : s.isBest p.val source = true)
include hb

theorem exec_sync_twoStep (origin interval : Nat) (corr : Int) :
    exec (.ptpMessageRx p (.sync dom source true origin corr interval)) s =
      .next (((s.heard (p.val * 4) 1 0).setTime { s.time with twoStep := s.time.twoStep.filter (fun x => x.1 ≠ p.val) ++
        [(p.val, s.time.st, corr, interval)] }).delayAsk p.val) := by
  simp only [exec_ptpMessageRx, execPtpMessageRx, live_awake _ _ ha, heard_ptpOn, heard_isBest, heard_time, hp, hb, Bool.and_self, if_true]

theorem exec_sync_oneStep (origin interval : Nat) (corr : Int) :
    exec (.ptpMessageRx p (.sync dom source false origin corr interval)) s =
      .next (((s.heard (p.val * 4) 1 0).ptpSync p.val s.time.st (origin + corr) interval).delayAsk p.val) := by
  simp only [exec_ptpMessageRx, execPtpMessageRx, live_awake _ _ ha, heard_ptpOn, heard_isBest, heard_time, hp, hb, Bool.and_self, if_true, Bool.false_eq_true,
    if_false]

theorem exec_followUp (origin : Nat) (corr : Int) (e : Nat × Nat × Int × Nat)
    (he : s.time.twoStep.find? (fun x => x.1 = p.val) = some e) :
    exec (.ptpMessageRx p (.followUp dom source origin corr)) s =
      .next (((s.heard (p.val * 4) 1 0).setTime { s.time with twoStep := s.time.twoStep.filter (fun x => x.1 ≠ p.val) }).ptpSync p.val e.2.1
        (origin + e.2.2.1 + corr) e.2.2.2) := by
  simp only [exec_ptpMessageRx, execPtpMessageRx, live_awake _ _ ha, heard_ptpOn, heard_isBest, heard_time, hp, hb, he, Bool.and_self, if_true]

theorem exec_delayResp (t4 : Nat) (corr : Int) (e : Nat × Int × Int) (r : Nat × Nat) (hm : fld s.srcCtl 3 2 = 0)
    (he : s.time.syncTs.find? (fun x => x.1 = p.val) = some e) (hr : s.time.reqTs.find? (fun x => x.1 = p.val) = some r) :
    exec (.ptpMessageRx p (.delayResp dom source t4 corr)) s =
      .next ((s.heard (p.val * 4) 1 0).setDelay p.val (((e.2.2 - e.2.1) + ((t4 : Int) - corr - r.2)) / 2)) := by
  simp only [exec_ptpMessageRx, execPtpMessageRx, live_awake _ _ ha, heard_ptpOn, heard_isBest, heard_srcCtl, heard_time, hp, hb, hm, he, hr, decide_true,
    Bool.and_self, if_true]
end

/-- The upstream end of a cadence link answers a peer-delay request, then sends a Sync (R69). -/
theorem exec_pdelayReq (p : Fin 4) (dom : Byte) (s : State) (ha : s.awake) (hc : bit s.srcCtl (16 + p.val) = true) :
    exec (.ptpMessageRx p (.pdelayReq dom)) s =
      .next (((s.heard (p.val * 4) 1 0).sendOn (p.val * 4) 1 (.ptp p.val (.pdelayResp s.st16 s.st16))).sendOn (p.val * 4) 1
        (.ptp p.val (.sync ((s.heard (p.val * 4) 1 0).sendOn (p.val * 4) 1 (.ptp p.val (.pdelayResp s.st16 s.st16))).st16))) := by
  simp only [exec_ptpMessageRx, execPtpMessageRx, live_awake _ _ ha, State.peerAnswers, heard_srcCtl, heard_st16, sendOn_srcCtl, hc, Bool.true_or, if_true]

/-! ## The pulse input (R68, R970) -/

@[simp] theorem setTime_srcCtl (s : State) (t : TimeSt) : (s.setTime t).srcCtl = s.srcCtl := rfl

@[simp] theorem setRg_ppsInTs_srcCtl (s : State) (v : Word) : (s.setRg pgTime oTimePpsInTs v).srcCtl = s.srcCtl :=
  rg_setRg_other _ _ _ _ _ _ (by decide)

theorem exec_ppsEdge_disabled (s : State) (ha : s.awake) (h : bit s.srcCtl 8 = false) :
    exec .ppsEdge s = .next (s.setRg pgTime oTimePpsInTs (word s.ns)) := by
  show execPpsEdge s = _
  simp only [execPpsEdge, live_awake _ _ ha, setRg_ppsInTs_srcCtl, h, Bool.not_false, Bool.true_or, if_true]

section
variable (s u : State) (ha : s.awake) (he : bit s.srcCtl 8 = true) (hl : s.time.ppsLast = none)
  (hu : u = (s.setRg pgTime oTimePpsInTs (word s.ns)).setTime { s.time with ppsLast := some s.time.st, ppsQual := true, ppsSeen := true })
include ha he hl hu

/-- The first edge measures when the pulse is the source in use. -/
theorem exec_ppsEdge_first_source (h4 : u.srcNow = 4) :
    exec .ppsEdge s =
      .next (u.measure 4 0 nominalRate ((s.time.st : Int) - ((s.time.st + sec40 / 2) / sec40 * sec40 : Nat)) (10 ^ 9)) := by
  show execPpsEdge s = _
  subst hu
  simp [execPpsEdge, live_awake _ _ ha, he, hl, h4]

/-- The first edge is kept while another source is in use. -/
theorem exec_ppsEdge_first_other (h2 : u.srcNow ≠ 2) (h4 : u.srcNow ≠ 4) : exec .ppsEdge s = .next u := by
  show execPpsEdge s = _
  subst hu
  simp [execPpsEdge, live_awake _ _ ha, he, hl, h2, h4]
end

/-- A pulse that stays away is disqualified (R68). -/
theorem exec_ppsLost_qualified (s : State) (l : Nat) (ha : s.awake) (he : bit s.srcCtl 8 = true) (hl : s.time.ppsLast = some l)
    (hq : s.time.ppsQual = true) (ht : l + sec40 + window40 < s.time.st) :
    exec .ppsLost s = .next ((s.setTime { s.time with ppsQual := false, ppsSeen := false }).setEvt pgTime 4) := by
  show execPpsLost s = _
  simp only [execPpsLost, live_awake _ _ ha, he, hl, hq, ht, decide_true, Bool.and_self, if_true]

/-! ## Cadence and holdover (R69 to R71, R75) -/

theorem exec_cadenceExchange (p : Fin 4) (m : CadenceMsg) (s : State) (ha : s.awake) (hp : s.cadPort = some p.val) :
    exec (.cadenceExchange p m) s =
      .next ((((s.heard (p.val * 4) 1 0).setTime { s.time with cadDelays := (m.delaySymbols :: s.time.cadDelays).take 64, cadAt := some (s.time.st, m.intervalNs) }).measure
        1 p.val m.rate ((s.time.st : Int) - ((m.origin * 2 ^ 24 + ((m.delaySymbols :: s.time.cadDelays).take 64).foldl (· + ·) 0 * 8 * 2 ^ 40 /
          (425 * ((m.delaySymbols :: s.time.cadDelays).take 64).length) : Nat) : Int)) m.intervalNs).sendOn (p.val * 4) 1
        (.ptp p.val .pdelayReq)) := by
  show execCadenceExchange p m s = _
  simp only [execCadenceExchange, live_awake _ _ ha, heard_cadPort, heard_time, hp, if_true]

/-- Entering another synchronisation state changes that and the count of good measurements. -/
theorem syncGo_time (s : State) (st : SyncState) (h : s.time.sync ≠ st) : (s.syncGo st).time = { s.time with sync := st, good := 0 } := by
  rw [State.syncGo, if_neg h, booked_time (booked_setEvt _ _ _)]
  rfl

/-- Three intervals without a measurement end LOCKED: the rate is frozen, and UNC and ST of the entry are kept (R75, R78). -/
theorem holdoverEntry_locked (s : State) (ha : s.awake) (hs : s.time.sync = .locked)
    (ht : s.time.lastMeas + 3 * (s.time.interval * 2 ^ 40) ≤ s.time.st) :
    Completes .holdoverEntry s (fun t => t.time.sync = .holdover ∧ t.time.uncEntry = s.unc ∧ t.time.holdEntry = s.time.st ∧
      t.time.st = s.time.st) := by
  refine ⟨_, (live_awake s _ ha).trans (if_pos ⟨hs, ht⟩), ?_⟩
  generalize hu : ((s.setTime { s.time with uncEntry := s.unc, holdEntry := s.time.st, source := 0, srcPort := 0 }).setRate nominalRate
    s.time.integ) = u
  have hv : (u.setEvt pgTime 3).time = u.time := booked_time (booked_setEvt u pgTime 3)
  have hl : (u.setEvt pgTime 3).time.sync ≠ .holdover := by
    rw [hv, ← hu]
    exact fun h => nomatch hs.symm.trans h
  rw [syncGo_time _ _ hl, hv, ← hu]
  exact ⟨rfl, rfl, rfl, rfl⟩

/-- Settles O5: each message, edge and loss by the meaning of its command; the best master is the first in rank. -/
theorem timeUnitMeasures : Obligations.TimeUnitMeasures := by
  unfold Obligations.TimeUnitMeasures
  refine ⟨⟨?new, ?again, ?best, ?twoStep, ?oneStep, ?followUp, ?delayResp, ?pdelayResp, ?pdelayReq⟩,
    ?edge, ?disabled, ?lost, ?cadence, ?holdover⟩
  case new =>
    intro p dom source rank i s ha hp hf
    refine ⟨_, exec_announce p dom source s ha hp rank i, announced_masters _ _ (heard_time _ _ _ _) _ _ _ _, ?_⟩
    rw [← heard_time s (p.val * 4) 1 0] at hf ⊢
    exact announced_new _ _ _ _ _ hf
  case again =>
    intro p dom source rank i m s ha hp hf hi
    refine ⟨_, exec_announce p dom source s ha hp rank i, announced_masters _ _ (heard_time _ _ _ _) _ _ _ _, ?_⟩
    rw [← heard_time s (p.val * 4) 1 0] at hf hi ⊢
    exact announced_again _ _ _ _ _ m hf hi
  case best => exact bestMaster_least
  case twoStep => exact fun p dom source origin corr interval s ha hp hb => exec_sync_twoStep p dom source s ha hp hb origin interval corr
  case oneStep => exact fun p dom source origin corr interval s ha hp hb => exec_sync_oneStep p dom source s ha hp hb origin interval corr
  case followUp => exact fun p dom source origin corr e s ha hp hb he => exec_followUp p dom source s ha hp hb origin corr e he
  case delayResp => exact fun p dom source t4 corr e r s ha hp hb hm he hr => exec_delayResp p dom source s ha hp hb t4 corr e r hm he hr
  case pdelayResp => exact fun p dom t2 t3 corr r s ha hp hm hr => exec_pdelayResp p dom s ha hp t2 t3 corr r hm hr
  case pdelayReq => exact exec_pdelayReq
  case edge =>
    exact fun s u ha he hl hu => ⟨exec_ppsEdge_first_source s u ha he hl hu, exec_ppsEdge_first_other s u ha he hl hu⟩
  case disabled => exact exec_ppsEdge_disabled
  case lost => exact exec_ppsLost_qualified
  case cadence => exact exec_cadenceExchange
  case holdover => exact holdoverEntry_locked

end Sys2Proof.Machine
end

section
/-! Proofs about ST, its pulse output and the scheduled entries (R62, R73, R82 to R90, R252 to R258, R657, R809, R826, R856, R971). -/

namespace Sys2Proof.Machine

/-! ## Reads and steps of ST (R62, R73) -/

/-- A step moves ST by its length. -/
theorem stepBy_st (s : State) (n : Nat) : (s.stepBy n).time.st = s.time.st + n :=
  congrArg TimeSt.st (booked_time (booked_setEvt _ _ _))

theorem stepBy_evt (s : State) (n : Nat) : bit ((s.stepBy n).rg pgTime oEvtStatus) 1 = true :=
  setEvt_bit _ _ _ (by decide)

/-- A permitted step of more than 1,000 ns is made. -/
theorem exec_stSet_steps (v : Word) (s : State) (ha : s.awake) (ho : s.stepOk = true) (hv : s.time.st + 1000 * 2 ^ 40 < v.toNat * 2 ^ 40) :
    exec (.stSet v) s = .next (s.stepBy (v.toNat * 2 ^ 40 - s.time.st)) := by
  refine (live_awake s _ ha).trans (if_pos ?_)
  rw [ho, decide_eq_true hv]
  rfl

theorem exec_stSet_refused (v : Word) (s : State) (ha : s.awake) (ho : s.stepOk = false) :
    exec (.stSet v) s = .next (s.setEvt pgTime 2) := by
  refine (live_awake s _ ha).trans (if_neg ?_)
  rw [ho]
  exact Bool.false_ne_true

/-- Settles O6: a step lands on the written value, and the events of a step and of a refusal are set. -/
theorem timeReadsAndSteps : Obligations.TimeReadsAndSteps := by
  unfold Obligations.TimeReadsAndSteps
  refine ⟨?read, ?steps, ?refused, ?pulse⟩
  case read => exact fun s ha => live_awake s _ ha
  case steps =>
    intro v s ha ho hv
    refine ⟨_, exec_stSet_steps v s ha ho hv, ?_, stepBy_evt _ _⟩
    rw [stepBy_st]
    omega
  case refused =>
    intro v s ha ho
    exact ⟨_, exec_stSet_refused v s ha ho, booked_time (booked_setEvt _ _ _), setEvt_bit _ _ _ (by decide)⟩
  case pulse => exact fun s ha he hn hp => (live_awake s _ ha).trans (if_pos ⟨he, hn, hp⟩)

/-! ## Delivery (R82) -/

theorem exec_eventDelivery (s : State) (ha : s.awake) :
    exec .eventDelivery s = .next (s.setTime { s.time with
      queue := s.time.queue.filter (fun e => !s.deliverNow e),
      delivered := s.time.delivered ++ sortBy SchedEnt.before (s.time.queue.filter s.deliverNow) }) := by
  show execEventDelivery s = _
  simp only [execEventDelivery, live_awake _ _ ha, List.partition_eq_filter_filter, Function.comp_def]

/-- An entry that is not yet to be delivered is due later than 256 ns ahead. -/
theorem not_deliverNow (s : State) (e : SchedEnt) : (!s.deliverNow e) = decide (s.st16 + 256 * 2 ^ 16 < e.due) := by
  rw [State.deliverNow, ← decide_not]
  exact decide_eq_decide.2 Nat.not_le

/-- Settles O7: delivery parts the queue by `deliverNow`. -/
theorem scheduledDelivery : Obligations.ScheduledDelivery := by
  unfold Obligations.ScheduledDelivery
  intro s ha
  refine ⟨_, exec_eventDelivery s ha, ?_, rfl, rfl⟩
  exact List.filter_congr fun e _ => not_deliverNow s e

/-! ## The next entry of a kind acts (R83, R89, R90) -/

section
variable {s : State} {p : SchedEnt → Bool} {e : SchedEnt} (hn : s.schedNext p = some e)
include hn

theorem schedAct_acts {f : SchedEnt → State → Option State} {t : State} (hf : f e (s.schedTake e) = some t) :
    s.schedAct p f = t.actedNow e.target := by
  simp only [State.schedAct, hn, hf]

theorem schedAct_refused {f : SchedEnt → State → Option State} (hf : f e (s.schedTake e) = none) :
    s.schedAct p f = (s.schedTake e).schedRefuse e := by
  simp only [State.schedAct, hn, hf]

/-! ## Version switches (R252 to R258) -/

variable {d : List Byte} {z y : State} {homed : List Byte → SchedEnt → Bool} {pause refused : State → State}
  {after : SchedEnt → State → State} (hp : s.parkedAt e.region versionWho = false) (ha : e.arg < 2 ^ 13)
  (hf : s.tdFind e.region versionWho (e.arg % 2 ^ 10) = (.ok d, z)) (hh : homed d e = true)
  (hr : tdState d (e.arg / 2 ^ 10 % 8) = svReady)
include hp ha hf hh hr

/-- A switch to a READY slot of a table whose descriptor can be read and written is made. -/
theorem versionAct_switches (hs : (pause z).versionSwitch (e.arg % 2 ^ 10) (e.arg / 2 ^ 10 % 8) d = (true, y)) :
    s.versionAct p homed pause refused after = after e ((y.schedTake e).actedNow e.target) := by
  simp only [State.versionAct, hn, hp, Nat.div_eq_of_lt ha, hf, hh, hr, hs, ne_eq, not_true_eq_false, Bool.not_true, Bool.false_eq_true,
    if_false]

/-- A switch whose write waits on a fault leaves its entry where it is. -/
theorem versionAct_waits (hs : (pause z).versionSwitch (e.arg % 2 ^ 10) (e.arg / 2 ^ 10 % 8) d = (false, y)) :
    s.versionAct p homed pause refused after = y := by
  simp only [State.versionAct, hn, hp, Nat.div_eq_of_lt ha, hf, hh, hr, hs, ne_eq, not_true_eq_false, Bool.not_true, Bool.false_eq_true,
    if_false]
end

theorem region_of_device {e : SchedEnt} (h : e.target = pgDev) : e.region = 0 := if_pos h

theorem region_of_ne_device {e : SchedEnt} (h : e.target ≠ pgDev) : e.region = e.target % 1024 := if_neg h

/-! ## What an entry does -/

section
variable (s : State) (e : SchedEnt) (ha : s.awake)
include ha

/-- A launch entry admits its held slot (R809). -/
theorem exec_launchEvent_admits (hn : s.schedNext (fun x => decide (x.kind = 1)) = some e) (hi : e.arg < 2 ^ 12)
    (hs : ((s.schedTake e).slotAt e.arg).st = .held) (hw : ((s.schedTake e).slotAt e.arg).admitSt = word allBits)
    (hr : (s.schedTake e).admReady e.arg = true) :
    exec .launchEvent s = .next (((s.schedTake e).admitRun e.arg).actedNow e.target) := by
  refine (live_awake s _ ha).trans (congrArg _ (schedAct_acts hn ?_))
  simp only [Nat.mod_eq_of_lt hi, Nat.div_eq_of_lt hi, hs, hw, hr, ne_eq, not_true_eq_false, or_self, if_false, if_true]

/-- A barrier entry of a region runs its barrier (R657). -/
theorem exec_barrierEvent_region (hn : s.schedNext (fun x => decide (x.kind = 2)) = some e) (hi : e.arg < 2 ^ 12) (ht : e.target ≠ pgDev) :
    exec .barrierEvent s = .next (((s.schedTake e).barrier (e.target % 1024) e.arg).actedNow e.target) := by
  refine (live_awake s _ ha).trans (congrArg _ (schedAct_acts hn ?_))
  simp only [Nat.div_eq_of_lt hi, ht, ne_eq, not_true_eq_false, if_false]

/-- A power entry makes a request that its domain takes (R826). -/
theorem exec_powerEvent_taken {t : State} (hn : s.schedNext (fun x => decide (x.kind = 4)) = some e) (hi : e.arg < 4)
    (hq : (s.schedTake e).pwrdReq (e.target % 1024) e.arg = (true, t)) : exec .powerEvent s = .next (t.actedNow e.target) := by
  show execPowerEvent s = _
  simp only [execPowerEvent, live_awake _ _ ha, hn, Nat.div_eq_of_lt hi, hq, ne_eq, not_true_eq_false, if_false]

/-- A version entry of a region switches a table of that region (R252). -/
theorem exec_versionRegionSwitch (d : List Byte) (z y : State)
    (hn : s.schedNext (fun x => decide (x.kind = 3) && decide (x.target ≠ pgDev)) = some e) (ht : e.target ≠ pgDev) (hi : e.arg < 2 ^ 13)
    (hp : s.parkedAt (e.target % 1024) versionWho = false) (hf : s.tdFind (e.target % 1024) versionWho (e.arg % 2 ^ 10) = (.ok d, z))
    (hh : tdHome d = e.target % 1024) (hr : tdState d (e.arg / 2 ^ 10 % 8) = svReady)
    (hs : z.versionSwitch (e.arg % 2 ^ 10) (e.arg / 2 ^ 10 % 8) d = (true, y)) :
    exec .versionRegionSwitch s = .next (((y.schedTake e).actedNow e.target).count (pgEmb (e.target % 1024)) oEmbSwitches 1) := by
  rw [← region_of_ne_device ht] at hp hf
  exact (live_awake s _ ha).trans (congrArg _ (versionAct_switches hn hp hi hf (decide_eq_true hh) hr hs))

section
variable (d : List Byte) (z y : State) (hn : s.schedNext (fun x => decide (x.kind = 3) && decide (x.target = pgDev)) = some e)
  (ht : e.target = pgDev) (hi : e.arg < 2 ^ 13) (hp : s.parkedAt 0 versionWho = false)
  (hf : s.tdFind 0 versionWho (e.arg % 2 ^ 10) = (.ok d, z)) (hr : tdState d (e.arg / 2 ^ 10 % 8) = svReady)
include hn ht hi hp hf hr

/-- A version entry of the device switches a table, and the twelve engines resume (R253 to R255). -/
theorem exec_versionDeviceSwitch (hs : (z.pauseSet true).versionSwitch (e.arg % 2 ^ 10) (e.arg / 2 ^ 10 % 8) d = (true, y)) :
    exec .versionDeviceSwitch s = .next ((List.range 12).foldl (fun u r => (u.setRg (pgEmb r) oEmbSwitchPauseNs
      (word ((((y.schedTake e).actedNow e.target).pauseSet false).draw.1 % 46))).count (pgEmb r) oEmbSwitches 1)
      (((y.schedTake e).actedNow e.target).pauseSet false).draw.2) := by
  rw [← region_of_device ht] at hp hf
  exact (live_awake s _ ha).trans (congrArg _ (versionAct_switches hn hp hi hf rfl hr hs))

/-- While the write of its descriptor waits, the engines stay paused. -/
theorem exec_versionDeviceSwitch_waits (hs : (z.pauseSet true).versionSwitch (e.arg % 2 ^ 10) (e.arg / 2 ^ 10 % 8) d = (false, y)) :
    exec .versionDeviceSwitch s = .next y := by
  rw [← region_of_device ht] at hp hf
  exact (live_awake s _ ha).trans (congrArg _ (versionAct_waits hn hp hi hf rfl hr hs))
end
end

/-- Settles O8: each kind of entry by its own command. -/
theorem scheduledEntriesAct : Obligations.ScheduledEntriesAct := by
  unfold Obligations.ScheduledEntriesAct
  refine ⟨?launch, ?barrier, ?power, ?scrubOpen, ?scrubClose, ?scrubRefused, ?versionRegion, ?versionDevice, ?versionWaits⟩
  case launch => exact exec_launchEvent_admits
  case barrier => exact exec_barrierEvent_region
  case power => exact fun s e t ha => exec_powerEvent_taken s e ha
  case scrubOpen => exact fun s e ha hn h0 => (live_awake s _ ha).trans (congrArg _ (schedAct_acts hn (if_neg (not_not_intro h0))))
  case scrubClose => exact fun s e ha hn h0 => (live_awake s _ ha).trans (congrArg _ (schedAct_acts hn (if_neg (not_not_intro h0))))
  case scrubRefused => exact fun s e ha hn h0 => (live_awake s _ ha).trans (congrArg _ (schedAct_refused hn (if_pos h0)))
  case versionRegion => exact fun s e d z y ha hn ht hi hp hf hh hr hs => exec_versionRegionSwitch s e ha d z y hn ht hi hp hf hh hr hs
  case versionDevice => exact fun s e d z y ha hn ht hi hp hf hr hs => exec_versionDeviceSwitch s e ha d z y hn ht hi hp hf hr hs
  case versionWaits => exact fun s e d z y ha hn ht hi hp hf hr hs => exec_versionDeviceSwitch_waits s e ha d z y hn ht hi hp hf hr hs

end Sys2Proof.Machine
end

section
/-! Proofs about the commands of a ring or session (R81, R86, R794 to R807) and the life of a request (R96 to R105, R257, R805, R809,
R813). -/

namespace Sys2Proof.Machine

/-! ## A command that is taken (R798 to R802) -/

section
variable {s z t : State} {src : CmdSrc} {p : Nat → Bool} {ws : List Word} {masks : List Nat}
  {body : List Word → Who → State → Option CmdRes × State} (ht : s.cmdTake src p = (some (ws, false), z))
include ht

/-- A command with a reserved bit set completes with INVALID_CMD and does nothing else. -/
theorem runCmd_reserved (hb : cmdBits ws masks = false) : s.runCmd src p masks body = z.cmdDone src ws (.invalid pgHcmd) := by
  simp only [State.runCmd, ht, hb, Bool.not_false, Bool.or_true, if_true]

/-- A command whose body answers completes with that answer. -/
theorem runCmd_answers {r : CmdRes} (hb : cmdBits ws masks = true) (h : body ws (cmdWho src) z = (some r, t)) :
    s.runCmd src p masks body = t.cmdDone src ws r := by
  simp only [State.runCmd, ht, hb, h, Bool.not_true, Bool.or_self, Bool.false_eq_true, if_false]
end

/-! ## Scheduled entries (R81, R86, R91) -/

section
variable {src : CmdSrc} {ws : List Word} {z s : State} (ha : s.awake)
include ha

theorem exec_sched_accepted {n : Nat} {y : State} (ho : s.offers src 3 ws z)
    (hb : cmdBits ws [allBits, 0xFFFF, 0xFFFF001F, 0xFFFFFFFF, 0xFFFF] = true)
    (hk : schedTarget (fld (ws.getD 3 0) 3 0) (fld (ws.getD 3 0) 31 16) = true)
    (hy : z.schedAccept ⟨(ws.getD 1 0).toNat * 2 ^ 16 + fld (ws.getD 2 0) 15 0, fld (ws.getD 3 0) 3 0, fld (ws.getD 3 0) 31 16,
      fld (ws.getD 4 0) 31 0, bit (ws.getD 3 0) 4, fld (ws.getD 5 0) 15 0, 0⟩ = (some n, y)) :
    exec (.sched src) s = .next (y.cmdDone src ws (.ok pgTime n)) := by
  refine (live_awake s _ ha).trans (congrArg _ (runCmd_answers ho hb ?_))
  simp only [hk, hy, if_true]

/-- A cancellation takes the entries of its tag that are not being delivered from the queue, and reports how many. -/
theorem exec_schedCancel_some (ho : s.offers src 4 ws z) (hb : cmdBits ws [0xFFFF] = true)
    (hq : z.time.queue.any (fun e => decide (e.tag = fld (ws.getD 1 0) 15 0) && !z.deliverNow e) = true) :
    exec (.schedCancel src) s = .next ((z.setTime { z.time with queue := z.time.queue.filter (fun e => !(decide (e.tag = fld (ws.getD 1 0) 15 0) && !z.deliverNow e)) }).cmdDone src ws
      (.ok pgTime (z.time.queue.countP (fun e => decide (e.tag = fld (ws.getD 1 0) 15 0) && !z.deliverNow e)))) := by
  refine (live_awake s _ ha).trans (congrArg _ (runCmd_answers ho hb ?_))
  have hne : (z.time.queue.filter (fun e => decide (e.tag = fld (ws.getD 1 0) 15 0) && !z.deliverNow e)).isEmpty = false := by
    obtain ⟨e, hmem, he⟩ := List.any_eq_true.1 hq
    exact List.isEmpty_eq_false_iff_exists_mem.2 ⟨e, List.mem_filter.2 ⟨hmem, he⟩⟩
  simp only [List.partition_eq_filter_filter, Function.comp_def, hne, List.countP_eq_length_filter, Bool.false_eq_true, if_false]

/-! ## Graph handles (R806, R807) -/

theorem exec_graphLoad_valid {h : List Byte} {y : State} {ids : List Nat} (ho : s.offers src 8 ws z) (hb : cmdBits ws [0xFF, allBits] = true)
    (hs : (z.graphAt (fld (ws.getD 1 0) 7 0)).st = .empty) (hv : (ws.getD 2 0).toNat % 256 = 0)
    (hr : z.cmdRead (cmdWho src) (ws.getD 2 0).toNat 256 = (some (h, false), y))
    (hi : graphTables h (y.rf (pgEmb 0) oEmbTblCount 10 0) = some ids) :
    exec (.graphLoad src) s = .next ((y.putGraph (fld (ws.getD 1 0) 7 0) ⟨.ready, ids⟩).cmdDone src ws (.ok pgHcmd 0)) := by
  refine (live_awake s _ ha).trans (congrArg _ (runCmd_answers ho hb ?_))
  simp only [hs, hv, hr, hi, ne_eq, not_true_eq_false, Bool.false_eq_true, if_false]

/-- A graph that no stream and no request names is EMPTY at once. -/
theorem exec_graphUnload_unused (ho : s.offers src 9 ws z) (hb : cmdBits ws [0xFF] = true)
    (hs : (z.graphAt (fld (ws.getD 1 0) 7 0)).st = .ready) (hg : z.graphStreams (fld (ws.getD 1 0) 7 0) = false)
    (hq : z.slotsBusy.any (fun a => a.graph = fld (ws.getD 1 0) 7 0) = false) :
    exec (.graphUnload src) s = .next ((z.putGraph (fld (ws.getD 1 0) 7 0) GraphSt.reset).cmdDone src ws (.ok pgHcmd 0)) := by
  refine (live_awake s _ ha).trans (congrArg _ (runCmd_answers ho hb ?_))
  simp only [hs, hg, hq, ne_eq, not_true_eq_false, Bool.false_eq_true, or_self, if_false]
end

/-- Settles O50: each command by what its body answers, or by its reserved bits. -/
theorem ringCommands : Obligations.RingCommands := by
  unfold Obligations.RingCommands
  refine ⟨⟨?doorbell, ?cplHead⟩, ?reserved, ?nop, ?sched, ?schedCancel, ?graphLoad, ?graphUnload⟩
  case doorbell => exact fun r v s ha => live_awake s _ ha
  case cplHead => exact fun v s ha => live_awake s _ ha
  case reserved =>
    intro src ws z s ha
    refine ⟨fun ho hb => ?_, fun ho hb => ?_, fun ho hb => ?_⟩ <;> exact (live_awake s _ ha).trans (congrArg _ (runCmd_reserved ho hb))
  case nop => exact fun src ws z s ha ht hc hb => (live_awake s _ ha).trans (congrArg _ (runCmd_answers ht hb (by simp only [hc, if_true])))
  case sched => exact fun src ws z n y s ha => exec_sched_accepted ha
  case schedCancel => exact fun src ws z s ha => exec_schedCancel_some ha
  case graphLoad => exact fun src ws z h y ids s ha => exec_graphLoad_valid ha
  case graphUnload => exact fun src ws z s ha => exec_graphUnload_unused ha

/-! ## Cancellation and admission (R96, R257, R801, R809) -/

theorem exec_cancel_named (src : CmdSrc) (ws : List Word) (z s : State) (i : Nat) (ha : s.awake) (ho : s.offers src 2 ws z)
    (hb : cmdBits ws [allBits ^^^ 0xF000] = true) (hi : i = fld (ws.getD 1 0) 11 0) (hf : (z.slotAt i).st ≠ .free)
    (he : (z.slotAt i).st ≠ .ending) (hq : (z.slotAt i).reqSeq = fld (ws.getD 1 0) 63 16) :
    exec (.cancel src) s = .next ((z.slotEnd i stCancelled pgHcmd).cmdDone src ws (.ok pgHcmd 0)) := by
  refine (live_awake s _ ha).trans (congrArg _ (runCmd_answers ho hb ?_))
  subst hi
  simp only [hf, he, hq, ne_eq, not_true_eq_false, or_self, if_false]

section
variable (i : Fin 4096) (s : State) (ha : s.awake)
include ha

theorem exec_admitSlot_due (hr : s.admReady i.val = true) (hv : s.versionDue i.val = false) (hw : (s.slotAt i.val).admitSt ≠ word allBits)
    (ht : (s.slotAt i.val).admitSt.toNat ≤ s.ns) : exec (.admitSlot i) s = .next (s.admitRun i.val) := by
  show execAdmitSlot i s = _
  simp only [execAdmitSlot, live_awake _ _ ha, hr, hv, hw, ht, ne_eq, not_false_eq_true, decide_true, Bool.not_false, Bool.and_self, if_true]

/-- A switch of a table of the request that is due goes first. -/
theorem exec_admitSlot_versionDue (hv : s.versionDue i.val = true) : exec (.admitSlot i) s = .next s := by
  show execAdmitSlot i s = _
  simp only [execAdmitSlot, live_awake _ _ ha, hv, Bool.not_true, Bool.and_false, Bool.false_and, Bool.false_eq_true, if_false]

theorem exec_admitSlot_early (ht : s.ns < (s.slotAt i.val).admitSt.toNat) : exec (.admitSlot i) s = .next s := by
  show execAdmitSlot i s = _
  simp only [execAdmitSlot, live_awake _ _ ha, Nat.not_le.2 ht, decide_false, Bool.and_false, Bool.false_eq_true, if_false]

/-! ## The end of a request (R100, R805, R809) -/

section
variable (z : State) (hz : s.dropPins i.val (admWho i.val) (s.slotAt i.val).pins = (true, z))
include hz

/-- A request without a deadline that has nothing left completes OK, or POISONED. -/
theorem exec_requestComplete_ends (hd : s.reqDone i.val = true) (hr : (z.slotAt i.val).rt = false) (hm : (z.slotAt i.val).missed = false) :
    exec (.requestComplete i) s =
      .next (z.slotFree i.val ⟨if (z.slotAt i.val).poisoned then stPoisoned else stOk, 0, 0, pgHcmd, 0⟩) := by
  show execRequestComplete i s = _
  simp only [execRequestComplete, live_awake _ _ ha, hd, hz, hr, hm, Bool.false_and, Bool.or_self, Bool.false_eq_true, if_true, if_false]

/-- A cancelled request that has drained completes with the status of its cancellation. -/
theorem exec_cancelDone_drained (hd : s.reqDrained i.val = true) :
    exec (.cancelDone i) s = .next (z.slotFree i.val ⟨(z.slotAt i.val).status,
      if (z.slotAt i.val).status = stMissed then 1 + 2 * b2n (z.slotAt i.val).poisoned else 0, (z.slotAt i.val).detail,
      (z.slotAt i.val).source, (z.slotAt i.val).obj⟩) := by
  show execCancelDone i s = _
  simp only [execCancelDone, live_awake _ _ ha, hd, hz, if_true]
end
end

/-! ## Requests of the standing service (R813) -/

section
variable (i : Fin 16) (c : Fin 8) (k qp at_ : Nat) (h : List Byte) (z s : State) (ha : s.awake) (hc : s.svcCore = some c)
  (hf : (s.streamAt i.val).firstLanded = some (k, qp, at_))
  (hr : s.cmdRead (.svc c) (stSlotVa (s.streamAt i.val).block k) 32 = (some (h, false), z))
include ha hc hf hr

/-- A message without the magic number is rejected. -/
theorem exec_serviceRequest_noMagic (hm : leAt h 0 8 ≠ 0x5A475251) :
    exec (.serviceRequest i) s = .next (((z.count pgHcmd oHcmdSvcReject 1).setEvt pgHcmd 4).svcAnswerTo i.val k qp stInvalidCmd false) := by
  show execServiceRequest i s = _
  simp only [execServiceRequest, live_awake _ _ ha, hc, hf, hr, hm, ne_eq, not_false_eq_true, decide_true, Bool.or_true, Bool.true_or, if_true]

/-- A message with it whose launch is answered OK completes on ring 63, and its slot is busy. -/
theorem exec_serviceRequest_launched (r : CmdRes) (y : State) (hm : leAt h 0 8 = 0x5A475251)
    (ho : 32 + leAt h 0x18 4 ≤ stOutOff (s.streamAt i.val).block)
    (hl : z.launch (.svc c) { graph := fld (wordAt (s.streamAt i.val).block 0) 7 0, rt := bit (wordAt (s.streamAt i.val).block 0) 8, abort := bit (wordAt (s.streamAt i.val).block 0) 9, seed := if bit (wordAt (s.streamAt i.val).block 0) 10 then wordAt h 0x10 else wordAt (s.streamAt i.val).block 0x38, admitSt := 0, deadline := if bit (wordAt (s.streamAt i.val).block 0) 8 then word (at_ + leAt (s.streamAt i.val).block 0x40 8) else 0, va := (leAt (s.streamAt i.val).block 0x28 8 + k * leAt (s.streamAt i.val).block 0x30 4) % 2 ^ 64, ring := 63, cmdId := k, stream := some (i.val, k) } = (some r, y))
    (hs : r.status = stOk) {u : State} (hu : u = (((y.putRing 63 { z.ringAt 63 with reserved := (z.ringAt 63).reserved + 2 }).count pgHcmd
      oHcmdCmds 1).count pgHcmd oHcmdSvcReqs 1).cplOut 63 0 k r) :
    exec (.serviceRequest i) s =
      .next (u.putStream i.val { u.streamAt i.val with slots := (u.streamAt i.val).slots.set k (.busy qp) }) := by
  show execServiceRequest i s = _
  simp only [execServiceRequest, live_awake _ _ ha, hc, hf, hr, hm, hl, hs, hu, Nat.not_lt.2 ho, ne_eq, not_true_eq_false, decide_false, Bool.or_self,
    Bool.false_eq_true, if_true, if_false]
end

/-- Settles O53: each command of a request by its meaning in the state named. -/
theorem requestLife : Obligations.RequestLife := by
  unfold Obligations.RequestLife
  refine ⟨?launch, ?cancel, ?due, ?versionDue, ?early, ?missed, ?complete, ?drained, ?noMagic, ?launched⟩
  case launch => exact fun src ws z r y s ha ho hb hl => (live_awake s _ ha).trans (congrArg _ (runCmd_answers ho hb hl))
  case cancel => exact fun src ws z i s => exec_cancel_named src ws z s i
  case due => exact exec_admitSlot_due
  case versionDue => exact exec_admitSlot_versionDue
  case early => exact fun i s ha _ ht => exec_admitSlot_early i s ha ht
  case missed => exact fun i s ha hr ht => (live_awake s _ ha).trans (congrArg _ (if_pos ⟨hr, ht⟩))
  case complete => exact fun i z s ha hd hz => exec_requestComplete_ends i s ha z hz hd
  case drained => exact fun i z s ha hd hz => exec_cancelDone_drained i s ha z hz hd
  case noMagic => exact exec_serviceRequest_noMagic
  case launched =>
    exact fun i c k qp at_ h z r y s ha hc hf hr hm ho hl hs => exec_serviceRequest_launched i c k qp at_ h z s ha hc hf hr r y hm ho hl hs rfl

end Sys2Proof.Machine
end

section
/-! Proofs about the moments tasks and the swarms of the vector unit (R446 to R465). -/

namespace Sys2Proof.Machine

/-! ## Moments (R446 to R454) -/

section
variable (clu : Clu) (t : UnitTask) (ts : List UnitTask) (s : State) (ha : s.awake) (ht : (s.vecAt clu.val).tasks = t :: ts)
include ha ht

/-- A task with illegal fields is refused. -/
theorem exec_moments_illegal (hf : moFieldsOk t.body = false) :
    exec (.moments clu) s = .next ((s.vecDrop clu.val t.entry).taskFail (cluRegion clu.val) t.entry stInvalidDesc (pgVec clu.val) 0) := by
  show execMoments clu s = _
  simp only [execMoments, live_awake _ _ ha, ht, hf, Bool.not_false, if_true]

/-- A task with legal fields and clean columns writes its outputs, counts, increments its counter and ends. -/
theorem exec_moments_clean (k : Nat) (ms : List MomAcc) (z : State) (hf : moFieldsOk t.body = true) (hk : s.moCounts clu.val t.body = some k)
    (hn : moRows t.body + k ≤ 2 ^ 42) (hms : ms = (List.range (moCols t.body)).map (s.moCol clu.val t.body)) (he : moExport t.body = false)
    (hb : ms.any (fun m => m.bad) = false)
    (hz : z = (s.momCount clu.val t.body ms).momWrites clu.val (s.slotAt t.slot).seed.toNat t.body ms (moRows t.body + k)
      ((List.range 4).filter (fun i => bit (wordAt t.body 0) (6 + i))) 0) :
    exec (.moments clu) s = .next ((((z.count (pgVec clu.val) oVecMoments 1).vecDrop clu.val t.entry).issueInc (cluRegion clu.val)
      (fld (wordAt t.body 0x30) 11 0) 1).taskDone (cluRegion clu.val) t.entry) := by
  show execMoments clu s = _
  simp only [execMoments, live_awake _ _ ha, ht, hf, hk, Nat.not_lt.2 hn, ← hms, he, hb, ← hz, Bool.not_true, Bool.false_eq_true, if_false]
end

/-! ## Swarms (R459 to R466) -/

/-- The bag of a piece does not depend on the sets of its swarm. -/
theorem pieceBag_sets (w : SwarmSt) (sets : List SwarmSet) (t : PieceTask) : pieceBag { w with sets := sets } t = pieceBag w t := rfl

/-- The next piece of a list whose cluster has no set of its swarm yet starts one, and becomes a bag of the region's engine. -/
theorem exec_swarmPiece_new (r : Region) (t : PieceTask) (w : SwarmSt) (sets : List SwarmSet) (s : State) (ha : s.awake)
    (hn : s.lookupNext r.val = some (.inr t)) (hw : s.swarmAt t.bag = some w) (hc : w.sets.any (fun u => u.clu = t.clu) = false)
    (hs : sets = (w.sets ++ [swarmSet t.clu w.dim w.bag.fast]).map (fun u => if u.clu = t.clu then { u with pieces := u.pieces + 1 } else u)) :
    exec (.swarmPiece r) s = .next (((((s.putDisp r.val { s.dispAt r.val with pieces := (s.dispAt r.val).pieces.filter (fun p => !(decide (p.bag = t.bag) && decide (p.piece = t.piece))) }).putSwarm
      { w with sets := sets }).addBag r.val (pieceBag { w with sets := sets } t)).count (pgVec t.clu) oVecSwarmPieces 1).swarmsGive) := by
  show execSwarmPiece r s = _
  simp only [execSwarmPiece, live_awake _ _ ha, hn, hw, hc, ← hs, pieceBag_sets, Bool.false_eq_true, if_false]

/-- A set that arrives first, with pieces still missing, is joined to an empty sum. -/
theorem exec_swarmSetRx_first (clu : Clu) (w : SwarmSt) (t : SwarmSet) (rest : List SwarmSet) (total : SwarmSet) (u : SwarmSt) (s : State)
    (ha : s.awake) (hw : s.swarms.find? (fun w => decide (w.ctx.clu = clu) && !w.ship.isEmpty) = some w) (hp : w.ship = t :: rest)
    (ht : w.total = none) (hf : w.bag.fast = true) (hs : total = (swarmSet clu.val w.dim true).join t)
    (hu : u = { w with ship := rest, total := some total, recv := w.recv + t.pieces }) (hk : w.recv + t.pieces < w.k) :
    exec (.swarmSetRx clu) s = .next ((s.count (pgVec clu.val) oVecXpIn t.acc.length).putSwarm u) := by
  show execSwarmSetRx clu s = _
  subst hs hu
  simp only [execSwarmSetRx, live_awake _ _ ha, hw, hp, ht, hf, hk, Option.getD_none, Bool.not_true, Bool.and_false, Bool.false_and,
    Bool.false_eq_true, if_false, if_true]

/-- Settles O39: each by its command, in the case its fields name. -/
theorem momentsAndSwarms : Obligations.MomentsAndSwarms := by
  unfold Obligations.MomentsAndSwarms
  refine ⟨?moments, ?illegal, ?piece, ?set⟩
  case moments =>
    exact fun clu t ts k ms z s ha ht hf hk hn hms he hb hz => exec_moments_clean clu t ts s ha ht k ms z hf hk hn hms he hb hz
  case illegal => exact exec_moments_illegal
  case piece => exact fun r t w sets s => exec_swarmPiece_new r t w sets s
  case set => exact fun clu w t rest total u s => exec_swarmSetRx_first clu w t rest total u s

end Sys2Proof.Machine
end

section
/-! Proofs about the data commands of a stack port: service at once, refusal, and what they leave in the stores (R114 to R139). -/

namespace Sys2Proof.Machine

/-! ## Service and refusal (R114, R120, R125) -/

section
variable (s : State) (n : Nat) (c : SlotCmd) (hg : (s.stkAt n).gp = none) (ho : s.portOwn n c.opc c.f = true)
  (hp : s.parkFull n c.f.src = false)
include hg ho hp

theorem portCmd_badFields (hf : portFieldsOk c.opc c.f = false) : s.portCmd n c = (s.portSent n c.f).portRefuse n c.f := by
  simp [State.portCmd, hg, ho, hp, hf]

theorem portCmd_badAddr (hf : portFieldsOk c.opc c.f = true) (ha : portAddrOk c.opc c.f = false) :
    s.portCmd n c = ((s.portSent n c.f).setEvt (pgStk n) 5).portRefuse n c.f := by
  simp [State.portCmd, hg, ho, hp, hf, ha]

end

theorem portRefuse_dram (s : State) (n : Nat) (f : PortCmd) : (s.portRefuse n f).dram = s.dram := (memSame_portRefuse s n f).1

theorem setEvt_dram (s : State) (pg b : Nat) : (s.setEvt pg b).dram = s.dram := (memSame_setEvt s pg b).1

/-- Settles O9: a command that its port serves at once is executed by `portCmd_serves`; one with bad fields or a bad address is refused. -/
theorem dataCommandsServed : Obligations.DataCommandsServed := by
  unfold Obligations.DataCommandsServed
  refine ⟨⟨?rd, ?wr, ?wrm, ?fence⟩, ?fields, ?addr⟩
  case rd => exact fun n f errs s ha hw hs => (exec_rd n f errs s ha hw).trans (by rw [portCmd_serves s n.val _ hs])
  case wr => exact fun n f s ha hw hs => (exec_wr n f s ha hw).trans (by rw [portCmd_serves s n.val _ hs])
  case wrm => exact fun n f s ha hw hs => (exec_wrm n f s ha hw).trans (by rw [portCmd_serves s n.val _ hs])
  case fence => exact fun n f s ha hw hs => (exec_flitFence n f s ha hw).trans (by rw [portCmd_serves s n.val _ hs]; rfl)
  case fields =>
    intro n f s ha hw hg ho hp hf
    exact ⟨(exec_wr n f s ha hw).trans (by rw [portCmd_badFields s n.val ⟨0x02, f, []⟩ hg ho hp hf]), portRefuse_dram _ _ _⟩
  case addr =>
    intro n f s ha hw hg ho hp hf had
    refine ⟨(exec_wr n f s ha hw).trans (by rw [portCmd_badAddr s n.val ⟨0x02, f, []⟩ hg ho hp hf had]), ?_⟩
    rw [portRefuse_dram, setEvt_dram]
    rfl

/-! ## What an access holds -/

theorem memSame_accPoison {s t : State} (h : MemSame s t) (d a : Nat) : t.accPoison d a = s.accPoison d a := by
  obtain ⟨hd, -, -, hp⟩ := h
  simp only [State.accPoison, hd, hp]

theorem bytes_append (m : Mem) (a j k : Nat) : m.bytes a (j + k) = m.bytes a j ++ m.bytes (a + j) k := by
  simp only [Mem.bytes, List.range_add, List.map_append, List.map_map, Function.comp_def, Nat.add_assoc]

/-- The bytes of accesses in a row are those of one range. -/
theorem flatMap_accData (s : State) (d a k : Nat) :
    (List.range k).flatMap (fun i => s.accData d (a + i)) = s.dram.bytes (accByte d a) (32 * k) := by
  induction k with
  | zero => rfl
  | succ k ih =>
    have hk : accByte d (a + k) = accByte d a + 32 * k := by simp only [accByte]; omega
    rw [List.range_succ, List.flatMap_append, ih, Nat.mul_succ, bytes_append, List.flatMap_singleton, State.accData, hk]

theorem maskMerge_getD (old new : List Byte) (mask i : Nat) (h : i < 32) :
    (maskMerge old new mask).getD i 0 = if mask.testBit i then new.getD i 0 else old.getD i 0 := by
  simp [maskMerge, h]

theorem accData_getD (s : State) (d a i : Nat) (h : i < 32) : (s.accData d a).getD i 0 = s.dram.byte (accByte d a + i) := by
  simp [State.accData, Mem.bytes, h]

/-! ## Service in the stores (R120, R130) -/

/-- A WR that is served changes the stores by the run of its accesses alone. -/
theorem memSame_serveWr (s : State) (n : Nat) (f : PortCmd) (d a : Nat) :
    MemSame (s.writeRun d f.count.toNat a f.data f.poison) ((s.serveData n ⟨0x02, f, []⟩ d a).slotMarks d) :=
  memSame_trans (memSame_count _ _ _ _) (memSame_trans (memSame_respond _ _ _) (memSame_slotMarks _ _))

/-- A WRM that is served on cells without an error merges its bytes into the stored ones. -/
theorem memSame_serveWrm (s : State) (n : Nat) (f : PortCmd) (d a : Nat) (hc : s.cellErr d a = []) :
    MemSame ((s.readAcc d a).2.storeAcc d a (maskMerge (s.accData d a) f.data f.arg.toNat) (s.accPoison d a || f.poison))
      ((s.serveData n ⟨0x03, f, []⟩ d a).slotMarks d) := by
  have hv := readAcc_value s d a hc
  have he : s.serveData n ⟨0x03, f, []⟩ d a =
      (((s.readAcc d a).2.storeAcc d a (maskMerge (s.readAcc d a).1.1 f.data f.arg.toNat) ((s.readAcc d a).1.2 || f.poison)).count
        (pgPch d) oPchBytesWr 32).respond n (plainResp f 0 0 true) := rfl
  rw [he, hv]
  exact memSame_trans (memSame_count _ _ _ _) (memSame_trans (memSame_respond _ _ _) (memSame_slotMarks _ _))

/-- Settles O10: the stores after a served write are those of its accesses, and a store of an access reads byte by byte. -/
theorem writesLand : Obligations.WritesLand := by
  unfold Obligations.WritesLand
  refine ⟨?wr, ?wrm⟩
  case wr =>
    intro n f s ha hw hs
    have hl : f.data.length = 32 * f.count.toNat := of_decide_eq_true hw
    have hm := memSame_serveWr (s.portSent n.val f) n.val f (n.val * 64 + f.pch.toNat) f.addr.toNat
    refine ⟨_, (exec_wr n f s ha hw).trans (by rw [portCmd_serves s n.val _ hs]), ?_, ?_, ?_, ?_, ?_⟩
    · rw [hm.1]
      apply List.ext_getElem (by simp [Mem.bytes, hl])
      intro i hi hd
      simp only [Mem.bytes, List.getElem_map, List.getElem_range, writeRun_byte _ _ _ _ _ _ _ hl]
      rw [if_pos ⟨by omega, by omega⟩, Nat.add_sub_cancel_left, List.getD_eq_getElem _ _ hd]
    · intro i hi
      rw [memSame_accPoison hm, writeRun_poison, if_pos]
      simp only [accKey]
      omega
    · intro b hb
      rw [hm.1, writeRun_byte _ _ _ _ _ _ _ hl, if_neg (by omega)]
      rfl
    · exact hm.2.1.trans (writeRun_stores _ _ _ _ _ _).1
    · exact hm.2.2.1.trans (writeRun_stores _ _ _ _ _ _).2.1
  case wrm =>
    intro n f s ha hw hs hc
    have hm := memSame_serveWrm (s.portSent n.val f) n.val f (n.val * 64 + f.pch.toNat) f.addr.toNat hc
    have hr : ∀ b, ((s.portSent n.val f).readAcc (n.val * 64 + f.pch.toNat) f.addr.toNat).2.dram.byte b = s.dram.byte b := by
      intro b
      rw [(memSame_readAcc _ _ _).1]
      rfl
    refine ⟨_, (exec_wrm n f s ha hw).trans (by rw [portCmd_serves s n.val _ hs]), ?_, ?_, ?_⟩
    · intro i hi
      rw [hm.1, storeAcc_byte, if_pos (by omega), Nat.add_sub_cancel_left, maskMerge_getD _ _ _ _ hi, accData_getD _ _ _ _ hi]
      rfl
    · rw [memSame_accPoison hm, storeAcc_accPoison, if_pos rfl]
      rfl
    · intro b hb
      rw [hm.1, storeAcc_byte, if_neg (by omega), hr]

/-- A RD that is served without an error answers the stored bytes and marks, and only books it. -/
theorem serveRd_value (s : State) (n : Nat) (f : PortCmd) (d a : Nat) (hc : ∀ i, i < f.count.toNat → s.cellErr d (a + i) = []) :
    ∃ z, Booked s z ∧ s.serveData n ⟨0x01, f, []⟩ d a =
      z.respond n (dataResp f ((List.range f.count.toNat).map (fun i => (s.accData d (a + i), s.accPoison d (a + i)))) true) := by
  obtain ⟨hv, hb⟩ := readRun_value d f.count.toNat s a hc
  refine ⟨_, booked_trans hb (booked_count _ (pgPch d) oPchBytesRd (32 * f.count.toNat)), ?_⟩
  rw [← hv]
  rfl

/-- Settles O11: the run of reads answers what the accesses hold, and the rest of the service is booking. -/
theorem readReturnsStored : Obligations.ReadReturnsStored := by
  unfold Obligations.ReadReturnsStored
  intro n f s ha hw hs hc
  obtain ⟨z, hz, he⟩ := serveRd_value (s.portSent n.val f) n.val f (n.val * 64 + f.pch.toNat) f.addr.toNat hc
  have hm := slotMarks_booked (z.respond n.val (dataResp f ((List.range f.count.toNat).map (fun i =>
    ((s.portSent n.val f).accData (n.val * 64 + f.pch.toNat) (f.addr.toNat + i),
      (s.portSent n.val f).accPoison (n.val * 64 + f.pch.toNat) (f.addr.toNat + i)))) true)) (n.val * 64 + f.pch.toNat)
  refine ⟨_, (exec_rd n f [] s ha hw).trans (by rw [portCmd_serves s n.val _ hs, he]), ?_, ?_⟩
  · rw [booked_stkAt hm, respond_resp, booked_stkAt hz]
    simp only [dataResp, List.map_map, List.flatMap_map, Function.comp_def, flatMap_accData]
    rfl
  · rw [booked_dram hm, respond_dram, booked_dram hz]
    rfl

end Sys2Proof.Machine
end

section
/-! Proofs about the canonical form of the stores, which every command of a stack port and every repair of a stack keeps (R120, R856, R869,
R991). -/

namespace Sys2Proof.Machine

/-! ## What a command answers -/

/-- If a command answers a next state, its stores have their canonical form. -/
def AnswersSound (o : Out State) : Prop := ∀ t, o = .next t → t.memSound

theorem answersSound_next {t : State} (h : t.memSound) : AnswersSound (.next t) := fun _ e => Host.Outcome.next.inj e ▸ h

theorem answersSound_fault (r : Fault) : AnswersSound (.fault r) := fun _ e => absurd e (by simp)

theorem answersSound_live {s : State} {o : Out State} (hs : s.memSound) (h : AnswersSound o) : AnswersSound (s.live o) := by
  unfold State.live
  split
  · exact answersSound_next hs
  · exact h

theorem answersSound_ite {c : Prop} [Decidable c] {a b : Out State} (ha : AnswersSound a) (hb : AnswersSound b) :
    AnswersSound (if c then a else b) := by
  split
  · exact ha
  · exact hb

section
variable {s : State} (hs : s.memSound)
include hs

/-! ## Data commands and slots -/

/-- A data command of a port answers what `portCmd` leaves, or faults on operands that contradict each other. -/
theorem portCmd_answersSound (b : Bool) (n : Nat) (c : SlotCmd) (r : Fault) :
    AnswersSound (s.live (if b = true then .next (s.portCmd n c) else .fault r)) :=
  answersSound_live hs (answersSound_ite (answersSound_next (portCmd_sound _ _ _ hs)) (answersSound_fault _))

theorem execSlotGrant_answersSound (d : Pch) : AnswersSound (execSlotGrant d s) := by
  unfold execSlotGrant
  refine answersSound_live hs ?_
  dsimp only
  split
  · exact answersSound_next hs
  · exact answersSound_ite (answersSound_next (memSame_sound (memSame_slotMarks _ _) (takeUp_sound _ _ _
      (memSame_sound (memSame_putPch _ _ _) hs)))) (answersSound_next hs)

/-! ## Service commands -/

theorem execScrub_answersSound (n : Region) (errs : List AccErr) : AnswersSound (execScrub n errs s) := by
  unfold execScrub
  refine answersSound_live hs (answersSound_ite ?_ (answersSound_fault _))
  split
  · exact answersSound_next hs
  · exact answersSound_ite (answersSound_next (memSame_sound (memSame_svcConflict _ _) hs))
      (answersSound_ite (answersSound_next (memSame_sound (memSame_svcAnswer _ _ _ _) hs))
        (answersSound_ite (answersSound_next hs)
          (answersSound_next (memSame_sound (memSame_svcAnswer _ _ _ _) (scrubSlot_sound _ _ _ _ hs)))))

/-- A row repair that waits or is refused changes no store. -/
theorem repairGate_sound {n d : Nat} {t : State} (h : s.repairGate n d = some t) : t.memSound := by
  unfold State.repairGate at h
  dsimp only at h
  split at h
  · cases h
    exact memSame_sound (memSame_svcConflict _ _) (memSame_sound (memSame_putStk s n { s.stkAt n with repair := none } rfl) hs)
  · cases h; exact hs
  · cases h; exact hs
  · split at h
    · cases h; exact hs
    · cases h

theorem rewriteLive_sound (d bank row : Nat) (errs : List AccErr) :
    (if s.rowLive d = true then s.rewriteRow d bank row errs else s).memSound := by
  split
  · exact rewriteRow_sound _ _ _ _ _ hs
  · exact hs

theorem execPpr_answersSound (n : Region) (errs : List AccErr) : AnswersSound (execPpr n errs s) := by
  unfold execPpr
  refine answersSound_live hs (answersSound_ite ?_ (answersSound_fault _))
  dsimp only
  split
  · exact answersSound_next hs
  · split
    case _ t h => exact answersSound_next (repairGate_sound hs h)
    · exact answersSound_next (memSame_sound (memSame_rowRepaired _ _ _ _ _) (rewriteLive_sound hs _ _ _ _))

theorem execPatch_answersSound (n : Region) (errs : List AccErr) : AnswersSound (execPatch n errs s) := by
  unfold execPatch
  refine answersSound_live hs (answersSound_ite ?_ (answersSound_fault _))
  dsimp only
  split
  · exact answersSound_next hs
  · split
    case _ t h => exact answersSound_next (repairGate_sound hs h)
    · exact answersSound_next (memSame_sound (memSame_rowRepaired _ _ _ _ _)
        (patchPut_sound _ _ _ _ _ _ (rewriteLive_sound hs _ _ _ _)))

end

/-! ## The return of a lost stack (R156, R869) -/

/-- The marks of all data granules of a stack are poison: those listed are dropped, and those not listed read as poison. -/
def State.stackPoison (s : State) (n : Nat) (v : StkSt) : State :=
  (s.putStk n v).setDram { s.dram with poison := dropKeys s.dram.poison (dataKey n) }

theorem stackPoison_poisonDef (s : State) (n : Nat) (v : StkSt) (k : Nat) :
    (s.stackPoison n v).poisonDef k = if k / 2 ^ 31 = n then v.poisonAll && decide (k % 2 ^ 25 / 8 < dataSlots) else s.poisonDef k := by
  simp only [State.poisonDef, State.stackPoison, State.stkAt, State.putStk, State.setDram_stk, State.setStk_stk, smapGet_set]
  split <;> rfl

/-- Outside the data granules of the stack the unlisted marks read as before. -/
theorem stackPoison_poisonDef_other (s : State) (n : Nat) (v : StkSt) (k : Nat) (h : dataKey n k = false) :
    (s.stackPoison n v).poisonDef k = s.poisonDef k := by
  rw [stackPoison_poisonDef]
  split
  case isFalse => rfl
  case isTrue hk =>
    have hd : decide (k % 2 ^ 25 / 8 < dataSlots) = false := by
      unfold dataKey at h
      rwa [decide_eq_true hk, Bool.true_and] at h
    rw [State.poisonDef, hd, Bool.and_false, Bool.and_false]

theorem stackPoison_sound (s : State) (n : Nat) (v : StkSt) (h : s.memSound) : (s.stackPoison n v).memSound := by
  obtain ⟨hc, hp, hspad, hstore⟩ := h
  refine ⟨hc, ?_, hspad, hstore⟩
  simp only [smapWf, Bool.and_eq_true, List.all_eq_true, decide_eq_true_eq] at hp ⊢
  refine ⟨(smapSorted_iff _).2 (((smapSorted_iff _).1 hp.1).sublist List.filter_sublist), fun e he => ?_⟩
  obtain ⟨hm, hk⟩ := List.mem_filter.1 he
  rw [stackPoison_poisonDef_other _ _ _ _ (by simpa using hk)]
  exact hp.2 e hm

/-- The pseudo-channels of a stack that returns start again untrained. -/
def State.pchsReset (s : State) (n : Nat) : State :=
  (List.range 64).foldl (fun t j =>
    if (t.pchAt (n * 64 + j)).st = .retired then t
    else t.putPch (n * 64 + j) { t.pchAt (n * 64 + j) with st := .untrained, fails := 0, training := false }) s

theorem memSame_pchsReset (s : State) (n : Nat) : MemSame s (s.pchsReset n) := by
  refine memSame_foldl _ _ (fun t j => ?_) s
  split
  · exact memSame_refl t
  · exact memSame_putPch _ _ _

theorem memSame_stackRate (s : State) (n rate : Nat) : MemSame s (s.stackRate n rate) := by
  unfold State.stackRate
  split
  · exact memSame_refl s
  · exact memSame_trans (memSame_setRg _ _ _ _) (memSame_setEvt _ _ _)

/-- The state in which a lost stack has returned. -/
def State.stackBack (s : State) (n : Nat) : State :=
  (((s.stackPoison n { s.stkAt n with st := .down, returning := true, poisonAll := true }).pchsReset n).setRf pgTherm oThermShutdown n n 0).stackRate
    n 0

theorem execStackReturn_eq (n : Region) (s : State) :
    execStackReturn n s = s.live (if ((s.stkAt n.val).lost && !(s.stkAt n.val).returning) = true then .next (s.stackBack n.val) else .next s) := rfl

theorem memSame_stackBack (s : State) (n : Nat) :
    MemSame (s.stackPoison n { s.stkAt n with st := .down, returning := true, poisonAll := true }) (s.stackBack n) :=
  memSame_trans (memSame_pchsReset _ _) (memSame_trans (memSame_setRf _ _ _ _ _ _) (memSame_stackRate _ _ _))

theorem stackBack_sound (s : State) (n : Nat) (h : s.memSound) : (s.stackBack n).memSound :=
  memSame_sound (memSame_stackBack s n) (stackPoison_sound _ _ _ h)

/-- Settles O12: each command of a stack is made of operations that keep the canonical form. -/
theorem stackCommandsKeepMemory : Obligations.StackCommandsKeepMemory := by
  unfold Obligations.StackCommandsKeepMemory
  refine ⟨reset_memSound, fun i s t hs he => ?_⟩
  cases i with
  | rd n f errs => exact portCmd_answersSound hs _ _ _ _ t he
  | wr n f => exact portCmd_answersSound hs _ _ _ _ t he
  | wrm n f => exact portCmd_answersSound hs _ _ _ _ t he
  | flitFence n f => exact portCmd_answersSound hs _ _ _ _ t he
  | slotGrant d => exact execSlotGrant_answersSound hs d t he
  | scrub n errs => exact execScrub_answersSound hs n errs t he
  | ppr n errs => exact execPpr_answersSound hs n errs t he
  | patch n errs => exact execPatch_answersSound hs n errs t he
  | stackReturn n =>
    have hr : AnswersSound (execStackReturn n s) := by
      rw [execStackReturn_eq]
      exact answersSound_live hs (answersSound_ite (answersSound_next (stackBack_sound _ _ hs)) (answersSound_next hs))
    exact hr t he
  | _ => trivial

end Sys2Proof.Machine
end

section
/-! Proofs about the decoder of an access: in the field of R136 the powers of α that the symbols stand at move every symbol, so that one wrong
symbol is found by its syndromes (R138, R139). -/

namespace Sys2Proof.Machine

/-! ## The field (R136) -/

theorem gfX_eq (a : Nat) (h : a < 256) : gfX a = a * 2 % 256 ^^^ (if a / 128 = 0 then 0 else 0x1D) := by
  unfold gfX
  by_cases hl : a < 128
  · rw [if_pos hl, if_pos (by omega), Nat.xor_zero, Nat.mod_eq_of_lt (by omega)]
  · rw [if_neg hl, if_neg (by omega)]

theorem gfX_lt (a : Nat) : gfX a < 256 := by
  unfold gfX
  split
  · omega
  · exact Nat.xor_lt_two_pow (n := 8) (by omega) (by decide)

theorem gfX_ne_zero {a : Nat} (h : a ≠ 0) : gfX a ≠ 0 := by
  unfold gfX
  split
  · omega
  · rw [Ne, Nat.xor_eq_zero_iff]
    omega

/-- Multiplication by α is additive. -/
theorem gfX_xor {a b : Nat} (ha : a < 256) (hb : b < 256) : gfX (a ^^^ b) = gfX a ^^^ gfX b := by
  have hd : (a ^^^ b) * 2 % 256 = a * 2 % 256 ^^^ b * 2 % 256 := by
    have := Nat.shiftLeft_xor_distrib (i := 1) (a := a) (b := b)
    rw [Nat.shiftLeft_eq, Nat.shiftLeft_eq, Nat.shiftLeft_eq] at this
    rw [show 2 = 2 ^ 1 from rfl, this, show 256 = 2 ^ 8 from rfl, Nat.xor_mod_two_pow]
  have ht : (a ^^^ b) / 128 = a / 128 ^^^ b / 128 := Nat.xor_div_two_pow (n := 7)
  have ha' : a / 128 = 0 ∨ a / 128 = 1 := by omega
  have hb' : b / 128 = 0 ∨ b / 128 = 1 := by omega
  rw [gfX_eq _ (Nat.xor_lt_two_pow (n := 8) ha hb), gfX_eq a ha, gfX_eq b hb, hd, ht]
  rcases ha' with ha' | ha' <;> rcases hb' with hb' | hb' <;> simp [ha', hb', Nat.xor_comm, Nat.xor_left_comm]

theorem gfMulN_lt (n : Nat) {a : Nat} (b : Nat) (h : a < 256) : gfMulN n a b < 256 := by
  induction n generalizing a b with
  | zero => exact Nat.zero_lt_succ _
  | succ n ih =>
    refine Nat.xor_lt_two_pow (n := 8) ?_ (ih _ (gfX_lt a))
    split
    · exact h
    · decide

@[simp] theorem gfMulN_zero (n a : Nat) : gfMulN n a 0 = 0 := by
  induction n generalizing a with
  | zero => rfl
  | succ n ih => simp [gfMulN, ih]

/-- A product is additive in its second factor. -/
theorem gfMulN_xor (n a b c : Nat) : gfMulN n a (b ^^^ c) = gfMulN n a b ^^^ gfMulN n a c := by
  induction n generalizing a b c with
  | zero => exact (Nat.xor_self 0).symm
  | succ n ih =>
    have hm : (b ^^^ c) % 2 = b % 2 ^^^ c % 2 := Nat.xor_mod_two_pow (n := 1)
    have hb : b % 2 = 0 ∨ b % 2 = 1 := by omega
    have hc : c % 2 = 0 ∨ c % 2 = 1 := by omega
    rw [gfMulN, gfMulN, gfMulN, Nat.xor_div_two, ih, hm]
    rcases hb with hb | hb <;> rcases hc with hc | hc <;> simp [hb, hc, Nat.xor_assoc, Nat.xor_left_comm]

/-- The factor α moves out of the first factor. -/
theorem gfMulN_gfX_left (n : Nat) {a : Nat} (b : Nat) (h : a < 256) : gfMulN n (gfX a) b = gfX (gfMulN n a b) := by
  induction n generalizing a b with
  | zero => rfl
  | succ n ih =>
    rw [gfMulN, gfMulN, ih _ (gfX_lt a), gfX_xor (by split <;> omega) (gfMulN_lt _ _ (gfX_lt a))]
    split <;> rfl

/-- Bits of the second factor that are zero do not count. -/
theorem gfMulN_succ_of_lt (n a b : Nat) (h : b < 2 ^ n) : gfMulN (n + 1) a b = gfMulN n a b := by
  induction n generalizing a b with
  | zero =>
    obtain rfl : b = 0 := by omega
    simp
  | succ n ih =>
    rw [gfMulN, ih _ _ (by omega)]
    rfl

theorem gfMul_gfX_low {m b : Nat} (hm : m < 256) (hb : b < 128) : gfMul m (gfX b) = gfX (gfMul m b) := by
  have h0 : b * 2 % 2 = 0 := by omega
  rw [gfX, if_pos hb, gfMul, gfMul, ← gfMulN_gfX_left 8 b hm, gfMulN_succ_of_lt 7 _ b hb, gfMulN, h0, Nat.mul_div_cancel b (by decide)]
  simp

theorem gfMul_gfX_top : ∀ m : Fin 256, gfMul m (gfX 128) = gfX (gfMul m 128) := by decide +kernel

theorem xor_top_of_le : ∀ b : Fin 256, 128 ≤ b.val → b.val = (b.val - 128) ^^^ 128 := by decide +kernel

/-- The factor α moves out of the second factor. -/
theorem gfMul_gfX {m b : Nat} (hm : m < 256) (hb : b < 256) : gfMul m (gfX b) = gfX (gfMul m b) := by
  by_cases hl : b < 128
  · exact gfMul_gfX_low hm hl
  · have hs : b = (b - 128) ^^^ 128 := xor_top_of_le ⟨b, hb⟩ (Nat.le_of_not_lt hl)
    have hc : b - 128 < 256 := by omega
    have key : gfMul m (gfX ((b - 128) ^^^ 128)) = gfX (gfMul m ((b - 128) ^^^ 128)) := by
      rw [gfX_xor hc (by decide), gfMul, gfMulN_xor, ← gfMul, ← gfMul, gfMul_gfX_low hm (by omega), gfMul_gfX_top ⟨m, hm⟩, gfMul, gfMul, gfMul,
        gfMulN_xor, gfX_xor (gfMulN_lt _ _ hm) (gfMulN_lt _ _ hm)]
    rwa [← hs] at key

theorem gfPow_lt (n : Nat) : gfPow n < 256 := by
  cases n with
  | zero => decide
  | succ n => exact gfX_lt _

theorem gfMul_one : ∀ m : Fin 256, gfMul m 1 = m := by decide +kernel

/-- A product with a power of α is that many steps of multiplication by α. -/
theorem gfMul_gfPow {m : Nat} (hm : m < 256) (n : Nat) : gfMul m (gfPow n) = gfX^[n] m := by
  induction n with
  | zero => exact gfMul_one ⟨m, hm⟩
  | succ n ih => rw [gfPow, gfMul_gfX hm (gfPow_lt n), ih, Function.iterate_succ_apply']

/-- Fewer than 36 steps of multiplication by α do not lead a symbol back to itself. -/
theorem gfX_no_return : ∀ m : Fin 256, m ≠ 0 → (m : Nat) ∉ List.iterate gfX (gfX m) 35 := by decide +kernel

theorem gfX_iterate_good {m : Nat} (hm : m < 256) (h0 : m ≠ 0) (n : Nat) : gfX^[n] m < 256 ∧ gfX^[n] m ≠ 0 := by
  induction n with
  | zero => exact ⟨hm, h0⟩
  | succ n ih => exact Function.iterate_succ_apply' gfX n m ▸ ⟨gfX_lt _, gfX_ne_zero ih.2⟩

/-- The first 36 powers of α take a symbol to different products. -/
theorem gfMul_gfPow_ne {m : Nat} (hm : m < 256) (h0 : m ≠ 0) {p q : Nat} (hq : q < p) (hp : p < 36) :
    gfMul m (gfPow p) ≠ gfMul m (gfPow q) := by
  rw [gfMul_gfPow hm, gfMul_gfPow hm]
  obtain ⟨hl, hn⟩ := gfX_iterate_good hm h0 q
  intro he
  refine gfX_no_return ⟨_, hl⟩ (fun e => hn (Fin.val_eq_of_eq e)) (List.mem_iterate.2 ⟨p - q - 1, by omega, ?_⟩)
  show gfX^[q] m = gfX^[p - q - 1] (gfX (gfX^[q] m))
  rw [← Function.iterate_succ_apply' gfX q m, ← Function.iterate_add_apply, show p - q - 1 + q.succ = p by omega, he]

/-! ## One wrong symbol (R136, R138) -/

/-- The pattern of an access in which symbol p alone is wrong, by m. -/
def oneSym (p : Nat) (m : Byte) : List Byte := List.replicate p 0 ++ [m]

theorem oneSym_getD (p : Nat) (m : Byte) (i : Nat) : (oneSym p m).getD i 0 = if i = p then m else 0 := by
  rw [oneSym, List.getD_eq_getElem?_getD, List.getElem?_append, List.length_replicate]
  split
  case isTrue h => rw [if_neg (Nat.ne_of_lt h), List.getElem?_replicate_of_lt h, Option.getD_some]
  case isFalse h =>
    rw [List.getElem?_singleton]
    by_cases hi : i = p
    · simp [hi]
    · rw [if_neg (by omega), if_neg hi, Option.getD_none]

@[simp] theorem gfMulN_zero_left (n b : Nat) : gfMulN n 0 b = 0 := by
  induction n generalizing b with
  | zero => rfl
  | succ n ih =>
    have h : gfX 0 = 0 := rfl
    simp [gfMulN, h, ih]

/-- A sum over the symbols in which one term alone is not zero is that term. -/
theorem foldl_xor_single (f : Nat → Nat) (p n : Nat) (h : ∀ i, i ≠ p → f i = 0) :
    ((List.range n).map f).foldl (· ^^^ ·) 0 = if p < n then f p else 0 := by
  induction n with
  | zero => rfl
  | succ n ih =>
    rw [List.range_succ, List.map_append, List.foldl_append, ih]
    rcases Nat.lt_trichotomy p n with hp | rfl | hp
    · simp [hp, Nat.lt_succ_of_lt hp, h n (Nat.ne_of_gt hp)]
    · simp
    · simp [Nat.not_lt_of_gt hp, h n (Nat.ne_of_lt hp), show ¬ p < n + 1 by omega]

/-- The syndromes of one wrong symbol are its products with the powers of α at its place. -/
theorem rsSyn_oneSym {p : Nat} (m : Byte) (hp : p < 36) (j : Nat) : rsSyn (oneSym p m) j = gfMul m.toNat (gfPow (p * j)) := by
  have hz : ∀ i, i ≠ p → gfMul ((oneSym p m).getD i 0).toNat (gfPow (i * j)) = 0 := by
    intro i hi
    rw [oneSym_getD, if_neg hi]
    exact gfMulN_zero_left 8 _
  rw [rsSyn, foldl_xor_single _ p 36 hz, if_pos hp, oneSym_getD, if_pos rfl]

theorem rsSyns_oneSym {p : Nat} (m : Byte) (hp : p < 36) :
    rsSyns (oneSym p m) = [m.toNat, gfMul m.toNat (gfPow (p * 1)), gfMul m.toNat (gfPow (p * 2)), gfMul m.toNat (gfPow (p * 3))] := by
  have h0 : gfMul m.toNat (gfPow (p * 0)) = m.toNat := gfMul_one ⟨m.toNat, m.isLt⟩
  simp only [rsSyns, List.range_succ, List.range_zero, List.nil_append, List.cons_append, List.map_cons, List.map_nil, rsSyn_oneSym m hp, h0]

/-- The one place that explains the syndromes of one wrong symbol is its own. -/
theorem rsFind_oneSym {p : Nat} {m : Byte} (hp : p < 36) (hm : m.toNat ≠ 0) : rsFind (rsSyns (oneSym p m)) = some p := by
  have h0 : m.toNat = gfMul m.toNat (gfPow (p * 0)) := (gfMul_one ⟨m.toNat, m.isLt⟩).symm
  rw [rsSyns_oneSym m hp, rsFind, List.find?_range_eq_some]
  refine ⟨?_, List.mem_range.2 hp, fun q hq => ?_⟩
  · simpa [List.range_succ] using h0
  · have hne : gfMul m.toNat (gfPow p) ≠ gfMul m.toNat (gfPow q) := gfMul_gfPow_ne m.isLt hm hq hp
    simp [List.range_succ, hne]

theorem poison_syndrome : (rsSyns poisonPattern).getD 0 0 = 0 := by decide +kernel

theorem rsDecode_oneSym {p : Nat} {m : Byte} (hp : p < 36) (hm : m.toNat ≠ 0) : rsDecode false (oneSym p m) = .fixed p m.toNat := by
  have hs := rsSyns_oneSym m hp
  have hd : (rsSyns (oneSym p m)).getD 0 0 = m.toNat := by rw [hs]; rfl
  have hq : rsSyns (oneSym p m) ≠ rsSyns poisonPattern := by
    intro h
    rw [h, poison_syndrome] at hd
    exact hm hd.symm
  have hc : rsSyns (oneSym p m) ≠ [0, 0, 0, 0] := by
    rw [hs]
    exact fun h => hm (List.cons.inj h).1
  simp only [rsDecode, Bool.false_eq_true, if_false, hq, hc, hd, hm, rsFind_oneSym hp hm]

/-! ## The correction (R138) -/

theorem xor36_self (e : List Byte) : xor36 e e = List.replicate 36 0 := by
  simp [xor36, List.map_const']

theorem symBytes_clean : symBytes (List.replicate 36 0) = List.replicate 32 0 := by decide +kernel

theorem zipWith_xor_zeros (data : List Byte) : List.zipWith (· ^^^ ·) data (List.replicate data.length 0) = data := by
  induction data with
  | nil => rfl
  | cons b bs ih => rw [List.length_cons, List.replicate_succ, List.zipWith_cons_cons, ih, show b ^^^ 0 = b from BitVec.xor_zero]

/-- Settles O13: the syndromes of one wrong symbol name it (`rsDecode_oneSym`), and the correction takes the whole error away. -/
theorem decoderCorrectsOneSymbol : Obligations.DecoderCorrectsOneSymbol := by
  unfold Obligations.DecoderCorrectsOneSymbol
  have hn : ∀ m : Byte, m ≠ 0 → m.toNat ≠ 0 := fun m h e => h (BitVec.eq_of_toNat_eq e)
  refine ⟨fun p m hp hm => rsDecode_oneSym hp (hn m hm), ?corrected, ?clean, ?poison⟩
  case corrected =>
    intro data p m _ _ hl
    simp only [rsData, BitVec.ofNat_toNat, BitVec.setWidth_eq, xor36_self, symBytes_clean, ← hl, zipWith_xor_zeros, ite_self]
  case clean => exact (accDecode_eq false []).symm
  case poison => exact (accDecode_eq true []).symm

end Sys2Proof.Machine
end

section
/-! Proofs about the interleave of physical addresses over stacks and pseudo-channels (R132, R133). -/

namespace Sys2Proof.Machine

/-! ## The place of a granule, band by band (R133) -/

section
variable {bS bD bN pa : Nat} {y : Nat × Nat}

theorem paMap_spread (hm : bitsOf pa 41 40 = 0) (h : paMap bS bD bN pa = some y) :
    y.2 = bitsOf pa 39 8 / 768 ∧ y.2 < bS ∧
      y.1 = (bitsOf pa 39 8 % 768 % 12 + y.2) % 12 * 64 + (bitsOf pa 39 8 % 768 / 12 + y.2 / 12) % 64 := by
  simp only [paMap, hm, if_true, Option.ite_none_right_eq_some, Option.some.injEq] at h
  obtain ⟨hx, rfl⟩ := h
  exact ⟨rfl, by dsimp only; omega, rfl⟩

theorem paMap_dieLocal (hm : bitsOf pa 41 40 = 1) (h : paMap bS bD bN pa = some y) :
    y.2 = bS + bitsOf pa 39 8 % 2 ^ 31 / 384 ∧ y.2 < bS + bD ∧
      y.1 = (6 * (bitsOf pa 39 8 / 2 ^ 31) + (bitsOf pa 39 8 % 2 ^ 31 % 384 % 6 + (y.2 - bS)) % 6) * 64 +
        (bitsOf pa 39 8 % 2 ^ 31 % 384 / 6 + (y.2 - bS) / 6) % 64 := by
  simp only [paMap, hm, one_ne_zero, if_false, if_true, Option.ite_none_right_eq_some, Option.some.injEq] at h
  obtain ⟨hx, rfl⟩ := h
  exact ⟨rfl, by dsimp only; omega, by simp⟩

theorem paMap_near (h0 : bitsOf pa 41 40 ≠ 0) (h1 : bitsOf pa 41 40 ≠ 1) (h : paMap bS bD bN pa = some y) :
    bitsOf pa 41 40 = 2 ∧ y.2 = bS + bD + bitsOf pa 39 8 % 2 ^ 28 / 64 ∧
      y.1 = bitsOf pa 39 8 / 2 ^ 28 * 64 + (bitsOf pa 39 8 % 2 ^ 28 % 64 + (y.2 - (bS + bD))) % 64 := by
  simp only [paMap, h0, h1, if_false, Option.ite_none_right_eq_some, Option.some.injEq] at h
  obtain ⟨hm, -, rfl⟩ := h
  exact ⟨hm, rfl, by simp⟩

end

/-! ## Each band sends different granules to different places -/

section
variable {bS bD bN pa pb : Nat} {y : Nat × Nat} (ha : paMap bS bD bN pa = some y) (hb : paMap bS bD bN pb = some y)
include ha hb

theorem spread_inj (ma : bitsOf pa 41 40 = 0) (mb : bitsOf pb 41 40 = 0) : bitsOf pa 39 8 = bitsOf pb 39 8 := by
  obtain ⟨qa, -, da⟩ := paMap_spread ma ha
  obtain ⟨qb, -, db⟩ := paMap_spread mb hb
  omega

theorem dieLocal_inj (ma : bitsOf pa 41 40 = 1) (mb : bitsOf pb 41 40 = 1) : bitsOf pa 39 8 = bitsOf pb 39 8 := by
  obtain ⟨qa, -, da⟩ := paMap_dieLocal ma ha
  obtain ⟨qb, -, db⟩ := paMap_dieLocal mb hb
  omega

theorem near_inj (ma : bitsOf pa 41 40 = 2) (mb : bitsOf pb 41 40 = 2) : bitsOf pa 39 8 = bitsOf pb 39 8 := by
  obtain ⟨-, qa, da⟩ := paMap_near (by omega) (by omega) ha
  obtain ⟨-, qb, db⟩ := paMap_near (by omega) (by omega) hb
  omega

/-- The bands lie in different granules of a pseudo-channel. -/
theorem band_inj : bitsOf pa 41 40 = bitsOf pb 41 40 := by
  have key : ∀ {p}, paMap bS bD bN p = some y →
      (bitsOf p 41 40 = 0 ∧ y.2 < bS) ∨ (bitsOf p 41 40 = 1 ∧ bS ≤ y.2 ∧ y.2 < bS + bD) ∨ (bitsOf p 41 40 = 2 ∧ bS + bD ≤ y.2) := by
    intro p hp
    by_cases h0 : bitsOf p 41 40 = 0
    · exact .inl ⟨h0, (paMap_spread h0 hp).2.1⟩
    by_cases h1 : bitsOf p 41 40 = 1
    · obtain ⟨hq, hl, -⟩ := paMap_dieLocal h1 hp
      exact .inr (.inl ⟨h1, by omega, hl⟩)
    · obtain ⟨hm, hq, -⟩ := paMap_near h0 h1 hp
      exact .inr (.inr ⟨hm, by omega⟩)
  have := key ha
  have := key hb
  omega

end

/-- Settles O14: the band of a place and, within it, the granule number follow from the place. -/
theorem interleaveInjective : Obligations.InterleaveInjective := by
  unfold Obligations.InterleaveInjective
  intro bS bD bN pa pb y ha hb
  have hm := band_inj ha hb
  have hx : bitsOf pa 39 8 = bitsOf pb 39 8 := by
    by_cases h0 : bitsOf pa 41 40 = 0
    · exact spread_inj ha hb h0 (hm ▸ h0)
    by_cases h1 : bitsOf pa 41 40 = 1
    · exact dieLocal_inj ha hb h1 (hm ▸ h1)
    · have h2 := (paMap_near h0 h1 ha).1
      exact near_inj ha hb h2 (hm ▸ h2)
  simp only [bitsOf] at hm hx
  omega

end Sys2Proof.Machine
end

section
/-! Proofs about slots, refresh and replays of a stack port (R118, R127, R141, R146, R150, R156), and about its service commands (R120, R146,
R151 to R153, R158). -/

namespace Sys2Proof.Machine

/-! ## Slots and parking (R127) -/

theorem exec_slotGrant_grants (d : Pch) (c : SlotCmd) (cs : List SlotCmd) (s : State) (ha : s.awake) (hp : (s.pchAt d.val).parked = c :: cs)
    (hf : (s.stkAt (d.val / 64)).st = .full) (hu : s.slotsUsed d.val < slotCap) :
    exec (.slotGrant d) s = .next (((s.putPch d.val { s.pchAt d.val with parked := cs }).takeUp (d.val / 64) c).slotMarks d.val) := by
  have hs : s.stkServes (d.val / 64) = true := by simp [State.stkServes, hf]
  show execSlotGrant d s = _
  simp [execSlotGrant, live_awake _ _ ha, hp, hs, hu]

theorem exec_stackPortTrained_down (n : Region) (s : State) (ha : s.awake) (hd : (s.stkAt n.val).st = .down) :
    exec (.stackPortTrained n) s = .next (s.putStk n.val { s.stkAt n.val with st := .training }) := by
  show execStackPortTrained n s = _
  rw [execStackPortTrained, live_awake _ _ ha]
  exact if_pos hd

/-! ## Refresh (R141, R150) -/

section
variable (d : Pch) (b : Fin 64) (s : State) (ha : s.awake) (hf : (s.stkAt (d.val / 64)).st = .full)
include ha hf

theorem exec_refresh_inService (hp : (s.pchAt d.val).st = .full) :
    exec (.refresh d b) s =
      .next (s.putPch d.val { s.pchAt d.val with refreshed := smapSet (fun _ => 0) (s.pchAt d.val).refreshed b.val s.ns }) := by
  show execRefresh d b s = _
  simp [execRefresh, live_awake _ _ ha, hf, hp]

theorem exec_refresh_postponed (hp : (s.pchAt d.val).st = .retrain) (hb : (s.pchAt d.val).postponed.contains b.val = false) :
    exec (.refresh d b) s = .next (s.putPch d.val { s.pchAt d.val with postponed := (s.pchAt d.val).postponed ++ [b.val] }) := by
  show execRefresh d b s = _
  simp only [execRefresh, live_awake _ _ ha, hf, hp, hb, reduceCtorEq, or_self, true_or, if_true, if_false, Bool.false_eq_true]

end

/-! ## Replays (R118, R146) -/

theorem booked_ns {s t : State} (h : Booked s t) : t.ns = s.ns := by rw [State.ns, State.ns, booked_time h]

theorem exec_replay_slice (n : Region) (j : Fin 64) (s : State) (ha : s.awake)
    (hl : ((s.pchAt (n.val * 64 + j.val)).replays.filter (fun t => decide (s.ns - t ≤ 10 ^ 6))).length < 16) :
    exec (.replay n (.slice j)) s = .next ((s.count (pgStk n.val) oStkLinkRetry 1).putPch (n.val * 64 + j.val)
      { s.pchAt (n.val * 64 + j.val) with replays :=
        s.ns :: (s.pchAt (n.val * 64 + j.val)).replays.filter (fun t => decide (s.ns - t ≤ 10 ^ 6)) }) := by
  have hb := booked_count s (pgStk n.val) oStkLinkRetry 1
  show execReplay n (.slice j) s = _
  rw [execReplay, live_awake _ _ ha]
  dsimp only
  rw [booked_ns hb, booked_pchAt hb, List.length_cons, if_neg (by omega)]

/-- Settles O15: each command by the equation of its case. -/
theorem portHousekeeping : Obligations.PortHousekeeping := by
  unfold Obligations.PortHousekeeping
  refine ⟨?grant, ?trained, ?refreshed, ?postponed, ?command, ?response, ?slice⟩
  case grant => exact exec_slotGrant_grants
  case trained => exact exec_stackPortTrained_down
  case refreshed => exact exec_refresh_inService
  case postponed => exact exec_refresh_postponed
  case command => exact fun n s ha => live_awake s _ ha
  case response => exact fun n s ha => live_awake s _ ha
  case slice => exact exec_replay_slice

/-! ## Service commands (R120, R144 to R158) -/

section
variable (n : Region) (f : PortCmd) (s : State) (ha : s.awake)
include ha

theorem exec_scrub_full (errs : List AccErr) (hw : (Instr.scrub n errs).wf = true) (hs : s.svcIs n.val 0x20 = some f)
    (hf : (s.pchAt (n.val * 64 + f.pch.toNat)).st = .full) (ht : (s.pchAt (n.val * 64 + f.pch.toNat)).training = false) :
    exec (.scrub n errs) s = .next ((s.scrubSlot (n.val * 64 + f.pch.toNat) (f.addr.toNat / 8) errs).svcAnswer n.val 0 0) := by
  have hw' : errsWf 8 errs = true := hw
  show execScrub n errs s = _
  simp [execScrub, live_awake _ _ ha, hw', hs, hf, ht, PchSt.busy]

section
variable (hs : s.svcIs n.val 0x30 = some f)
include hs

theorem exec_train_fullRate (hb : (s.pchAt (n.val * 64 + f.pch.toNat)).st = .base) (hr : f.arg.toNat % 256 = 100)
    (ht : (s.pchAt (n.val * 64 + f.pch.toNat)).training = false) :
    exec (.train n) s =
      .next (s.putPch (n.val * 64 + f.pch.toNat) { s.pchAt (n.val * 64 + f.pch.toNat) with training := true, rate := 100 }) := by
  show execTrain n s = _
  simp [execTrain, live_awake _ _ ha, hs, hb, hr, ht]

theorem exec_train_inFull (hb : (s.pchAt (n.val * 64 + f.pch.toNat)).st = .full) : exec (.train n) s = .next (s.svcConflict n.val) := by
  show execTrain n s = _
  simp [execTrain, live_awake _ _ ha, hs, hb]

end

theorem exec_retrain_full (hs : s.svcIs n.val 0x31 = some f) (hb : (s.pchAt (n.val * 64 + f.pch.toNat)).st = .full) :
    exec (.retrain n) s = .next (s.retrainTrigger (n.val * 64 + f.pch.toNat) true) := by
  show execRetrain n s = _
  simp [execRetrain, live_awake _ _ ha, hs, hb]

theorem exec_marginT_starts (hs : s.svcIs n.val 0x32 = some f) (hm : (s.stkAt n.val).margin = none) :
    exec (.marginT n) s = .next (s.marginCmdOp n.val 1 f) := by
  show execMarginT n s = _
  simp [execMarginT, live_awake _ _ ha, hs, hm]

theorem exec_marginV_starts (hs : s.svcIs n.val 0x33 = some f) (hm : (s.stkAt n.val).margin = none) :
    exec (.marginV n) s = .next (s.marginCmdOp n.val 2 f) := by
  show execMarginV n s = _
  simp [execMarginV, live_awake _ _ ha, hs, hm]

theorem exec_patch_live (errs : List AccErr) (hw : (Instr.patch n errs).wf = true) (hs : s.svcIs n.val 0x38 = some f)
    (hg : s.repairGate n.val (n.val * 64 + f.pch.toNat) = none) (hl : s.rowLive (n.val * 64 + f.pch.toNat) = true) :
    exec (.patch n errs) s = .next ((((s.rewriteRow (n.val * 64 + f.pch.toNat) (bankOf f.addr.toNat) (rowOf f.addr.toNat) errs).patchPut n.val
      (f.arg.toNat % 2 ^ 11) f.pch.toNat (bankOf f.addr.toNat) (rowOf f.addr.toNat))).rowRepaired n.val f.pch.toNat f.addr.toNat 2) := by
  have hw' : errsWf 32 errs = true := hw
  show execPatch n errs s = _
  simp only [execPatch, live_awake _ _ ha, hw', hs, hg, hl, if_true]

theorem exec_ppr_live (errs : List AccErr) (hw : (Instr.ppr n errs).wf = true) (hs : s.svcIs n.val 0x39 = some f)
    (hg : s.repairGate n.val (n.val * 64 + f.pch.toNat) = none) (hl : s.rowLive (n.val * 64 + f.pch.toNat) = true) :
    exec (.ppr n errs) s = .next ((s.rewriteRow (n.val * 64 + f.pch.toNat) (bankOf f.addr.toNat) (rowOf f.addr.toNat) errs).rowRepaired
      n.val f.pch.toNat f.addr.toNat 1) := by
  have hw' : errsWf 32 errs = true := hw
  show execPpr n errs s = _
  simp only [execPpr, live_awake _ _ ha, hw', hs, hg, hl, if_true]

theorem exec_pchRetire_inService (hs : s.svcIs n.val 0x3A = some f) (hr : (s.pchAt (n.val * 64 + f.pch.toNat)).st ≠ .retired) :
    exec (.pchRetire n) s = .next ((s.pchRetired (n.val * 64 + f.pch.toNat)).svcAnswer n.val 0 0) := by
  show execPchRetire n s = _
  simp only [execPchRetire, live_awake _ _ ha, hs, hr, if_false]

end

/-- Settles O16: each command, outstanding at its stack, by the equation of its case. -/
theorem serviceCommands : Obligations.ServiceCommands := by
  unfold Obligations.ServiceCommands
  refine ⟨?issue, ?scrub, ?train, ?conflict, ?retrain, ?marginT, ?marginV, ?patch, ?ppr, ?retire⟩
  case issue => exact fun n v s ha => live_awake s _ ha
  case scrub => exact fun n errs f s ha => exec_scrub_full n f s ha errs
  case train => exact fun n f s ha hs => exec_train_fullRate n f s ha hs
  case conflict => exact exec_train_inFull
  case retrain => exact exec_retrain_full
  case marginT => exact exec_marginT_starts
  case marginV => exact exec_marginV_starts
  case patch => exact fun n errs f s ha => exec_patch_live n f s ha errs
  case ppr => exact fun n errs f s ha => exec_ppr_live n f s ha errs
  case retire => exact exec_pchRetire_inService

end Sys2Proof.Machine
end

section
/-! Proofs about the jobs of the pool block of a stack and the responses that leave it (R121, R123, R125, R225, R228, R829). -/

namespace Sys2Proof.Machine

/-! ## A GPOOL and its rows (R121, R225) -/

section
variable (n : Region) (f : PortCmd) (s : State) (ha : s.awake)
include ha

theorem exec_gpool_opens (hw : (Instr.gpool n f).wf = true) (hg : (s.stkAt n.val).gp = none) (ho : s.portOwn n.val 0x10 f = true)
    (ht : (s.stkAt n.val).pools.any (fun j => j.f.tag = f.tag) = false) (hp : s.parkFull n.val f.src = false)
    (hf : portFieldsOk 0x10 f = true) :
    exec (.gpool n f) s = .next ((s.portSent n.val f).putStk n.val { (s.portSent n.val f).stkAt n.val with
      gp := some (f.tag.toNat, f.count.toNat), pools := ((s.portSent n.val f).stkAt n.val).pools ++ [⟨f, [], []⟩] }) := by
  have hw' : f.carries 0 = true := hw
  show execGpool n f s = _
  simp only [execGpool, live_awake _ _ ha, hw', hg, ho, ht, hp, hf, if_true, Option.isSome_none, Bool.not_true, Bool.or_self,
    Bool.false_eq_true, if_false]

section
variable (hw : (Instr.gpoolRow n f).wf = true)
include hw

theorem exec_gpoolRow_noHeader (hg : (s.stkAt n.val).gp = none) : exec (.gpoolRow n f) s = .next (s.portRefuse n.val f) := by
  have hw' : f.carries 0 = true := hw
  show execGpoolRow n f s = _
  simp only [execGpoolRow, live_awake _ _ ha, hw', hg, if_true]

theorem exec_gpoolRow_joins (left : Nat) (hg : (s.stkAt n.val).gp = some (f.tag.toNat, left)) (hl : 1 < left)
    (hn : s.parts.find? (fun p => decide (p.stk = n.val) && decide (p.opc = 0x10) && decide (p.flit.tag.toNat = f.tag.toNat) && p.sent) = none)
    (hp : s.parkFull n.val f.src = false) (hf : portFieldsOk 0x11 f = true) (hd : portAddrOk 0x11 f = true) :
    exec (.gpoolRow n f) s = .next ((s.putStk n.val { s.stkAt n.val with
      gp := some (f.tag.toNat, left - 1),
      pools := (s.stkAt n.val).pools.map (fun j => if j.f.tag = f.tag then { j with want := j.want ++ [f] } else j) }).portTake n.val
        ⟨0x11, f, []⟩) := by
  have hw' : f.carries 0 = true := hw
  show execGpoolRow n f s = _
  simp only [execGpoolRow, live_awake _ _ ha, hw', hg, hn, hp, hf, hd, if_true, if_false, Nat.not_le_of_gt hl, ne_eq, not_true_eq_false,
    Bool.true_eq_false, Bool.false_eq_true, or_self, Bool.not_true]

end
end

/-! ## A complete job is answered (R228, R829) -/

section
variable (n : Region) (tag : BitVec 16) (j : GpoolJob) (s : State) (ha : s.awake)
  (hj : (s.stkAt n.val).pools.find? (fun j => j.f.tag = tag) = some j) (hw : j.want.length = j.f.count.toNat) (hr : j.rows.length = j.want.length)
include ha hj hw hr

theorem exec_poolLaneDone_complete :
    exec (.poolLaneDone n tag) s = .next ((j.answer (s.gpPooled n.val j.f) (s.gpCols n.val j.f)).foldl (fun t a => t.respond n.val a)
      ((s.putStk n.val { s.stkAt n.val with pools := (s.stkAt n.val).pools.filter (fun i => i.f.tag ≠ tag) }).setParts
        (s.parts.map (fun p => if p.stk = n.val ∧ p.opc = 0x10 ∧ p.flit = j.f then { p with pooled := s.gpPooled n.val j.f } else p)))) := by
  show execPoolLaneDone n tag s = _
  simp only [execPoolLaneDone, live_awake _ _ ha, hj]
  rw [if_pos ⟨hw, hr⟩]
  rfl

end

theorem foldl_respond_resp (n : Nat) (l : List Resp) (s : State) :
    ((l.foldl (fun t a => t.respond n a) s).stkAt n).resp = (s.stkAt n).resp ++ l := by
  induction l generalizing s with
  | nil => exact (List.append_nil _).symm
  | cons a l ih => rw [List.foldl_cons, ih, respond_resp, List.append_assoc, List.singleton_append]

/-- While the pool block is not ON the answer is raw. -/
theorem answer_poolOff (s : State) (n : Nat) (j : GpoolJob) (cols : Nat) (h : (s.domAt (168 + n)).st ≠ .on) :
    j.answer (s.gpPooled n j.f) cols = j.want.map (fun f => dataResp { f with tag := j.f.tag } (j.accsOf f) false) := by
  simp [GpoolJob.answer, State.gpPooled, h]

/-! ## Responses (R123) -/

theorem exec_responseFlit_leaves (n : Region) (x : Resp) (rest : List Resp) (s : State) (ha : s.awake) (hr : (s.stkAt n.val).resp = x :: rest)
    (hp : s.parts = []) :
    exec (.responseFlit n) s = .next ((s.putStk n.val { s.stkAt n.val with resp := rest }).emit (.portData n.val x.tag x.data x.poison)) := by
  have hp' : ∀ v, (s.putStk n.val v).parts = [] := fun _ => hp
  show execResponseFlit n s = _
  simp only [execResponseFlit, live_awake _ _ ha, hr, hp', List.find?_nil]

/-- Settles O23: each row by the equation of its case; the raw answer is the list of responses sent. -/
theorem poolJobs : Obligations.PoolJobs := by
  unfold Obligations.PoolJobs
  refine ⟨⟨?header, ?noHeader, ?row, ?complete, ?raw⟩, ?leaves⟩
  case header => exact exec_gpool_opens
  case noHeader => exact exec_gpoolRow_noHeader
  case row => exact fun n f left s ha hw => exec_gpoolRow_joins n f s ha hw left
  case complete => exact exec_poolLaneDone_complete
  case raw =>
    intro n tag j s ha hj hw hr hd
    refine ⟨_, exec_poolLaneDone_complete n tag j s ha hj hw hr, (foldl_respond_resp _ _ _).trans ?_⟩
    rw [answer_poolOff s n.val j _ hd]
    exact congrArg (fun k => k.resp ++ _) (putStk_stkAt s n.val _)
  case leaves => exact exec_responseFlit_leaves

end Sys2Proof.Machine
end

section
/-! Proofs about repair in service: training and margining that end (R148, R150 to R152), the patrol scrub and row repair (R854 to R858), stacks
that start and return (R156, R868, R869, R991), retirement (R861 to R867) and substitution (R872). -/

namespace Sys2Proof.Machine

/-! ## Training, retraining and margining (R148, R150 to R152) -/

section
variable (d : Pch) (z s : State) (ha : s.awake)
include ha

section
variable (ht : (s.pchAt d.val).training = true) (hs : s.svcIs (d.val / 64) 0x30 = none)
include ht hs

theorem exec_trainDone_fails (hf : (s.pchAt d.val).fails + 1 < 3)
    (hz : z = s.putPch d.val { s.pchAt d.val with training := false, fails := (s.pchAt d.val).fails + 1 }) :
    exec (.trainDone d false) s = .next ((z.outNext (d.val / 64) ((z.stkAt (d.val / 64)).waitQ.length + 1)).stackCheck (d.val / 64)) := by
  show execTrainDone d false s = _
  subst hz
  simp only [execTrainDone, live_awake _ _ ha, ht, hs, hf, Bool.not_true, Bool.false_eq_true, if_false, if_true, Option.any_none]

theorem exec_trainDone_thirdFails (hf : 3 ≤ (s.pchAt d.val).fails + 1) (hz : z = s.pchFail d.val) :
    exec (.trainDone d false) s = .next ((z.outNext (d.val / 64) ((z.stkAt (d.val / 64)).waitQ.length + 1)).stackCheck (d.val / 64)) := by
  show execTrainDone d false s = _
  subst hz
  simp only [execTrainDone, live_awake _ _ ha, ht, hs, Nat.not_lt_of_le hf, Bool.not_true, Bool.false_eq_true, if_false, Option.any_none]

theorem exec_trainDone_passes (hr : (s.pchAt d.val).rate = 100)
    (hz : z = (s.putPch d.val { s.pchAt d.val with
      st := .full, training := false, fails := 0, temp := (s.pchAt d.val).tempNow
      window16 := (s.stkAt (d.val / 64)).window16 }).serveWaiting d.val) :
    exec (.trainDone d true) s = .next ((z.outNext (d.val / 64) ((z.stkAt (d.val / 64)).waitQ.length + 1)).stackCheck (d.val / 64)) := by
  show execTrainDone d true s = _
  subst hz
  simp only [execTrainDone, live_awake _ _ ha, ht, hs, hr, Bool.not_true, Bool.false_eq_true, if_false, if_true, Option.any_none]

end

section
variable (hr : (s.pchAt d.val).st = .retrain)
include hr

theorem exec_retrainDone_fails (hf : (s.pchAt d.val).fails + 1 < 3) :
    exec (.retrainDone d false) s = .next (s.putPch d.val { s.pchAt d.val with fails := (s.pchAt d.val).fails + 1 }) := by
  show execRetrainDone d false s = _
  simp only [execRetrainDone, live_awake _ _ ha, hr, hf, ne_eq, not_true_eq_false, Bool.false_eq_true, if_false, if_true]

theorem exec_retrainDone_passes
    (hz : z = ((((s.putPch d.val { s.pchAt d.val with temp := (s.pchAt d.val).tempNow, replays := [] }).setRg (pgPch d.val) oPchRetrainDur
      (word ((s.ns - (s.rg (pgPch d.val) oPchRetrainSt).toNat) % 2 ^ 32))).setEvt (pgPch d.val) 1).count (pgStk (d.val / 64)) oStkRetrains 1))
    (hs : z.svcIs (d.val / 64) 0x31 = none) : exec (.retrainDone d true) s = .next (z.outLeave d.val) := by
  show execRetrainDone d true s = _
  rw [execRetrainDone, live_awake _ _ ha]
  dsimp only
  rw [if_neg (not_not_intro hr), if_pos rfl, ← hz, hs]
  rfl

end

theorem exec_marginStepDone_more (k : Nat) (b : Bool) (hm : (s.stkAt (d.val / 64)).margin = some (k, b)) (hp : (s.pchAt d.val).st = .margin) :
    exec (.marginStepDone d none) s = .next ((s.putStk (d.val / 64) { s.stkAt (d.val / 64) with
      waitQ := (s.stkAt (d.val / 64)).waitQ ++ [⟨d.val % 64, k, b⟩] }).outLeave d.val) := by
  show execMarginStepDone d none s = _
  simp only [execMarginStepDone, live_awake _ _ ha, hm, hp, ne_eq, not_true_eq_false, if_false]

end

/-! ## Patrol scrub (R855, R856) -/

theorem exec_scrubPace_sends (n : Region) (p : Nat) (z s : State) (ha : s.awake) (ho : bit (s.rg (pgRegion n.val) oRegionScrubState) 0 = true)
    (hs : (s.stkAt n.val).svc = none) (hp : s.rf (pgRegion n.val) oRegionScrubPos 27 0 < s.scrubTotal n.val)
    (hf : s.scrubFind n.val 65 (s.stkAt n.val).scrubPos = some p)
    (hz : z = s.putStk n.val { s.stkAt n.val with scrubPos := (p + 1) % 2 ^ 28 }) :
    exec (.scrubPace n) s = .next ((z.setRf (pgRegion n.val) oRegionScrubPos 27 0 (z.rf (pgRegion n.val) oRegionScrubPos 27 0 + 1)).svcSend
      n.val 0x20 (p / 2 ^ 22) (p % 2 ^ 22 * 8) 0) := by
  show execScrubPace n s = _
  subst hz
  simp only [execScrubPace, live_awake _ _ ha, ho, hs, hf, Nat.not_le_of_gt hp, Bool.not_true, Option.isSome_none, decide_false,
    Bool.or_self, Bool.false_eq_true, if_false]

theorem bit_and (a b : Word) (i : Nat) : bit (a &&& b) i = (bit a i && bit b i) := by simp [bit]

theorem bit_not_bitW (i : Nat) (hi : i < 64) : bit (~~~bitW i) i = false := by
  have h := bit_bitW i i hi
  rw [decide_eq_true rfl] at h
  rw [bit, BitVec.testBit_toNat, BitVec.getLsbD_not, ← BitVec.testBit_toNat, ← bit, h, Bool.not_true, Bool.and_false]

/-- A field of one bit reads what was put in. -/
theorem bit_setFld_one (w : Word) (i : Nat) (b : Bool) (hi : i < 64) : bit (setFld w i i (b2n b)) i = b := by
  have hm : word (2 ^ (i + 1) - 2 ^ i) = bitW i := by rw [pow_succ, bitW]; congr 1; omega
  have h1 : bit (bitW i) i = true := by rw [bit_bitW _ _ hi, decide_eq_true rfl]
  have hb : bit (word (b2n b * 2 ^ i)) i = b := by
    cases b with
    | false => simp [b2n, bit, word]
    | true => rw [b2n, if_pos rfl, Nat.one_mul, ← bitW, h1]
  unfold setFld
  rw [hm, bit_or, bit_and, bit_and, bit_not_bitW i hi, h1, hb, Bool.and_false, Bool.false_or, Bool.and_true]

/-- The scrub of a stack starts a period: its place in the registers is 0, and LATE tells whether the last period fell short (R856). -/
def State.scrubAnew (s : State) (n : Nat) : State :=
  let k := s.stkAt n
  let late := decide (s.rf (pgRegion n) oRegionScrubPos 27 0 < s.scrubTotal n)
  let z := ((s.putStk n { k with scrubFrom := k.scrubFrom + max 3600 (s.rf (pgRegion n) oRegionScrubPeriod 31 0) * 10 ^ 9 }).setRg (pgRegion n)
    oRegionScrubPos 0).setRf (pgRegion n) oRegionScrubState 1 1 (b2n late)
  if late then z.setEvt (pgRegion n) 1 else z

theorem exec_scrubPeriodEnd_due (n : Region) (s : State) (ha : s.awake)
    (hd : (s.stkAt n.val).scrubFrom + max 3600 (s.rf (pgRegion n.val) oRegionScrubPeriod 31 0) * 10 ^ 9 ≤ s.ns) :
    exec (.scrubPeriodEnd n) s = .next (s.scrubAnew n.val) := by
  show execScrubPeriodEnd n s = _
  rw [execScrubPeriodEnd, live_awake _ _ ha]
  exact if_neg (Nat.not_lt_of_le hd)

section
variable (s : State) (n : Region)

/-- An event of a region leaves the block registers of its page alone. -/
theorem rg_region_setEvt (b off : Nat) (h : 0x200 ≤ off ∧ off < 0x1000) :
    (s.setEvt (pgRegion n.val) b).rg (pgRegion n.val) off = s.rg (pgRegion n.val) off := by
  refine setEvt_rg_other _ _ _ _ _ (keyPlain_of _ _ (.inr ⟨by omega, by omega⟩) ?_) ?_
  · simp only [pgRegion]; omega
  · simp only [regKey, oEvtStatus]; omega

/-- The end of a period writes the scrub registers, and LATE is one of them. -/
theorem scrubAnew_rg (off : Nat) (h : 0x200 ≤ off ∧ off < 0x1000) :
    (s.scrubAnew n.val).rg (pgRegion n.val) off = ((s.setRg (pgRegion n.val) oRegionScrubPos 0).setRf (pgRegion n.val) oRegionScrubState 1 1
      (b2n (decide (s.rf (pgRegion n.val) oRegionScrubPos 27 0 < s.scrubTotal n.val)))).rg (pgRegion n.val) off := by
  unfold State.scrubAnew
  dsimp only
  split
  · rw [rg_region_setEvt _ _ _ _ h]
    rfl
  · rfl

theorem scrubAnew_pos : (s.scrubAnew n.val).rg (pgRegion n.val) oRegionScrubPos = 0 := by
  rw [scrubAnew_rg _ _ _ (by decide), State.setRf, rg_setRg_other _ _ _ _ _ _ (by simp only [regKey, oRegionScrubPos, oRegionScrubState]; omega),
    rg_setRg_same]

theorem scrubAnew_late : bit ((s.scrubAnew n.val).rg (pgRegion n.val) oRegionScrubState) 1 = true ↔
    s.rf (pgRegion n.val) oRegionScrubPos 27 0 < s.scrubTotal n.val := by
  rw [scrubAnew_rg _ _ _ (by decide), State.setRf, rg_setRg_same, bit_setFld_one _ _ _ (by decide), decide_eq_true_iff]

end

theorem scrubAnew_stkAt (s : State) (n : Nat) : (s.scrubAnew n).stkAt n = { s.stkAt n with
    scrubFrom := (s.stkAt n).scrubFrom + max 3600 (s.rf (pgRegion n) oRegionScrubPeriod 31 0) * 10 ^ 9 } := by
  unfold State.scrubAnew
  dsimp only
  split
  · rw [booked_stkAt (booked_setEvt _ _ _)]
    exact putStk_stkAt _ _ _
  · exact putStk_stkAt _ _ _

/-! ## Row repair (R857, R858) -/

section
variable (n : Region) (f : FailRow) (s : State) (ha : s.awake) (hr : (s.stkAt n.val).repair = none) (hs : (s.stkAt n.val).svc = none)
  (hn : (s.stkAt n.val).nextFail = some f) (hf : (s.pchAt (n.val * 64 + f.pch)).st = .full)
include ha hr hs hn hf

theorem exec_rowRepair_ppr (h0 : smapGet (fun _ => 0) (s.stkAt n.val).rowFails (rowKey f.pch f.bank f.row) = 0) :
    exec (.rowRepair n true) s = .next ((s.putStk n.val { s.stkAt n.val with repair := some f }).svcSend n.val 0x39 f.pch
      (rowAddr f.bank f.row) 0) := by
  show execRowRepair n true s = _
  simp [execRowRepair, live_awake _ _ ha, hr, hs, hn, hf, h0]

theorem exec_rowRepair_marks (p : Bool) (h2 : 2 ≤ smapGet (fun _ => 0) (s.stkAt n.val).rowFails (rowKey f.pch f.bank f.row)) :
    exec (.rowRepair n p) s = .next (s.markBank n.val f) := by
  have h0 : smapGet (fun _ => 0) (s.stkAt n.val).rowFails (rowKey f.pch f.bank f.row) ≠ 0 := by omega
  show execRowRepair n p s = _
  simp [execRowRepair, live_awake _ _ ha, hr, hs, hn, hf, h0, Nat.not_le_of_gt h2]

end

/-! ## Stacks that start and return (R156, R869, R991) -/

theorem exec_stackClearDone_clears (n : Region) (s : State) (ha : s.awake) (ht : (s.stkAt n.val).st = .training)
    (hp : s.pchsAll n.val PchSt.passedBase = true) (hr : (s.stkAt n.val).returning = false) :
    exec (.stackClearDone n) s = .next (((((s.putStk n.val { s.stkAt n.val with poisonAll := false }).stackZero n.val).putStk n.val
      { ((s.putStk n.val { s.stkAt n.val with poisonAll := false }).stackZero n.val).stkAt n.val with st := .base }).stackRate n.val 32).stackCheck
        n.val) := by
  show execStackClearDone n s = _
  simp only [execStackClearDone, live_awake _ _ ha, ht, hp, hr, and_self, if_true, if_false, Bool.false_eq_true]

theorem exec_stackReturn_lost (n : Region) (s : State) (ha : s.awake) (hl : (s.stkAt n.val).lost = true)
    (hr : (s.stkAt n.val).returning = false) : exec (.stackReturn n) s = .next (s.stackBack n.val) := by
  show execStackReturn n s = _
  rw [execStackReturn_eq, live_awake _ _ ha, hl, hr]
  rfl

theorem pchsReset_stk (s : State) (n : Nat) : (s.pchsReset n).stk = s.stk := by
  unfold State.pchsReset
  generalize List.range 64 = l
  induction l generalizing s with
  | nil => rfl
  | cons j l ih =>
    rw [List.foldl_cons, ih]
    split <;> rfl

theorem booked_stackRate (s : State) (n rate : Nat) : Booked s (s.stackRate n rate) := by
  unfold State.stackRate
  split
  · exact booked_refl s
  · exact booked_trans (booked_setRg _ _ _ _) (booked_setEvt _ _ _)

theorem booked_setRf (s : State) (pg off hi lo v : Nat) : Booked s (s.setRf pg off hi lo v) := rfl

theorem stackBack_stkAt (s : State) (n : Nat) :
    (s.stackBack n).stkAt n = { s.stkAt n with st := .down, returning := true, poisonAll := true } := by
  rw [State.stackBack, booked_stkAt (booked_stackRate _ _ _), booked_stkAt (booked_setRf _ _ _ _ _ _), State.stkAt, pchsReset_stk]
  exact putStk_stkAt _ _ _

/-- A key whose entries were dropped reads as unlisted. -/
theorem smapGet_dropKeys {α : Type} (d : Nat → α) (m : SMap α) (mine : Nat → Bool) (k : Nat) (h : mine k = true) :
    smapGet d (dropKeys m mine) k = d k := by
  induction m with
  | nil => rfl
  | cons e m ih =>
    by_cases he : mine e.1 = true
    · rwa [dropKeys, List.filter_cons_of_neg (by simp [he]), ← dropKeys]
    · have hk : k ≠ e.1 := fun hk => he (hk ▸ h)
      rw [dropKeys, List.filter_cons_of_pos (by simp [he]), ← dropKeys, smapGet, if_neg hk, ih]

/-- Every access of a data granule of a stack that returned reads poisoned. -/
theorem stackBack_accPoison (s : State) (n j a : Nat) (hj : j < 64) (h : a / 8 < dataSlots) :
    (s.stackBack n).accPoison (n * 64 + j) a = true := by
  have hk : accKey (n * 64 + j) a / 2 ^ 31 = n ∧ accKey (n * 64 + j) a % 2 ^ 25 = a := by
    simp only [accKey, dataSlots] at h ⊢
    omega
  obtain ⟨hn, hl⟩ := hk
  have hd : dataKey n (accKey (n * 64 + j) a) = true := by
    rw [dataKey, hn, hl, decide_eq_true rfl, decide_eq_true h, Bool.and_true]
  rw [memSame_accPoison (memSame_stackBack s n), State.accPoison]
  refine (smapGet_dropKeys _ s.dram.poison (dataKey n) _ hd).trans ?_
  rw [stackPoison_poisonDef, if_pos hn, hl, decide_eq_true h, Bool.and_true]

/-! ## Retirement of a pseudo-channel (R861 to R867) -/

section
variable (r : Region) (v : Word) (s : State) (ha : s.awake)
include ha

section
variable (hm : (s.regionAt r.val).move = none) (hr : fld v 9 0 / 64 = r.val) (hp : (s.pchAt (fld v 9 0)).st ≠ .retired)
include hm hr hp

theorem exec_moveCmd_noReserve (hl : s.rf (pgRegion r.val) oRegionReserveLeft 25 0 < 3906250) :
    exec (.moveCmd r v) s = .next (s.retireNeed.conflict (pgRegion r.val)) := by
  show execMoveCmd r v s = _
  simp [execMoveCmd, live_awake _ _ ha, hm, hr, hp, hl]

theorem exec_moveCmd_starts (z : State) (k : Nat) (hl : 3906250 ≤ s.rf (pgRegion r.val) oRegionReserveLeft 25 0) (hv : fld v 22 16 = 0)
    (hz : z = (s.relocWrite (fld v 9 0)).putRegion r.val { s.regionAt r.val with move := some ⟨fld v 9 0, 16, 0, []⟩ })
    (hk : z.moveFrom (fld v 9 0) 0 = some k) : exec (.moveCmd r v) s = .next z := by
  show execMoveCmd r v s = _
  rw [execMoveCmd, live_awake _ _ ha]
  dsimp only
  rw [hm, hv, decide_eq_false (not_not_intro hr), decide_eq_false hp, if_neg (by decide), if_neg (Nat.not_lt_of_le hl)]
  subst hz
  exact congrArg Host.Outcome.next (if_neg fun h => Option.some_ne_none k (hk.symm.trans h))

end

theorem exec_granuleMoveDone_next (m : MoveSt) (t : Nat × Nat) (k : Nat) (z : State) (hm : (s.regionAt r.val).move = some m)
    (ht : s.relocOf m.d m.moved = some t) (ho : s.pchOut m.d = false) (hq : s.pchOut t.1 = false) (hp : m.parked = [])
    (hz : z = s.granuleCopy m.d m.moved t.1 t.2) (hk : z.moveFrom m.d (m.moved + 1) = some k) :
    exec (.granuleMoveDone r) s =
      .next (z.putRegion r.val { z.regionAt r.val with move := some { m with moved := k, parked := [] } }) := by
  show execGranuleMoveDone r s = _
  rw [execGranuleMoveDone, live_awake _ _ ha]
  dsimp only
  simp only [hm, ht, ho, hq, Option.any_some, Bool.or_self, Bool.false_eq_true, if_false, ← hz, hk, hp, List.foldl_nil]

/-! ## Substitution of a cluster (R872) -/

theorem exec_subst_replaces (c : Nat) (cs : List Nat) (k : Nat) (y z : State) (hw : (s.regionAt r.val).waiting = c :: cs)
    (hp : (s.regionAt r.val).st = .paused) (hn : (s.regionAt r.val).subst = none) (hb : s.regionBusy r.val = false) (hl : fld v 3 0 < 12)
    (hc : (s.regionAt r.val).map.getD (fld v 3 0) 15 = c % 13) (h13 : fld v 7 4 < 13) (hk : k = 13 * r.val + fld v 7 4)
    (hs : (s.cluAt k).st = .spare)
    (hy : y = s.putRegion r.val { s.regionAt r.val with
      map := (s.regionAt r.val).map.set (fld v 3 0) (fld v 7 4), waiting := cs, subst := some (fld v 3 0, k) })
    (hz : z = (((y.putClu k { y.cluAt k with st := .service }).cluRetire c).mapCommit).setEvt (pgRegion r.val) 4)
    (hd : (z.domAt k).st = .off) : exec (.subst r v) s = .next (z.domWaking k) := by
  show execSubst r v s = _
  subst hk hy
  rw [execSubst, live_awake _ _ ha]
  dsimp only
  rw [hw]
  dsimp only
  rw [if_pos ⟨hp, hn, hb, hl, hc, h13, hs⟩, ← hz, hd]

end

/-- Settles O57: each command by the equation of its case. -/
theorem stackRepair : Obligations.StackRepair := by
  unfold Obligations.StackRepair
  refine ⟨⟨?trainFails, ?trainThird, ?trainPasses, ?retrainFails, ?retrainPasses, ?margin⟩,
    ⟨?pace, ?period, ?ppr, ?marks⟩, ?clear, ?back, ?noReserve, ?starts, ?granule, ?adopt, ?subst⟩
  case trainFails => exact fun d z s ha ht hf hs hz => exec_trainDone_fails d z s ha ht hs hf hz
  case trainThird => exact fun d z s ha ht hf hs hz => exec_trainDone_thirdFails d z s ha ht hs hf hz
  case trainPasses => exact fun d z s ha ht hr hs hz => exec_trainDone_passes d z s ha ht hs hr hz
  case retrainFails => exact exec_retrainDone_fails
  case retrainPasses => exact exec_retrainDone_passes
  case margin => exact fun d k b s ha hm hp => exec_marginStepDone_more d s ha k b hm hp
  case pace => exact exec_scrubPace_sends
  case period =>
    intro n s ha hd
    refine ⟨_, exec_scrubPeriodEnd_due n s ha hd, scrubAnew_pos s n, ?_, scrubAnew_late s n⟩
    rw [scrubAnew_stkAt]
  case ppr => exact exec_rowRepair_ppr
  case marks => exact fun n f p s ha hr hs hn hf h2 => exec_rowRepair_marks n f s ha hr hs hn hf p h2
  case clear => exact exec_stackClearDone_clears
  case back =>
    intro n s ha hl hr
    refine ⟨_, exec_stackReturn_lost n s ha hl hr, ?_, ?_, fun j a hj h => stackBack_accPoison s n.val j a hj h⟩
    · rw [stackBack_stkAt]
    · rw [stackBack_stkAt]
  case noReserve => exact exec_moveCmd_noReserve
  case starts => exact fun r v z k s ha hm hr hp hl hv hz hk => exec_moveCmd_starts r v s ha hm hr hp z k hl hv hz hk
  case granule => exact fun r m t k z s ha => exec_granuleMoveDone_next r s ha m t k z
  case adopt => exact fun r s ha => live_awake s _ ha
  case subst =>
    exact fun r v c cs k z s ha hw hp hn hb hl hc h13 hk hs hz hd =>
      exec_subst_replaces r v s ha c cs k _ z hw hp hn hb hl hc h13 hk hs rfl hz hd

end Sys2Proof.Machine
end

section
/-! Proofs about what the block answers to a command: a next state to every well-formed one, and the name of its row to a port command whose
operands contradict each other (R12, R120, R775). -/

namespace Sys2Proof.Machine

/-! ## Answers -/

/-- A command answers a next state: it neither faults nor is refused. -/
def Answers (o : Out State) : Prop := ∃ t, o = .next t

theorem answers_next (t : State) : Answers (.next t) := ⟨t, rfl⟩

theorem answers_live {s : State} {o : Out State} (h : Answers o) : Answers (s.live o) := by
  unfold State.live
  split
  · exact answers_next s
  · exact h

theorem answers_ite {c : Prop} [Decidable c] {a b : Out State} (ha : Answers a) (hb : Answers b) : Answers (if c then a else b) := by
  split
  · exact ha
  · exact hb

/-- A check that holds leaves its command to what follows. -/
theorem answers_pos {c : Prop} [Decidable c] {a b : Out State} (hc : c) (ha : Answers a) : Answers (if c then a else b) :=
  (if_pos hc).symm ▸ ha

theorem answers_neg {c : Prop} [Decidable c] {a b : Out State} (hc : ¬ c) (hb : Answers b) : Answers (if c then a else b) :=
  (if_neg hc).symm ▸ hb

theorem onPage_answers (s : State) (p : PageRef) (f : Nat → State) : Answers (s.onPage p f) := answers_ite (answers_next _) (answers_next _)

theorem rxArrive_answers (s : State) (h : RxHdr) (op : TxOp) : Answers (s.rxArrive h op) :=
  answers_ite (answers_next _) (answers_ite (answers_next _) (answers_ite (answers_next _) (answers_ite (answers_next _) (answers_next _))))

/-- A command that is well formed answers a next state: the rows that check their operands pass their check, and every other end of a row's
case distinction is a next state. -/
theorem exec_answers (i : Instr) (s : State) (hw : i.wf = true) : Answers (exec i s) := by
  cases i with
  | pwrOkRise | pwrOkFall | refclkEthLoss _ | refclkLoss _ | testPortInstruction _ => exact answers_next _
  | resetNLow | resetRelease => exact answers_ite (answers_next _) (answers_next _)
  | rd _ _ _ | wr _ _ | wrm _ _ | flitFence _ _ | rupd _ _ => exact answers_live (answers_pos hw (answers_next _))
  | gpool n f => exact answers_live (answers_pos hw (answers_ite (answers_next _) (answers_ite (answers_next _) (answers_next _))))
  | gpoolRow n f =>
    refine answers_live (answers_pos hw ?_)
    dsimp only
    split
    · exact answers_next _
    · exact answers_ite (answers_next _) (answers_ite (answers_next _) (answers_ite (answers_next _) (answers_next _)))
  | scrub n errs =>
    refine answers_live (answers_pos hw ?_)
    split
    · exact answers_next _
    · exact answers_ite (answers_next _) (answers_ite (answers_next _) (answers_ite (answers_next _) (answers_next _)))
  | patch n errs | ppr n errs =>
    refine answers_live (answers_pos hw ?_)
    dsimp only
    split
    · exact answers_next _
    · split <;> exact answers_next _
  | stackTempReading _ _ _ _ | hotspotReading _ _ | pageIn _ _ _ =>
    exact answers_live (answers_pos (by simpa [Instr.wf] using hw) (answers_next _))
  | pfcFrameRx p mask q => exact answers_live (answers_neg (not_not_intro (of_decide_eq_true hw)) (answers_next _))
  | ppsEdge => exact answers_live (answers_ite (answers_next _) (answers_ite (answers_next _) (answers_next _)))
  | rxSend _ _ | rxSendImm _ _ _ | remoteIncrementRx _ _ | rxWrite _ _ _ _ | rxWriteImm _ _ _ _ _ | rxRead _ _ _ _ | rxFetchAdd _ _ _ _
  | rxCmpSwap _ _ _ _ _ => exact answers_live (rxArrive_answers _ _ _)
  | evtStatusClear _ _ _ | evtSetWrite _ _ | cntSelWrite _ _ _ | cntValWrite _ _ _ _ | pageCtlCommit _ _ | errValidClear _ _ _ =>
    exact answers_live (onPage_answers _ _ _)
  | _ =>
    refine answers_live ?_
    dsimp -failIfUnchanged only
    repeat' split
    all_goals exact answers_next _

/-! ## Ill-formed commands (log entry 88) -/

/-- A row whose check fails, on a device that is not held, faults. -/
theorem live_illFormed {s : State} {b : Bool} {a : Out State} {r : Fault} (ha : s.awake) (hb : b = false) :
    s.live (if b = true then a else .fault r) = .fault r := by
  rw [live_awake _ _ ha, hb, if_neg Bool.false_ne_true]

theorem exec_registerWrite_unaligned (a : BitVec 28) (v : Word) (s : State) (h : a.toNat % 8 ≠ 0) : exec (.registerWrite a v) s = .next s := by
  show s.live (if a.toNat % 8 ≠ 0 then .next s else _) = _
  rw [if_pos h, State.live, ite_self]

/-- Settles O2: `exec_answers` for the well-formed commands, the failed check for the others. -/
theorem wellFormedCommandsComplete : Obligations.WellFormedCommandsComplete := by
  unfold Obligations.WellFormedCommandsComplete
  refine ⟨exec_answers, ?rd, ?wr, ?wrm, ?rupd, ?unaligned⟩
  case rd => exact fun n f errs s ha hw => live_illFormed ha hw
  case wr => exact fun n f s ha hw => live_illFormed ha hw
  case wrm => exact fun n f s ha hw => live_illFormed ha hw
  case rupd => exact fun n f s ha hw => live_illFormed ha hw
  case unaligned => exact exec_registerWrite_unaligned

end Sys2Proof.Machine
end

section
/-! Proofs about the translation units: leaf checks and table entries, requests, walks and D compares (R161, R167 to R175, R179, R182,
R184, R192, R992, R993), and the record a fault opens (R180, R183). -/

namespace Sys2Proof.Machine

/-! ## Units and records -/

/-- A unit after a write: the new value at the written one, the old one at every other. -/
theorem xlatAt_putXlat (s : State) (u k : Nat) (x : XlatSt) : (s.putXlat u x).xlatAt k = if k = u then x else s.xlatAt k := by
  simp only [State.xlatAt, State.putXlat, State.setXlat_xlat, smapGet_set]

/-- A record slot reads what was written last. -/
theorem recAt_putRec_same (x : XlatSt) (i : Nat) (r : FaultRec) : (x.putRec i r).recAt i = r := smapGet_set_same _ _ _ _

theorem booked_xlatAt {s t : State} (h : Booked s t) (u : Nat) : t.xlatAt u = s.xlatAt u := by
  simp only [State.xlatAt, booked_xlat h]

/-- The same unit written before and after booking. -/
theorem booked_putXlat {s t : State} (h : Booked s t) (u : Nat) (x : XlatSt) : Booked (s.putXlat u x) (t.putXlat u x) := by
  unfold Booked State.putXlat at *
  rw [h]
  rfl

theorem booked_ite {s a b : State} {p : Prop} [Decidable p] (ha : Booked s a) (hb : Booked s b) : Booked s (if p then a else b) := by
  split
  · exact ha
  · exact hb

/-! ## Leaf checks and table entries (R167 to R169, R174, R184, R192) -/

section
variable (t : TlbEnt) (q : XReq)

theorem leafCheck_perm (hp : ptePermits t.entry q = false) : leafCheck t q = .fault fPerm t.lvl t.entry := by
  simp [leafCheck, hp]

section
variable (hp : ptePermits t.entry q = true)
include hp

theorem leafCheck_nonres (hr : bit t.entry 6 = true) : leafCheck t q = .fault fNonres t.lvl t.entry := by
  simp [leafCheck, hp, hr]

theorem leafCheck_poison (hr : bit t.entry 6 = false) (hb : bit t.entry 7 = true) : leafCheck t q = .poison := by
  simp [leafCheck, hp, hr, hb]

theorem leafCheck_pa (hr : bit t.entry 6 = false) (hb : bit t.entry 7 = false) :
    leafCheck t q = .pa (ptePa t.entry + q.va.toNat % 2 ^ lvlBits t.lvl) := by
  simp [leafCheck, hp, hr, hb]

end
end

theorem pteKind_invalid (e : Word) (l : Nat) (hv : bit e 0 = false) : pteKind e l = .invalid := by
  simp [pteKind, hv]

theorem pteKind_leafAtRoot (e : Word) (hv : bit e 0 = true) (hl : bit e 1 = true) : pteKind e 3 = .malformed := by
  simp [pteKind, hv, hl]

theorem pteKind_pointerAtL0 (e : Word) (hv : bit e 0 = true) (hl : bit e 1 = false) : pteKind e 0 = .malformed := by
  simp [pteKind, hv, hl]

theorem pteKind_reserved (e : Word) (l : Nat) (hv : bit e 0 = true) (hr : fld e 15 10 ≠ 0) : pteKind e l = .malformed := by
  simp [pteKind, hv, hr]

/-! ## Requests (R161, R171, R172, R993) -/

/-- A request that reaches its own unit is translated there (R171). -/
theorem exec_translate (u : Fin 13) (q : XReq) (s : State) (ha : s.awake) (hu : (whoUnit q.who).getD u.val = u.val) :
    exec (.translate u q) s = .next (s.translateReq u.val q) := by
  show execTranslate u q s = _
  rw [execTranslate, live_awake _ _ ha, if_pos hu]

section
variable (u : Nat) (q : XReq) (s z : State)

theorem translateReq_noncanonical (hv : 2 ^ 52 ≤ q.va.toNat) : s.translateReq u q = s.xfault u q fNoncanon 3 0 := if_pos hv

section
variable (hv : q.va.toNat < 2 ^ 52)
include hv

theorem translateReq_disabled (he : bit (s.rg (pgXlat 0) oXlatRoot) 0 = false) : s.translateReq u q = s.xfault u q fNotMapped 3 0 := by
  rw [State.translateReq, if_neg (Nat.not_le.2 hv), he]
  rfl

section
variable (he : bit (s.rg (pgXlat 0) oXlatRoot) 0 = true)
include he

theorem translateReq_hit (t : TlbEnt) (hl : s.tlbLook u q = (some t, z)) : s.translateReq u q = z.serveLeaf u t q := by
  rw [State.translateReq, if_neg (Nat.not_le.2 hv), he, if_neg (by decide), hl]

theorem translateReq_miss (hl : s.tlbLook u q = (none, z)) : s.translateReq u q = z.walkBegin u q := by
  rw [State.translateReq, if_neg (Nat.not_le.2 hv), he, if_neg (by decide), hl]

end
end

section
variable (hn : findIdx (fun w => w.dset = none && w.reqs.any (fun r => s.samePage r.va.toNat q.va.toNat)) (s.xlatAt u).walks = none)
include hn

/-- With no walk of its page and 32 in progress, a request waits at the unit (R172). -/
theorem walkBegin_waits (hc : 32 ≤ (s.xlatAt u).walksAct) :
    s.walkBegin u q = s.putXlat u { s.xlatAt u with stalled := (s.xlatAt u).stalled ++ [q] } := by
  have hc' : walkCap ≤ (s.xlatAt u).walksAct := hc
  simp only [State.walkBegin, hn, hc', if_true]

/-- With no walk of its page and fewer than 32 in progress, a request starts a walk (R172). -/
theorem walkBegin_starts (hc : (s.xlatAt u).walksAct < 32) :
    s.walkBegin u q = s.putXlat u { s.xlatAt u with
      nextWalk := (s.xlatAt u).nextWalk + 1,
      walks := (s.xlatAt u).walks ++ [⟨(s.xlatAt u).nextWalk, [q], (s.walkStart u q.va.toNat).1, (s.walkStart u q.va.toNat).2, none, false, 0⟩] } := by
  have hc' : ¬ walkCap ≤ (s.xlatAt u).walksAct := Nat.not_le.2 hc
  simp only [State.walkBegin, hn, hc', if_false]

end
end

/-! ## Walks (R169, R179, R992, R993) -/

section
variable (u : Fin 13) (k : Nat) (w : WalkSt) (q : XReq) (s z : State) (ha : s.awake)
  (hf : (s.xlatAt u.val).walks.find? (fun w => w.id = k && w.dset = none) = some w) (hq : w.reqs.head? = some q)
include ha hf hq

/-- A walk that waits for an invalidation delivers nothing (R179). -/
theorem exec_walkReadReturn_held (hr : w.restart = true) (hw : 0 < w.after) : exec (.walkReadReturn u k) s = .next s := by
  show execWalkReadReturn u k s = _
  simp [execWalkReadReturn, live_awake _ _ ha, hf, hq, hr, hw]

section
variable (he : bit (s.rg (pgXlat 0) oXlatRoot) 0 = true)
include he

/-- A walk met by an invalidation or a root write that is over starts again (R179, R992). -/
theorem exec_walkReadReturn_restarts (hr : w.restart = true) (hw : w.after = 0) :
    exec (.walkReadReturn u k) s = .next (s.walkTo u.val k (s.walkStart u.val q.va.toNat).1 (s.walkStart u.val q.va.toNat).2) := by
  show execWalkReadReturn u k s = _
  simp [execWalkReadReturn, live_awake _ _ ha, hf, hq, hr, hw, he]

section
variable (hr : w.restart = false)
include hr

theorem exec_walkReadReturn_next (l tb : Nat)
    (hs : s.walkStep u.val (whoSource q.who) q.va.toNat w.lvl w.tbl = (.next l tb, z)) :
    exec (.walkReadReturn u k) s = .next (z.walkTo u.val k l tb) := by
  show execWalkReadReturn u k s = _
  simp [execWalkReadReturn, live_awake _ _ ha, hf, hq, hr, he, hs]

theorem exec_walkReadReturn_leaf (leaf : TlbEnt)
    (hs : s.walkStep u.val (whoSource q.who) q.va.toNat w.lvl w.tbl = (.leaf leaf, z)) :
    exec (.walkReadReturn u k) s = .next (w.reqs.foldl (fun s q => s.serveLeaf u.val leaf q) (z.walkDrop u.val k)) := by
  show execWalkReadReturn u k s = _
  simp [execWalkReadReturn, live_awake _ _ ha, hf, hq, hr, he, hs]

end
end
end

/-! ## D compares and stalled requests (R175, R182) -/

/-- A D compare that finds the entry it knew caches the leaf with D set and grants its request (R175). -/
theorem exec_dBitCompareDone_set (u : Fin 13) (k : Nat) (w : WalkSt) (leaf : TlbEnt) (q : XReq) (qs : List XReq) (z s : State) (ha : s.awake)
    (hf : (s.xlatAt u.val).walks.find? (fun w => w.id = k) = some w) (hd : w.dset = some leaf) (hq : w.reqs = q :: qs)
    (hr : w.restart = false) (hp : s.paServes u.val (whoSource q.who) leaf.epa = true)
    (hs : (s.walkDrop u.val k).setD u.val (whoSource q.who) leaf = (.set, z)) :
    exec (.dBitCompareDone u k) s = .next ((z.tlbFill u.val q { leaf with entry := leaf.entry ||| bitW 8 }).grant u.val q
      (.pa (ptePa leaf.entry + q.va.toNat % 2 ^ lvlBits leaf.lvl))) := by
  show execDBitCompareDone u k s = _
  simp [execDBitCompareDone, live_awake _ _ ha, hf, hd, hq, hr, hp, hs]

/-- The oldest stalled request is taken again while a record and a walk are free (R182). -/
theorem exec_faultStallRetry_room (u : Fin 13) (q : XReq) (rest : List XReq) (s : State) (ha : s.awake)
    (hs : (s.xlatAt u.val).stalled = q :: rest) (hf : (List.range 64).all (fun i => ((s.xlatAt u.val).recAt i).valid) = false)
    (hc : (s.xlatAt u.val).walksAct < 32) :
    exec (.faultStallRetry u) s =
      .next ((s.putXlat u.val { s.xlatAt u.val with stalled := rest }).retryReq u.val q).rxDrainAll := by
  have hn : ¬ ((List.range 64).all (fun i => ((s.xlatAt u.val).recAt i).valid) = true ∨ walkCap ≤ (s.xlatAt u.val).walksAct) := by
    rw [hf]
    exact not_or.2 ⟨Bool.false_ne_true, Nat.not_le.2 hc⟩
  show execFaultStallRetry u s = _
  rw [execFaultStallRetry, live_awake _ _ ha, State.stallRetry]
  simp only [hs, if_neg hn]
  rfl

/-- Settles O17: the checks of a leaf and of an entry one by one, then each command by the equation of its case. -/
theorem translationSteps : Obligations.TranslationSteps := by
  unfold Obligations.TranslationSteps
  refine ⟨⟨leafCheck_perm, leafCheck_nonres, leafCheck_poison, leafCheck_pa, pteKind_invalid, pteKind_leafAtRoot, pteKind_pointerAtL0,
    pteKind_reserved⟩, ?hit, ?miss, ?disabled, ?next, ?leaf, ?restart, ?dSet, ?stalled⟩
  case hit =>
    intro u q t z s ha hu hv he hl
    rw [exec_translate u q s ha hu, translateReq_hit _ _ _ _ hv he t hl]
  case miss =>
    intro u q z s ha hu hv he hl hn
    rw [exec_translate u q s ha hu, translateReq_miss _ _ _ _ hv he hl]
    exact ⟨fun hc => congrArg _ (walkBegin_waits _ _ _ hn hc), fun hc => congrArg _ (walkBegin_starts _ _ _ hn hc)⟩
  case disabled =>
    intro u q s ha hu hv he
    rw [exec_translate u q s ha hu, translateReq_disabled _ _ _ hv he]
  case next => exact fun u k w q l tb z s ha hf hq hr he => exec_walkReadReturn_next u k w q s z ha hf hq he hr l tb
  case leaf => exact fun u k w q leaf z s ha hf hq hr he => exec_walkReadReturn_leaf u k w q s z ha hf hq he hr leaf
  case restart =>
    exact fun u k w q s ha hf hq hr he =>
      ⟨exec_walkReadReturn_held u k w q s ha hf hq hr, exec_walkReadReturn_restarts u k w q s ha hf hq he hr⟩
  case dSet => exact exec_dBitCompareDone_set
  case stalled => exact exec_faultStallRetry_room

/-! ## The record a fault opens (R180, R183) -/

/-- A detail that R183 defines whole is the record's. -/
theorem detailOf_defined (s : State) (w : Who) (e : Nat) (h : whoDetail w = (e, 0)) : (s.detailOf w).1 = e := by
  simp [State.detailOf, h]

theorem detailOf_booked (s : State) (w : Who) : Booked s (s.detailOf w).2 := by
  unfold State.detailOf
  dsimp only
  split
  · exact booked_refl s
  · exact (books_draw s).1

/-- The record of a new fault: one request parked, none merged (R183). -/
def State.faultRec (s : State) (q : XReq) (kind lvl : Nat) (entry : Word) : FaultRec :=
  { valid := true, lvl := lvl, acc := q.acc, kind := kind, va := q.va.toNat % 2 ^ 52, waiters := 0, source := whoSource q.who,
    detail := (s.detailOf q.who).1 % 2 ^ 32, st := s.ns, entry := if kind = fNoncanon then 0 else entry, parked := [q] }

/-- A fault that no record takes up opens the first free one; the rest is booking (R180, R181). -/
theorem xfault_opens (s : State) (u : Nat) (q : XReq) (kind lvl i : Nat) (entry : Word) (hw : whoSvc q.who = none)
    (hm : (List.range 64).find? (fun i => ((s.xlatAt u).recAt i).merges kind lvl (q.va.toNat % 2 ^ 52) q.acc) = none)
    (hf : (List.range 64).find? (fun i => !((s.xlatAt u).recAt i).valid) = some i) :
    Booked (s.putXlat u ((s.xlatAt u).putRec i (s.faultRec q kind lvl entry))) (s.xfault u q kind lvl entry) := by
  have hd := detailOf_booked s q.who
  unfold State.xfault
  simp only [hw, hm, hf, booked_xlatAt hd, booked_ns hd]
  refine booked_trans (booked_putXlat hd u _) (booked_trans (booked_count _ (pgXlat u) oXlatFaults 1) ?_)
  have hfull (z : State) (p : Prop) [Decidable p] : Booked z (if p then z.setEvt (pgXlat u) 2 else z) :=
    booked_ite (booked_setEvt _ _ _) (booked_refl _)
  exact booked_ite (booked_trans (hfull _ _) (booked_setEvt _ _ _))
    (booked_trans (hfull _ _) (booked_trans (booked_setEvt _ _ _) (booked_error _ _ _)))

/-- While no record is valid, none merges and the first is free. -/
theorem firstRecord_free (x : XlatSt) (kind lvl va : Nat) (a : Acc) (h : ∀ i, i < 64 → (x.recAt i).valid = false) :
    (List.range 64).find? (fun i => (x.recAt i).merges kind lvl va a) = none ∧
      (List.range 64).find? (fun i => !(x.recAt i).valid) = some 0 := by
  constructor
  · rw [List.find?_eq_none]
    intro i hi
    simp [FaultRec.merges, h i (List.mem_range.1 hi)]
  · rw [List.range_succ_eq_map, List.find?_cons_of_pos]
    rw [h 0 (by decide)]
    rfl

/-- Settles O18: the request opens the first record (`xfault_opens`), and booking leaves the units and the stacks alone. -/
theorem noncanonicalFaults : Obligations.NoncanonicalFaults := by
  unfold Obligations.NoncanonicalFaults
  intro u q s ha hu hv hw hfree
  obtain ⟨hm, hf⟩ := firstRecord_free (s.xlatAt u.val) fNoncanon 3 (q.va.toNat % 2 ^ 52) q.acc hfree
  have hb := xfault_opens s u.val q fNoncanon 3 0 0 hw hm hf
  refine ⟨_, by rw [exec_translate u q s ha hu, translateReq_noncanonical _ _ _ hv], (s.detailOf q.who).1 % 2 ^ 32,
    ?record, ?detail, ?dram, ?tlb⟩
  case record =>
    rw [booked_xlatAt hb, xlatAt_putXlat, if_pos rfl, recAt_putRec_same]
    simp only [State.faultRec, if_true]
  case detail =>
    intro e he
    rw [detailOf_defined s _ e he]
  case dram =>
    rw [booked_dram hb]
    rfl
  case tlb =>
    rw [booked_xlatAt hb, xlatAt_putXlat, if_pos rfl]
    rfl

end Sys2Proof.Machine
end

section
/-! Proofs about a write of XLAT.ROOT and about invalidations (R176 to R179, R992). -/

namespace Sys2Proof.Machine

/-! ## Every unit changed alike -/

/-- Units changed one by one: each that is named once is changed, every other reads as before. -/
theorem xlatAt_foldl_putXlat (f : XlatSt → XlatSt) (l : List Nat) (hl : l.Nodup) (s : State) (u : Nat) :
    (l.foldl (fun t k => t.putXlat k (f (t.xlatAt k))) s).xlatAt u = if u ∈ l then f (s.xlatAt u) else s.xlatAt u := by
  induction l generalizing s with
  | nil => rfl
  | cons k l ih =>
    obtain ⟨hk, hl'⟩ := List.nodup_cons.1 hl
    rw [List.foldl_cons, ih hl', xlatAt_putXlat]
    by_cases hu : u = k
    · subst hu
      simp [hk]
    · simp [hu]

theorem xlatAt_allXlat (s : State) (f : XlatSt → XlatSt) (u : Nat) (hu : u < 13) : (s.allXlat f).xlatAt u = f (s.xlatAt u) := by
  rw [State.allXlat, xlatAt_foldl_putXlat f _ List.nodup_range, if_pos (List.mem_range.2 hu)]

/-- Nothing but the units changes. -/
theorem allXlat_frame (s : State) (f : XlatSt → XlatSt) : s.allXlat f = s.setXlat (s.allXlat f).xlat := by
  unfold State.allXlat
  induction List.range 13 generalizing s with
  | nil => rfl
  | cons k l ih =>
    rw [List.foldl_cons, ih]
    rfl

@[simp] theorem allXlat_invQ (s : State) (f : XlatSt → XlatSt) : (s.allXlat f).invQ = s.invQ := by
  rw [allXlat_frame, State.setXlat_invQ]

@[simp] theorem allXlat_rg (s : State) (f : XlatSt → XlatSt) (pg off : Nat) : (s.allXlat f).rg pg off = s.rg pg off := by
  rw [State.rg, allXlat_frame, State.setXlat_regs, State.rg]

/-! ## XLAT.ROOT (R992) -/

/-- One register written on a row of unit pages: there it reads the value, every other register reads as before. -/
theorem rg_foldl_setRg_xlat (off : Nat) (v : Word) (pg' off' : Nat) (l : List Nat) (s : State) :
    (l.foldl (fun t k => t.setRg (pgXlat k) off v) s).rg pg' off' =
      if ∃ k ∈ l, regKey pg' off' = regKey (pgXlat k) off then v else s.rg pg' off' := by
  induction l generalizing s with
  | nil => simp
  | cons k l ih =>
    simp only [List.foldl_cons, ih, rg_setRg, List.exists_mem_cons_iff]
    by_cases hk : regKey pg' off' = regKey (pgXlat k) off <;> simp [hk]

/-- Another register of a unit page is another key. -/
theorem regKey_pgXlat_ne (u k : Nat) {off off' : Nat} (ho : off < 4096) (ho' : off' < 4096) (h : off' / 8 ≠ off / 8) :
    regKey (pgXlat u) off' ≠ regKey (pgXlat k) off := by
  simp only [regKey]
  omega

/-- Settles O19: the units are changed alike, then the root is written on each page. -/
theorem rootWriteEmptiesCaches : Obligations.RootWriteEmptiesCaches := by
  unfold Obligations.RootWriteEmptiesCaches
  intro v s ha
  refine ⟨_, live_awake s _ ha, fun u hu => ?_⟩
  have hb (z : State) : Booked z ((List.range 13).foldl (fun t u => t.setRg (pgXlat u) oXlatRoot (v &&& word (2 ^ 42 - 2 ^ 16 + 1))) z) :=
    booked_foldl _ _ (fun _ _ => booked_setRg _ _ _ _) z
  have hother (off : Nat) (ho : off < 4096) (hne : off / 8 ≠ oXlatRoot / 8) :
      ¬ ∃ k ∈ List.range 13, regKey (pgXlat u) off = regKey (pgXlat k) oXlatRoot :=
    fun ⟨k, _, hk⟩ => regKey_pgXlat_ne u k (by decide) ho hne hk
  rw [booked_xlatAt (hb _), xlatAt_allXlat _ _ _ hu]
  refine ⟨rfl, rfl, rfl, rfl, rfl, ?root, ?queue, ?issued, ?done⟩
  case root => rw [rg_foldl_setRg_xlat, if_pos ⟨u, List.mem_range.2 hu, rfl⟩]
  case queue => rw [booked_invQ (hb _), allXlat_invQ]
  case issued => rw [rg_foldl_setRg_xlat, if_neg (hother _ (by decide) (by decide)), allXlat_rg]
  case done => rw [rg_foldl_setRg_xlat, if_neg (hother _ (by decide) (by decide)), allXlat_rg]

/-! ## Invalidations (R176 to R179) -/

theorem booked_invCount (s : State) (off : Nat) : Booked s (s.invCount off) := booked_foldl _ _ (fun _ _ => booked_count _ _ _ _) s

/-- An accepted invalidation enters the queue last, with what it waits for (R176, R177). -/
theorem invAccept_invQ (s : State) (all : Bool) (size va : Nat) :
    (s.invAccept all size va).invQ = s.invQ ++ [⟨all, size, va, s.invHold ⟨all, size, va, []⟩⟩] := by
  simp only [State.invAccept, booked_invQ (booked_invCount _ _), allXlat_invQ, State.setInvQ_invQ]

/-- An accepted invalidation takes what it covers out of each unit (R177, R179). -/
theorem invAccept_xlatAt (s : State) (all : Bool) (size va u : Nat) (hu : u < 13) :
    (s.invAccept all size va).xlatAt u =
      (s.xlatAt u).invalidate ⟨all, size, va, s.invHold ⟨all, size, va, []⟩⟩ (s.invQ.length + 1) := by
  simp only [State.invAccept, booked_xlatAt (booked_invCount _ _), xlatAt_allXlat _ _ _ hu, State.setInvQ_invQ, List.length_append,
    List.length_singleton]
  rfl

/-- A SIZE in use, or ALL, is not the reserved form (R178). -/
theorem invSize_defined {v : Word} (h : fld v 55 54 ≠ 3 ∨ bit v 56 = true) : ¬ (fld v 55 54 = 3 ∧ bit v 56 = false) := by
  rintro ⟨hs, hall⟩
  rcases h with h | h
  · exact h hs
  · exact Bool.noConfusion (hall.symm.trans h)

section
variable (u : Fin 13) (v : Word) (s : State) (ha : s.awake)
include ha

theorem exec_invCmd_accepted (hv : fld v 55 54 ≠ 3 ∨ bit v 56 = true) (hq : s.invQ.length < invCap) :
    exec (.invCmd u v) s = .next (s.invAccept (bit v 56) (fld v 55 54) (lvlBase (fld v 51 16 * 2 ^ 16) (fld v 55 54))) := by
  show execInvCmd u v s = _
  rw [execInvCmd, live_awake _ _ ha]
  exact if_neg (not_or.2 ⟨invSize_defined hv, Nat.not_le.2 hq⟩)

/-- An invalidation that meets a full queue only raises INV_OVF (R176). -/
theorem exec_invCmd_full (hv : fld v 55 54 ≠ 3 ∨ bit v 56 = true) (hq : invCap ≤ s.invQ.length) :
    exec (.invCmd u v) s = .next (s.setEvt (pgXlat u.val) 3) := by
  show execInvCmd u v s = _
  rw [execInvCmd, live_awake _ _ ha]
  simp only [invSize_defined hv, hq, or_true, if_true, if_false, List.nil_append]
  rfl

/-- An undefined SIZE only raises INV_BAD (R178). -/
theorem exec_invCmd_badSize (hs : fld v 55 54 = 3) (hall : bit v 56 = false) (hq : s.invQ.length < invCap) :
    exec (.invCmd u v) s = .next (s.setEvt (pgXlat u.val) 5) := by
  show execInvCmd u v s = _
  rw [execInvCmd, live_awake _ _ ha]
  simp only [hs, hall, Nat.not_le.2 hq, and_self, or_false, if_true, if_false, List.append_nil]
  rfl

end

section
variable (i : InvEnt) (q : List InvEnt) (s : State) (ha : s.awake) (hq : s.invQ = i :: q)
include ha hq

theorem exec_invDone_completes (hh : i.hold.any (fun h => s.slotless h.1 h.2) = false) :
    exec .invDone s = .next (((s.setInvQ q).allXlat (fun x => { x with walks := x.walks.map (fun w =>
      { w with after := w.after - 1 }) })).invCount oXlatInvDone) := by
  show execInvDone s = _
  simp only [execInvDone, live_awake _ _ ha, hq]
  rw [hh]
  rfl

theorem exec_invDone_waits (hh : i.hold.any (fun h => s.slotless h.1 h.2) = true) : exec .invDone s = .next s := by
  show execInvDone s = _
  simp only [execInvDone, live_awake _ _ ha, hq]
  rw [if_pos hh]

end

/-- Settles O20: what an accepted invalidation does to the queue and to each unit, and the other commands by the equation of their case. -/
theorem invalidationCovers : Obligations.InvalidationCovers := by
  unfold Obligations.InvalidationCovers
  refine ⟨?accepted, exec_invCmd_full, exec_invCmd_badSize, exec_invDone_completes, exec_invDone_waits⟩
  intro u v s ha hv hq
  refine ⟨_, exec_invCmd_accepted u v s ha hv hq, _, rfl, invAccept_invQ _ _ _ _, fun w hw => ?_⟩
  rw [invAccept_xlatAt _ _ _ _ _ hw]
  exact ⟨rfl, rfl, rfl⟩

end Sys2Proof.Machine
end

section
/-! Proofs about the resumption of fault records and the exchanges of the paging service (R186, R188, R194 to R197). -/

namespace Sys2Proof.Machine

/-! ## Fault records (R186, R188) -/

section
variable (u : Fin 13) (i : Fin 64) (s : State) (ha : s.awake)
include ha

theorem exec_resumeRetry (z : State) (hz : s.resumeSlot u.val i.val false = z) : exec (.resumeRetry u i) s = .next z.rxDrainAll := by
  subst hz
  exact live_awake s _ ha

theorem exec_resumeAbort (z : State) (hz : s.resumeSlot u.val i.val true = z) : exec (.resumeAbort u i) s = .next z.rxDrainAll := by
  subst hz
  exact live_awake s _ ha

end

section
variable (s : State) (u i : Nat)

theorem resumeSlot_retry (hv : ((s.xlatAt u).recAt i).valid = true) : s.resumeSlot u i false = s.retrySlot u i := by
  simp [State.resumeSlot, hv]

theorem resumeSlot_abort (hv : ((s.xlatAt u).recAt i).valid = true) : s.resumeSlot u i true = s.abortSlot u i := by
  simp [State.resumeSlot, hv]

/-- A slot without a record only raises the misuse event. -/
theorem resumeSlot_invalid (abort : Bool) (hv : ((s.xlatAt u).recAt i).valid = false) : s.resumeSlot u i abort = s.setEvt (pgXlat u) 4 := by
  simp [State.resumeSlot, hv]

end

/-! ## The paging service (R194 to R197) -/

/-- Data of one page, of 64 KiB or 2 MiB, are taken by the page of the address (R196). -/
theorem exec_pageIn (va : Word) (frame : BitVec 42) (data : List Byte) (s : State) (ha : s.awake)
    (hl : data.length = 2 ^ 16 ∨ data.length = 2 ^ 21) :
    exec (.pageIn va frame data) s = .next (s.pageInAt va.toNat frame.toNat data).rxDrainAll := by
  show execPageIn va frame data s = _
  rw [execPageIn, live_awake _ _ ha, if_pos hl]
  rfl

/-- A leaf that is not resident takes the copy its backing entry names: the answered READ fills the frame, the leaf names it, and the
records of the page are retried (R194 to R196). -/
theorem pageInAt_takes (s z : State) (va frame : Nat) (data : List Byte) (lvl epa bpa : Nat) (e : Word) (b : BackEnt)
    (hleaf : s.leafAt va = some (lvl, e, epa)) (hr : bit e 6 = true) (hd : data.length = 2 ^ lvlBits lvl)
    (hb : s.backPa (fld e 47 16) = some bpa) (hpool : s.inPool frame (lvlBits lvl) = true) (hfree : s.frameFree frame (lvlBits lvl) = true)
    (hev : s.evictAt va = none) (hpe : s.paServes 12 s.pagerSrc epa = true) (hpb : s.paServes 12 s.pagerSrc (bpa / 32 * 32) = true)
    (hrange : s.rangeServes frame (2 ^ lvlBits lvl / 32) = true) (hread : s.backRead bpa = (some b, z)) (hv : b.valid = true)
    (htx : z.txReady b.qp (plainTx (.read b.raddr b.rkey (2 ^ lvlBits lvl))) = true) :
    s.pageInAt va frame data = (((((z.txAnswered b.qp (plainTx (.read b.raddr b.rkey (2 ^ lvlBits lvl)))).setFrame frame
      (lvlBits lvl) true).writePage (2 ^ lvlBits lvl / 32) frame data).putLeaf epa
      (setFld (setFld e 55 10 0) 41 16 (frame / 2 ^ 16) &&& ~~~(bitW 6 ||| bitW 8))).retryPage va (lvlBits lvl)) := by
  simp only [State.pageInAt, hleaf, hb, hread]
  rw [if_neg, if_neg]
  · simp [hv, htx]
  · simp [hr, hd, hpool, hfree, hev, hpe, hpb, hrange]

theorem exec_pageEvict (va : Word) (tag : BitVec 32) (s : State) (ha : s.awake) :
    exec (.pageEvict va tag) s = .next (s.evictAct va.toNat tag.toNat).rxDrainAll := live_awake s _ ha

/-- An eviction begins (R197): the leaf takes its form without residence, the invalidation enters the queue, and the hand moves on. -/
theorem evictAct_begins (s z : State) (va tag lvl epa : Nat) (e : Word) (hev : s.evictAt va = none)
    (hleaf : s.leafAt va = some (lvl, e, epa)) (hr : bit e 6 = false) (hl : lvl ≤ 1) (hpool : s.inPool (ptePa e) (lvlBits lvl) = true)
    (hq : s.invQ.length < invCap) (hb : (s.backPa tag).isSome = true) (hpe : s.paServes 12 s.pagerSrc epa = true)
    (hz : z = (s.putLeaf epa ((setFld (setFld e 55 10 0) 47 16 tag &&& ~~~(bitW 8)) ||| bitW 6)).invAccept false lvl (lvlBase va lvl)) :
    s.evictAct va tag = z.setPager { z.pager with
      outs := z.pager.outs.filter (fun o => o.va ≠ lvlBase va lvl) ++
        [⟨lvlBase va lvl, lvl, ptePa e, bit e 8, tag, z.rg (pgXlat 0) oXlatInvIssued, none⟩],
      hand := ptePa e + 2 ^ lvlBits lvl } := by
  simp only [State.evictAct, hev, State.evictBegin, hleaf]
  rw [if_neg, ← hz]
  · rfl
  · simp [hr, hl, hpool, hq, Option.isSome_iff_ne_none.1 hb, hpe]

/-- The eviction of a clean page ends once its invalidation is complete (R197). -/
theorem evictAct_ends (s : State) (va tag bpa : Nat) (o : EvictSt) (hev : s.evictAt va = some o) (hb : s.backPa o.tag = some bpa)
    (ht : o.ticket.toNat ≤ (s.rg (pgXlat 0) oXlatInvDone).toNat) (hd : o.dirty = false) : s.evictAct va tag = s.evictEnd o := by
  simp [State.evictAct, hev, State.evictGo, hb, Nat.not_lt.2 ht, hd]

/-- Settles O21: each command by the equation of its case. -/
theorem resumptionAndPaging : Obligations.ResumptionAndPaging := by
  unfold Obligations.ResumptionAndPaging
  refine ⟨?retry, ?abort, ?misuse, ?pageIn, ?evict, ?evicted⟩
  case retry => exact fun u i s ha hv => exec_resumeRetry u i s ha _ (resumeSlot_retry s u i hv)
  case abort => exact fun u i s ha hv => exec_resumeAbort u i s ha _ (resumeSlot_abort s u i hv)
  case misuse =>
    exact fun u i s ha hv =>
      ⟨exec_resumeRetry u i s ha _ (resumeSlot_invalid s u i false hv), exec_resumeAbort u i s ha _ (resumeSlot_invalid s u i true hv)⟩
  case pageIn =>
    intro va frame data lvl e epa bpa b z s ha hleaf hr hd hl hb hpool hfree hev hpe hpb hrange hread hv htx
    have hlen : data.length = 2 ^ 16 ∨ data.length = 2 ^ 21 := hl.imp (fun h => by rw [hd, h]; rfl) (fun h => by rw [hd, h]; rfl)
    rw [exec_pageIn va frame data s ha hlen,
      pageInAt_takes s z _ _ data lvl epa bpa e b hleaf hr hd hb hpool hfree hev hpe hpb hrange hread hv htx]
  case evict =>
    intro va tag lvl e epa z s ha hev hleaf hr hl hpool hq hb hpe hz
    rw [exec_pageEvict va tag s ha, evictAct_begins s z _ _ lvl epa e hev hleaf hr hl hpool hq hb hpe hz]
  case evicted =>
    intro va tag o bpa s ha hev hb ht hd
    rw [exec_pageEvict va tag s ha, evictAct_ends s _ _ bpa o hev hb ht hd]

end Sys2Proof.Machine
end

section
/-! Proofs about the commands of table slots (R246, R247, R801). -/

namespace Sys2Proof.Machine

/-! ## A slot command that meets its state (R246) -/

section
variable {s z y : State} {src : CmdSrc} {ws : List Word} {d : List Byte}
  (hd : z.tdFind 0 (cmdWho src) (fld (ws.getD 1 0) 9 0) = (.ok d, y))
include hd

/-- A slot command whose operands pass and whose slot is in the state it needs does its act and completes OK with the page of the
table. -/
theorem slotCmd_acts {opc : Nat} {masks : List Nat} {need : Nat} {early late : List Word → List Byte → Bool}
    {act : List Word → Nat → Nat → List Byte → Who → State → Bool × State} {t : State} (ho : s.offers src opc ws z)
    (hb : cmdBits ws masks = true) (he : early ws [] = true) (hl : late ws d = true) (hs : tdState d (fld (ws.getD 1 0) 12 10) = need)
    (hact : act ws (fld (ws.getD 1 0) 9 0) (fld (ws.getD 1 0) 12 10) d (cmdWho src) y = (true, t)) :
    s.slotCmd src opc masks need early late act = t.cmdDone src ws (.ok (tdPage d) 0) := by
  refine runCmd_answers ho hb ?_
  simp only [he, hd, hl, hs, hact, Bool.not_true, Bool.false_eq_true, ne_eq, not_true_eq_false, if_false]

/-! ## The four commands -/

variable {id k : Nat} (ha : s.awake) (hid : id = fld (ws.getD 1 0) 9 0) (hk : k = fld (ws.getD 1 0) 12 10)
include ha hid hk

theorem exec_slotLoadBegin_free {y1 y2 : State} (ho : s.offers src 0x10 ws z) (hb : cmdBits ws [0x1FFF, allBits] = true)
    (h8 : (ws.getD 2 0).toNat % 256 = 0) (hva : (ws.getD 2 0).toNat < 2 ^ 52) (hs : tdState d k = svFree)
    (h1 : y.tdPut (tdRegion d) (cmdWho src) id (0x40 + 16 * k)
      (setFld (setFld (wordAt d (0x40 + 16 * k)) 51 0 (ws.getD 2 0).toNat) 58 56 svLoading) = (true, y1))
    (h2 : y1.tdPut (tdRegion d) (cmdWho src) id (0x48 + 16 * k) (setFld (wordAt d (0x48 + 16 * k)) 39 0 0) = (true, y2)) :
    exec (.slotLoadBegin src) s = .next (y2.cmdDone src ws (.ok (tdPage d) 0)) := by
  subst hid hk
  refine (live_awake s _ ha).trans (congrArg _ (slotCmd_acts hd ho hb ?_ rfl hs ?_))
  · simp only [h8, hva, decide_true, Bool.and_self]
  · simp only [h1, h2]

theorem exec_slotLoadEnd_loading {y1 y2 : State} (ho : s.offers src 0x11 ws z) (hb : cmdBits ws [0x1FFF, 2 ^ 40 - 1] = true)
    (hr : fld (ws.getD 2 0) 39 0 ≤ tdRows d) (hs : tdState d k = svLoading)
    (h1 : y.tdPut (tdRegion d) (cmdWho src) id (0x48 + 16 * k) (setFld (wordAt d (0x48 + 16 * k)) 39 0 (fld (ws.getD 2 0) 39 0)) = (true, y1))
    (h2 : y1.tdSetState (tdRegion d) (cmdWho src) id d k svReady = (true, y2)) :
    exec (.slotLoadEnd src) s = .next (y2.cmdDone src ws (.ok (tdPage d) 0)) := by
  subst hid hk
  refine (live_awake s _ ha).trans (congrArg _ (slotCmd_acts hd ho hb rfl (decide_eq_true hr) hs ?_))
  simp only [h1, h2]

section
variable {y1 : State} (hb : cmdBits ws [0x1FFF] = true) (h1 : y.tdSetState (tdRegion d) (cmdWho src) id d k svFree = (true, y1))
include hb h1

theorem exec_slotLoadAbort_loading (ho : s.offers src 0x12 ws z) (hs : tdState d k = svLoading) :
    exec (.slotLoadAbort src) s = .next ((y1.slotGone id k).cmdDone src ws (.ok (tdPage d) 0)) := by
  subst hid hk
  refine (live_awake s _ ha).trans (congrArg _ (slotCmd_acts hd ho hb rfl rfl hs ?_))
  simp only [h1]

theorem exec_slotFree_ready (ho : s.offers src 0x13 ws z) (hs : tdState d k = svReady) :
    exec (.slotFree src) s = .next ((y1.slotGone id k).cmdDone src ws (.ok (tdPage d) 0)) := by
  subst hid hk
  refine (live_awake s _ ha).trans (congrArg _ (slotCmd_acts hd ho hb rfl rfl hs ?_))
  simp only [h1]
end
end

/-- Settles O51: each slot command finds its slot in the state it needs (`slotCmd_acts`) and writes the words of its row. -/
theorem tableSlotCommands : Obligations.TableSlotCommands := by
  unfold Obligations.TableSlotCommands
  refine ⟨?loadBegin, ?loadEnd, ?abort, ?free⟩
  case loadBegin =>
    exact fun src ws z d y y1 y2 id k s ha ho hb hid hk h8 hva hd hs h1 h2 => exec_slotLoadBegin_free (hid ▸ hd) ha hid hk ho hb h8 hva hs h1 h2
  case loadEnd =>
    exact fun src ws z d y y1 y2 id k s ha ho hb hid hk hd hr hs h1 h2 =>
      exec_slotLoadEnd_loading (hid ▸ hd) ha hid hk ho hb hr hs h1 h2
  case abort => exact fun src ws z d y y1 id k s ha ho hb hid hk hd hs h1 => exec_slotLoadAbort_loading (hid ▸ hd) ha hid hk hb h1 ho hs
  case free => exact fun src ws z d y y1 id k s ha ho hb hid hk hd hs h1 => exec_slotFree_ready (hid ▸ hd) ha hid hk hb h1 ho hs

end Sys2Proof.Machine
end

section
/-! Proofs about the embedding engine: table registers, look-up descriptors, bags (R201, R204, R213, R214, R237, R240, R273, R442). -/

namespace Sys2Proof.Machine

/-! ## Table registers (R201, R204, R273) -/

/-- Places changed one by one, by an update that changes one place: each that is named once is changed, every other reads as before. -/
theorem get_foldl_put {α : Type} {get : State → Nat → α} {put : State → Nat → α → State}
    (hput : ∀ s u k x, get (put s u x) k = if k = u then x else get s k) (f : α → α) (l : List Nat) (hl : l.Nodup) (s : State) (u : Nat) :
    get (l.foldl (fun t k => put t k (f (get t k))) s) u = if u ∈ l then f (get s u) else get s u := by
  induction l generalizing s with
  | nil => rfl
  | cons k l ih =>
    obtain ⟨hk, hl'⟩ := List.nodup_cons.1 hl
    rw [List.foldl_cons, ih hl', hput]
    by_cases hu : u = k
    · subst hu
      simp [hk]
    · simp [hu]

/-- One register of the EMB pages: a write is seen on its own page only. -/
theorem rg_setRg_emb (off : Nat) (s : State) (u k : Nat) (v : Word) :
    (s.setRg (pgEmb u) off v).rg (pgEmb k) off = if k = u then v else s.rg (pgEmb k) off := by
  rw [rg_setRg]
  refine if_congr ?_ rfl rfl
  simp only [regKey, pgEmb]
  omega

theorem embAt_putEmb (s : State) (r k : Nat) (v : EmbSt) : (s.putEmb r v).embAt k = if k = r then v else s.embAt k :=
  smapGet_set _ _ _ _ _

theorem embAll_rg (s : State) (off : Nat) (v : Word) {k : Nat} (hk : k < 12) : (s.embAll off v).rg (pgEmb k) off = v :=
  (get_foldl_put (get := fun t k => t.rg (pgEmb k) off) (put := fun t k x => t.setRg (pgEmb k) off x) (rg_setRg_emb off) (fun _ => v) _
    List.nodup_range s k).trans (if_pos (List.mem_range.2 hk))

/-- The engine without the cached descriptor of a table. -/
def EmbSt.uncached (e : EmbSt) (id : Nat) : EmbSt := { e with cache := e.cache.filter (fun c => c.1 ≠ id) }

theorem embAt_foldl_uncached (s : State) (id : Nat) {k : Nat} (hk : k < 12) :
    ((List.range 12).foldl (fun t r => t.putEmb r ((t.embAt r).uncached id)) s).embAt k = (s.embAt k).uncached id :=
  (get_foldl_put embAt_putEmb (fun e => e.uncached id) _ List.nodup_range s k).trans (if_pos (List.mem_range.2 hk))

theorem exec_tblInv (r : Region) (v : Word) (s : State) (ha : s.awake) : exec (.tblInv r v) s =
    .next ((List.range 12).foldl (fun t k => t.putEmb k ((t.embAt k).uncached (fld v 9 0))) s) := live_awake s _ ha

/-! ## Look-up descriptors (R213, R214, R240) -/

section
variable (r : Region) (s : State) (ha : s.awake)
include ha

section
variable (x : EmbTask) (hx : (s.embAt r.val).tasks.find? (fun x => !x.update && !x.started) = some x)
  (hp : s.parkedAt r.val (.engine r x.entry) = false)
include hx hp

/-- A descriptor without offsets that passes its checks gives the engine its bags. -/
theorem exec_lookup_checked (d : List Byte) (ver : Nat) (z : State) (h0 : lkOk (s.taskAt r.val x.entry).payload 0 = true)
    (hd : s.tdRead r.val (.engine r x.entry) (lkTable (s.taskAt r.val x.entry).payload) = (.ok d, z))
    (hf : lkOk (s.taskAt r.val x.entry).payload (tdFmt d) = true) (ho : lkOp (s.taskAt r.val x.entry).payload = 0)
    (hv : z.pinUse r.val (s.taskAt r.val x.entry).slot (lkTable (s.taskAt r.val x.entry).payload) d = .ok ver) :
    exec (.lookup r) s = .next (z.lookupGo r.val x.entry ver []) := by
  show execLookup r s = _
  simp only [execLookup, live_awake _ _ ha, hx, hp, h0, hd, hf, hv, ho, Bool.not_true, Bool.false_eq_true, if_false, if_true]

theorem exec_lookup_invalid (h0 : lkOk (s.taskAt r.val x.entry).payload 0 = false) :
    exec (.lookup r) s = .next ((s.taskFail r.val x.entry stInvalidDesc (pgEmb r.val) 0).embDrop r.val x.entry) := by
  show execLookup r s = _
  simp only [execLookup, live_awake _ _ ha, hx, hp, h0, Bool.not_false, Bool.false_eq_true, if_false, if_true]
end

/-- A descriptor whose bags have all left increments its counter and ends. -/
theorem exec_lookupDone_last (e : Nat)
    (ht : (s.embAt r.val).tasks.any (fun x => decide (x.entry = e) && !x.update && x.started) = true)
    (hb : (s.embAt r.val).bags.any (fun b => b.owner = .task e) = false) (hr : ((s.embDrop r.val e).taskAt r.val e).st = .running) :
    exec (.lookupDone r e) s =
      .next (((s.embDrop r.val e).issueInc r.val (lkDone (s.taskAt r.val e).payload) 1).taskDone r.val e) := by
  show execLookupDone r e s = _
  simp only [execLookupDone, live_awake _ _ ha, ht, hb, hr, Bool.not_false, Bool.and_self, if_true]

/-! ## Bags (R237, R442, R995) -/

section
variable (i : Nat) (b : BagSt) (hi : s.bagAt r.val i = some b) (hp : s.parkedAt r.val (.bag r i) = false)
include hi hp

section
variable (hn : b.started = false)
include hn

/-- A bag without sums reads its lists, locates its rows and starts. -/
theorem exec_accReserve_gather (d : List Byte) (z z' z'' t : State) (l : List (Nat × Option Nat)) (bad : Bool)
    (loc : List (Nat × List PieceAt)) (hd : s.tdRead r.val (.bag r i) b.table = (.ok d, z)) (ho : b.op = 0) (hf : z.accFits b.clu 0 = true)
    (hl : z.bagLists r.val b = (some (l, bad), z'))
    (hloc : z'.locRows r.val (.bag r i) d b.ver (l.filter (fun x => idxKind d b.ver b.idx64 b.pad x.1 = .keep)) = (some loc, z''))
    (ht : z''.bagStart r.val b d (l.map (·.1)) bad (l.filter (fun x => idxKind d b.ver b.idx64 b.pad x.1 = .keep)) loc = some t) :
    exec (.accReserve r i) s = .next t := by
  show execAccReserve r i s = _
  simp only [execAccReserve, live_awake _ _ ha, hi, hn, hp, hd, ho, hf, hl, hloc, ht, Bool.not_true, Bool.false_eq_true, or_self, true_or,
    if_false, if_true]

/-- A bag whose sums do not fit its finishing cluster waits, and that is counted. -/
theorem exec_accReserve_waits (d : List Byte) (z : State) (e : Nat) (hd : s.tdRead r.val (.bag r i) b.table = (.ok d, z)) (ho : b.op ≠ 0)
    (hq : b.fast = false) (hw : b.owner = .task e) (hf : z.accFits b.clu (tdDim d) = false) :
    exec (.accReserve r i) s = .next (z.count (pgVec b.clu) oVecAccWait 1) := by
  show execAccReserve r i s = _
  simp only [execAccReserve, live_awake _ _ ha, hi, hn, hp, hd, ho, hq, hw, hf, Bool.not_false, Bool.false_eq_true, or_self, if_false, if_true]

/-- A bag whose table is no longer usable is refused with it. -/
theorem exec_accReserve_noTable (z : State) (hd : s.tdRead r.val (.bag r i) b.table = (.bad, z)) :
    exec (.accReserve r i) s = .next (z.bagBad r.val b) := by
  show execAccReserve r i s = _
  simp only [execAccReserve, live_awake _ _ ha, hi, hn, hp, hd, Bool.false_eq_true, or_self, if_false]
end

/-- A bag that all its rows have reached writes its sums and leaves. -/
theorem exec_bagFinish_written (d : List Byte) (z z' : State) (e : Nat) (hn : b.started = true) (hq : s.bagBusy r.val i = false)
    (hw : b.owner = .task e) (hd : s.tdRead r.val (.bag r i) b.table = (.ok d, z)) (hb : z.bagWrite r b d = (true, z')) :
    exec (.bagFinish r i) s = .next (z'.dropBag r.val i) := by
  show execBagFinish r i s = _
  simp only [execBagFinish, live_awake _ _ ha, hi, hn, hq, hp, hw, hd, hb, Bool.not_true, Bool.or_self, Bool.false_eq_true, if_false]
end
end

/-- Settles O22: the registers by the fold over the twelve pages, each command of a descriptor or a bag by its meaning in the state named. -/
theorem lookupsAndBags : Obligations.LookupsAndBags := by
  unfold Obligations.LookupsAndBags
  refine ⟨⟨?base, ?count, ?inv⟩, ⟨?checked, ?invalid, ?done⟩, ?gather, ?waits, ?written, ?noTable⟩
  case base => exact fun r v s ha => ⟨_, live_awake s _ ha, fun k hk => embAll_rg s _ _ hk⟩
  case count => exact fun r v s ha => ⟨_, live_awake s _ ha, fun k hk => embAll_rg s _ _ hk⟩
  case inv =>
    refine fun r v s ha => ⟨_, exec_tblInv r v s ha, fun k hk => ?_⟩
    rw [embAt_foldl_uncached s _ hk]
    exact ⟨rfl, rfl⟩
  case checked => exact fun r x d ver z s ha hx hp h0 hd hf ho hv => exec_lookup_checked r s ha x hx hp d ver z h0 hd hf ho hv
  case invalid => exact fun r x s => exec_lookup_invalid r s (x := x)
  case done => exact fun r e s ha => exec_lookupDone_last r s ha e
  case gather =>
    exact fun r i b d z l bad z' loc z'' t s ha hi hn hp hd ho hf hl hloc ht =>
      exec_accReserve_gather r s ha i b hi hp hn d z z' z'' t l bad loc hd ho hf hl hloc ht
  case waits =>
    exact fun r i b d z e s ha hi hn hp hd ho hq hw hf => exec_accReserve_waits r s ha i b hi hp hn d z e hd ho hq hw hf
  case written =>
    exact fun r i b d z z' e s ha hi hn hq hp hw hd hb => exec_bagFinish_written r s ha i b hi hp d z z' e hn hq hw hd hb
  case noTable => exact fun r i b z s ha hi hn hp hd => exec_accReserve_noTable r s ha i b hi hp hn z hd

end Sys2Proof.Machine
end

section
/-! Proofs about row updates: RUPD at its stack port, update descriptors, batches, held updates (R260, R267, R270, R303, R990). -/

namespace Sys2Proof.Machine

/-! ## The parts of the engines while an access is served -/

theorem failRow_parts (s : State) (d a : Nat) : (s.failRow d a).parts = s.parts := by
  unfold State.failRow
  dsimp only
  split <;> rfl

theorem memCe_parts (s : State) (d a : Nat) : (s.memCe d a).parts = s.parts := by
  have hb (z : State) : ((z.count (pgPch d) oPchCe 1).count (pgStk (d / 64)) oStkCe 1 |>.setEvt (pgPch d) 3).parts = z.parts := by
    rw [booked_parts (booked_setEvt _ _ _), booked_parts (booked_count _ _ _ _), booked_parts (booked_count _ _ _ _)]
  unfold State.memCe
  dsimp only
  split
  · rw [failRow_parts, booked_parts (booked_error _ _ _)]
    exact hb s
  · rw [booked_parts (booked_error _ _ _)]
    exact hb s

theorem memUe_parts (s : State) (d a : Nat) : (s.memUe d a).parts = s.parts := by
  unfold State.memUe
  dsimp only
  rw [failRow_parts, booked_parts (booked_error _ _ _), booked_parts (booked_setEvt _ _ _), booked_parts (booked_count _ _ _ _),
    booked_parts (booked_count _ _ _ _)]

theorem memPoisonRd_parts (s : State) (d : Nat) : (s.memPoisonRd d).parts = s.parts :=
  booked_parts (booked_trans (booked_count _ _ _ _) (booked_setEvt _ _ _))

theorem accErr_parts (s : State) (d a : Nat) (e : AccErr) : (s.accErr d a e).2.parts = s.parts := by
  unfold State.accErr
  split <;> rfl

/-- A read of an access leaves the parts of the engines alone, whatever it decodes. -/
theorem readAccE_parts (s : State) (d a : Nat) (e : AccErr) : (s.readAccE d a e).2.parts = s.parts := by
  unfold State.readAccE
  have h := accErr_parts s d a e
  generalize s.accErr d a e = x at *
  obtain ⟨e', u⟩ := x
  dsimp only at h ⊢
  split
  · exact h
  · exact (memPoisonRd_parts _ _).trans h
  · exact (memCe_parts _ _ _).trans h
  · split
    · exact (memCe_parts _ _ _).trans h
    · exact (memCe_parts _ _ _).trans h
    · exact (memPoisonRd_parts _ _).trans h
    · exact (memUe_parts _ _ _).trans h

theorem rupdRun_parts (d fmt uop cols : Nat) (opnd : List Byte) (p : Bool) (k : Nat) (s : State) (i a : Nat) :
    (s.rupdRun d fmt uop cols opnd p k i a).parts = s.parts := by
  induction k generalizing s i a with
  | zero => rfl
  | succ k ih =>
    have hr : (s.readAcc d a).2.parts = s.parts := readAccE_parts _ _ _ _
    rw [State.rupdRun, ih]
    split
    · rfl
    · dsimp only
      split
      · split
        · exact hr
        · exact hr
      · exact hr

/-! ## RUPD (R267, R990) -/

/-- The service of a RUPD leaves the parts of the engines alone. -/
theorem serveRupd_parts (s : State) (n : Nat) (f : PortCmd) (d a : Nat) :
    ((s.serveData n ⟨0x18, f, []⟩ d a).slotMarks d).parts = s.parts := by
  rw [booked_parts (slotMarks_booked _ _)]
  exact (booked_parts (booked_count _ _ _ _)).trans (rupdRun_parts _ _ _ _ _ _ _ _ _ _)

/-- A RUPD that its port serves at once, with no part of an engine open, is served and nothing else. -/
theorem exec_rupd_served (n : Region) (f : PortCmd) (s : State) (ha : s.awake) (hw : (Instr.rupd n f).wf = true)
    (hs : s.servesNow n.val ⟨0x18, f, []⟩) (hp : s.parts = []) :
    exec (.rupd n f) s = .next (((s.portSent n.val f).serveData n.val ⟨0x18, f, []⟩ (n.val * 64 + f.pch.toNat) f.addr.toNat).slotMarks
      (n.val * 64 + f.pch.toNat)) := by
  have hparts : (((s.portSent n.val f).serveData n.val ⟨0x18, f, []⟩ (n.val * 64 + f.pch.toNat) f.addr.toNat).slotMarks
      (n.val * 64 + f.pch.toNat)).parts = [] := by
    rw [serveRupd_parts, portSent_books, State.setParts_parts, hp, List.map_nil]
  refine (live_awake s _ ha).trans ((if_pos hw).trans ?_)
  simp only [portCmd_serves s n.val _ hs, hparts, List.filter_nil, List.filterMap_nil, List.foldl_nil]

/-- An add or an optimiser step does not store to an access that reads poisoned. -/
theorem rupdRun_poisoned (s : State) (d fmt uop cols : Nat) (opnd : List Byte) (a : Nat) (hu : uop ≠ 1) (hp : s.accPoison d a = true)
    (hc : s.cellErr d a = []) : s.rupdRun d fmt uop cols opnd false 1 0 a = (s.readAcc d a).2 := by
  have hv := readAcc_value s d a hc
  simp only [State.rupdRun, hu, hv, hp, if_false, if_true, Bool.not_true, Bool.or_self, Bool.false_eq_true]

/-- A replace stores its operand and its mark. -/
theorem rupdRun_replace (s : State) (d fmt cols : Nat) (opnd : List Byte) (p : Bool) (a : Nat) :
    s.rupdRun d fmt 1 cols opnd p 1 0 a = s.storeAcc d a (sliceB opnd 0 32) p := rfl

theorem storeAcc_accData (s : State) (d a : Nat) (x : List Byte) (p : Bool) : (s.storeAcc d a x p).accData d a = sliceB x 0 32 := by
  have h := bytes_setBytes (sliceB x 0 32) s.dram (accByte d a)
  rw [sliceB_length] at h
  exact h

/-! ## Update descriptors (R260 to R266) -/

/-! An index list of which every entry is clean and kept. -/

section
variable {is : List (Nat × Bool)} {kind : Nat → IdxKind} (h : ∀ i ∈ is, i.2 = false ∧ kind i.1 = .keep)
include h

theorem filter_allKept : is.filter (fun i => !i.2) = is :=
  List.filter_eq_self.2 (fun i hi => by rw [(h i hi).1]; rfl)

theorem countP_allKept (k : IdxKind) (hk : k ≠ .keep) : is.countP (fun i => decide (kind i.1 = k)) = 0 := by
  refine List.countP_eq_zero.2 (fun i hi => ?_)
  rw [(h i hi).2, decide_eq_true_eq]
  exact hk.symm

theorem filterMap_allKept : ((List.range is.length).zip is).filterMap (fun x =>
    if !x.2.2 && decide (kind x.2.1 = .keep) then some (x.1, x.2.1) else none) =
      ((List.range is.length).zip is).map (fun x => (x.1, x.2.1)) := by
  rw [← List.filterMap_eq_map]
  refine List.filterMap_congr (fun x hx => ?_)
  obtain ⟨hc, hk⟩ := h x.2 (List.of_mem_zip hx).2
  simp only [hc, hk, Bool.not_false, decide_true, Bool.and_self, if_true, Function.comp_apply]
end

section
variable (r : Region) (s : State) (ha : s.awake)
include ha

section
variable (x : EmbTask) (hx : (s.embAt r.val).tasks.find? (fun x => x.update && !x.started) = some x)
  (hp : s.parkedAt r.val (.engine r x.entry) = false)
include hx hp

theorem exec_update_invalid (h0 : upOk (s.taskAt r.val x.entry).payload = false) :
    exec (.update r) s = .next ((s.taskFail r.val x.entry stInvalidDesc (pgEmb r.val) 0).embDrop r.val x.entry) := by
  show execUpdate r s = _
  simp only [execUpdate, live_awake _ _ ha, hx, hp, h0, Bool.not_false, Bool.false_eq_true, if_false, if_true]

/-- A descriptor whose indices are all kept merges their entries into its batch. -/
theorem exec_update_merges (d : List Byte) (ver : Nat) (z z' z'' z3 : State) (is : List (Nat × Bool)) (es : List UpdEnt)
    (rows : List MergeRow) (hits : List Nat) (h0 : upOk (s.taskAt r.val x.entry).payload = true)
    (hd : s.tdRead r.val (.engine r x.entry) (upTable (s.taskAt r.val x.entry).payload) = (.ok d, z))
    (ho : upOp (s.taskAt r.val x.entry).payload ≠ 1)
    (hv : z.upTarget r.val (s.taskAt r.val x.entry).slot (s.taskAt r.val x.entry).payload d = .ok ver)
    (hl : z.readList r.val (.engine r x.entry) (wordAt (s.taskAt r.val x.entry).payload 8).toNat
      (if upIdx64 (s.taskAt r.val x.entry).payload then 8 else 4) (upCount (s.taskAt r.val x.entry).payload) = (some is, z'))
    (hk : ∀ i ∈ is, i.2 = false ∧
      idxKind d ver (upIdx64 (s.taskAt r.val x.entry).payload) (some (upPad (s.taskAt r.val x.entry).payload)) i.1 = .keep)
    (hr : z'.updRead r.val (.engine r x.entry) (wordAt (s.taskAt r.val x.entry).payload 0x10).toNat
      (fld (wordAt (s.taskAt r.val x.entry).payload 0x18) 31 0) (tblRowBytes (tdFmt d) (tdDim d))
      (((List.range is.length).zip is).map (fun x => (x.1, x.2.1))) = (some es, z''))
    (hm : z''.mergeAll r.val (.engine r x.entry) d (s.taskAt r.val x.entry).payload ver [] [] es = (some (rows, hits), z3)) :
    exec (.update r) s = .next ((z3.idxDrops r.val 0 0).updGo r.val x.entry ver d rows hits es) := by
  show execUpdate r s = _
  simp only [execUpdate, live_awake _ _ ha, hx, hp, h0, hd, ho, hv, hl, filterMap_allKept hk, filter_allKept hk, hr, hm,
    countP_allKept hk .invalid (by decide), countP_allKept hk .missing (by decide), Nat.sub_self, Nat.add_zero, Bool.not_true,
    Bool.false_eq_true, false_and, if_false, if_true]
end
end

/-! ## Batches (R270) -/

/-- A closed batch that is quiet once what waits is sent ends. -/
theorem exec_updateBatchDone_quiet (i : Nat) (b c : BatchSt) (s : State) (ha : s.awake) (hb : s.batchAt i = some b) (hc : b.closed = true)
    (hp : s.parkedAt b.region (batchWho b) = false) (hn : (s.pump i).batchAt i = some c) (hq : (s.pump i).batchQuiet c = true) :
    exec (.updateBatchDone i) s = .next ((s.pump i).batchDone c) := by
  show execUpdateBatchDone i s = _
  simp only [execUpdateBatchDone, live_awake _ _ ha, hb, hc, hp, hn, hq, Bool.not_true, Bool.or_self, Bool.false_eq_true, if_false, if_true]

/-! ## Held updates (R303, R304) -/

section
variable (s : State) (w : RupdWait)

theorem holdMay_noMove (h : s.moveOf w.table w.ver w.row = none) : s.holdMay w = true := by
  simp only [State.holdMay, h]

theorem holdMay_copy (v : RowMove) (h : s.moveOf w.table w.ver w.row = some v) (hv : v.phase = .copy) : s.holdMay w = true := by
  simp [State.holdMay, h, hv]

/-- With no move of its row a held update goes to the row's place. -/
theorem holdGo_noMove (b : BatchSt) (d : List Byte) (pl : RowAt) (x : Nat) (y : Bool) (z1 : State) (h : s.moveOf w.table w.ver w.row = none)
    (hp : s.rowPlace w.m (mergeWho w.m b.id) d w.ver w.row = (some (pl, x, y), z1)) : s.holdGo b d w = z1.rupdIssue b w d pl none := by
  simp only [State.holdGo, h, hp]

/-- While its row is copied to a frame a held update goes to the copy, gated by the move. -/
theorem holdGo_copy (b : BatchSt) (d : List Byte) (v : RowMove) (pa : Nat) (h : s.moveOf w.table w.ver w.row = some v) (hv : v.phase = .copy)
    (hf : v.frame = some pa) : s.holdGo b d w = s.rupdIssue b w d (.copy pa) (some v.id) := by
  simp only [State.holdGo, h, hv, hf, true_or, if_true]

/-- The only held update of a region, when it may go and no cluster is stalled, leaves the hold queue. -/
theorem exec_holdQueueRelease_issued (r : Region) (b : BatchSt) (d : List Byte) (z z2 : State) (ha : s.awake) (hh : (s.migAt r.val).hold = [w])
    (hm : s.holdMay w = true) (hb : s.batchAt w.batch = some b) (hd : s.tdRead b.region (batchWho b) w.table = (.ok d, z))
    (hg : z.holdGo b d w = (true, z2)) (hs : w.sadd = none) (hq : z2.batches.filter (fun c => c.todo.any (fun x => x.m = r.val)) = []) :
    exec (.holdQueueRelease r) s = .next (z2.putMig r.val { z2.migAt r.val with hold := (z2.migAt r.val).hold.erase w }) := by
  have hf : (s.migAt r.val).hold.find? s.holdMay = some w := by rw [hh, List.find?_cons_of_pos hm]
  have hq' (v : MigSt) : (z2.putMig r.val v).batches.filter (fun c => c.todo.any (fun x => x.m = r.val)) = [] := hq
  show execHoldQueueRelease r s = _
  simp only [execHoldQueueRelease, live_awake _ _ ha, hf, hb, hd, hg, hs, hq', List.map_nil, List.foldl_nil]
end

/-- Settles O24: RUPD by the service of its port, the stores by the two forms of `State.rupdRun`, the rest by the meaning of its command in
the state named. -/
theorem rowUpdates : Obligations.RowUpdates := by
  unfold Obligations.RowUpdates
  refine ⟨⟨?served, ?poisoned, ?replace⟩, ?invalid, ?merges, ?quiet, ?released, ?copied⟩
  case served => exact exec_rupd_served
  case poisoned =>
    intro s d fmt uop cols opnd a hu hp hc
    rw [rupdRun_poisoned s d fmt uop cols opnd a (by omega) hp hc, booked_dram (readAcc_booked s d a hc)]
  case replace =>
    intro s d fmt cols opnd p a
    rw [rupdRun_replace, storeAcc_accData, sliceB_all _ _ (sliceB_length _ _ _), storeAcc_accPoison, if_pos rfl]
    exact ⟨rfl, rfl⟩
  case invalid => exact fun r x s ha hx hp h0 => exec_update_invalid r s ha x hx hp h0
  case merges =>
    exact fun r x d z ver z' is z'' es z3 rows hits s ha hx hp h0 hd ho hv hl hk hr hm =>
      exec_update_merges r s ha x hx hp d ver z z' z'' z3 is es rows hits h0 hd ho hv hl hk hr hm
  case quiet => exact exec_updateBatchDone_quiet
  case released =>
    intro r w b d z pl x y z1 z2 s ha hh hn hb hd hn' hp hi hs hq
    exact exec_holdQueueRelease_issued s w r b d z z2 ha hh (holdMay_noMove s w hn) hb hd
      ((holdGo_noMove z w b d pl x y z1 hn' hp).trans hi) hs hq
  case copied =>
    intro r w b d z v pa z2 s ha hh hv hc hf hb hd hv' hi hs hq
    exact exec_holdQueueRelease_issued s w r b d z z2 ha hh (holdMay_copy s w v hv hc) hb hd
      ((holdGo_copy z w b d v pa hv' hc hf).trans hi) hs hq

end Sys2Proof.Machine
end

section
/-! Proofs about row migration: load windows, load reports, the decision of an engine (R278, R281 to R283, R286). -/

namespace Sys2Proof.Machine

/-! ## Engines and their messages (R281) -/

theorem migAt_putMig (s : State) (r k : Nat) (v : MigSt) : (s.putMig r v).migAt k = if k = r then v else s.migAt k :=
  smapGet_set _ _ _ _ _

/-- A register written leaves the migration engines alone. -/
theorem migAt_setRg (s : State) (pg off k : Nat) (v : Word) : (s.setRg pg off v).migAt k = s.migAt k := rfl

/-- The engine with one more message on its way to it. -/
def MigSt.posted (m : MigSt) (x : LoadRpt) : MigSt := { m with inbox := m.inbox ++ [x] }

theorem migPost_eq (s : State) (n : Nat) (x : LoadRpt) : s.migPost n x = s.putMig n ((s.migAt n).posted x) := rfl

/-- A message for every other engine: each of them has it, and nothing else changes at any. -/
theorem migAt_foldl_migPost (s : State) (n : Nat) (x : LoadRpt) (u : Nat) :
    ((List.range 12).foldl (fun t k => if k = n then t else t.migPost k x) s).migAt u =
      if u < 12 ∧ u ≠ n then (s.migAt u).posted x else s.migAt u := by
  have hf : (List.range 12).foldl (fun t k => if k = n then t else t.migPost k x) s =
      ((List.range 12).filter (fun k => k ≠ n)).foldl (fun t k => t.putMig k ((t.migAt k).posted x)) s := by
    simp only [List.foldl_filter, migPost_eq, decide_not, Bool.not_eq_true', decide_eq_false_iff_not, ite_not]
  rw [hf, get_foldl_put migAt_putMig (fun m => m.posted x) _ (List.nodup_range.filter _)]
  simp only [List.mem_filter, List.mem_range, decide_eq_true_eq]

theorem inTime_of (m : MigSt) (ns : Nat) (q : LoadRpt) (hb : q.bound = m.bound) (ht : ns ≤ q.bound + 2000) (hd : m.decided = false) :
    m.inTime ns q = true := by
  simp only [MigSt.inTime, decide_eq_true hb, decide_eq_true ht, hd, Bool.not_false, Bool.and_self]

theorem inTime_late (m : MigSt) (ns : Nat) (q : LoadRpt) (ht : q.bound + 2000 < ns) : m.inTime ns q = false := by
  simp only [MigSt.inTime, decide_eq_false (Nat.not_le.2 ht), Bool.and_false, Bool.false_and]

/-- Taking a message out of the inbox does not change which messages are in time. -/
theorem inTime_inbox (m : MigSt) (l : List LoadRpt) (ns : Nat) (q : LoadRpt) : { m with inbox := l }.inTime ns q = m.inTime ns q := rfl

/-! ## Load reports (R281) -/

/-- The load of a shard: the sum of what its reports say. -/
def loadSum (rs : List LoadRpt) : Nat := (rs.map (fun r => r.load)).foldl (· + ·) 0

section
variable (n k : Region) (q : LoadRpt) (s : State) (ha : s.awake) (hq : (s.migAt n.val).inbox.find? (fun r => r.from_ = k.val) = some q)
include ha hq

theorem exec_loadReportRx_late (ht : (s.migAt n.val).inTime s.ns q = false) :
    exec (.loadReportRx n k) s = .next (s.putMig n.val { s.migAt n.val with inbox := (s.migAt n.val).inbox.erase q }) := by
  show execLoadReportRx n k s = _
  simp only [execLoadReportRx, live_awake _ _ ha, hq, inTime_inbox, ht, Bool.not_false, if_true]

theorem exec_loadReportRx_forwarded (ht : (s.migAt n.val).inTime s.ns q = true) (hf : q.fwd = true) :
    exec (.loadReportRx n k) s = .next (s.putMig n.val
      { s.migAt n.val with inbox := (s.migAt n.val).inbox.erase q, loads := (s.migAt n.val).loads ++ [(q.from_, q.load)] }) := by
  show execLoadReportRx n k s = _
  simp only [execLoadReportRx, live_awake _ _ ha, hq, inTime_inbox, ht, hf, Bool.not_true, Bool.false_eq_true, if_false, if_true]

variable (ht : (s.migAt n.val).inTime s.ns q = true) (hf : q.fwd = false) (hn : (s.migAt n.val).rpts.any (fun x => x.from_ = q.from_) = false)
include ht hf hn

theorem exec_loadReportRx_joins (hl : (s.migAt n.val).rpts.length < 11) :
    exec (.loadReportRx n k) s = .next (s.putMig n.val
      { s.migAt n.val with inbox := (s.migAt n.val).inbox.erase q, rpts := (s.migAt n.val).rpts ++ [q] }) := by
  have hl' : ((s.migAt n.val).rpts ++ [q]).length < 12 := by rw [List.length_append]; exact Nat.succ_lt_succ hl
  show execLoadReportRx n k s = _
  simp only [execLoadReportRx, live_awake _ _ ha, hq, inTime_inbox, ht, hf, hn, hl', Bool.not_true, Bool.false_eq_true, if_false, if_true]

/-- The twelfth report: the load of the shard is known here and posted to every other engine. -/
theorem exec_loadReportRx_twelfth (hl : (s.migAt n.val).rpts.length = 11) :
    exec (.loadReportRx n k) s = .next ((List.range 12).foldl (fun t j => if j = n.val then t else t.migPost j
        { from_ := n.val, fwd := true, bound := q.bound, load := loadSum ((s.migAt n.val).rpts ++ [q]), cands := [] })
      (s.putMig n.val { s.migAt n.val with
        inbox := (s.migAt n.val).inbox.erase q, rpts := (s.migAt n.val).rpts ++ [q],
        loads := (s.migAt n.val).loads ++ [(n.val, loadSum ((s.migAt n.val).rpts ++ [q]))] })) := by
  have hl' : ¬ ((s.migAt n.val).rpts ++ [q]).length < 12 := by simp [hl]
  show execLoadReportRx n k s = _
  simp only [execLoadReportRx, live_awake _ _ ha, hq, inTime_inbox, ht, hf, hn, hl', loadSum, Bool.not_true, Bool.false_eq_true, if_false]
end

/-! ## The decision (R282, R283, R286) -/

/-- Counting a boundary does not change whether a pool has a copy to release. -/
theorem cool_copies_gone (m : MigSt) (lim : Nat) : (m.cool lim).copies.any (fun c => c.gone) = m.copies.any (fun c => c.gone) := by
  simp only [MigSt.cool, List.any_map]
  rfl

theorem releaseGone_none (s : State) (n : Nat) (h : (s.migAt n).copies.any (fun c => c.gone) = false) : s.releaseGone n = s := by
  have hg : (s.migAt n).copies.filter (fun c => c.gone) = [] := List.filter_eq_nil_iff.2 (List.any_eq_false.1 h)
  rw [State.releaseGone, hg, List.foldl_nil, ite_self]

/-- With no pair of a hot and a cool stack, and the way home off, an engine starts no move. -/
theorem migMoves_none (s : State) (n : Nat) (ls : List (Nat × Nat))
    (hp : migPairs (s.rf (pgMig n) oMigThresh 7 0) (s.rf (pgMig n) oMigThresh 15 8) ls = []) (hr : bit (s.rg (pgMig n) oMigCtl) 1 = false) :
    s.migMoves n ls = s := by
  simp only [State.migMoves, hp, List.find?_nil, hr, Bool.false_eq_true, if_false]

/-- The loads an engine knows, by stack. -/
def State.knownLoads (s : State) (n : Nat) : List (Nat × Nat) := (List.range 12).filterMap (fun k => (s.migLoad n k).map (fun l => (k, l)))

/-- An engine that has decided, with the boundary counted for the copies of its pool. -/
def State.decides (s : State) (n : Nat) : State := s.putMig n { (s.migAt n).cool (s.returnMin n) with decided := true }

/-- An engine with all reports that has taken stock: its load and the mean load are in its registers. -/
def State.tookStock (s : State) (n : Nat) : State :=
  ((s.decides n).setRg (pgMig n) oMigLoad (word ((s.migLoad n n).getD 0))).setRg (pgMig n) oMigLoadMean
    (word (((s.knownLoads n).map (·.2)).foldl (· + ·) 0 / max 1 (s.knownLoads n).length))

section
variable (s : State) (n : Nat)

theorem decides_migAt : (s.decides n).migAt n = { (s.migAt n).cool (s.returnMin n) with decided := true } := by
  rw [State.decides, migAt_putMig, if_pos rfl]

/-- Deciding keeps the loads an engine knows. -/
theorem decides_migLoad (k : Nat) : (s.decides n).migLoad n k = s.migLoad n k := by
  simp only [State.migLoad, decides_migAt, MigSt.cool]

theorem tookStock_migAt : (s.tookStock n).migAt n = { (s.migAt n).cool (s.returnMin n) with decided := true } := by
  rw [State.tookStock, migAt_setRg, migAt_setRg, decides_migAt]

theorem tookStock_migCands : (s.tookStock n).migCands n = s.migCands n := by
  simp only [State.migCands, tookStock_migAt, MigSt.cool]

/-- Taking stock writes the load and the mean of its page, and no other register. -/
theorem tookStock_rg (off : Nat) (hl : off / 8 ≠ oMigLoad / 8) (hm : off / 8 ≠ oMigLoadMean / 8) :
    (s.tookStock n).rg (pgMig n) off = s.rg (pgMig n) off := by
  have hk {o : Nat} (h : off / 8 ≠ o / 8) : regKey (pgMig n) off ≠ regKey (pgMig n) o := fun e => h (Nat.add_left_cancel e)
  rw [State.tookStock, rg_setRg_other _ _ _ _ _ _ (hk hm), rg_setRg_other _ _ _ _ _ _ (hk hl)]
  rfl

theorem tookStock_load : (s.tookStock n).rg (pgMig n) oMigLoad = word ((s.migLoad n n).getD 0) := by
  have hk : regKey (pgMig n) oMigLoad ≠ regKey (pgMig n) oMigLoadMean := fun e => absurd (Nat.add_left_cancel e) (by decide)
  rw [State.tookStock, rg_setRg_other _ _ _ _ _ _ hk, rg_setRg_same]

theorem tookStock_moves : (s.tookStock n).moves = s.moves := rfl

theorem tookStock_dram : (s.tookStock n).dram = s.dram := rfl
end

/-- Taking stock starts no move when the thresholds pair no stacks and the way home is off. -/
theorem tookStock_migMoves (s : State) (n : Nat) (ls : List (Nat × Nat))
    (hp : migPairs (s.rf (pgMig n) oMigThresh 7 0) (s.rf (pgMig n) oMigThresh 15 8) ls = []) (hh : bit (s.rg (pgMig n) oMigCtl) 1 = false) :
    (s.tookStock n).migMoves n ls = s.tookStock n := by
  have ht : (s.tookStock n).rg (pgMig n) oMigThresh = s.rg (pgMig n) oMigThresh := tookStock_rg s n _ (by decide) (by decide)
  have hc : (s.tookStock n).rg (pgMig n) oMigCtl = s.rg (pgMig n) oMigCtl := tookStock_rg s n _ (by decide) (by decide)
  refine migMoves_none _ n ls ?_ (hc ▸ hh)
  rw [State.rf, State.rf, ht]
  exact hp

theorem tookStock_releaseGone (s : State) (n : Nat) (hg : (s.migAt n).copies.any (fun c => c.gone) = false) :
    (s.tookStock n).releaseGone n = s.tookStock n := by
  refine releaseGone_none _ n ?_
  rw [tookStock_migAt]
  exact (cool_copies_gone _ _).trans hg

/-- With all twelve reports, no candidate, no pair and no copy to release, the decision takes stock and does nothing else. -/
theorem exec_migrationDecision_idle (n : Region) (s : State) (ha : s.awake) (hd : (s.migAt n.val).decided = false)
    (hb : (s.migAt n.val).bound ≠ 0) (ht : (s.migAt n.val).bound + 2000 ≤ s.ns) (hr : 12 ≤ (s.migAt n.val).rpts.length)
    (hp : migPairs (s.rf (pgMig n.val) oMigThresh 7 0) (s.rf (pgMig n.val) oMigThresh 15 8) (s.knownLoads n.val) = [])
    (hc : s.migCands n.val = []) (hh : bit (s.rg (pgMig n.val) oMigCtl) 1 = false)
    (hg : (s.migAt n.val).copies.any (fun c => c.gone) = false) :
    exec (.migrationDecision n) s = .next (s.tookStock n.val) := by
  show execMigrationDecision n s = _
  simp only [execMigrationDecision, live_awake _ _ ha, hd, decide_eq_false hb, decide_eq_false (Nat.not_lt.2 ht), Nat.sub_eq_zero_of_le hr,
    Bool.or_self, Bool.false_eq_true, if_false, if_true, ← State.decides.eq_def, decides_migLoad, ← State.knownLoads.eq_def,
    ← State.tookStock.eq_def, tookStock_migCands, hc, List.head?_nil, tookStock_migMoves s n.val _ hp hh, ite_self,
    tookStock_releaseGone s n.val hg]

/-- Settles O25: a report by its time and the reports already there, the twelfth by what it posts to each engine, the decision by the
state in which the engine has taken stock. -/
theorem migrationDecisions : Obligations.MigrationDecisions := by
  unfold Obligations.MigrationDecisions
  refine ⟨?boundary, ?joins, ?forwarded, ?twelfth, ?late, ?decision⟩
  case boundary => exact fun s ha => live_awake s _ ha
  case joins =>
    exact fun n k q s ha hq hb ht hd hf hn hl => exec_loadReportRx_joins n k q s ha hq (inTime_of _ _ _ hb ht hd) hf hn hl
  case forwarded => exact fun n k q s ha hq hb ht hd hf => exec_loadReportRx_forwarded n k q s ha hq (inTime_of _ _ _ hb ht hd) hf
  case twelfth =>
    intro n k q s ha hq hb ht hd hf hn hl
    refine ⟨_, exec_loadReportRx_twelfth n k q s ha hq (inTime_of _ _ _ hb ht hd) hf hn hl, ?_, ?_, fun m hm hmn => ?_⟩
    · rw [migAt_foldl_migPost, if_neg (fun h => h.2 rfl), migAt_putMig, if_pos rfl]
    · rw [migAt_foldl_migPost, if_neg (fun h => h.2 rfl), migAt_putMig, if_pos rfl]
      rfl
    · rw [migAt_foldl_migPost, if_pos ⟨hm, hmn⟩, migAt_putMig, if_neg hmn]
      rfl
  case late => exact fun n k q s ha hq ht => exec_loadReportRx_late n k q s ha hq (inTime_late _ _ _ ht)
  case decision =>
    intro n s ha _ hd hb ht hr hp hc hh hg
    refine ⟨_, exec_migrationDecision_idle n s ha hd hb ht hr hp hc hh hg, ?_, tookStock_load s n.val, tookStock_moves s n.val,
      tookStock_dram s n.val⟩
    rw [tookStock_migAt]

end Sys2Proof.Machine
end

section
/-! Proofs about the steps of one row move: broadcasts, fences, copy, switch, drain, free, abort (R291 to R301). -/

namespace Sys2Proof.Machine

section
variable (i : Nat) (v : RowMove) (s : State) (ha : s.awake) (hv : s.moveAt i = some v)
include ha hv

/-! ## Broadcasts (R291, R293, R296) -/

section
variable (n : Region) (hn : v.acks.contains n.val = true)
include hn

theorem exec_dirBroadcastApply_acks (hp : v.phase ≠ .switch) : exec (.dirBroadcastApply n i) s = .next (s.ackMove v n.val) := by
  show execDirBroadcastApply n i s = _
  simp only [execDirBroadcastApply, live_awake _ _ ha, hv, hn, hp, Bool.not_true, Bool.false_eq_true, if_false]

/-- Below epoch 7 no read can be in flight of the epoch seven below: the switch is applied at once. -/
theorem exec_dirBroadcastApply_switches (hp : v.phase = .switch) (he : (s.migAt n.val).epoch < 7) :
    exec (.dirBroadcastApply n i) s = .next ((s.putMig n.val { s.migAt n.val with epoch := (s.migAt n.val).epoch + 1 }).ackMove
      { v with epochs := v.epochs ++ [(n.val, (s.migAt n.val).epoch)] } n.val) := by
  show execDirBroadcastApply n i s = _
  simp only [execDirBroadcastApply, live_awake _ _ ha, hv, hn, hp, Nat.not_le.2 he, false_and, Bool.not_true, Bool.false_eq_true, if_false,
    if_true]
end

section
variable (hk : v.acks = [])
include hk

theorem exec_dirBroadcastAck_start (z : State) (hp : v.phase = .start) (hz : s.moveFences v = some z) :
    exec (.dirBroadcastAck i) s = .next (z.putMove { v with phase := .fence }) := by
  show execDirBroadcastAck i s = _
  simp only [execDirBroadcastAck, live_awake _ _ ha, hv, hk, hp, hz, List.isEmpty_nil, Bool.not_true, Bool.false_eq_true, if_false]

theorem exec_dirBroadcastAck_freed (hp : v.phase = .freed) : exec (.dirBroadcastAck i) s = .next (s.moveEnd v) := by
  show execDirBroadcastAck i s = _
  simp only [execDirBroadcastAck, live_awake _ _ ha, hv, hk, hp, List.isEmpty_nil, Bool.not_true, Bool.false_eq_true, if_false]

theorem exec_dirBroadcastAck_last (hp : v.phase = .last) : exec (.dirBroadcastAck i) s = .next (s.moveOver v) := by
  show execDirBroadcastAck i s = _
  simp only [execDirBroadcastAck, live_awake _ _ ha, hv, hk, hp, List.isEmpty_nil, Bool.not_true, Bool.false_eq_true, if_false]
end

/-! ## Copy, switch, drain and abort (R295, R296, R298, R301) -/

/-- The fences answered and the slot's budget left for every piece: the whole row is copied. -/
theorem exec_moveFencesDone_copies (z : State) (hp : v.phase = .fence) (hf : s.moveFenced v = false) (h0 : v.copied = 0)
    (hb : (s.migAt v.n).copied + v.pieces ≤ s.rf (pgMig v.n) oMigCopyBudget 31 0) (hk : s.parkedAt v.n (migWho v.n) = false)
    (hz : s.movePieces v v.pieces 0 = (v.pieces, z)) :
    exec (.moveFencesDone i) s = .next ((z.putMig v.n { z.migAt v.n with copied := (z.migAt v.n).copied + v.pieces }).putMove
      { v with copied := v.pieces, phase := .copy }) := by
  have hm : min (s.rf (pgMig v.n) oMigCopyBudget 31 0 - (s.migAt v.n).copied) v.pieces = v.pieces := by omega
  show execMoveFencesDone i s = _
  simp only [execMoveFencesDone, live_awake _ _ ha, hv, hp, hf, hk, h0, Nat.sub_zero, hm, hz, ne_eq, not_true_eq_false, Bool.false_eq_true,
    or_self, if_false, le_refl, if_true]

theorem exec_moveCopyWritten_switches (z : State) (hp : v.phase = .copy) (hh : s.moveHeld v = false)
    (hw : s.entWrite v.n v.entVa ((entState v.ent 3).set 3 (v.ent.getD 3 0 + 1)) = (true, z)) :
    exec (.moveCopyWritten i) s = .next (z.putMove
      { v with ent := (entState v.ent 3).set 3 (v.ent.getD 3 0 + 1), phase := .switch, acks := List.range 12, epochs := [] }) := by
  show execMoveCopyWritten i s = _
  simp only [execMoveCopyWritten, live_awake _ _ ha, hv, hp, hh, hw, ne_eq, not_true_eq_false, Bool.false_eq_true, or_self, if_false]

theorem exec_switchDrained_frees (z : State) (ws : List Word) (hp : v.phase = .drain)
    (hr : v.epochs.any (fun e => s.readsOf e.1 (fun k => decide (k ≤ e.2)) ≠ 0) = false)
    (hs : [setFld (setFld (v.ent.getD 0 0) 63 61 4) 60 60 (b2n v.home), v.ent.getD 2 0, v.ent.getD 2 0, v.ent.getD 3 0] = ws)
    (hw : s.entWrite v.n v.entVa ws = (true, z)) :
    exec (.switchDrained i) s =
      .next ((z.freeOld v).putMove { v with ent := ws, frame := none, phase := .freed, acks := List.range 12 }) := by
  show execSwitchDrained i s = _
  simp only [execSwitchDrained, live_awake _ _ ha, hv, hp, hr, hs, hw, ne_eq, not_true_eq_false, Bool.false_eq_true, or_self, if_false]

/-- A move whose destination left service while it copied: its entry is settled where the row was, and it is counted and announced. -/
theorem exec_moveAbort_copying (z : State) (hp : v.phase = .copy) (hd : s.moveDead v = true)
    (hw : s.entWrite v.n v.entVa (if v.old.isNone then [0, 0, 0, 0] else entState v.ent 1) = (true, z)) :
    exec (.moveAbort i) s = .next ((((((z.unsendGated v).setParts ((z.unsendGated v).parts.filter (fun p => p.owner ≠ .move i))).putMove
      { v with frame := none, phase := .last, acks := List.range 12 }).heldGo v).count (pgMig v.n) oMigMovesAborted 1).setEvt (pgMig v.n) 1) := by
  show execMoveAbort i s = _
  simp only [execMoveAbort, live_awake _ _ ha, hv, hp, hd, hw, decide_true, Bool.or_true, Bool.not_true, Bool.or_self, Bool.false_eq_true,
    if_false]
end

/-- Settles O26: each step of a move by the phase it stands in and the answer of the write of its entry. -/
theorem rowMoveSteps : Obligations.RowMoveSteps := by
  unfold Obligations.RowMoveSteps
  refine ⟨?acks, ?switches, ?start, ?freed, ?last, ?copies, ?written, ?drained, ?aborts⟩
  case acks => exact fun n i v s ha hv hn hp => exec_dirBroadcastApply_acks i v s ha hv n hn hp
  case switches => exact fun n i v s ha hv hn hp he => exec_dirBroadcastApply_switches i v s ha hv n hn hp he
  case start => exact fun i v z s ha hv hk hp hz => exec_dirBroadcastAck_start i v s ha hv hk z hp hz
  case freed => exact exec_dirBroadcastAck_freed
  case last => exact exec_dirBroadcastAck_last
  case copies => exact fun i v z s ha hv hp hf h0 hb hk hz => exec_moveFencesDone_copies i v s ha hv z hp hf h0 hb hk hz
  case written => exact fun i v z s ha hv hp hh hw => exec_moveCopyWritten_switches i v s ha hv z hp hh hw
  case drained => exact fun i v z s ha hv hp hr hw => exec_switchDrained_frees i v s ha hv z _ hp hr rfl hw
  case aborts => exact fun i v z s ha hv hp hd hw => exec_moveAbort_copying i v s ha hv z hp hd hw

end Sys2Proof.Machine
end

section
/-! Proofs about the exceptions of walker contexts and their records (R359, R427, R428). -/

namespace Sys2Proof.Machine

/-! ## Booking an exception -/

/-- Registers of one page are the same register when they lie in the same eight bytes. -/
theorem regKey_page (pg off off' : Nat) : regKey pg off = regKey pg off' ↔ off / 8 = off' / 8 := by
  simp only [regKey, Nat.add_left_cancel_iff]

/-- A context after a turn of its Weevil is as before. -/
theorem ctxAt_wTurn (s : State) (c d : CtxRef) : (s.wTurn c).ctxAt d = s.ctxAt d := by
  simp only [State.ctxAt, State.wTurn, wvAt_putWv]
  by_cases h : ctxWv d = ctxWv c
  · rw [if_pos h, h]
    rfl
  · rw [if_neg h]

/-- Number of the record that the next exception of a Weevil fills (R427). -/
def State.excNext (s : State) (w : Nat) : Nat := s.rf (pgWlk w) oWlkExcNext 2 0

theorem excNext_lt (s : State) (w : Nat) : s.excNext w < 8 := Nat.mod_lt _ (by decide)

/-- The registers of an exception: the four words of its record, and EXC_NEXT (R427). -/
def State.excRecord (s : State) (c : CtxRef) (code addr pc : Nat) : State :=
  let pg := pgWlk (ctxWv c)
  let off := 0x300 + 32 * s.excNext (ctxWv c)
  ((((s.setRg pg off (word (2 ^ 63 + pc % 1024 * 2 ^ 48 + code % 256 * 2 ^ 40 + c.ctx.val))).setRg pg (off + 8) (word (s.ctxAt c).pos)).setRg
    pg (off + 16) (word s.ns)).setRg pg (off + 24) (word (addr % 2 ^ 52))).setRg pg oWlkExcNext (word ((s.excNext (ctxWv c) + 1) % 8))

/-- What an exception books: its record, EXC_COUNT and the event (R359, R427). -/
def State.excBooked (s : State) (c : CtxRef) (code addr pc : Nat) : State :=
  ((s.excRecord c code addr pc).count (pgWlk (ctxWv c)) oWlkExcCount 1).setEvt (pgWlk (ctxWv c)) 1

/-- What an exception does to its Weevil while requests of its context `x` are outstanding: the task fails, what translation holds of the
requests is forgotten, and the context is in EXCEPTION (R359). -/
def State.excStop (s : State) (c : CtxRef) (x : CtxSt) (code : Nat) : State :=
  ((s.putWv (ctxWv c) ((s.wvAt (ctxWv c)).markFail x.entry (if code = 5 then stXlatFault else stWalkerExc) code)).wUnpark c).putCtx c
    { x with st := .except, held := none }

section
variable (s : State) (c : CtxRef) (x : CtxSt) (code : Nat)

theorem excStop_ctxAt : (s.excStop c x code).ctxAt c = { x with st := .except, held := none } := by
  rw [State.excStop, ctxAt_putCtx, if_pos rfl]

@[simp] theorem excStop_rg (pg off : Nat) : (s.excStop c x code).rg pg off = s.rg pg off := rfl
@[simp] theorem excStop_dram : (s.excStop c x code).dram = s.dram := rfl
@[simp] theorem excStop_spad : (s.excStop c x code).spad = s.spad := rfl
@[simp] theorem wTurn_rg (pg off : Nat) : (s.wTurn c).rg pg off = s.rg pg off := rfl
@[simp] theorem wTurn_dram : (s.wTurn c).dram = s.dram := rfl
@[simp] theorem wTurn_spad : (s.wTurn c).spad = s.spad := rfl
end

section
variable (s : State) (c : CtxRef) (code addr pc : Nat)

theorem excRecord_booked : Booked s (s.excRecord c code addr pc) := by
  unfold State.excRecord
  iterate 4 refine booked_trans ?_ (booked_setRg _ _ _ _)
  exact booked_setRg _ _ _ _

theorem excBooked_booked : Booked s (s.excBooked c code addr pc) :=
  booked_trans (booked_trans (excRecord_booked s c code addr pc) (booked_count _ _ _ _)) (booked_setEvt _ _ _)

/-- The registers of the Weevil's page with an exception recorded. -/
theorem excRecord_rg (off : Nat) :
    (s.excRecord c code addr pc).rg (pgWlk (ctxWv c)) off =
      if off / 8 = oWlkExcNext / 8 then word ((s.excNext (ctxWv c) + 1) % 8)
      else if off / 8 = 0x60 + 4 * s.excNext (ctxWv c) + 3 then word (addr % 2 ^ 52)
      else if off / 8 = 0x60 + 4 * s.excNext (ctxWv c) + 2 then word s.ns
      else if off / 8 = 0x60 + 4 * s.excNext (ctxWv c) + 1 then word (s.ctxAt c).pos
      else if off / 8 = 0x60 + 4 * s.excNext (ctxWv c) then word (2 ^ 63 + pc % 1024 * 2 ^ 48 + code % 256 * 2 ^ 40 + c.ctx.val)
      else s.rg (pgWlk (ctxWv c)) off := by
  have h0 : (0x300 + 32 * s.excNext (ctxWv c)) / 8 = 0x60 + 4 * s.excNext (ctxWv c) := by omega
  have h1 : (0x300 + 32 * s.excNext (ctxWv c) + 8) / 8 = 0x60 + 4 * s.excNext (ctxWv c) + 1 := by omega
  have h2 : (0x300 + 32 * s.excNext (ctxWv c) + 16) / 8 = 0x60 + 4 * s.excNext (ctxWv c) + 2 := by omega
  have h3 : (0x300 + 32 * s.excNext (ctxWv c) + 24) / 8 = 0x60 + 4 * s.excNext (ctxWv c) + 3 := by omega
  simp only [State.excRecord, rg_setRg, regKey_page, h0, h1, h2, h3]

theorem excRecord_head : (s.excRecord c code addr pc).rg (pgWlk (ctxWv c)) (0x300 + 32 * s.excNext (ctxWv c)) =
    word (2 ^ 63 + pc % 1024 * 2 ^ 48 + code % 256 * 2 ^ 40 + c.ctx.val) := by
  rw [excRecord_rg, if_neg (by simp only [oWlkExcNext]; omega), if_neg (by omega), if_neg (by omega), if_neg (by omega), if_pos (by omega)]

theorem excRecord_addr :
    (s.excRecord c code addr pc).rg (pgWlk (ctxWv c)) (0x300 + 32 * s.excNext (ctxWv c) + 24) = word (addr % 2 ^ 52) := by
  rw [excRecord_rg, if_neg (by simp only [oWlkExcNext]; omega), if_pos (by omega)]

theorem excRecord_next : (s.excRecord c code addr pc).rg (pgWlk (ctxWv c)) oWlkExcNext = word ((s.excNext (ctxWv c) + 1) % 8) := by
  rw [excRecord_rg, if_pos rfl]

/-- Counting the exception and its event leaves the record. -/
theorem excBooked_rg (off : Nat) (hl : 0x200 ≤ off) (hu : off < 4096) (hc : off / 8 ≠ oWlkExcCount / 8) :
    (s.excBooked c code addr pc).rg (pgWlk (ctxWv c)) off = (s.excRecord c code addr pc).rg (pgWlk (ctxWv c)) off := by
  have hw : ctxWv c < 1024 := by simp only [ctxWv]; omega
  have hp : keyPlain (regKey (pgWlk (ctxWv c)) off) := keyPlain_of _ _ (.inr ⟨by omega, hu⟩) (by simp only [pgWlk]; omega)
  have he : off / 8 ≠ oEvtStatus / 8 := by simp only [oEvtStatus]; omega
  rw [State.excBooked, setEvt_rg_other _ _ _ _ _ hp (mt (regKey_page _ _ _).1 he),
    count_rg_other _ _ _ _ _ _ hp (mt (regKey_page _ _ _).1 hc)]

/-- A register write takes no time. -/
theorem ns_setRg (pg off : Nat) (v : Word) : (s.setRg pg off v).ns = s.ns := booked_ns (booked_setRg s pg off v)

/-! ## Taking an exception -/

section
variable (hr : (s.ctxAt c).reqs ≠ [])
include hr

/-- With requests outstanding an exception is booked and stops its context, which waits for them (R359). -/
theorem wTake_outstanding : s.wTake c code addr pc = (s.excBooked c code addr pc).excStop c (s.ctxAt c) code := by
  have he : (s.ctxAt c).reqs.isEmpty = false := List.isEmpty_eq_false_iff.2 hr
  simp only [State.wTake, State.excStop, State.excBooked, State.excRecord, State.excNext, ns_setRg, he, Bool.false_eq_true, if_false]

theorem wTake_ctxAt : (s.wTake c code addr pc).ctxAt c = { s.ctxAt c with st := .except, held := none } := by
  rw [wTake_outstanding s c code addr pc hr, excStop_ctxAt]

theorem wTake_dram : (s.wTake c code addr pc).dram = s.dram := by
  rw [wTake_outstanding s c code addr pc hr, excStop_dram, booked_dram (excBooked_booked s c code addr pc)]

theorem wTake_spad : (s.wTake c code addr pc).spad = s.spad := by
  rw [wTake_outstanding s c code addr pc hr, excStop_spad, booked_spad (excBooked_booked s c code addr pc)]

/-- The registers of the Weevil's page with an exception taken. -/
theorem wTake_rg (off : Nat) (hl : 0x200 ≤ off) (hu : off < 4096) (hc : off / 8 ≠ oWlkExcCount / 8) :
    (s.wTake c code addr pc).rg (pgWlk (ctxWv c)) off = (s.excRecord c code addr pc).rg (pgWlk (ctxWv c)) off := by
  rw [wTake_outstanding s c code addr pc hr, excStop_rg, excBooked_rg s c code addr pc off hl hu hc]
end
end

/-! ## The statement -/

/-- Settles O30: a held exception is taken in its turn; its registers are those of the record, its context waits for its requests. -/
theorem exceptionRecord : Obligations.ExceptionRecord := by
  unfold Obligations.ExceptionRecord
  intro c k a p s ha ht hst hh hr hs
  have hn : s.rf (pgWlk (ctxWv c)) oWlkExcNext 2 0 < 8 := excNext_lt s (ctxWv c)
  have hx : ((s.wTake c k a p).wTurn c).ctxAt c = { s.ctxAt c with st := .except, held := none } := by
    rw [ctxAt_wTurn, wTake_ctxAt s c k a p hr]
  have hg (off : Nat) (hl : 0x290 ≤ off) (hu : off < 4096) :
      ((s.wTake c k a p).wTurn c).rg (pgWlk (ctxWv c)) off = (s.excRecord c k a p).rg (pgWlk (ctxWv c)) off := by
    rw [wTurn_rg, wTake_rg s c k a p hr off (by omega) hu (by simp only [oWlkExcCount]; omega)]
  refine ⟨_, exec_heldException s c ha ht hst hs k a p hh, by rw [hx], by rw [hx], by rw [hx], ?head, ?addr, ?next,
    (wTurn_dram _ c).trans (wTake_dram s c k a p hr), (wTurn_spad _ c).trans (wTake_spad s c k a p hr)⟩
  case head => exact (hg _ (by omega) (by omega)).trans (excRecord_head s c k a p)
  case addr => exact (hg _ (by omega) (by omega)).trans (excRecord_addr s c k a p)
  case next => exact (hg _ (by decide) (by decide)).trans (excRecord_next s c k a p)

end Sys2Proof.Machine
end

section
/-! Proofs about the instructions of the walk ISA that send requests (R384 to R393, R400, R407, R409, R415): with aligned operands in range
each opcode's checks pass, and its request enters the miss table. -/

namespace Sys2Proof.Machine

/-! ## Effects of the opcodes with their checks passed -/

section
variable (c : CtxRef) (x : CtxSt) (w : Word) (s : State)

theorem wDoLd_aligned (h : (wAddr x w).toNat % wSize w = 0) :
    wDoLd c x w s = (s.wReq c x (.ld (wAddr x w).toNat (wSize w) (wSub9 w / 4 % 2 = 1) (wD w))).count (pgWlk (ctxWv c)) oWlkLoads 1 :=
  if_neg (not_not_intro h)

theorem wDoLd_misaligned (h : (wAddr x w).toNat % wSize w ≠ 0) : wDoLd c x w s = s.wTake c 0x03 (wAddr x w).toNat x.pc :=
  if_pos h

theorem wDoSt_aligned (h : (wAddr x w).toNat % wSize w = 0) :
    wDoSt c x w s = s.wReq c x (.st (wAddr x w).toNat (leBytes (wSize w) (x.reg (wD w)).toNat)) :=
  if_neg (not_not_intro h)

section
variable (k : Nat) (hk : spadOperand c (x.reg (wB w)) (wBlock w) = some k) (ha : (x.reg (wA w)).toNat % 32 = 0) (h32 : k % 32 = 0)
include hk ha h32

theorem wDoGather_aligned : wDoGather c x w s = s.wReq c x (.gather (x.reg (wA w)).toNat k (wSub w % 64 + 1) 0) := by
  simp only [wDoGather, hk, ha, h32, ne_eq, not_true_eq_false, if_false]

theorem wDoPut_aligned : wDoPut c x w s = s.wReq c x
    (.put (x.reg (wA w)).toNat (s.spadRd c.clu.val k (wBlock w)) (s.spadMarks c.clu.val k (wBlock w))) := by
  simp only [wDoPut, hk, ha, h32, ne_eq, not_true_eq_false, if_false]
end

theorem wDoGrl_checked (h : grCheck c x w false = none) :
    wDoGrl c x w s = ((s.wReq c x (.grl w (grOps x w) false)).count (pgWlk (ctxWv c)) oWlkGrBags 1).grSend c
      ⟨x.next, x.pc, .grl w (grOps x w) false, []⟩ := by
  simp only [wDoGrl, h]

theorem wDoGrn_checked (h : grCheck c x w true = none) :
    wDoGrn c x w s = (s.wReq c x (.grn w (grOps x w) false)).count (pgWlk (ctxWv c)) oWlkGrBags 1 := by
  simp only [wDoGrn, h]

theorem wDoCinc_counter (h : wCtrOk (x.reg (wA w)) = true) :
    wDoCinc c x w s = (s.wReq c x (.cinc (fld (x.reg (wA w)) 15 12) (fld (x.reg (wA w)) 11 0) (wImm w) false)).wCincs c := by
  simp only [wDoCinc, h, Bool.not_true, Bool.false_eq_true, if_false]

section
variable (ha : (x.reg (wA w)).toNat % 64 = 0)
include ha

theorem wDoDeg_aligned : wDoDeg c x w s = s.wReq c x (.deg (x.reg (wA w)).toNat (x.reg (wB w)).toNat (wD w)) :=
  if_neg (not_not_intro ha)

theorem wDoSclose_aligned : wDoSclose c x w s = s.wReq c x (.sclose (x.reg (wA w)).toNat) :=
  if_neg (not_not_intro ha)

/-- Without EDGE the operand of the edge list is not checked (R393). -/
theorem wDoSample_noEdge (b : Nat) (he : bit w 8 = false) (hb : spadOperand c (x.reg (wF w)) 1 = some b) (hf : (x.reg (wF w)).toNat % 32 = 0) :
    wDoSample c x w s = s.wReq c x (.sample (x.reg (wA w)).toNat (x.reg (wB w)).toNat (wSub w % 64 + 1) (wSub w / 64 % 4)
      (fld (x.reg (wC w)) 31 0) (x.reg (wE w)).toNat (x.reg (wF w)).toNat none (wD w)) := by
  simp only [wDoSample, he, hb, ha, hf, Option.isNone_some, Bool.false_and, Bool.false_eq_true, ne_eq, not_true_eq_false, if_false]

theorem wDoSadd_aligned (b : Nat) (hb : spadOperand c (x.reg (wC w)) 1 = some b) (hc : (x.reg (wC w)).toNat % 32 = 0) :
    wDoSadd c x w s = s.wReq c x (.sadd (x.reg (wA w)).toNat (x.reg (wB w)).toNat (x.reg (wC w)).toNat (wMv w)) := by
  simp only [wDoSadd, hb, ha, hc, Option.isNone_some, Bool.false_eq_true, ne_eq, not_true_eq_false, if_false]
end
end

/-! ## The statement -/

/-- Settles O31: each instruction is the issue of its opcode, whose effect with its checks passed is the request it names. -/
theorem requestInstructions : Obligations.RequestInstructions := by
  unfold Obligations.RequestInstructions
  refine ⟨?ld, ?st, ?misaligned, ?gather, ?put, ?deg, ?sample, ?grl, ?grn, ?sadd, ?sclose, ?cinc⟩
  case ld => exact fun c w s ha hi ho h => exec_issues ha hi rfl ho (wDoLd_aligned c _ w s h)
  case st => exact fun c w s ha hi ho h => exec_issues ha hi rfl ho (wDoSt_aligned c _ w s h)
  case misaligned => exact fun c w s ha hi ho h => exec_issues ha hi rfl ho (wDoLd_misaligned c _ w s h)
  case gather => exact fun c w k s ha hi ho hk h h32 => exec_issues ha hi rfl ho (wDoGather_aligned c _ w s k hk h h32)
  case put => exact fun c w k s ha hi ho hk h h32 => exec_issues ha hi rfl ho (wDoPut_aligned c _ w s k hk h h32)
  case deg => exact fun c w s ha hi ho h => exec_issues ha hi rfl ho (wDoDeg_aligned c _ w s h)
  case sample => exact fun c w b s ha hi ho he hb h hf => exec_issues ha hi rfl ho (wDoSample_noEdge c _ w s h b he hb hf)
  case grl => exact fun c w s ha hi ho h => exec_issues ha hi rfl ho (wDoGrl_checked c _ w s h)
  case grn => exact fun c w s ha hi ho h => exec_issues ha hi rfl ho (wDoGrn_checked c _ w s h)
  case sadd => exact fun c w b s ha hi ho hb h hc => exec_issues ha hi rfl ho (wDoSadd_aligned c _ w s h b hb hc)
  case sclose => exact fun c w s ha hi ho h => exec_issues ha hi rfl ho (wDoSclose_aligned c _ w s h)
  case cinc => exact fun c w s ha hi ho h => exec_issues ha hi rfl ho (wDoCinc_counter c _ w s h)

end Sys2Proof.Machine
end

section
/-! Proofs about the instructions of the walk ISA that complete at issue (R352, R383, R390, R396, R417), and the words of the generator
(R701 to R703). -/

namespace Sys2Proof.Machine

/-! ## Philox (R701 to R703) -/

/-- The counter of the generator is four words of 32 bits. -/
def philoxWords (c : Nat × Nat × Nat × Nat) : Prop := c.1 < 2 ^ 32 ∧ c.2.1 < 2 ^ 32 ∧ c.2.2.1 < 2 ^ 32 ∧ c.2.2.2 < 2 ^ 32

/-- The high half of a product of two words is a word. -/
theorem mulHi32_lt {a b : Nat} (ha : a < 2 ^ 32) (hb : b < 2 ^ 32) : a * b / 2 ^ 32 < 2 ^ 32 :=
  Nat.div_lt_of_lt_mul (Nat.mul_lt_mul'' ha hb)

/-- A round with a key of two words keeps the counter's words. -/
theorem philoxRound_words (k0 k1 : Nat) (c : Nat × Nat × Nat × Nat) (h0 : k0 < 2 ^ 32) (h1 : k1 < 2 ^ 32) (hc : philoxWords c) :
    philoxWords (philoxRound k0 k1 c) := by
  obtain ⟨hc0, hc1, hc2, hc3⟩ := hc
  have hlow (n : Nat) : n % 2 ^ 32 < 2 ^ 32 := Nat.mod_lt _ (by decide)
  exact ⟨Nat.xor_lt_two_pow (Nat.xor_lt_two_pow (mulHi32_lt (by decide) hc2) hc1) h0, hlow _,
    Nat.xor_lt_two_pow (Nat.xor_lt_two_pow (mulHi32_lt (by decide) hc0) hc3) h1, hlow _⟩

theorem philoxN_words (n k0 k1 : Nat) (c : Nat × Nat × Nat × Nat) (hc : philoxWords c) : philoxWords (philoxN n k0 k1 c) := by
  induction n generalizing k0 k1 c with
  | zero => exact hc
  | succ n ih => exact ih _ _ _ (philoxRound_words _ _ c (Nat.mod_lt _ (by decide)) (Nat.mod_lt _ (by decide)) hc)

/-- The generator answers the four words of its last counter. -/
theorem philox_words (seed stream elem call : Nat) :
    (philox seed stream elem call).length = 4 ∧ ∀ v ∈ philox seed stream elem call, v < 2 ^ 32 := by
  have hlow (n : Nat) : n % 2 ^ 32 < 2 ^ 32 := Nat.mod_lt _ (by decide)
  obtain ⟨h0, h1, h2, h3⟩ := philoxN_words 9 (seed % 2 ^ 32) (seed / 2 ^ 32 % 2 ^ 32) _
    (philoxRound_words (seed % 2 ^ 32) (seed / 2 ^ 32 % 2 ^ 32)
      (elem % 2 ^ 32, elem / 2 ^ 32 % 2 ^ 32, call % 2 ^ 32, stream % 2 ^ 32) (hlow _) (hlow _) ⟨hlow _, hlow _, hlow _, hlow _⟩)
  refine ⟨rfl, fun v hv => ?_⟩
  simp only [philox, List.mem_cons, List.not_mem_nil, or_false] at hv
  rcases hv with rfl | rfl | rfl | rfl
  · exact h0
  · exact h1
  · exact h2
  · exact h3

/-! ## Effects of the opcodes with their checks passed -/

/-- A context that issues is READY (R316). -/
theorem issues_ready {s : State} {c : CtxRef} {w : Word} (h : s.issues c w) : (s.ctxAt c).st = .ready := by
  obtain ⟨_, hr, _⟩ := h
  exact hr

section
variable (c : CtxRef) (x : CtxSt) (w : Word) (s : State)

/-! Scratchpad accesses of a READY context whose cells hold no error (R383). -/

section
variable (b : Nat) (hx : x.st = .ready) (hb : spadOperand c (wAddr x w) (wSize w) = some b) (ha : b % wSize w = 0)
include hx hb ha

theorem wDoLds_clean (hp : s.spadPoison c.clu.val b (wSize w) = false) : wDoLds c .none x w s =
    s.wSetD c x w (wExtend (wSize w) (wSub9 w / 4 % 2 = 1) (ofLe (s.spadRd c.clu.val b (wSize w)))) := by
  simp only [wDoLds, hb, ha, hx, hp, State.spadFound, reduceCtorEq, ne_eq, not_true_eq_false, or_self, Bool.false_eq_true, if_false]

theorem wDoLds_poisoned (hp : s.spadPoison c.clu.val b (wSize w) = true) :
    wDoLds c .none x w s = s.wNext c (x.hold 0x0A (b / 32 * 32) x.pc) := by
  simp only [wDoLds, hb, ha, hx, hp, State.spadFound, reduceCtorEq, ne_eq, not_true_eq_false, or_self, if_true, if_false]

theorem wDoSts_stores :
    wDoSts c .none x w s = (s.spadWr c.clu.val b (leBytes (wSize w) (x.reg (wD w)).toNat) false).wNext c x := by
  simp only [wDoSts, hb, ha, hx, State.spadFound, reduceCtorEq, ne_eq, not_true_eq_false, or_self, if_false]
end

/-- A prefetch that is not dropped only advances (R352). -/
theorem wDoPf_prefetched (z : State) (ha : (x.reg (wA w)).toNat % 64 = 0)
    (hz : s.prefetch c (x.reg (wA w)).toNat (x.reg (wB w)).toNat = (true, z)) : wDoPf c x w s = z.wNext c x := by
  simp only [wDoPf, ha, hz, ne_eq, not_true_eq_false, if_false]

section
variable (z : State) (hc : wCtrOk (x.reg (wA w)) = true)
include hc

/-- A wait that is due at once lets the context go on (R417). -/
theorem wDoCwait_taken (hz : s.waitOffer (fld (x.reg (wA w)) 15 12) (.walker c) (fld (x.reg (wA w)) 11 0) (x.reg (wB w)).toNat (wSub w) =
    (true, z)) : wDoCwait c x w s = z.wNext c x := by
  simp only [wDoCwait, hc, hz, Bool.not_true, Bool.false_eq_true, if_false]

/-- A wait that is not due puts the context in WAIT_CTR (R417). -/
theorem wDoCwait_waits (hz : s.waitOffer (fld (x.reg (wA w)) 15 12) (.walker c) (fld (x.reg (wA w)) 11 0) (x.reg (wB w)).toNat (wSub w) =
    (false, z)) : wDoCwait c x w s = (z.putCtx c { x with st := .waitCtr }).count (pgWlk (ctxWv c)) oWlkIssued 1 := by
  simp only [wDoCwait, hc, hz, Bool.not_true, Bool.false_eq_true, if_false]
end

/-- RAND draws with the seed of the context's task (R396). -/
theorem wDoRand_draws (t : WalkTask) (ws : List Nat) (ht : (s.wvAt (ctxWv c)).taskOf x = some t)
    (hw : ws = philox t.seed.toNat (fld (x.reg (wA w)) 31 0) (x.reg (wB w)).toNat (fld (x.reg (wC w)) 31 0)) :
    wDoRand c x w s = (s.wNext c ((x.setReg (wD w) (word (ws.getD 0 0 + ws.getD 1 0 * 2 ^ 32))).setReg (wD w + 1)
      (word (ws.getD 2 0 + ws.getD 3 0 * 2 ^ 32)))).count (pgWlk (ctxWv c)) oWlkPhiloxCalls 1 := by
  simp only [wDoRand, ht, hw]
end

/-! ## The statement -/

/-- Settles O32: each instruction is the issue of its opcode, and the generator's rounds keep the width of its words. -/
theorem immediateInstructions : Obligations.ImmediateInstructions := by
  unfold Obligations.ImmediateInstructions
  refine ⟨⟨?lds, ?poisoned, ?sts, ?pf, ?taken, ?waits, ?rand⟩, philox_words⟩
  case lds => exact fun c w b s ha hi ho hb h hp => exec_issues ha hi rfl ho (wDoLds_clean c _ w s b (issues_ready hi) hb h hp)
  case poisoned => exact fun c w b s ha hi ho hb h hp => exec_issues ha hi rfl ho (wDoLds_poisoned c _ w s b (issues_ready hi) hb h hp)
  case sts => exact fun c w b s ha hi ho hb h => exec_issues ha hi rfl ho (wDoSts_stores c _ w s b (issues_ready hi) hb h)
  case pf => exact fun c w z s ha hi ho h hz => exec_issues ha hi rfl ho (wDoPf_prefetched c _ w s z h hz)
  case taken => exact fun c w z s ha hi ho h hz => exec_issues ha hi rfl ho (wDoCwait_taken c _ w s z h hz)
  case waits => exact fun c w z s ha hi ho h hz => exec_issues ha hi rfl ho (wDoCwait_waits c _ w s z h hz)
  case rand => exact fun c w t ws s ha hi ho ht hw => exec_issues ha hi rfl ho (wDoRand_draws c _ w s t ws ht hw)

end Sys2Proof.Machine
end

section
/-! Proofs about arrivals at a walker context (R316, R355), the gate of a Weevil (R322) and the queue for walker bags (R351). -/

namespace Sys2Proof.Machine

/-! ## Arrival of the data of an LD (R316, R355) -/

section
variable (c : CtxRef) (r : WReq) (va size : Nat) (sext : Bool) (d : Nat) (s : State) (hop : r.op = .ld va size sext d)
include hop

/-- The data of an LD that is first in its order reach the request (R316, R321). -/
theorem exec_dataArrival_ld (n : Nat) (ha : s.awake) (hf : (s.ctxAt c).reqs.find? (fun r => r.id = n) = some r)
    (hp : s.parkedAt (cluRegion c.clu.val) (.walker c n) = false) (hm : (s.ctxAt c).mayArrive r = true) (hs : s.saddOut (c, n) = false) :
    exec (.dataArrival c n .none) s = .next (s.wArrive c r) := by
  have hr : (s.ctxAt c).reqs.any (fun q => decide (q.id = n)) = true :=
    List.any_eq_true.2 ⟨r, List.mem_of_find?_eq_some hf, List.find?_some (p := fun q : WReq => decide (q.id = n)) hf⟩
  show execDataArrival c n .none s = _
  simp only [execDataArrival, live_awake _ _ ha, hf, hp, hm, hs, hop, hr, State.spadFound, WReqOp.unsent, Bool.not_true, Bool.false_eq_true,
    Bool.true_eq_false, or_self, if_false]

section
variable (z : State) (ho : (s.ctxAt c).isOver = false)
include ho

/-- Data that are read clean complete the request and write its register. -/
theorem wArrive_ld (bs : List Byte)
    (hz : s.readVa1 (cluRegion c.clu.val) ⟨word va, .read, false, .walker c r.id⟩ size = (some (bs, false), z)) :
    s.wArrive c r = z.wComplete c r.id (fun x => x.setReg d (wExtend size sext (ofLe bs))) := by
  simp only [State.wArrive, hop, ho, hz, Bool.false_eq_true, if_false]

/-- A read that faults parks the context. -/
theorem wArrive_ld_parks (hz : s.readVa1 (cluRegion c.clu.val) ⟨word va, .read, false, .walker c r.id⟩ size = (none, z)) :
    s.wArrive c r = z.wPark c r.id := by
  simp only [State.wArrive, hop, ho, hz, Bool.false_eq_true, if_false]
end
end

/-! ## The gate and the queue for walker bags (R322, R351) -/

theorem exec_weevilGate_gates (clu : Clu) (wv : Fin 4) (s : State) (ha : s.awake)
    (h : (s.wvAt (clu.val * 4 + wv.val)).ctxs.any (fun e => e.2.st = .ready) = false) :
    exec (.weevilGate clu wv) s = .next (s.putWv (clu.val * 4 + wv.val) { s.wvAt (clu.val * 4 + wv.val) with gated := true }) := by
  show execWeevilGate clu wv s = _
  simp only [execWeevilGate, live_awake _ _ ha, h, Bool.false_eq_true, if_false]

/-- The gather-reduces of a region that are not sent, whose context still takes them and that wait on no fault, clusters in ascending
order (R35, R351). -/
def State.bagsWaiting (s : State) (r : Nat) : List (CtxRef × WReq) :=
  (s.wv.filter (fun e => decide (cluRegion (e.1 / 4) = r))).flatMap (fun e =>
    e.2.ctxs.flatMap (fun x => (x.2.reqs.filter (fun q => q.op.unsent && !x.2.isOver &&
      !s.parkedAt r (.walker (ctxRef e.1 x.1) q.id))).map (fun q => (ctxRef e.1 x.1, q))))

theorem exec_walkerBagQueueFree_sends (r : Region) (c : CtxRef) (q : WReq) (rest : List (CtxRef × WReq)) (s : State) (ha : s.awake)
    (hl : s.bagsWaiting r.val = (c, q) :: rest) (hq : s.grQueued r.val < walkerBags) :
    exec (.walkerBagQueueFree r) s = .next (s.grSend c q) := by
  rw [State.bagsWaiting] at hl
  show execWalkerBagQueueFree r s = _
  simp only [execWalkerBagQueueFree, live_awake _ _ ha, hl, Nat.not_le.2 hq, if_false]

/-! ## The statement -/

/-- Settles O33: data that arrive reach their request, whose read answers or faults; the gate and the queue act when they may. -/
theorem walkerArrivals : Obligations.WalkerArrivals := by
  unfold Obligations.WalkerArrivals
  refine ⟨?completes, ?parks, exec_weevilGate_gates, exec_walkerBagQueueFree_sends⟩
  case completes =>
    rintro c n r va size sext d z bs s ha hf hop hp hm hs ho rfl hz
    rw [exec_dataArrival_ld c r va size sext d s hop r.id ha hf hp hm hs, wArrive_ld c r va size sext d s hop z ho bs hz]
  case parks =>
    rintro c n r va size sext d z s ha hf hop hp hm hs ho rfl hz
    rw [exec_dataArrival_ld c r va size sext d s hop r.id ha hf hp hm hs, wArrive_ld_parks c r va size sext d s hop z ho hz]

end Sys2Proof.Machine
end

section
/-! Proofs about the walk-program instruction words (R373, R374): a word is its head fields over the 51 bits of its format, and each format
spells its fields in those bits without loss, so decoding and encoding undo each other. -/

namespace Sys2Proof.Machine

/-! ## The format-specific bits -/

/-- The fields of a format read from the 51 format-specific bits of a word (R374). -/
def WFmt.bodyOf (f : WFmt) (x : BitVec 51) : WBody :=
  match f with
  | .r => .r (x.extractLsb' 46 5) (x.extractLsb' 41 5) (x.extractLsb' 36 5) (x.extractLsb' 31 5) (x.extractLsb' 26 5) (x.extractLsb' 21 5)
      (x.extractLsb' 16 5) (x.extractLsb' 0 16)
  | .i => .i (x.extractLsb' 46 5) (x.extractLsb' 41 5) (x.extractLsb' 32 9) (x.extractLsb' 0 32)
  | .b => .b (x.extractLsb' 10 41) (x.extractLsb' 0 10)

/-- The decoder reads a body from the low 51 bits alone, in the format of the opcode (R373, R374). -/
theorem wDecode_body (w : BitVec 64) : (wDecode w).body = (wFmt (w.extractLsb' 56 7)).bodyOf (w.extractLsb' 0 51) := by
  simp only [wDecode]
  cases wFmt (w.extractLsb' 56 7) <;> simp [WFmt.bodyOf, BitVec.extractLsb'_extractLsb'_of_le]

/-! The library finds a field of a concatenation when the width is written as the sum of its parts' widths: these equations write it so. -/

theorem bits_extract_r (rd ra rb rc re rf rg : BitVec 5) (sub : BitVec 16) (lo len : Nat) :
    (WBody.r rd ra rb rc re rf rg sub).bits.extractLsb' lo len = (rd ++ ra ++ rb ++ rc ++ re ++ rf ++ rg ++ sub).extractLsb' lo len := rfl

theorem bits_extract_i (rd ra : BitVec 5) (sub9 : BitVec 9) (imm : BitVec 32) (lo len : Nat) :
    (WBody.i rd ra sub9 imm).bits.extractLsb' lo len = (rd ++ ra ++ sub9 ++ imm).extractLsb' lo len := rfl

theorem bits_extract_b (resv : BitVec 41) (target : BitVec 10) (lo len : Nat) :
    (WBody.b resv target).bits.extractLsb' lo len = (resv ++ target).extractLsb' lo len := rfl

theorem wEncode_extract (i : WInstr) (lo len : Nat) :
    (wEncode i).extractLsb' lo len = (i.mv ++ i.opc ++ i.ge ++ i.gn ++ i.gp ++ i.body.bits).extractLsb' lo len := rfl

/-- Reading the bits of a body in the body's format gives the body. -/
theorem bodyOf_bits (b : WBody) : b.fmt.bodyOf b.bits = b := by
  cases b with
  | r rd ra rb rc re rf rg sub =>
    simp (disch := decide) only [WBody.fmt, WFmt.bodyOf, bits_extract_r, BitVec.extractLsb'_append_eq_of_le,
      BitVec.extractLsb'_append_eq_of_add_le, BitVec.extractLsb'_eq_self, Nat.reduceSub]
  | i rd ra sub9 imm =>
    simp (disch := decide) only [WBody.fmt, WFmt.bodyOf, bits_extract_i, BitVec.extractLsb'_append_eq_of_le,
      BitVec.extractLsb'_append_eq_of_add_le, BitVec.extractLsb'_eq_self, Nat.reduceSub]
  | b resv target =>
    simp only [WBody.fmt, WFmt.bodyOf, bits_extract_b, BitVec.extractLsb'_append_eq_left, BitVec.extractLsb'_append_eq_right]

/-- The fields of a format cover all 51 bits. -/
theorem bits_bodyOf (f : WFmt) (x : BitVec 51) : (f.bodyOf x).bits = x := by
  cases f <;> simp only [WFmt.bodyOf, WBody.bits, BitVec.extractLsb'_append_extractLsb'_eq_extractLsb'] <;> exact BitVec.extractLsb'_eq_self

/-! ## The fields of an encoded instruction -/

/-- The head fields of an encoded instruction, and the format-specific bits below them (R373). -/
theorem wEncode_fields (i : WInstr) :
    (wEncode i).extractLsb' 63 1 = i.mv ∧ (wEncode i).extractLsb' 56 7 = i.opc ∧ (wEncode i).extractLsb' 55 1 = i.ge ∧
    (wEncode i).extractLsb' 54 1 = i.gn ∧ (wEncode i).extractLsb' 51 3 = i.gp ∧ (wEncode i).extractLsb' 0 51 = i.body.bits := by
  simp (disch := decide) only [wEncode_extract, BitVec.extractLsb'_append_eq_of_le, BitVec.extractLsb'_append_eq_of_add_le,
    BitVec.extractLsb'_eq_self, Nat.reduceSub, and_self]

/-! ## Both directions -/

theorem wf_iff_fmt (i : WInstr) : i.wf = true ↔ i.body.fmt = wFmt i.opc := decide_eq_true_iff

/-- Decoding the encoding of a well-formed instruction gives the instruction: its body is read in the format it has. -/
theorem wDecode_wEncode (i : WInstr) (h : i.wf = true) : wDecode (wEncode i) = i := by
  obtain ⟨hmv, hopc, hge, hgn, hgp, hbits⟩ := wEncode_fields i
  have hf : wFmt i.opc = i.body.fmt := ((wf_iff_fmt i).1 h).symm
  have hb : (wDecode (wEncode i)).body = i.body := by rw [wDecode_body, hopc, hbits, hf, bodyOf_bits]
  calc wDecode (wEncode i) = ⟨i.mv, i.opc, i.ge, i.gn, i.gp, (wDecode (wEncode i)).body⟩ := by
        simp only [wDecode, hmv, hopc, hge, hgn, hgp]
    _ = i := by rw [hb]

/-- Encoding what a word decodes to gives the word: the head fields and the format-specific bits stand side by side. -/
theorem wEncode_wDecode (w : BitVec 64) : wEncode (wDecode w) = w := by
  have hb : (wDecode w).body.bits = w.extractLsb' 0 51 := by rw [wDecode_body, bits_bodyOf]
  rw [wEncode, hb]
  simp only [wDecode, BitVec.extractLsb'_append_extractLsb'_eq_extractLsb']
  exact BitVec.extractLsb'_eq_self

/-! ## The statement -/

/-- Settles O4: the two directions, for every well-formed instruction and for every word. -/
theorem walkWordsAreEncodings : Obligations.WalkWordsAreEncodings := by
  unfold Obligations.WalkWordsAreEncodings
  exact ⟨wDecode_wEncode, wEncode_wDecode⟩

end Sys2Proof.Machine
end

section
/-! Proofs about an instruction that writes gD (R368, R379): its register and the program counter change, the rest of its context and the
other contexts do not. -/

namespace Sys2Proof.Machine

/-! ## What moving on changes in a context -/

/-- A register reads what was written last, and every other register is left alone. -/
theorem reg_setReg (x : CtxSt) (i j : Nat) (v : Word) : (x.setReg i v).reg j = if j = i then v else x.reg j :=
  smapGet_set _ _ _ _ _

/-- Holding an exception touches nothing of a context but the exception it holds. -/
theorem hold_frame (x : CtxSt) (code addr pc : Nat) : ∃ e, x.hold code addr pc = { x with held := e } := by
  unfold CtxSt.hold
  split
  · exact ⟨_, rfl⟩
  · split
    · exact ⟨_, rfl⟩
    · exact ⟨x.held, rfl⟩

/-- Holding one under a condition touches no more. -/
theorem hold_if_frame (x : CtxSt) (p : Prop) [Decidable p] (code addr pc : Nat) :
    ∃ e, (if p then x.hold code addr pc else x) = { x with held := e } := by
  split
  · exact hold_frame x code addr pc
  · exact ⟨x.held, rfl⟩

/-- Moving the program counter touches nothing else of a context but the exception it holds (R368). -/
theorem past_frame (v : WvSt) (x : CtxSt) (pc : Nat) : ∃ e, v.past x pc = { x with pc := pc, held := e } :=
  hold_if_frame { x with pc := pc } _ 2 0 pc

/-! ## The state that is left -/

section
variable (s : State) (c : CtxRef) (x : CtxSt)

/-- Completing an instruction books its count on top of the context it leaves. -/
theorem wGo_booked (pc : Nat) : Booked (s.putCtx c ((s.wvAt (ctxWv c)).past x pc)) (s.wGo c x pc) := booked_count _ _ _ _

theorem ctxAt_wGo (d : CtxRef) (pc : Nat) :
    (s.wGo c x pc).ctxAt d = if d = c then (s.wvAt (ctxWv c)).past x pc else s.ctxAt d := by
  rw [booked_ctxAt (wGo_booked s c x pc), ctxAt_putCtx]

@[simp] theorem wGo_dram (pc : Nat) : (s.wGo c x pc).dram = s.dram := (booked_dram (wGo_booked s c x pc)).trans rfl
@[simp] theorem wGo_spad (pc : Nat) : (s.wGo c x pc).spad = s.spad := (booked_spad (wGo_booked s c x pc)).trans rfl
@[simp] theorem wGo_xlat (pc : Nat) : (s.wGo c x pc).xlat = s.xlat := (booked_xlat (wGo_booked s c x pc)).trans rfl
@[simp] theorem wTurn_xlat : (s.wTurn c).xlat = s.xlat := rfl

/-- The context after an instruction that wrote gD: the write, the next program counter, and perhaps an exception held (R368). -/
theorem ctxAt_wSetD (w v : Word) : ∃ e, (s.wSetD c x w v).ctxAt c = { x.setReg (wD w) v with pc := x.pc + 1, held := e } := by
  rw [State.wSetD, State.wNext, ctxAt_wGo, if_pos rfl]
  exact past_frame _ _ _

theorem ctxAt_wSetD_other (w v : Word) (d : CtxRef) (h : d ≠ c) : (s.wSetD c x w v).ctxAt d = s.ctxAt d := by
  rw [State.wSetD, State.wNext, ctxAt_wGo, if_neg h]
end

/-! ## The statement -/

/-- Settles O29: the context's own clauses come from the one equation for it, the others from the frame of the issue. -/
theorem registerWriteFrame : Obligations.RegisterWriteFrame := by
  unfold Obligations.RegisterWriteFrame
  rintro c w s v - t rfl
  obtain ⟨e, hc⟩ := ctxAt_wSetD s c (s.ctxAt c) w v
  have hx := (ctxAt_wTurn _ c c).trans hc
  have hreg (r : Nat) : (((s.wSetD c (s.ctxAt c) w v).wTurn c).ctxAt c).reg r = if r = wD w then v else (s.ctxAt c).reg r := by
    rw [hx]
    exact reg_setReg (s.ctxAt c) (wD w) r v
  refine ⟨?written, ?registers, ?predicates, ?pc, ?reqs, ?contexts, ?dram, ?spad, ?xlat⟩
  case written => rw [hreg, if_pos rfl]
  case registers => exact fun r hr => by rw [hreg, if_neg hr]
  case predicates => rw [hx]; rfl
  case pc => rw [hx]
  case reqs => rw [hx]; rfl
  case contexts => exact fun d hd => (ctxAt_wTurn _ c d).trans (ctxAt_wSetD_other s c _ w v d hd)
  case dram => exact (wTurn_dram _ c).trans (wGo_dram s c _ _)
  case spad => exact (wTurn_spad _ c).trans (wGo_spad s c _ _)
  case xlat => exact (wTurn_xlat _ c).trans (wGo_xlat s c _ _)

end Sys2Proof.Machine
end

section
/-! Proofs about the matrix unit of a cluster: issue, drains, debug reads and the output path (R481, R501 to R518), and the relay of weights
between matrix units (R513 to R518). -/

namespace Sys2Proof.Machine

/-! ## Issue and drains (R481, R501) -/

/-- The first task that may issue is issued: its operand word holds no error, so that the unit finds it again where it stood. -/
theorem exec_matrixTask_issues (clu : Clu) (t : MatTask) (z s : State) (ha : s.awake)
    (hz : z = s.matAccept clu.val (s.matAt clu.val).tasks.length) (hd : z.dbg.units.contains clu.val = false)
    (hi : (z.matAt clu.val).tasks.find? (fun t => t.canIssue) = some t)
    (he : (z.matAt clu.val).tasks.find? (fun u => u.entry = t.entry) = some t) :
    exec (.matrixTask clu .none) s = .next (z.matIssue clu.val t) := by
  show execMatrixTask clu .none s = _
  simp only [execMatrixTask, live_awake _ _ ha, ← hz, hd, hi, State.spadFound, he, Bool.false_eq_true, if_false]

section
variable (clu : Clu) (t : MatTask) (s : State) (ha : s.awake) (hi : (s.matAt clu.val).tasks.find? (fun t => t.issued) = some t)
include ha hi

/-- With a drain buffer free, the first task that has issued all moves to it. -/
theorem exec_taskEndDrain_moves (hb : (s.matAt clu.val).bufs.length < 2) :
    exec (.taskEndDrain clu) s = .next ((s.putMat clu.val { s.matAt clu.val with
      tasks := (s.matAt clu.val).tasks.filter (fun u => u.entry ≠ t.entry), bufs := (s.matAt clu.val).bufs ++ [t] }).count
        (pgMat clu.val) oMatDrains 1) := by
  show execTaskEndDrain clu s = _
  simp only [execTaskEndDrain, live_awake _ _ ha, hi, Nat.not_le.2 hb, if_false]

/-- With both drain buffers taken, it counts a wait and stays where it is. -/
theorem exec_taskEndDrain_waits (hb : 2 ≤ (s.matAt clu.val).bufs.length) :
    exec (.taskEndDrain clu) s = .next (s.count (pgVec clu.val) oVecDrainbufWait 1) := by
  show execTaskEndDrain clu s = _
  simp only [execTaskEndDrain, live_awake _ _ ha, hi, hb, if_true]
end

/-! ## Debug reads of running sums (R504) -/

theorem exec_dbgSelWrite_denied (clu : Clu) (v : Word) (s : State) (ha : s.awake) (hm : s.dbg.mode.contains clu.val = false) :
    exec (.dbgSelWrite clu v) s = .next ((s.count (pgMat clu.val) oMatDbgDenied 1).setEvt (pgMat clu.val) 4) := by
  show execDbgSelWrite clu v s = _
  simp only [execDbgSelWrite, live_awake _ _ ha, hm, Bool.not_false, if_true]

/-- Booking changes no Mantis. -/
theorem booked_matAt {s t : State} (h : Booked s t) (k : Nat) : t.matAt k = s.matAt k := by
  rw [State.matAt, booked_mat h, State.matAt]

/-- In debug mode the element selected of an accepted task is shown. -/
theorem exec_dbgSelWrite_shows (clu : Clu) (v : Word) (t : MatTask) (x : Nat) (s : State) (ha : s.awake)
    (hm : s.dbg.mode.contains clu.val = true) (ht : ((s.matAt clu.val).tasks.filter (fun t => !t.sums.isEmpty))[fld v 28 20]? = some t)
    (hx : t.sums[fld v 10 0]? = some x) :
    exec (.dbgSelWrite clu v) s = .next (((s.setRg (pgMat clu.val) oMatDbgSel (word (fld v 28 20 * 2 ^ 20 + fld v 10 0))).count
      (pgMat clu.val) oMatDrains 1).setRg (pgMat clu.val) oMatDbgData (word (2 ^ 63 + x))) := by
  show execDbgSelWrite clu v s = _
  simp only [execDbgSelWrite, live_awake _ _ ha, hm, booked_matAt (booked_setRg s _ _ _), ht, hx, Bool.not_true, Bool.false_eq_true, if_false]

/-! ## The output path and the gate (R507 to R510, R636) -/

/-- The tile in the first drain buffer, clean and with no relay chunk left to be taken, is written and counted, and its task ends. -/
theorem exec_outputPath_ends (clu : Clu) (t : MatTask) (rest : List MatTask) (rs : List Rounded) (z u s : State) (ha : s.awake)
    (hb : (s.matAt clu.val).bufs = t :: rest)
    (hrs : rs = (List.range t.sums.length).map (fun n => mxWritten t.body (s.slotAt t.slot).seed.toNat n (t.sums.getD n 0)))
    (hz : z = ((List.range (mxTm t.body)).foldl (fun s i => s.mxRowOut clu.val t.body rs t.bad i) s).mxOutCount clu.val t.body rs)
    (hp : t.bad.any id = false)
    (hu : u = (z.issueInc (cluRegion clu.val) (fld (wordAt t.body 0x38) 11 0) 1).count (pgMat clu.val) oMatTasksDone 1)
    (hc : u.relayClear clu.val t = true) :
    exec (.outputPath clu) s = .next ((u.putMat clu.val { s.matAt clu.val with bufs := rest }).matEnd clu.val t) := by
  show execOutputPath clu s = _
  simp only [execOutputPath, live_awake _ _ ha, hb, ← hrs, ← hz, hp, ← hu, hc, Bool.false_eq_true, if_true, if_false]

/-- An idle Mantis whose ask is held gates its clock. -/
theorem exec_unitGate_mantis (clu : Clu) (s : State) (ha : s.awake)
    (hk : (s.dispAt (cluRegion clu.val)).asks.contains (clu.val, .mantis) = true) (ht : (s.matAt clu.val).tasks = [])
    (hb : (s.matAt clu.val).bufs = []) (hr : (s.matAt clu.val).relay = []) :
    exec (.unitGate clu .mantis) s = .next (s.putMat clu.val { s.matAt clu.val with gated := true }) := by
  show execUnitGate clu .mantis s = _
  simp only [execUnitGate, live_awake _ _ ha, hk, ht, hb, hr, List.isEmpty_nil, Bool.and_self, if_true]

/-! ## The relay (R515, R516, R518) -/

theorem exec_relayCreditReturn (clu : Clu) (s : State) (ha : s.awake) :
    exec (.relayCreditReturn clu) s = .next ((s.relaySend clu.val relayCap).relayEnds clu.val) := live_awake s _ ha

/-- The search finds a head that passes its test at place 0. -/
theorem findIdx_cons_pos {α : Type} {p : α → Bool} {x : α} {l : List α} (h : p x = true) : findIdx p (x :: l) = some 0 := by
  simp [findIdx, List.findIdx_cons, h]

/-- The test by which RELAY_CHUNK_RX gives a chunk to a task: accepted, a relay with the chunk's tag, and without the chunk so far
(R515). -/
def takesChunk (ch : Chunk) (t : MatTask) : Bool :=
  !t.sums.isEmpty && mxRelay t.body && decide (mxId t.body = ch.id) && !t.chunks.contains ch.n

/-- An accepted task takes the first chunk of its tag that it lacks: the chunk is written in its place of B and leaves the link. -/
theorem exec_relayChunkRx_takes (clu : Clu) (k : Nat) (ch : Chunk) (q : List Chunk) (t : MatTask) (s : State) (ha : s.awake)
    (hk : s.relayKey clu.val = some k) (hq : s.relayAt k = ch :: q) (ht : (s.matAt clu.val).tasks = [t]) (hs : t.sums ≠ [])
    (hr : mxRelay t.body = true) (hid : mxId t.body = ch.id) (hn : t.chunks.contains ch.n = false) (hf : mxFwd t.body = false) :
    exec (.relayChunkRx clu) s = .next ((((s.putRelay k q).spadArea clu.val ((mxArea t.body 0x10).1 + 2048 * ch.n) ch.data ch.bad).count
      (pgMat clu.val) oMatRelayIn ch.data.length).matUpd clu.val t.entry (fun t =>
        { t with chunks := t.chunks ++ [ch.n], toSend := if mxFwd t.body then t.toSend ++ [ch.n] else t.toSend })) := by
  have htakes : takesChunk ch t = true := by
    simp only [takesChunk, List.isEmpty_eq_false_iff.2 hs, hr, hid, hn, Bool.not_false, decide_true, Bool.and_self]
  have hfirst : findIdx (fun ch => [t].any (takesChunk ch)) (ch :: q) = some 0 :=
    findIdx_cons_pos (by rw [List.any_cons, htakes, Bool.true_or])
  have hfind : [t].find? (takesChunk ch) = some t := List.find?_cons_of_pos htakes
  show execRelayChunkRx clu s = _
  unfold takesChunk at hfirst hfind
  simp only [execRelayChunkRx, live_awake _ _ ha, hk, hq, ht, hfirst, List.getD_cons_zero, hfind, List.eraseIdx_cons_zero, hf,
    Bool.false_eq_true, if_false]

/-! ## The statement -/

/-- Settles O37: each clause by the equation of its command in that case. -/
theorem matrixUnit : Obligations.MatrixUnit := by
  unfold Obligations.MatrixUnit
  exact ⟨⟨exec_matrixTask_issues, exec_taskEndDrain_moves, exec_taskEndDrain_waits, exec_dbgSelWrite_denied, exec_dbgSelWrite_shows,
    exec_outputPath_ends, exec_unitGate_mantis⟩, exec_relayCreditReturn, exec_relayChunkRx_takes⟩

end Sys2Proof.Machine
end

section
/-! Proofs about the GMX block of a cluster: the compressor's digests and compressed areas, Scarab's expansion and its check, and the
clearing of digests (R541, R553 to R555, R559, R565). -/

namespace Sys2Proof.Machine

/-! ## The compressor (R553, R554) -/

/-- DIGEST ends its fresh task with the checksum of the dense tiles read; reading them books at most their poison. -/
theorem exec_digest_ends (clu : Clu) (t : UnitTask) (ds : List (List Byte × Bool)) (z s : State) (ha : s.awake)
    (ht : s.gmxTake clu 1 = some t) (hp : t.part = none) (hd : s.denseTiles clu.val t.body t.slot = (ds, z)) :
    exec (.digest clu) s = .next (z.gmxFinish clu t (tilesCrc t.body (ds.map (·.1))) (ds.any (·.2))) := by
  show execDigest clu s = _
  simp only [execDigest, live_awake _ _ ha, ht, hp, hd]

/-- A COMPRESS parked at its flush takes up its end again with the digest kept; it writes no area a second time (R559). -/
theorem exec_compress_resumes (clu : Clu) (t : UnitTask) (crc : Nat) (bad : Bool) (s : State) (ha : s.awake)
    (ht : s.gmxTake clu 0 = some t) (hp : t.part = some (crc, bad)) :
    exec (.compress clu) s = .next (s.gmxFinish clu t crc bad) := by
  show execCompress clu s = _
  simp only [execCompress, live_awake _ _ ha, ht, hp]

/-- COMPRESS of a fresh task packs the dense tiles into its area and books tiles, escapes and bytes before it ends. -/
theorem exec_compress_ends (clu : Clu) (t : UnitTask) (ds : List (List Byte × Bool)) (z : State) (packs : List (List Byte × Bool))
    (u s : State) (ha : s.awake) (ht : s.gmxTake clu 0 = some t) (hp : t.part = none)
    (hd : s.denseTiles clu.val t.body t.slot = (ds, z)) (hk : packs = ds.map (fun d => (tilePack (gxFmt t.body) d.1 d.2, d.2)))
    (hu : u = (((((z.areaWrite clu.val t.body packs).count (pgGmx clu.val) oGmxTilesOut ds.length).count (pgGmx clu.val) oGmxEscapes
      (packs.countP (fun x => decide (x.1.length = tileDense (gxFmt t.body) + 8)))).count (pgGmx clu.val) oGmxBytesDense
        (ds.length * tileDense (gxFmt t.body))).count (pgGmx clu.val) oGmxBytesComp
          (8 * mapEnd ds.length + (packs.map (fun x => x.1.length)).foldl (· + ·) 0))) :
    exec (.compress clu) s = .next (u.gmxFinish clu t (tilesCrc t.body (ds.map (·.1))) (ds.any (·.2))) := by
  show execCompress clu s = _
  simp only [execCompress, live_awake _ _ ha, ht, hp, hd, ← hk, ← hu]

/-! ## Scarab (R541, R555) -/

section
variable (clu : Clu) (t : UnitTask) (g : AreaGot) (z s : State) (ha : s.awake) (ht : s.gmxTake clu 2 = some t) (hp : t.part = none)
  (hg : g = s.areaRead clu.val (gxArea t.body) (gxTr t.body) (gxTc t.body) (gxFmt t.body))
include ha ht hp hg

/-- EXPAND of an area with an inconsistent tile, or with an area word that does not match, books the check and fails its task. -/
theorem exec_expand_fails (hb : g.bad.isSome = true) (hz : z = s.areaCount clu.val g (gxArea t.body)) :
    exec (.expand clu) s = .next ((z.gmxDrop clu.val t.entry).taskFail (cluRegion clu.val) t.entry stTileCheck (pgGmx clu.val)
      (z.rg (pgGmx clu.val) oGmxBadInfo).toNat) := by
  show execExpand clu s = _
  simp only [execExpand, live_awake _ _ ha, ht, hp, ← hg, hb, ← hz, if_true]

/-- EXPAND of a sound area without poison writes the dense bytes of each tile and ends its task with their checksum. -/
theorem exec_expand_ends (hb : g.bad = none) (hc : g.tiles.any (fun x => x.poison) = false)
    (hz : z = ((List.range g.tiles.length).foldl
      (fun s k => s.tileWrite clu.val t.body k (g.tiles.getD k (TileGot.poisoned 0)).dense false)
      (s.areaCount clu.val g (gxArea t.body))).count (pgGmx clu.val) oGmxBlocksPresent
        ((g.tiles.map (fun x => popCount16 x.mask)).foldl (· + ·) 0)) :
    exec (.expand clu) s = .next (z.gmxFinish clu t (tilesCrc t.body (g.tiles.map (·.dense))) false) := by
  show execExpand clu s = _
  simp only [execExpand, live_awake _ _ ha, ht, hp, ← hg, hb, hc, ← hz, Option.isSome_none, Bool.false_eq_true, if_false]
end

/-! ## Digests (R565) -/

theorem exec_digClrWrite (clu : Clu) (v : Word) (s : State) (ha : s.awake) :
    exec (.digClrWrite clu v) s = .next ((List.range 8).foldl (fun t i => if bit v i then t.digClear clu.val i else t) s) :=
  live_awake s _ ha

/-! ## The statement -/

/-- Settles O38: each clause by the equation of its command in that case. -/
theorem gradientUnit : Obligations.GradientUnit := by
  unfold Obligations.GradientUnit
  exact ⟨exec_digest_ends, exec_compress_resumes, exec_compress_ends, exec_expand_fails, exec_expand_ends, exec_digClrWrite⟩

end Sys2Proof.Machine
end

section
/-! Proofs about a device that is held in reset (R965, R966, R969). -/

namespace Sys2Proof.Machine

/-- A device that is held leaves a command without effect (R966). -/
theorem live_held (s : State) (o : Out State) (h : s.pins.held = true) : s.live o = .next s := if_pos h

/-- Settles O3: every command but the pin events acts on a device that is not held alone. -/
theorem heldDeviceTakesOnlyPins : Obligations.HeldDeviceTakesOnlyPins := by
  unfold Obligations.HeldDeviceTakesOnlyPins
  intro i s h
  cases i with
  | pwrOkRise | pwrOkFall | resetNLow | resetRelease | refclkEthLoss _ | refclkLoss _ | testPortInstruction _ => exact trivial
  | _ => exact live_held s _ h

end Sys2Proof.Machine
end

section
/-! Proofs about the events of a page (R779, R785). -/

namespace Sys2Proof.Machine

/-- Settles O49: the status after a set, and a set of a status bit is booking. -/
theorem eventsOnlyRise : Obligations.EventsOnlyRise := by
  unfold Obligations.EventsOnlyRise
  intro s pg b _
  exact ⟨setEvt_status s pg b, setEvt_dram s pg b, booked_setEvt s pg b⟩

end Sys2Proof.Machine
end

section
/-! Proofs about the counters of a region (R617 to R624): increments that arrive together, what they leave alone, and what a queue pair that a
doorbell counter puts into ERROR leaves alone (R739, R749). -/

namespace Sys2Proof.Machine

/-! ## The banks -/

theorem syncAt_putSync (s : State) (r q : Nat) (b : SyncSt) : (s.putSync r b).syncAt q = if q = r then b else s.syncAt q :=
  smapGet_set _ _ _ _ _

@[simp] theorem syncAt_putSync_same (s : State) (r : Nat) (b : SyncSt) : (s.putSync r b).syncAt r = b := smapGet_set_same _ _ _ _

theorem booked_syncAt {s t : State} (h : Booked s t) (r : Nat) : t.syncAt r = s.syncAt r := by
  simp only [State.syncAt, booked_sync h]

theorem booked_ctrAt {s t : State} (h : Booked s t) (r c : Nat) : t.ctrAt r c = s.ctrAt r c := by
  simp only [State.ctrAt, booked_syncAt h]

/-- The counter banks and the bytes of the stacks are as before. -/
def BanksKept (s t : State) : Prop := t.sync = s.sync ∧ t.dram = s.dram

theorem banksKept_refl (s : State) : BanksKept s s := ⟨rfl, rfl⟩

theorem banksKept_trans {s t u : State} (h : BanksKept s t) (k : BanksKept t u) : BanksKept s u :=
  ⟨k.1.trans h.1, k.2.trans h.2⟩

theorem banksKept_booked {s t : State} (h : Booked s t) : BanksKept s t := ⟨booked_sync h, booked_dram h⟩

theorem banksKept_ite {s a b : State} {p : Prop} [Decidable p] (ha : BanksKept s a) (hb : BanksKept s b) :
    BanksKept s (if p then a else b) := by
  split
  · exact ha
  · exact hb

theorem banksKept_foldl {α : Type} (f : State → α → State) (l : List α) (h : ∀ s a, BanksKept s (f s a)) (s : State) :
    BanksKept s (l.foldl f s) := by
  induction l generalizing s with
  | nil => exact banksKept_refl s
  | cons a l ih => exact banksKept_trans (h s a) (ih _)

/-! ## Queue pairs that leave the connected state (R664, R666, R739) -/

theorem banksKept_psigDrop (s : State) (x : PSig) : BanksKept s (s.psigDrop x) :=
  banksKept_ite ⟨rfl, rfl⟩ ⟨rfl, rfl⟩

theorem banksKept_psigFail (s : State) (q : Nat) : BanksKept s (s.psigFail q) :=
  banksKept_foldl _ _ (fun t x => banksKept_trans (banksKept_psigDrop t x) (banksKept_booked (booked_error _ _ _))) s

theorem banksKept_qpLeave (s : State) (q : Nat) (st : QpState) : BanksKept s (s.qpLeave q st) := by
  have hunpark (t : State) (p : XReq → Bool) : BanksKept t (t.unpark 12 p) := ⟨rfl, rfl⟩
  have hpages (t : State) (p : Prop) [Decidable p] : BanksKept t (if p then t.setTel { t.tel with flight := false } else t) :=
    banksKept_ite ⟨rfl, rfl⟩ (banksKept_refl t)
  have hpager (t : State) (v : PagerSt) : BanksKept t (t.setPager v) := ⟨rfl, rfl⟩
  unfold State.qpLeave
  refine banksKept_trans (banksKept_trans ?_ (hpager _ _)) (banksKept_psigFail _ q)
  refine banksKept_trans (banksKept_trans ?_ (hunpark _ _)) (hpages _ _)
  exact ⟨rfl, rfl⟩

theorem banksKept_qpErr (s : State) (q : Nat) : BanksKept s (s.qpErr q) :=
  banksKept_ite (banksKept_trans (banksKept_qpLeave s q .error)
    (banksKept_booked (booked_trans (booked_count _ _ _ _) (booked_trans (booked_setEvt _ _ _) (booked_error _ _ _))))) (banksKept_refl s)

/-- What a doorbell counter makes available, and the error of a send queue that is given too much (R749, R750). -/
theorem banksKept_qpDoorbell (s : State) (op amount : Nat) : BanksKept s (s.qpDoorbell op amount) := by
  refine banksKept_foldl _ _ (fun t x => ?_) s
  refine banksKept_ite ?_ (banksKept_refl t)
  refine banksKept_ite (banksKept_ite ?_ ?_) ?_
  · refine banksKept_trans ?_ (banksKept_qpErr _ _)
    refine banksKept_trans ?_ (banksKept_booked (booked_trans (booked_count _ _ _ _) (booked_setEvt _ _ _)))
    split <;> exact ⟨rfl, rfl⟩
  all_goals split <;> exact ⟨rfl, rfl⟩

/-! ## Increments (R619, R622) -/

/-- An applied amount changes its counter and the waits of its bank, and no other bank. -/
theorem applyInc_banks (s : State) (r c amount n : Nat) :
    (s.applyInc r c amount n).dram = s.dram ∧ ∀ q, (s.applyInc r c amount n).syncAt q =
      if q = r then ({ s.syncAt r with ctr := smapSet (fun _ => 0) (s.syncAt r).ctr c (min (s.ctrAt r c + amount) ctrMax) } : SyncSt).markDue c
        (min (s.ctrAt r c + amount) ctrMax) s.time.st
      else s.syncAt q := by
  unfold State.applyInc
  simp only
  have hu : Booked s (if ctrMax < (s.count (pgSync r) oSyncIncs n).ctrAt r c + amount then
      ((((s.count (pgSync r) oSyncIncs n).count (pgSync r) oSyncCtrOvf 1).setEvt (pgSync r) 2).error (pgSync r)
        (contained 0x0303 (pgSync r) (word (r * 2 ^ 12 + c)) (word (min amount ctrMax)))) else s.count (pgSync r) oSyncIncs n) := by
    refine booked_trans (booked_count s _ _ n) (booked_ite ?_ (booked_refl _))
    exact booked_trans (booked_count _ _ _ _) (booked_trans (booked_setEvt _ _ _) (booked_error _ _ _))
  rw [booked_ctrAt (booked_count s (pgSync r) oSyncIncs n)] at *
  generalize (if ctrMax < _ then _ else _ : State) = u at hu ⊢
  obtain ⟨hsync, hdram⟩ := banksKept_qpDoorbell
    ((u.putCtr r c (min (s.ctrAt r c + amount) ctrMax)).putSync r
      (((u.putCtr r c (min (s.ctrAt r c + amount) ctrMax)).syncAt r).markDue c (min (s.ctrAt r c + amount) ctrMax)
        (u.putCtr r c (min (s.ctrAt r c + amount) ctrMax)).time.st)) (r * 4096 + c) amount
  have hud := booked_dram hu
  refine ⟨hdram.trans hud, fun q => ?_⟩
  rw [State.syncAt, hsync]
  refine (syncAt_putSync _ _ _ _).trans ?_
  split
  · rw [State.putCtr, syncAt_putSync_same, booked_syncAt hu, State.putSync, State.setSync_time, booked_time hu]
  · rw [State.putCtr, syncAt_putSync, if_neg ‹_›, booked_syncAt hu]

/-- Increments of a counter that are on their way are taken together. -/
theorem exec_counterIncrement (r : Region) (c : Fin 4096) (s : State) (ha : s.awake)
    (hq : (s.syncAt r.val).incQ.any (fun i => i.ctr = c.val) = true) :
    exec (.counterIncrement r c) s = .next ((s.putSync r.val { s.syncAt r.val with
      incQ := (s.syncAt r.val).incQ.filter (fun i => i.ctr ≠ c.val) }).applyInc r.val c.val
        ((((s.syncAt r.val).incQ.filter (fun i => i.ctr = c.val)).map (·.amount)).foldl (· + ·) 0)
        ((s.syncAt r.val).incQ.filter (fun i => i.ctr = c.val)).length) := by
  have hne : ((s.syncAt r.val).incQ.filter (fun i => decide (i.ctr = c.val))).isEmpty = false := by
    simpa using hq
  have hrest : (not ∘ fun i : IncEnt => decide (i.ctr = c.val)) = fun i => decide (i.ctr ≠ c.val) := by
    funext i; simp
  show execCounterIncrement r c s = _
  simp only [execCounterIncrement, live_awake _ _ ha, List.partition_eq_filter_filter, hne, hrest, Bool.false_eq_true, if_false]

/-- Settles O34: the bank after the applied sum, counter by counter. -/
theorem counterIncrementsSum : Obligations.CounterIncrementsSum := by
  unfold Obligations.CounterIncrementsSum
  intro r c s ha hq
  refine ⟨_, exec_counterIncrement r c s ha hq, ?_⟩
  generalize hv : (((s.syncAt r.val).incQ.filter (fun i => i.ctr = c.val)).map (fun i => i.amount)).foldl (· + ·) 0 = sum
  generalize ((s.syncAt r.val).incQ.filter (fun i => decide (i.ctr = c.val))).length = n
  generalize hz : s.putSync r.val { s.syncAt r.val with incQ := (s.syncAt r.val).incQ.filter (fun i => i.ctr ≠ c.val) } = z
  obtain ⟨hdram, hbank⟩ := applyInc_banks z r.val c.val sum n
  have hzr : z.syncAt r.val = { s.syncAt r.val with incQ := (s.syncAt r.val).incQ.filter (fun i => i.ctr ≠ c.val) } := by
    rw [← hz, syncAt_putSync_same]
  have hr := (hbank r.val).trans (if_pos rfl)
  have hctr : z.ctrAt r.val c.val = s.ctrAt r.val c.val := by simp only [State.ctrAt, hzr]
  refine ⟨?counter, ?others, ?bases, ?queue, ?banks, ?dram⟩
  case counter =>
    simp only [State.ctrAt, hr, hzr, SyncSt.markDue, smapGet_set_same]
    rfl
  case others =>
    intro k hk
    simp only [State.ctrAt, hr, hzr, SyncSt.markDue, smapGet_set_other _ _ _ _ _ hk]
  case bases =>
    intro k
    simp only [State.baseAt, hr, hzr, SyncSt.markDue]
  case queue => simp only [hr, hzr, SyncSt.markDue]
  case banks =>
    intro q hne
    rw [hbank, if_neg hne, ← hz, syncAt_putSync, if_neg hne]
  case dram => rw [hdram, ← hz]; rfl

end Sys2Proof.Machine
end

section
/-! Proofs about ETH.CFG (R720): it is written only while every link of its port is DOWN. -/

namespace Sys2Proof.Machine

/-! ## What a demand and the start of a port leave alone -/

theorem domClear_dram (s : State) (d : Nat) : (s.domClear d).dram = s.dram := by
  unfold State.domClear
  simp only
  split_ifs <;> rfl

/-- A domain that changes state loses at most what lies in it; no byte of a stack does (R823). -/
theorem domGo_dram (s : State) (d : Nat) (st : DomState) : (s.domGo d st).dram = s.dram := by
  have hclear (t : State) : (if st = .off ∨ st = .locked then t.domClear d else t).dram = t.dram := by
    split
    · exact domClear_dram t d
    · rfl
  have hasks (t : State) : (if d < 156 ∧ (s.domAt d).st = .on then t.asksDrop d else t).dram = t.dram := by
    split <;> rfl
  unfold State.domGo
  simp only
  split
  · rfl
  · rw [setEvt_dram, booked_dram (booked_setRg _ _ _ _), hasks, hclear]
    rfl

theorem domRefuse_dram (s : State) (d source reason : Nat) (abort : Bool) : (s.domRefuse d source reason abort).dram = s.dram := by
  have h (off b : Nat) : Booked s ((s.count (pgPwrd d) off 1).setEvt (pgPwrd d) b) := booked_trans (booked_count _ _ _ _) (booked_setEvt _ _ _)
  exact booked_dram (booked_trans (booked_ite (h _ _) (h _ _)) (booked_setRg _ _ _ _))

theorem demand1_dram (s : State) (d source : Nat) : (s.demand1 d source).dram = s.dram := by
  unfold State.demand1
  split
  · exact (domRefuse_dram _ _ _ _ _).trans (domGo_dram _ _ _)
  · exact (domRefuse_dram _ _ _ _ _).trans (domGo_dram _ _ _)
  · split
    · exact (booked_dram (booked_count _ _ _ _)).trans (domGo_dram _ _ _)
    · rfl
  · split
    · exact (booked_dram (booked_count _ _ _ _)).trans (domGo_dram _ _ _)
    · rfl
  · rfl

theorem demand_dram (s : State) (d source : Nat) : (s.demand d source).dram = s.dram := by
  unfold State.demand
  split
  · rw [demand1_dram, demand1_dram]
  · exact demand1_dram _ _ _

/-- The start of a port changes its links alone. -/
theorem portStart_eth (s : State) (p : Nat) : ∃ e, s.portStart p = s.setEth e := by
  unfold State.portStart
  simp only
  induction List.range 4 generalizing s with
  | nil => exact ⟨s.eth, rfl⟩
  | cons k ks ih =>
    rw [List.foldl_cons]
    split
    · obtain ⟨e, he⟩ := ih (s.putLink (p * 4 + k) { s.linkAt (p * 4 + k) with st := .training })
      exact ⟨e, he⟩
    · exact ih s

/-! ## The command -/

section
variable (p : Fin 4) (v : Word) (s : State) (ha : s.awake)
include ha

/-- While a link of the port is not DOWN, the write is a conflict of the page. -/
theorem exec_ethCfgWrite_conflict (k : Nat) (hk : k < 4) (hl : (s.linkAt (p.val * 4 + k)).st ≠ .down) :
    exec (.ethCfgWrite p v) s = .next (s.conflict (pgEth p.val)) := by
  have hany : (List.range 4).any (fun k => decide ((s.linkAt (p.val * 4 + k)).st ≠ .down)) = true :=
    List.any_eq_true.2 ⟨k, List.mem_range.2 hk, decide_eq_true hl⟩
  show execEthCfgWrite p v s = _
  simp only [execEthCfgWrite, live_awake _ _ ha, hany, if_true]

/-- With all links DOWN, links that become enabled demand the port's domain, the register is written and the port starts. -/
theorem exec_ethCfgWrite_down (hd : ∀ k, k < 4 → (s.linkAt (p.val * 4 + k)).st = .down) :
    exec (.ethCfgWrite p v) s = .next (((if decide (fld v 7 4 ≠ 0) && decide ((s.domAt (180 + p.val)).st ≠ .on)
      then s.demand (180 + p.val) (pgEth p.val) else s).setRg (pgEth p.val) oEthCfg (v &&& word ethCfgMask)).portStart p.val) := by
  have hnone : (List.range 4).any (fun k => decide ((s.linkAt (p.val * 4 + k)).st ≠ .down)) = false :=
    List.any_eq_false.2 fun k hk => by simp [hd k (List.mem_range.1 hk)]
  show execEthCfgWrite p v s = _
  simp only [execEthCfgWrite, live_awake _ _ ha, hnone, Bool.false_eq_true, if_false]
end

/-- Settles O42: the write after at most a demand, or the conflict, which is booking and no register of the block. -/
theorem ethCfgOnlyWhileDown : Obligations.EthCfgOnlyWhileDown := by
  unfold Obligations.EthCfgOnlyWhileDown
  refine fun p v s ha => ⟨fun hd => ⟨_, exec_ethCfgWrite_down p v s ha hd, ?_⟩, fun ⟨k, hk, hl⟩ => ?_⟩
  · have hdem (b : Bool) : (if b then s.demand (180 + p.val) (pgEth p.val) else s).dram = s.dram := by
      cases b
      · rfl
      · exact demand_dram _ _ _
    generalize hz : (State.setRg _ (pgEth p.val) oEthCfg (v &&& word ethCfgMask)) = z
    obtain ⟨e, he⟩ := portStart_eth z p.val
    rw [he, ← hz]
    exact ⟨rg_setRg_same _ _ _ _, hdem _⟩
  · have hb := books_conflict s (pgEth p.val)
    have hplain : keyPlain (regKey (pgEth p.val) oEthCfg) :=
      keyPlain_of _ _ (by decide) (by unfold pgEth; omega)
    exact ⟨_, exec_ethCfgWrite_conflict p v s ha k hk hl, rfl, booked_eth hb.1, regsKept_rg hb.2 _ _ hplain⟩

end Sys2Proof.Machine
end

section
/-! Proofs about what a reset of the device leaves (R924, R965, R966, R991). -/

namespace Sys2Proof.Machine

/-! ## The stacks after a reset (R991) -/

/-- A key that does not belong to the lost part reads as before. -/
theorem smapGet_dropKeys_other {α : Type} (d : Nat → α) (m : SMap α) (mine : Nat → Bool) (k : Nat) (h : mine k = false) :
    smapGet d (dropKeys m mine) k = smapGet d m k := by
  induction m with
  | nil => rfl
  | cons e m ih =>
    by_cases he : mine e.1 = true
    · have hk : k ≠ e.1 := fun hk => by simp [← hk, h] at he
      rw [dropKeys, List.filter_cons_of_neg (by simp [he]), ← dropKeys, smapGet, if_neg hk, ih]
    · rw [dropKeys, List.filter_cons_of_pos (by simp [he]), ← dropKeys, smapGet, smapGet, ih]

/-- Zeroing a stack's data takes the bytes of its data granules and keeps every other byte. -/
theorem stackZero_byte (s : State) (n b : Nat) :
    (s.stackZero n).dram.byte b = if dataKey n (b / 32) then 0 else s.dram.byte b := by
  split
  · exact smapGet_dropKeys _ _ (fun k => dataKey n (k / 32)) b ‹_›
  · exact smapGet_dropKeys_other _ _ (fun k => dataKey n (k / 32)) b (Bool.eq_false_iff.2 ‹_›)

/-- A byte in a data granule of one of the stacks that are zeroed reads zero. -/
theorem foldl_stackZero_byte (ns : List Nat) (s : State) (b : Nat) (h : (∃ n ∈ ns, dataKey n (b / 32) = true) ∨ s.dram.byte b = 0) :
    (ns.foldl (fun t n => t.stackZero n) s).dram.byte b = 0 := by
  induction ns generalizing s with
  | nil => simpa using h
  | cons m ns ih =>
    refine ih _ ?_
    rw [stackZero_byte]
    by_cases hm : dataKey m (b / 32) = true
    · exact Or.inr (if_pos hm)
    · rw [if_neg hm]
      refine h.imp_left fun ⟨n, hn, hk⟩ => ⟨n, (List.mem_cons.1 hn).resolve_left ?_, hk⟩
      rintro rfl
      exact hm hk

/-- An access of a pseudo-channel within its data granules is a data access of its stack (R114, R132). -/
theorem dataKey_access (d a i : Nat) (ha : a / 8 < dataSlots) (hi : i < 32) : dataKey (d / 64) ((accByte d a + i) / 32) = true := by
  have ha' : a < 31250000 := by unfold dataSlots at ha; omega
  have hkey : (accByte d a + i) / 32 = d * 2 ^ 25 + a := by unfold accByte; omega
  rw [hkey, dataKey, Bool.and_eq_true, decide_eq_true_eq, decide_eq_true_eq]
  unfold dataSlots
  omega

theorem resetAll_data_zero (c : Nat) (s : State) (d a i : Nat) (hd : d < 768) (ha : a / 8 < dataSlots) (hi : i < 32) :
    (s.resetAll c).dram.byte (accByte d a + i) = 0 :=
  foldl_stackZero_byte _ s _ (Or.inl ⟨d / 64, List.mem_range.2 (by omega), dataKey_access d a i ha hi⟩)

/-! ## The statement -/

/-- Settles O59: the reset state is listed field by field; a reset of the device is that state but for the fields it keeps, and its stacks'
data are zeroed. -/
theorem resetLeaves : Obligations.ResetLeaves := by
  unfold Obligations.ResetLeaves
  refine ⟨⟨rfl, reset_memSound, rfl, rfl, rfl, fun _ => rfl, fun _ => rfl, fun _ => rfl, fun _ _ => rfl, fun _ _ => rfl⟩, fun c s => ?_⟩
  exact ⟨rfl, rfl, rfl, rfl, rfl, rfl, rfl, rfl, rfl, rfl, rfl, rfl, resetAll_data_zero c s⟩

end Sys2Proof.Machine
end

section
/-! Proofs about the snapshots of the ledger (R679 to R682, R688). -/

namespace Sys2Proof.Machine

/-! ## Results -/

theorem booked_bookFail (s : State) (i e : Nat) : Booked s (s.bookFail i e) :=
  booked_trans (booked_count _ _ _ _) (booked_trans (booked_setEvt _ _ _) (booked_error _ _ _))

/-- The results of a book, and the checks of it that fail, are booking (R688, R689). -/
theorem booked_bookWrite (s : State) (i : Nat) (b : List Nat) : Booked s (s.bookWrite i b) := by
  unfold State.bookWrite
  have hfail (t : State) (e : Nat) (c : Bool) : Booked t (if c then t else t.bookFail i e) :=
    booked_ite (booked_refl t) (booked_bookFail t i e)
  refine booked_trans (booked_trans ?_ (hfail _ _ _)) (booked_ite (booked_bookFail _ _ _) (booked_refl _))
  exact booked_trans (booked_foldl _ _ (fun _ _ => booked_setRg _ _ _ _) s) (booked_setRg _ _ _ _)

theorem booked_bookWrites (bs : List (List Nat)) (i : Nat) (s : State) : Booked s (s.bookWrites i bs) := by
  induction bs generalizing i s with
  | nil => exact booked_refl s
  | cons b bs ih => exact booked_trans (booked_bookWrite s i b) (ih _ _)

/-- The last bookings of a snapshot keep the other registers of the page. -/
theorem rg_snapshotCounted (s : State) (off : Nat) (ho : 0x200 ≤ off ∧ off < 0x1000)
    (hn : regKey pgLedger off ≠ regKey pgLedger oLedgerSnapCount) :
    ((s.count pgLedger oLedgerSnapCount 1).setEvt pgLedger 0).rg pgLedger off = s.rg pgLedger off := by
  have hplain : keyPlain (regKey pgLedger off) := keyPlain_of _ _ (by omega) (by decide)
  have hstatus : regKey pgLedger off ≠ regKey pgLedger oEvtStatus := by simp only [regKey, oEvtStatus]; omega
  rw [setEvt_rg_other _ _ _ _ _ hplain hstatus, count_rg_other _ _ _ _ _ _ hplain hn]

/-! ## The commands -/

section
variable (s : State) (ha : s.awake)
include ha

theorem exec_snapCmd_arms (v : Word) (hn : s.snap = none) (hv : bit v 0 = true) :
    exec (.snapCmd v) s = .next ((s.setSnap (some ⟨max (s.rg pgLedger oLedgerSnapAt).toNat (s.ns + 1000), none⟩)).setRg pgLedger
      oLedgerSnapStatus 1) := by
  show execSnapCmd v s = _
  simp only [execSnapCmd, live_awake _ _ ha, hn, hv, Option.isSome_none, Bool.false_eq_true, if_false, if_true]

theorem exec_snapCmd_misuse (v : Word) (hn : s.snap.isSome = true) : exec (.snapCmd v) s = .next (s.setEvt pgLedger 3) :=
  (live_awake s _ ha).trans (if_pos hn)

theorem exec_snapshotLatch (t : Nat) (hn : s.snap = some ⟨t, none⟩) :
    exec .snapshotLatch s = .next (if t ≤ s.ns then s.setSnap (some ⟨t, some s.books⟩) else s) := by
  show execSnapshotLatch s = _
  simp only [execSnapshotLatch, live_awake _ _ ha, hn]

theorem exec_snapshotDone (t : Nat) (bs : List (List Nat)) (hn : s.snap = some ⟨t, some bs⟩) :
    exec .snapshotDone s = .next ((((((s.setSnap none).bookWrites 0 bs).setRg pgLedger oLedgerSnapStatus 2).setRg pgLedger oLedgerSnapSt
      (word t)).count pgLedger oLedgerSnapCount 1).setEvt pgLedger 0) := by
  show execSnapshotDone s = _
  simp only [execSnapshotDone, live_awake _ _ ha, hn]
end

/-- Settles O41: each command in the phase of the snapshot it meets. -/
theorem ledgerSnapshot : Obligations.LedgerSnapshot := by
  unfold Obligations.LedgerSnapshot
  refine ⟨?arms, ?misuse, ?latches, ?waits, ?done⟩
  case arms => exact fun v s ha hn hv => exec_snapCmd_arms s ha v hn hv
  case misuse => exact fun v s ha hn => exec_snapCmd_misuse s ha v hn
  case latches =>
    intro s t ha hn ht
    rw [exec_snapshotLatch s ha t hn, if_pos ht]
  case waits =>
    intro s t ha hn ht
    rw [exec_snapshotLatch s ha t hn, if_neg (Nat.not_le.2 ht)]
  case done =>
    intro s t bs ha hn
    refine ⟨_, exec_snapshotDone s ha t bs hn, ?_, ?_, ?_⟩
    · rw [booked_snap (booked_setEvt _ _ _), booked_snap (booked_count _ _ _ _), booked_snap (booked_setRg _ _ _ _),
        booked_snap (booked_setRg _ _ _ _), booked_snap (booked_bookWrites bs 0 _)]
      rfl
    · rw [rg_snapshotCounted _ _ (by decide) (by decide), rg_setRg_other _ _ _ _ _ _ (by decide), rg_setRg_same]
    · rw [rg_snapshotCounted _ _ (by decide) (by decide), rg_setRg_same]

end Sys2Proof.Machine
end

section
/-! Proofs about the transfers of a region (R572 to R616): post, activation, delivery of a row, halt, and the end of a drain. -/

namespace Sys2Proof.Machine

/-! ## Post and activation (R580, R581) -/

theorem exec_transferPost (r : Region) (s : State) (ha : s.awake) : exec (.transferPost r) s = .next (s.xferPost r.val) := live_awake s _ ha

/-- An enabled queue starts its first queued transfer within its depth. -/
theorem exec_transferActivate_starts (r : Region) (q : Fin 64) (e : Nat × XferSt) (s : State) (ha : s.awake)
    (hq : bit (s.rg (pgComet r.val) (oCometQctl + 8 * q.val)) 16 = true)
    (he : (((s.cometAt r.val).queue q.val).take (s.qDepth r.val q.val)).find? (fun e => e.2.st = .queued) = some e) :
    exec (.transferActivate r q) s = .next (s.xferStart r e.1) := by
  show execTransferActivate r q s = _
  simp only [execTransferActivate, live_awake _ _ ha, hq, he, if_true]

/-! ## Delivery of a row (R583 to R595) -/

/-- A row of an active transfer that is neither delivered nor behind a saved row: rows are issued up to it, and it is delivered from its
buffer. -/
theorem exec_rowDelivered (r : Region) (i : Fin 1024) (row : Nat) (s : State) (ha : s.awake) (hst : (s.xferAt r.val i.val).st = .active)
    (ht : row < (s.xferAt r.val i.val).total) (hp : (s.xferAt r.val i.val).prefix_ ≤ row)
    (hr : (s.xferAt r.val i.val).rows.contains row = false) (hs : (s.xferAt r.val i.val).saved = none) :
    exec (.rowDelivered r i row) s =
      match ((s.rowIssue r i.val row).xferAt r.val i.val).waitMet,
        ((s.rowIssue r i.val row).xferAt r.val i.val).bufs.find? (fun b => b.row = row) with
      | true, some b => .next ((s.rowIssue r i.val row).rowDeliver r i.val b)
      | _, _ => .next (s.rowIssue r i.val row) := by
  have hgo : ¬((s.xferAt r.val i.val).st ≠ .active ∨ (s.xferAt r.val i.val).total ≤ row ∨ row < (s.xferAt r.val i.val).prefix_ ∨
      (s.xferAt r.val i.val).rows.contains row = true ∨ (s.xferAt r.val i.val).saved.any (fun k => decide (k ≤ row)) = true) := by
    simp only [hst, hr, hs, Option.any_none, ne_eq, not_true_eq_false, Bool.false_eq_true, or_false, false_or]
    omega
  show execRowDelivered r i row s = _
  rw [execRowDelivered, live_awake _ _ ha]
  exact if_neg hgo

theorem rowDeliver_delivers (r : Region) (i : Nat) (b : RowBuf) (z u s : State) (hx : s.xferRow r i b = (true, z))
    (hu : u = (z.putXfer r.val i (XferSt.advance { z.xferAt r.val i with
      rows := (z.xferAt r.val i).rows ++ [b.row]
      bufs := (z.xferAt r.val i).bufs.filter (fun c => c.row ≠ b.row) } ((z.xferAt r.val i).rows.length + 2)))) :
    s.rowDeliver r i b = (u.count (pgComet r.val) oCometRows 1).xferSignal r.val i (z.xferAt r.val i).prefix_ := by
  rw [State.rowDeliver, hx, hu]
  simp only [List.length_append, List.length_singleton]

theorem rowDeliver_faults (r : Region) (i : Nat) (b : RowBuf) (z s : State) (hx : s.xferRow r i b = (false, z)) :
    s.rowDeliver r i b = z.rowFault r i b.row := by
  rw [State.rowDeliver, hx]

/-! ## Halt and drain (R592, R601, R604) -/

/-- A transfer with a saved row halts once what it issued below the row is delivered, or while its wait is not met. -/
theorem exec_transferHalt_halts (r : Region) (i : Fin 1024) (k : Nat) (s : State) (ha : s.awake)
    (hst : (s.xferAt r.val i.val).st = .active) (hs : (s.xferAt r.val i.val).saved = some k)
    (hw : (s.xferAt r.val i.val).waitMet = true → (s.xferAt r.val i.val).bufs = []) :
    exec (.transferHalt r i) s = .next (((s.putXfer r.val i.val { s.xferAt r.val i.val with
      st := .halted, next := k, rows := (s.xferAt r.val i.val).rows.filter (fun j => decide (j < k)) }).count (pgComet r.val)
        oCometHalts 1).setEvt (pgComet r.val) 0) := by
  have hgo : ((s.xferAt r.val i.val).waitMet && !(s.xferAt r.val i.val).bufs.isEmpty) = false := by
    cases h : (s.xferAt r.val i.val).waitMet
    · rfl
    · rw [hw h]; rfl
  show execTransferHalt r i s = _
  simp only [execTransferHalt, live_awake _ _ ha, hst, hs, hgo, Bool.false_eq_true, if_false]

theorem exec_transferDrainDone_cancelled (r : Region) (i : Fin 1024) (s : State) (ha : s.awake)
    (hst : (s.xferAt r.val i.val).st = .draining) (he : (s.xferAt r.val i.val).ended = 0) :
    exec (.transferDrainDone r i) s =
      .next ((s.count (pgComet r.val) oCometCancelRd (s.xferAt r.val i.val).flight).xferCancelled r.val i.val) := by
  show execTransferDrainDone r i s = _
  simp only [execTransferDrainDone, live_awake _ _ ha, hst, he, if_true]

/-- Settles O40: each command by its equation; a row by what its write answers. -/
theorem transferSteps : Obligations.TransferSteps := by
  unfold Obligations.TransferSteps
  refine ⟨exec_transferPost, exec_transferActivate_starts, ?row, rowDeliver_delivers, rowDeliver_faults, exec_transferHalt_halts,
    exec_transferDrainDone_cancelled⟩
  rintro r i row z s ha hst ht hp hr hs rfl
  have hrow := exec_rowDelivered r i row s ha hst ht hp hr hs
  refine ⟨fun b hw hb => by rw [hrow, hw, hb], fun hno => hrow.trans ?_⟩
  split
  · rename_i hw hb
    simp [hw, hb] at hno
  · rfl

end Sys2Proof.Machine
end

section
/-! Proofs about software writes of counters (R624, R665) and about the release, the re-offer and the timeout of waits (R629 to R635). -/

namespace Sys2Proof.Machine

/-! ## Writes of a counter (R624, R665) -/

section
variable (r : Region) (v : Word) (s : State) (ha : s.awake)
include ha

/-- A counter that no wait and no admitted request uses takes the written value. -/
theorem exec_ctrSetWrite_sets
    (hw : ((s.syncAt r.val).waits ++ (s.syncAt r.val).held).any (fun w => w.ctr = s.rf (pgSync r.val) oSyncCtrSel 11 0) = false)
    (ho : s.ctrOwned r.val (s.rf (pgSync r.val) oSyncCtrSel 11 0) = false) :
    exec (.ctrSetWrite r v) s = .next (s.putCtr r.val (s.rf (pgSync r.val) oSyncCtrSel 11 0) v.toNat) := by
  show execCtrSetWrite r v s = _
  simp only [execCtrSetWrite, live_awake _ _ ha, hw, ho, Bool.or_self, Bool.false_eq_true, if_false]

/-- A counter with a wait keeps its value. -/
theorem exec_ctrSetWrite_refused
    (hw : ((s.syncAt r.val).waits ++ (s.syncAt r.val).held).any (fun w => w.ctr = s.rf (pgSync r.val) oSyncCtrSel 11 0) = true) :
    exec (.ctrSetWrite r v) s = .next ((s.count (pgSync r.val) oSyncSetRefused 1).setEvt (pgSync r.val) 3) := by
  show execCtrSetWrite r v s = _
  simp only [execCtrSetWrite, live_awake _ _ ha, hw, Bool.true_or, if_true]

/-- An increment by a non-zero amount is on its way to the counter of the region. -/
theorem exec_ctrIncWrite (hv : fld v 63 32 ≠ 0) :
    exec (.ctrIncWrite r v) s = .next (s.putSync r.val { s.syncAt r.val with
      incQ := (s.syncAt r.val).incQ ++ [⟨fld v 11 0, fld v 63 32, none⟩] }) := by
  have hgo : ¬(fld v 63 32 = 0 ∨ 11 < r.val) := by
    have := r.isLt
    omega
  show execCtrIncWrite r v s = _
  simp only [execCtrIncWrite, live_awake _ _ ha, State.issueInc, if_neg hgo]
end

/-! ## Waits (R629 to R635) -/

/-- The first element in key order is one of the list. -/
theorem firstBy_mem {α : Type} (key : α → List Nat) (l : List α) (x : α) (h : firstBy key l = some x) : x ∈ l := by
  induction l generalizing x with
  | nil => simp [firstBy] at h
  | cons a l ih =>
    rw [firstBy] at h
    split at h
    · exact Option.some.inj h ▸ List.mem_cons_self
    · rename_i y hy
      have hmem := ih y hy
      split at h
      · exact Option.some.inj h ▸ List.mem_cons_of_mem _ hmem
      · exact Option.some.inj h ▸ List.mem_cons_self

/-- At most n waits are released at once. -/
theorem takeDue_length_le (n : Nat) (l : List WaitEnt) : (takeDue n l).length ≤ n := by
  induction n generalizing l with
  | zero => exact Nat.le_refl 0
  | succ n ih =>
    rw [takeDue]
    split
    · exact Nat.zero_le _
    · exact Nat.succ_le_succ (ih _)

/-- What is released was in the list. -/
theorem takeDue_mem (n : Nat) (l : List WaitEnt) (w : WaitEnt) (h : w ∈ takeDue n l) : w ∈ l := by
  induction n generalizing l with
  | zero => simp [takeDue] at h
  | succ n ih =>
    rw [takeDue] at h
    split at h
    · simp at h
    · rename_i u hu
      rcases List.mem_cons.1 h with rfl | h
      · exact firstBy_mem _ _ _ hu
      · exact (List.mem_filter.1 (ih _ h)).1

theorem exec_waitRelease (r : Region) (ws : List WaitEnt) (s : State) (ha : s.awake)
    (hw : ws = takeDue 16 ((s.syncAt r.val).waits.filter (fun w => w.due.isSome))) :
    exec (.waitRelease r) s = .next (ws.foldl (fun t w => t.waitMet w.waiter)
      ((s.putSync r.val { s.syncAt r.val with waits := (s.syncAt r.val).waits.filter (fun w => !ws.any (fun v => v.seq = w.seq)) }).count
        (pgSync r.val) oSyncReleases ws.length)) := by
  show execWaitRelease r s = _
  simp only [execWaitRelease, live_awake _ _ ha, ← hw]

theorem exec_waitReoffer (r : Region) (s : State) (ha : s.awake) :
    exec (.waitReoffer r) s = .next (s.reoffer r.val (s.syncAt r.val).held.length) := live_awake s _ ha

/-- A wait whose deadline has passed before it was due leaves the bank, enters its record and is lost to its waiter. -/
theorem exec_waitTimeout_lost (r : Region) (n : Nat) (w : WaitEnt) (s : State) (ha : s.awake)
    (hw : ((s.syncAt r.val).waits ++ (s.syncAt r.val).held).find? (fun w => w.seq = n) = some w) (hdue : w.due = none) (hd : w.dead < s.ns) :
    exec (.waitTimeout r n) s = .next ((((((s.putSync r.val { s.syncAt r.val with
      waits := (s.syncAt r.val).waits.filter (fun v => v.seq ≠ n), held := (s.syncAt r.val).held.filter (fun v => v.seq ≠ n) }).error
        (pgSync r.val) (contained 0x0302 (waiterInfo w.waiter).1 (word (r.val * 2 ^ 12 + w.ctr)) 0)).setRg (pgSync r.val) oSyncToDetail
          (word (waiterInfo w.waiter).2)).count (pgSync r.val) oSyncTimeouts 1).setEvt (pgSync r.val) 0).waitLost w.waiter r.val w.ctr) := by
  have hgo : ¬(w.due.isSome = true ∨ s.ns ≤ w.dead) := by
    rw [hdue]
    simpa using hd
  show execWaitTimeout r n s = _
  simp only [execWaitTimeout, live_awake _ _ ha, hw, if_neg hgo]

/-- Settles O35: each command by its equation; what a release takes out by the recursion of `takeDue`. -/
theorem waitsAndCounterWrites : Obligations.WaitsAndCounterWrites := by
  unfold Obligations.WaitsAndCounterWrites
  exact ⟨⟨exec_ctrSetWrite_sets, exec_ctrSetWrite_refused, exec_ctrIncWrite⟩, exec_waitRelease,
    fun l => ⟨takeDue_length_le 16 l, takeDue_mem 16 l⟩, exec_waitReoffer, exec_waitTimeout_lost⟩

end Sys2Proof.Machine
end

section
/-! Proofs about the dispatcher of a region (R644 to R655): task entries read, asks kept and answered, deliveries, SIGNAL tasks, and idle
units that gate their clock (R636). -/

namespace Sys2Proof.Machine

/-! ## Task entries (R644) -/

section
variable (r : Region) (slot : Nat) (n : LaunchEnt) (k : Nat) (s : State) (ha : s.awake) (hl : s.nextList r.val = some (slot, n, k))
include ha hl

/-- A full window counts and raises its event. -/
theorem exec_taskEntryRead_full (hf : (s.dispAt r.val).freeEntry = none) :
    exec (.taskEntryRead r) s = .next ((s.count (pgDisp r.val) oDispWinFullCyc 1).setEvt (pgDisp r.val) 3) := by
  show execTaskEntryRead r s = _
  simp only [execTaskEntryRead, live_awake _ _ ha, hl, hf]

/-- A sound entry takes a free place of the window and registers its three waits. -/
theorem exec_taskEntryRead_takes (e : Nat) (bs : List Byte) (ps : List Bool) (z u v : State) (hf : (s.dispAt r.val).freeEntry = some e)
    (hpk : s.parkedAt r.val (.list slot r) = false)
    (hrd : s.readVa r.val (.list slot r) false (n.listVa + 256 * k) 256 = (some (bs, ps), z)) (hps : ps.any id = false)
    (hok : taskEntryOk bs = true)
    (hu : u = z.putDisp r.val { z.dispAt r.val with next := smapSet (fun _ => 0) (z.dispAt r.val).next slot (k + 1), last := slot })
    (hv : v = u.putTask r.val e {
      st := .pending, slot := slot, kind := leAt bs 0 8 / 2 ^ 60, hdr := sliceB bs 0 64,
      payload := u.taskPayload r.val bs, flags := 0, pos := k, since := u.ns, readyAt := 0 }) :
    exec (.taskEntryRead r) s = .next (((List.range 3).foldl (fun s i => s.taskWait r e i)
      (v.putDisp r.val { v.dispAt r.val with hwm := max (v.dispAt r.val).hwm (v.dispAt r.val).window.length })).taskCheck r.val e) := by
  show execTaskEntryRead r s = _
  simp only [execTaskEntryRead, live_awake _ _ ha, hl, hf, hpk, hrd, hps, hok, ← hu, ← hv, Bool.not_true, Bool.or_self, Bool.false_eq_true,
    if_false]
end

/-! ## Asks and deliveries (R651 to R655) -/

section
variable (clu : Clu) (k : UnitKind) (l : Nat) (s : State) (ha : s.awake) (hl : s.logClu clu.val = some l)
  (hu : s.unitAccepts clu.val k = true) (hn : (s.dispAt (cluRegion clu.val)).asks.contains (clu.val, k) = false)
  (hd : (s.domAt clu.val).st = .on)
include hu hn hd

/-- The ask is looked at: no condition under which it is dropped holds. -/
theorem ask_considered : (!s.unitAccepts clu.val k || (s.dispAt (cluRegion clu.val)).asks.contains (clu.val, k) ||
    decide ((s.domAt clu.val).st ≠ .on)) = false := by
  rw [hu, hn, hd]; rfl

include ha hl

/-- An ask no ready task fits is kept. -/
theorem exec_ask_kept (hf : s.readyFirst (cluRegion clu.val) (unitKindCode k) (fun t => t.cluMask.testBit l) = none) :
    exec (.ask clu k) s = .next (s.putDisp (cluRegion clu.val) { s.dispAt (cluRegion clu.val) with
      asks := (s.dispAt (cluRegion clu.val)).asks ++ [(clu.val, k)] }) := by
  show execAsk clu k s = _
  simp only [execAsk, live_awake _ _ ha, hl, ask_considered clu k s hu hn hd, hf, Bool.false_eq_true, if_false]

/-- An ask is answered with the first ready task of its kind that its cluster may run. -/
theorem exec_ask_answered (e : Nat) (t : TaskSt)
    (hf : s.readyFirst (cluRegion clu.val) (unitKindCode k) (fun t => t.cluMask.testBit l) = some (e, t)) :
    exec (.ask clu k) s = .next (s.deliverTo (cluRegion clu.val) e (unitKindCode k) clu.val k) := by
  show execAsk clu k s = _
  simp only [execAsk, live_awake _ _ ha, hl, ask_considered clu k s hu hn hd, hf, Bool.false_eq_true, if_false]
end

/-! ## SIGNAL tasks and idle units (R636, R647) -/

theorem exec_signalTask_signals (r : Region) (e : Nat) (t : TaskSt) (s : State) (ha : s.awake)
    (hf : s.readyFirst r.val 7 (fun _ => true) = some (e, t)) :
    exec (.signalTask r) s = .next (((s.issueInc (ctrOp (fld (t.hw 0x38) 15 0)).1 (ctrOp (fld (t.hw 0x38) 15 0)).2
      (fld (t.hw 0x38) 63 32)).count (pgDisp r.val) oDispTasksDone 1).taskFree r.val e) := by
  show execSignalTask r s = _
  simp only [execSignalTask, live_awake _ _ ha, hf]

section
variable (clu : Clu) (s : State) (ha : s.awake)
include ha

theorem exec_unitGate_gmx (hk : (s.dispAt (cluRegion clu.val)).asks.contains (clu.val, .gmx) = true) (ht : (s.gmxAt clu.val).tasks = []) :
    exec (.unitGate clu .gmx) s = .next (s.putGmx clu.val { s.gmxAt clu.val with gated := true }) := by
  show execUnitGate clu .gmx s = _
  simp only [execUnitGate, live_awake _ _ ha, hk, ht, List.isEmpty_nil, Bool.and_self, if_true]

theorem exec_unitGate_firefly (hk : (s.dispAt (cluRegion clu.val)).asks.contains (clu.val, .firefly) = true)
    (ht : (s.vecAt clu.val).tasks = []) :
    exec (.unitGate clu .firefly) s = .next (s.putVec clu.val { s.vecAt clu.val with gated := true }) := by
  show execUnitGate clu .firefly s = _
  simp only [execUnitGate, live_awake _ _ ha, hk, ht, List.isEmpty_nil, Bool.and_self, if_true]
end

/-! ## The statement -/

/-- Settles O36: each command by its equation in the case named; a delivery is that of its kind. -/
theorem dispatchSteps : Obligations.DispatchSteps := by
  unfold Obligations.DispatchSteps
  refine ⟨fun r slot n k s ha hl hf => exec_taskEntryRead_full r slot n k s ha hl hf, ?takes, ?kept, ?answered, ?deliver, exec_signalTask_signals,
    exec_unitGate_gmx, exec_unitGate_firefly⟩
  case takes =>
    exact fun r slot n k e bs ps z u v s ha hl hf hpk hrd hps hok hu hv =>
      exec_taskEntryRead_takes r slot n k s ha hl e bs ps z u v hf hpk hrd hps hok hu hv
  case kept => exact fun clu k l s ha hl hu hn hd hf => exec_ask_kept clu k l s ha hl hu hn hd hf
  case answered => exact fun clu k l e t s ha hl hu hn hd hf => exec_ask_answered clu k l s ha hl hu hn hd e t hf
  case deliver =>
    exact fun r s ha => ⟨live_awake s _ ha, live_awake s _ ha, live_awake s _ ha, live_awake s _ ha, live_awake s _ ha, live_awake s _ ha⟩

end Sys2Proof.Machine
end

section
/-! Proofs about what a count changes, of a page (R929, R930) and of a link (R770): registers, and for a link its own; and about rows of
registers that are written one after the other. -/

namespace Sys2Proof.Machine

/-! ## Counts of a page -/

theorem cntSrc_frame (s : State) (pg src n : Nat) : ∃ r, s.cntSrc pg src n = s.setRegs r := by
  have hfold (is : List Nat) (t : State) : ∃ r, is.foldl (fun t i => t.cntOne pg src n i) t = t.setRegs r := by
    induction is generalizing t with
    | nil => exact ⟨t.regs, rfl⟩
    | cons i is ih =>
      obtain ⟨r, hr⟩ := ih (t.cntOne pg src n i)
      refine ⟨r, hr.trans ?_⟩
      unfold State.cntOne
      simp only
      split <;> rfl
  unfold State.cntSrc
  split
  · exact hfold _ s
  · exact ⟨s.regs, rfl⟩

/-- A count changes registers and nothing else. -/
theorem count_frame (s : State) (pg off n : Nat) : ∃ r, s.count pg off n = s.setRegs r := by
  obtain ⟨r, hr⟩ := cntSrc_frame (s.setRg pg off (s.rg pg off + word n)) pg (0x0200 + (off - 0x200) / 8) n
  exact ⟨r, hr⟩

@[simp] theorem count_qpAt (s : State) (pg off n q : Nat) : (s.count pg off n).qpAt q = s.qpAt q := by
  obtain ⟨r, hr⟩ := count_frame s pg off n
  rw [hr]; rfl

/-! ## Links -/

theorem linkAt_putLink (s : State) (l k : Nat) (v : LinkSt) : (s.putLink l v).linkAt k = if k = l then v else s.linkAt k :=
  smapGet_set _ _ _ _ _

/-- A count of a link adds to the link's register, and changes nothing else but counters of its page. -/
theorem linkCount_frame (s : State) (l off n : Nat) : ∃ r, s.linkCount l off n = (s.setLinkRg l off (s.linkRg l off + word n)).setRegs r :=
  cntSrc_frame _ _ _ _

theorem linkCount_regsKept (s : State) (l off n : Nat) : RegsKept s (s.linkCount l off n) :=
  (books_cntSrc (s.setLinkRg l off (s.linkRg l off + word n)) _ _ _).2

theorem linkAt_linkCount (s : State) (l off n k : Nat) : ∃ rs, (s.linkCount l off n).linkAt k = { s.linkAt k with regs := rs } := by
  obtain ⟨r, hr⟩ := linkCount_frame s l off n
  have hput : ((s.setLinkRg l off (s.linkRg l off + word n)).setRegs r).linkAt k =
      (s.setLinkRg l off (s.linkRg l off + word n)).linkAt k := rfl
  rw [hr, hput, State.setLinkRg, linkAt_putLink]
  split
  · rename_i h
    subst h
    exact ⟨_, rfl⟩
  · exact ⟨_, rfl⟩

theorem linkRg_linkCount_other (s : State) (l off n k off' : Nat) (h : off' ≠ off) :
    (s.linkCount l off n).linkRg k off' = s.linkRg k off' := by
  obtain ⟨r, hr⟩ := linkCount_frame s l off n
  have hput : ((s.setLinkRg l off (s.linkRg l off + word n)).setRegs r).linkRg k off' =
      (s.setLinkRg l off (s.linkRg l off + word n)).linkRg k off' := rfl
  rw [hr, hput, State.setLinkRg, State.linkRg, linkAt_putLink]
  split
  · rename_i hk
    rw [smapGet_set_other _ _ _ _ _ h, hk]; rfl
  · rfl

/-! ## Frames that arrive on a link -/

theorem heard_regsKept (s : State) (l n b : Nat) : RegsKept s (s.heard l n b) := by
  unfold State.heard
  split
  · exact regsKept_trans (linkCount_regsKept _ _ _ _) (linkCount_regsKept _ _ _ _)
  · exact regsKept_refl s

/-- The frames that arrive are counted in registers and links, and change nothing else. -/
theorem heard_frame (s : State) (l n b : Nat) : ∃ r ls, s.heard l n b = (s.setEth { s.eth with links := ls }).setRegs r := by
  unfold State.heard
  split
  · obtain ⟨r, hr⟩ := linkCount_frame s l oEthRxFrames n
    obtain ⟨r', hr'⟩ := linkCount_frame (s.linkCount l oEthRxFrames n) l oEthRxBytes b
    rw [hr', hr]
    exact ⟨r', _, rfl⟩
  · exact ⟨s.regs, s.eth.links, rfl⟩

@[simp] theorem heard_qps (s : State) (l n b : Nat) : (s.heard l n b).qps = s.qps := by
  obtain ⟨r, ls, h⟩ := heard_frame s l n b
  rw [h]; rfl

@[simp] theorem heard_qpAt (s : State) (l n b q : Nat) : (s.heard l n b).qpAt q = s.qpAt q := by
  simp only [State.qpAt, heard_qps]

@[simp] theorem heard_linkSt (s : State) (l n b k : Nat) : ((s.heard l n b).linkAt k).st = (s.linkAt k).st := by
  unfold State.heard
  split
  · obtain ⟨rs, hrs⟩ := linkAt_linkCount s l oEthRxFrames n k
    obtain ⟨rs', hrs'⟩ := linkAt_linkCount (s.linkCount l oEthRxFrames n) l oEthRxBytes b k
    rw [hrs', hrs]
  · rfl

/-- What arrives keeps the registers of a link but for its two counts. -/
theorem heard_linkRg (s : State) (l n b k off : Nat) (hf : off ≠ oEthRxFrames) (hb : off ≠ oEthRxBytes) :
    (s.heard l n b).linkRg k off = s.linkRg k off := by
  unfold State.heard
  split
  · rw [linkRg_linkCount_other _ _ _ _ _ _ hb, linkRg_linkCount_other _ _ _ _ _ _ hf]
  · rfl

/-! ## Rows of registers -/

/-- A row of registers written one after the other: those of the row read what was written, all others as before. -/
theorem rg_foldl_setRg_row (s : State) (pg base : Nat) (v : Nat → Word) (n pg' off' : Nat) :
    ((List.range n).foldl (fun t k => t.setRg pg (base + 8 * k) (v k)) s).rg pg' off' =
      if ∃ k, k < n ∧ regKey pg' off' = regKey pg (base + 8 * k) then v (regKey pg' off' - regKey pg base) else s.rg pg' off' := by
  induction n with
  | zero => simp
  | succ n ih =>
    rw [List.range_succ, List.foldl_append, List.foldl_cons, List.foldl_nil, rg_setRg, ih]
    by_cases hn : regKey pg' off' = regKey pg (base + 8 * n)
    · have hk : regKey pg' off' - regKey pg base = n := by
        rw [hn]; simp only [regKey]; omega
      rw [if_pos hn, if_pos ⟨n, n.lt_succ_self, hn⟩, hk]
    · rw [if_neg hn]
      refine if_congr ⟨fun ⟨k, hk, h⟩ => ⟨k, Nat.lt_succ_of_lt hk, h⟩, fun ⟨k, hk, h⟩ => ⟨k, ?_, h⟩⟩ rfl rfl
      exact Nat.lt_of_le_of_ne (Nat.le_of_lt_succ hk) (fun e => hn (e ▸ h))

theorem rg_foldl_setRg_row_same (s : State) (pg base : Nat) (v : Nat → Word) (n k : Nat) (hk : k < n) :
    ((List.range n).foldl (fun t k => t.setRg pg (base + 8 * k) (v k)) s).rg pg (base + 8 * k) = v k := by
  have hkey : regKey pg (base + 8 * k) - regKey pg base = k := by simp only [regKey]; omega
  rw [rg_foldl_setRg_row, if_pos ⟨k, hk, rfl⟩, hkey]

end Sys2Proof.Machine
end

section
/-! Proofs about the links of a port (R720, R721, R768, R875 to R878) and about the pauses of its priorities (R722 to R724). -/

namespace Sys2Proof.Machine

/-! ## Links that come up and go down (R720, R721, R875 to R878) -/

/-- With all links DOWN and the port's domain ON, the register is written and the port starts. -/
theorem exec_ethCfgWrite_starts (p : Fin 4) (v : Word) (s : State) (ha : s.awake)
    (hd : ∀ k, k < 4 → (s.linkAt (p.val * 4 + k)).st = .down) (hon : (s.domAt (180 + p.val)).st = .on) :
    exec (.ethCfgWrite p v) s = .next ((s.setRg (pgEth p.val) oEthCfg (v &&& word ethCfgMask)).portStart p.val) := by
  rw [exec_ethCfgWrite_down p v s ha hd, hon]
  simp only [ne_eq, not_true_eq_false, decide_false, Bool.and_false, Bool.false_eq_true, if_false]

section
variable (l : Fin 16) (s : State) (ha : s.awake)
include ha

theorem exec_linkTrained (ht : (s.linkAt l.val).st = .training) :
    exec (.linkTrained l) s = .next ((((s.putLink l.val { s.linkAt l.val with st := .up, fails := 0, fec := [] }).setEvt
      (pgEth (l.val / 4)) 0).announce l.val).drainPort (l.val / 4)) :=
  (live_awake s _ ha).trans (if_pos ht)

theorem exec_linkLoss : exec (.linkLoss l) s = .next (s.linkDown l.val) := live_awake s _ ha

/-- A link that is DOWN for 10 ms, wanted and not under a fault, trains again. -/
theorem exec_linkRetryTimer_trains (hd : (s.linkAt l.val).st = .down) (hf : (s.linkAt l.val).fails < 3) (hw : s.linkWanted l.val = true)
    (ht : ∀ t, (s.linkAt l.val).downAt = some t → t + 10 ^ 7 ≤ s.ns) :
    exec (.linkRetryTimer l) s = .next (s.putLink l.val { s.linkAt l.val with st := .training }) := by
  have hgap : ((s.linkAt l.val).downAt.all fun t => decide (t + 10 ^ 7 ≤ s.ns)) = true :=
    Option.all_eq_true _ _ |>.2 fun t h => decide_eq_true (ht t h)
  show execLinkRetryTimer l s = _
  simp only [execLinkRetryTimer, live_awake _ _ ha, hd, hw, if_neg (show (s.linkAt l.val).fails ≠ 4 by omega), hgap,
    decide_eq_true (show (s.linkAt l.val).fails ≠ 3 by omega), decide_true, Bool.and_self, if_true]

theorem exec_linkTrainingFailure_counts (ht : (s.linkAt l.val).st = .training) (hf : (s.linkAt l.val).fails ≠ 4) :
    exec (.linkTrainingFailure l) s =
      .next ((s.linkDown l.val).putLink l.val { (s.linkDown l.val).linkAt l.val with fails := (s.linkAt l.val).fails + 1 }) := by
  show execLinkTrainingFailure l s = _
  simp only [execLinkTrainingFailure, live_awake _ _ ha, ht, ne_eq, not_true_eq_false, if_false, if_neg hf]

/-- An uncorrectable codeword that keeps the count of the last second at its limit or below is counted as a dropped frame. -/
theorem exec_fecUncorrectableCodeword_counts (hu : (s.linkAt l.val).st = .up)
    (hn : ((s.linkAt l.val).fec ++ [s.ns]).countP (fun t => s.ns < t + 10 ^ 9) ≤ 16) :
    exec (.fecUncorrectableCodeword l) s = .next ((((s.putLink l.val { s.linkAt l.val with
      fec := ((s.linkAt l.val).fec ++ [s.ns]).filter (fun t => s.ns < t + 10 ^ 9) }).linkCount l.val oEthFecUncorr 1).linkCount l.val
        oEthFcsErr 1).setEvt (pgEth (l.val / 4)) 2) := by
  rw [List.countP_eq_length_filter] at hn
  show execFecUncorrectableCodeword l s = _
  simp only [execFecUncorrectableCodeword, live_awake _ _ ha, hu, ne_eq, not_true_eq_false, if_false, if_neg (Nat.not_lt.2 hn)]

/-- A faulted link whose lanes are all good is held by a fault outside the device. -/
theorem exec_loopbackDone_good (hf : (s.linkAt l.val).fails = 3) :
    exec (.loopbackDone l 0) s = .next (s.putLink l.val { s.linkAt l.val with fails := 4 }) :=
  ((live_awake s _ ha).trans (if_neg (not_not_intro hf))).trans (if_pos rfl)
end

/-! ## Pauses by priority (R722 to R724) -/

section
variable (p : Fin 4) (s : State) (ha : s.awake)
include ha

theorem exec_pfcFrameRx (mask : Byte) (q : List (BitVec 16)) (hq : q.length = 8) :
    exec (.pfcFrameRx p mask q) s = .next (((onesBelow 8 (mask.toNat &&& s.rf (pgEth p.val) oEthCfg 15 8)).foldl
      (fun t i => t.pauseOne p.val i (q.getD i 0).toNat) ((s.heard (p.val * 4) 1 0).linkCount (p.val * 4) oEthPfcRx 1)).drainPort p.val) :=
  (live_awake s _ ha).trans (if_neg (not_not_intro hq))

theorem exec_pfcPauseExpiry (i : Fin 8) :
    exec (.pfcPauseExpiry p i) s = .next ((s.setEth { s.eth with pauses := s.eth.pauses.filter (fun x =>
      !(decide (x.port = p.val) && decide (x.prio = i.val) && decide (x.until_ ≤ s.ns))) }).drainPort p.val) := live_awake s _ ha

/-- A pause of 100 ms that was not reported is, once. -/
theorem exec_pfcStorm_reports (i : Fin 8) (x : Pause) (hx : s.eth.pauses = [x]) (hp : x.port = p.val) (hi : x.prio = i.val)
    (hs : x.storm = false) (hu : s.ns < x.until_) (h100 : x.since + 10 ^ 8 ≤ s.ns) :
    exec (.pfcStorm p i) s = .next (((s.setEth { s.eth with pauses := [{ x with storm := true }] }).linkCount (p.val * 4)
      oEthPfcStorm 1).setEvt (pgEth p.val) 3) := by
  show execPfcStorm p i s = _
  simp only [execPfcStorm, live_awake _ _ ha, hx, List.any_cons, List.any_nil, List.map_cons, List.map_nil, hp, hi, hs, hu, h100,
    decide_true, Bool.not_false, Bool.and_self, Bool.or_false, if_true]
end

/-- Settles O43: each command by its equation in the state named. -/
theorem linkStates : Obligations.LinkStates := by
  unfold Obligations.LinkStates
  refine ⟨⟨exec_ethCfgWrite_starts, ?conflict, exec_linkTrained, exec_linkLoss, exec_linkRetryTimer_trains, exec_linkTrainingFailure_counts,
    exec_fecUncorrectableCodeword_counts, exec_loopbackDone_good⟩, ?frame, fun p i s ha => exec_pfcPauseExpiry p s ha i, ?storm⟩
  case conflict => exact fun p v k s ha hk hl => exec_ethCfgWrite_conflict p v s ha k hk hl
  case frame => exact fun p mask q s ha hq => exec_pfcFrameRx p s ha mask q hq
  case storm => exact fun p i x s ha hx hp hi hs hu h100 => exec_pfcStorm_reports p s ha i x hx hp hi hs hu h100

end Sys2Proof.Machine
end

section
/-! Proofs about neighbours, addresses and discovery (R726 to R732). -/

namespace Sys2Proof.Machine

/-! ## Neighbours and addresses (R726 to R728) -/

@[simp] theorem heard_ownV4 (s : State) (l n b k a : Nat) : (s.heard l n b).ownV4 k a = s.ownV4 k a := by
  simp only [State.ownV4, heard_linkRg s l n b k oEthIpv4 (by decide) (by decide)]

section
variable (l : Fin 16) (s : State) (ha : s.awake)
include ha

/-- A request for an address is answered where it is the link's own, and dropped and counted where it is not. -/
theorem exec_neighborPacketRx_arp (a : BitVec 32) (hu : (s.linkAt l.val).st = .up) :
    exec (.neighborPacketRx l (.arp a)) s = .next (if s.ownV4 l.val a.toNat then (s.heard l.val 1 0).sendOn l.val 1 (.neighbor l.val 0)
      else (s.heard l.val 1 0).linkCount l.val oEthDrop 1) := by
  show execNeighborPacketRx l (.arp a) s = _
  simp only [execNeighborPacketRx, live_awake _ _ ha, heard_linkSt, hu, heard_ownV4, ne_eq, not_true_eq_false, if_false]

/-- DHCP changes the address of a link that takes its address from there. -/
theorem exec_addrChange_dhcp (a : AddrInfo) (hs : a.source = 2) (hd : (smapGet (fun _ => 0) s.eth.dhcp l.val).testBit (b2n a.ipv6) = true)
    (hc : s.addrSource l.val a.ipv6 ≠ 1) (hn : (s.addrWrite l.val a).linkAt l.val ≠ s.linkAt l.val) :
    exec (.addrChange l a) s = .next ((((s.addrWrite l.val a).qpErrAll (fun q => decide ((s.addrWrite l.val a).qpLink q = l.val))).setEvt
      (pgEth (l.val / 4)) 4).announce l.val) := by
  have htakes : s.addrTakes l.val a = true := by
    have hnat : a.source.toNat = 2 := by rw [hs]; rfl
    simp only [State.addrTakes, hnat, State.dhcpOn, hd, decide_eq_true hc, Bool.and_self]
  show execAddrChange l a s = _
  simp only [execAddrChange, live_awake _ _ ha, htakes, decide_eq_false hn, Bool.not_true, Bool.or_self, Bool.false_eq_true, if_false]

/-! ## Discovery (R729 to R732) -/

theorem exec_discoveryAnnounce_due (hd : (s.linkAt l.val).annAt + max 100 (fld (s.linkRg l.val oEthDiscCtl) 15 0) * 1000000 ≤ s.ns) :
    exec (.discoveryAnnounce l) s = .next (s.announce l.val) :=
  (live_awake s _ ha).trans (congrArg _ (if_pos hd))

/-- The answer to a query of another device is due after a delay by the device number. -/
theorem exec_discoveryQueryRx_queues (hu : (s.linkAt l.val).st = .up) :
    exec (.discoveryQueryRx l false) s = .next (s.setEth { s.eth with
      queries := s.eth.queries ++ [(l.val, s.ns + s.rf pgDev oDevDevNum 11 0 % 64 * 100000)] }) := by
  show execDiscoveryQueryRx l false s = _
  simp only [execDiscoveryQueryRx, live_awake _ _ ha, hu, ne_eq, not_true_eq_false, decide_false, Bool.or_self, Bool.false_eq_true, if_false]

theorem exec_discoveryQueryAnswer_sends (q : Nat × Nat)
    (hq : s.eth.queries.find? (fun q => decide (q.1 = l.val) && decide (q.2 ≤ s.ns)) = some q) (hu : (s.linkAt l.val).st = .up) :
    exec (.discoveryQueryAnswer l) s =
      .next ((s.setEth { s.eth with queries := s.eth.queries.erase q }).discSend l.val 1 true) := by
  have hup : ((s.setEth { s.eth with queries := s.eth.queries.erase q }).linkAt l.val).st = .up := hu
  show execDiscoveryQueryAnswer l s = _
  simp only [execDiscoveryQueryAnswer, live_awake _ _ ha, hq, hup, if_true]
end

/-- A message that is written to the discovery record its page names next (R732). -/
def State.discStore (s : State) (l : Nat) (p : List Byte) : State :=
  (((List.range 8).foldl (fun t k => t.setRg (pgEth (l / 4)) (0x400 + 64 * s.rf (pgEth (l / 4)) oEthDiscNext 3 0 + 8 * k) (wordAt p (8 * k)))
    s).setRg (pgEth (l / 4)) oEthDiscNext (word ((s.rf (pgEth (l / 4)) oEthDiscNext 3 0 + 1) % 16)))

theorem exec_discoveryRx_stores (l : Fin 16) (p : List Byte) (s : State) (ha : s.awake) (h64 : p.length = 64)
    (hm : leAt p 0 4 = 0x5A475631) (hv : leAt p 4 1 = 1) (hu : (s.linkAt l.val).st = .up) :
    exec (.discoveryRx l p) s =
      .next ((((s.heard l.val 1 p.length).discStore l.val p).linkCount l.val oEthDiscRx 1).setEvt (pgEth (l.val / 4)) 5) := by
  show execDiscoveryRx l p s = _
  simp only [execDiscoveryRx, live_awake _ _ ha, h64, hm, hv, heard_linkSt, hu, and_self, if_true, State.discStore]

/-- The record and the number of the next one read what was stored. -/
theorem discStore_rg (s : State) (l : Nat) (p : List Byte) :
    (∀ k, k < 8 → (s.discStore l p).rg (pgEth (l / 4)) (0x400 + 64 * s.rf (pgEth (l / 4)) oEthDiscNext 3 0 + 8 * k) = wordAt p (8 * k)) ∧
    (s.discStore l p).rg (pgEth (l / 4)) oEthDiscNext = word ((s.rf (pgEth (l / 4)) oEthDiscNext 3 0 + 1) % 16) := by
  refine ⟨fun k hk => ?_, rg_setRg_same _ _ _ _⟩
  rw [State.discStore, rg_setRg_other _ _ _ _ _ _ (by simp only [regKey, oEthDiscNext]; omega), rg_foldl_setRg_row_same _ _ _ _ _ _ hk]

/-- Settles O44: each command by its equation; a stored message is read back through the counts that follow. -/
theorem neighborsAndDiscovery : Obligations.NeighborsAndDiscovery := by
  unfold Obligations.NeighborsAndDiscovery
  refine ⟨?own, ?other, ?addr, exec_discoveryAnnounce_due, exec_discoveryQueryRx_queues, ?answer, ?stores⟩
  case own => exact fun l a s ha hu ho => by rw [exec_neighborPacketRx_arp l s ha a hu, if_pos ho]
  case other => exact fun l a s ha hu ho => by rw [exec_neighborPacketRx_arp l s ha a hu, ho, if_neg Bool.false_ne_true]
  case addr => exact fun l a s ha hs hd hc hn => exec_addrChange_dhcp l s ha a hs hd hc hn
  case answer => exact fun l q s ha hq hu => exec_discoveryQueryAnswer_sends l s ha q hq hu
  case stores =>
    intro l p s ha h64 hm hv hu
    refine ⟨_, exec_discoveryRx_stores l p s ha h64 hm hv hu, ?_⟩
    have hblock (t : State) (off : Nat) (ho : 0x200 ≤ off ∧ off < 0x1000) :
        ((t.linkCount l.val oEthDiscRx 1).setEvt (pgEth (l.val / 4)) 5).rg (pgEth (l.val / 4)) off = t.rg (pgEth (l.val / 4)) off := by
      have hplain : keyPlain (regKey (pgEth (l.val / 4)) off) := keyPlain_of _ _ (by omega) (by unfold pgEth; omega)
      rw [setEvt_rg_other _ _ _ _ _ hplain (by simp only [regKey, oEvtStatus]; omega),
        regsKept_rg (linkCount_regsKept _ _ _ _) _ _ hplain]
    have hnext : (s.heard l.val 1 p.length).rf (pgEth (l.val / 4)) oEthDiscNext 3 0 = s.rf (pgEth (l.val / 4)) oEthDiscNext 3 0 :=
      congrArg (fld · 3 0) (regsKept_rg (heard_regsKept _ _ _ _) _ _ (keyPlain_of _ _ (by decide) (by unfold pgEth; omega)))
    have hlt : s.rf (pgEth (l.val / 4)) oEthDiscNext 3 0 < 16 := Nat.mod_lt _ (by decide)
    obtain ⟨hrec, hnum⟩ := discStore_rg (s.heard l.val 1 p.length) l.val p
    rw [hnext] at hrec hnum
    refine ⟨fun k hk => ?_, ?_, setEvt_bit _ _ _ (by decide)⟩
    · rw [hblock _ _ (by omega), hrec k hk]
    · rw [hblock _ _ (by decide), hnum]

end Sys2Proof.Machine
end

section
/-! Proofs about the connection manager (R737, R739) and about received requests by their sequence number (R746, R747). -/

namespace Sys2Proof.Machine

/-! ## The connection manager (R737, R739) -/

@[simp] theorem cmHeard_qpAt (s : State) (m : CmMsg) (q : Nat) : (s.cmHeard m).qpAt q = s.qpAt q := heard_qpAt _ _ _ _ _

section
variable (m : CmMsg) (s : State) (ha : s.awake)
include ha

theorem exec_cmDrep : exec (.cmDrep m) s = .next (s.cmHeard m) := live_awake s _ ha

section
variable (hm : cmMine m = true)
include hm

section
variable (z : State) (hq : mgmtQp m.qp.val = false)
  (hz : z = (s.cmHeard m).demandNow (184 + m.qp.val / 4096) (pgRdma (m.qp.val / 4096)))
include hq hz

/-- A request for a queue pair in INIT is accepted once its engine is awake. -/
theorem exec_cmReq_accepts (hi : (z.qpAt m.qp.val).st = .init) :
    exec (.cmReq m) s = .next (((z.cmPeer m).putQp m.qp.val { (z.cmPeer m).qpAt m.qp.val with connected := true }).sendQp m.qp.val 1
      (.cm m.port.val m.qp.val 1)) := by
  show execCmReq m s = _
  simp only [execCmReq, live_awake _ _ ha, hm, ← hz, hq, hi, Bool.not_true, Bool.false_and, Bool.false_eq_true, if_false, if_true]

/-- A request for a queue pair in another state is rejected. -/
theorem exec_cmReq_rejects (hi : (z.qpAt m.qp.val).st ≠ .init) :
    exec (.cmReq m) s = .next (z.sendQp m.qp.val 1 (.cm m.port.val m.qp.val 3)) := by
  show execCmReq m s = _
  simp only [execCmReq, live_awake _ _ ha, hm, ← hz, hq, if_neg hi, Bool.not_true, Bool.false_and, Bool.false_eq_true, if_false]
end

theorem exec_cmRep_connects (hi : (s.qpAt m.qp.val).st = .init) :
    exec (.cmRep m) s = .next ((((s.cmHeard m).cmPeer m).cmUp m.qp.val).sendQp m.qp.val 1 (.cm m.port.val m.qp.val 2)) := by
  show execCmRep m s = _
  simp only [execCmRep, live_awake _ _ ha, hm, cmHeard_qpAt, hi, decide_true, Bool.and_self, if_true]

theorem exec_cmRtu_connects (hi : (s.qpAt m.qp.val).st = .init) (hc : (s.qpAt m.qp.val).connected = true) :
    exec (.cmRtu m) s = .next (((s.cmHeard m).putQp m.qp.val { s.qpAt m.qp.val with connected := false }).cmUp m.qp.val) := by
  show execCmRtu m s = _
  simp only [execCmRtu, live_awake _ _ ha, hm, cmHeard_qpAt, hi, hc, decide_true, Bool.and_self, if_true]

theorem exec_cmRej_ends : exec (.cmRej m) s = .next ((s.cmHeard m).putQp m.qp.val { s.qpAt m.qp.val with connected := false }) := by
  show execCmRej m s = _
  simp only [execCmRej, live_awake _ _ ha, hm, cmHeard_qpAt, if_true]

theorem exec_cmDreq_disconnects (hu : (s.qpAt m.qp.val).up = true) :
    exec (.cmDreq m) s = .next (((s.cmHeard m).qpErr m.qp.val).sendQp m.qp.val 1 (.cm m.port.val m.qp.val 5)) := by
  show execCmDreq m s = _
  simp only [execCmDreq, live_awake _ _ ha, hm, cmHeard_qpAt, hu, Bool.and_self, if_true]
end
end

/-! ## Received requests (R746, R747) -/

/-- How far the sequence number of a request lies before the expected one, modulo 2^24. -/
def State.psnGap (s : State) (h : RxHdr) : Nat := (h.psn.toNat + 2 ^ 24 - (s.qpAt h.qp.val).rqPsn) % 2 ^ 24

/-- The commands that bring a request with a header, each with the request it brings. -/
def rxRows (h : RxHdr) (pl : List Byte) (imm : BitVec 32) (va : Word) (rk : BitVec 32) (d : List Byte) (n : Nat) (w1 w2 : Word) :
    List (Instr × TxOp) :=
  [(.rxSend h pl, .send pl none), (.rxSendImm h imm pl, .send pl (some imm.toNat)), (.remoteIncrementRx h pl, .send pl (some sigImm)),
    (.rxWrite h va rk d, .write va rk.toNat d none), (.rxWriteImm h imm va rk d, .write va rk.toNat d (some imm.toNat)),
    (.rxRead h va rk n, .read va rk.toNat n), (.rxFetchAdd h va rk w1, .fetchAdd va rk.toNat w1),
    (.rxCmpSwap h va rk w1 w2, .cmpSwap va rk.toNat w1 w2)]

/-- Each of the eight is the arrival of its request. -/
theorem exec_rxRow (h : RxHdr) (pl : List Byte) (imm : BitVec 32) (va : Word) (rk : BitVec 32) (d : List Byte) (n : Nat) (w1 w2 : Word)
    (e : Instr × TxOp) (s : State) (ha : s.awake) (he : e ∈ rxRows h pl imm va rk d n w1 w2) : exec e.1 s = s.rxArrive h e.2 := by
  simp only [rxRows, List.mem_cons, List.not_mem_nil, or_false] at he
  rcases he with rfl | rfl | rfl | rfl | rfl | rfl | rfl | rfl <;> exact live_awake s _ ha

section
variable (s : State) (h : RxHdr) (op : TxOp) (ht : s.takesRx h)
include ht

/-- A request that its queue pair takes is counted and told by its distance from the expected sequence number. -/
theorem rxArrive_taken : s.rxArrive h op =
    if s.psnGap h = 0 then ((s.rxCounted h.qp.val op).rxNext ⟨h.qp.val, h.psn.toNat, false, op⟩).thenRx
    else if 2 ^ 23 ≤ s.psnGap h then ((s.rxCounted h.qp.val op).rxDup ⟨h.qp.val, h.psn.toNat, false, op⟩).thenRx
    else .next ((s.rxCounted h.qp.val op).sendNak h.qp.val (s.qpAt h.qp.val).rqPsn .sequence) := by
  obtain ⟨hup, hce, hq, hqp⟩ := ht
  have hheard : s.heard (s.qpLink h.qp.val) (s.rxPackets h.qp.val op) op.payload = s.rxCounted h.qp.val op := if_pos hup
  have hat : (s.rxCounted h.qp.val op).qpAt h.qp.val = s.qpAt h.qp.val := by rw [← hheard, heard_qpAt]
  have htaken : ¬((s.qpAt h.qp.val).up = false ∨ h.qp.val % 4096 < 2) := by
    rw [hqp, not_or]
    exact ⟨Bool.noConfusion, Nat.not_lt.2 hq⟩
  simp only [State.rxArrive, hup, hce, hheard, hat, ne_eq, not_true_eq_false, Bool.false_eq_true, if_false, if_neg htaken]
  rfl

theorem rxArrive_expected (hp : h.psn.toNat = (s.qpAt h.qp.val).rqPsn) :
    s.rxArrive h op = .next ((s.rxCounted h.qp.val op).rxNext ⟨h.qp.val, h.psn.toNat, false, op⟩).rxDrainAll := by
  have hgap : s.psnGap h = 0 := by rw [State.psnGap, ← hp, Nat.add_sub_cancel_left, Nat.mod_self]
  rw [rxArrive_taken s h op ht, if_pos hgap, State.thenRx]

theorem rxArrive_past (hp : 2 ^ 23 ≤ s.psnGap h) :
    s.rxArrive h op = .next ((s.rxCounted h.qp.val op).rxDup ⟨h.qp.val, h.psn.toNat, false, op⟩).rxDrainAll := by
  rw [rxArrive_taken s h op ht, if_neg (by omega), if_pos hp, State.thenRx]

theorem rxArrive_future (h0 : 0 < s.psnGap h) (hp : s.psnGap h < 2 ^ 23) :
    s.rxArrive h op = .next ((s.rxCounted h.qp.val op).sendNak h.qp.val (s.qpAt h.qp.val).rqPsn .sequence) := by
  rw [rxArrive_taken s h op ht, if_neg (by omega), if_neg (Nat.not_le.2 hp)]
end

/-- Settles O45: the connection manager command by command; a request by its distance from the expected one. -/
theorem connectionsAndRequests : Obligations.ConnectionsAndRequests := by
  unfold Obligations.ConnectionsAndRequests
  refine ⟨⟨?accepts, ?rejects, exec_cmRep_connects, exec_cmRtu_connects, exec_cmRej_ends, exec_cmDreq_disconnects, exec_cmDrep⟩, ?requests⟩
  case accepts => exact fun m z s ha hm hq hz hi => exec_cmReq_accepts m s ha hm z hq hz hi
  case rejects => exact fun m z s ha hm hq hz hi => exec_cmReq_rejects m s ha hm z hq hz hi
  case requests =>
    intro h pl imm va rk d n w1 w2 e s ha ht he
    rw [exec_rxRow h pl imm va rk d n w1 w2 e s ha he]
    exact ⟨rxArrive_expected s h e.2 ht, rxArrive_past s h e.2 ht, rxArrive_future s h e.2 ht⟩

end Sys2Proof.Machine
end

section
/-! Proofs about the requester of a queue pair (R739, R748, R752, R759, R765): acknowledgements, NAKs, timeouts, rates, completions and
pending signals. -/

namespace Sys2Proof.Machine

section
variable (q : Fin 16384) (s : State) (ha : s.awake)
include ha

/-! ## Acknowledgements and NAKs (R748, R752, R759) -/

section
variable (psn : BitVec 24) (hst : (s.qpAt q.val).st = .rts)
include hst

/-- An acknowledgement returns credits where SIG_EN is set and its field counts them. -/
theorem exec_ackRx (k : BitVec 5) :
    exec (.ackRx q psn k) s = .next (((s.heard (s.qpLink q.val) 1 0).putQp q.val { s.qpAt q.val with
      sigTx := (s.qpAt q.val).sigTx + if (s.qpAt q.val).sigEn = true ∧ k.toNat ≤ 30 then k.toNat else 0 }).ackTo q.val psn.toNat) := by
  show execAckRx q psn k s = _
  simp only [execAckRx, live_awake _ _ ha, heard_qpAt, hst, ne_eq, not_true_eq_false, if_false]

theorem exec_ackRx_noCredits (k : BitVec 5) (hs : (s.qpAt q.val).sigEn = false) :
    exec (.ackRx q psn k) s =
      .next (((s.heard (s.qpLink q.val) 1 0).putQp q.val { s.qpAt q.val with sigTx := (s.qpAt q.val).sigTx }).ackTo q.val psn.toNat) := by
  rw [exec_ackRx q s ha psn hst, if_neg (by simp [hs]), Nat.add_zero]

theorem exec_ackRx_credits (k : BitVec 5) (hs : (s.qpAt q.val).sigEn = true) (hk : k.toNat ≤ 30) :
    exec (.ackRx q psn k) s = .next (((s.heard (s.qpLink q.val) 1 0).putQp q.val { s.qpAt q.val with
      sigTx := (s.qpAt q.val).sigTx + k.toNat }).ackTo q.val psn.toNat) := by
  rw [exec_ackRx q s ha psn hst, if_pos ⟨hs, hk⟩]

/-- A NAK retries, retries later, or puts the queue pair into ERROR, by its kind. -/
theorem exec_nakRx (z : State) (hz : z = (s.heard (s.qpLink q.val) 1 0).count (pgRdma (q.val / 4096)) oRdmaNakRx 1) (k : NakKind) :
    exec (.nakRx q psn k) s = .next (match k with
      | .sequence => (z.ackTo q.val ((psn.toNat + 2 ^ 24 - 1) % 2 ^ 24)).retry q.val
      | .rnr => (z.ackTo q.val ((psn.toNat + 2 ^ 24 - 1) % 2 ^ 24)).rnrRetry q.val
      | _ => z.qpErr q.val) := by
  show execNakRx q psn k s = _
  simp only [execNakRx, live_awake _ _ ha, heard_qpAt, hst, ← hz, ne_eq, not_true_eq_false, if_false]
  cases k <;> rfl
end

theorem exec_ackTimeout_retries (hst : (s.qpAt q.val).st = .rts) (hu : (s.qpAt q.val).unacked ≠ []) :
    exec (.ackTimeout q) s = .next (s.retry q.val) :=
  (live_awake s _ ha).trans (congrArg _ (if_pos ⟨hst, hu⟩))

theorem exec_creditAck_sends (hu : (s.qpAt q.val).up = true) (hs : (s.qpAt q.val).sigEn = true) (ho : 0 < (s.qpAt q.val).sigOwed) :
    exec (.creditAck q) s = .next (s.sendAck q.val (s.qpAt q.val).lastAck) := by
  show execCreditAck q s = _
  simp only [execCreditAck, live_awake _ _ ha, hu, hs, ho, decide_true, Bool.and_self, if_true]

/-! ## Responses and rates (R752, R765) -/

/-- A read response with none held before it that does not wait on a fault. -/
theorem exec_rdmaReadResponseRx_runs (d : List Byte) (z : State) (hst : (s.qpAt q.val).st = .rts) (hh : (s.qpAt q.val).rdHeld = [])
    (hr : (s.heard (s.qpLink q.val) (respPackets (qpMtu (s.qpAt q.val).ctx) d.length) d.length).rdRun q.val d = (true, z)) :
    exec (.rdmaReadResponseRx q d) s = .next z := by
  show execRdmaReadResponseRx q d s = _
  simp only [execRdmaReadResponseRx, live_awake _ _ ha, heard_qpAt, hst, hh, hr, ne_eq, not_true_eq_false, if_false]

theorem exec_cnpRx_counts (hst : (s.qpAt q.val).st = .rts) :
    exec (.cnpRx q) s = .next (((s.heard (s.qpLink q.val) 1 0).count (pgRdma (q.val / 4096)) oRdmaCnpRx 1).putQp q.val
      { s.qpAt q.val with cnps := (s.qpAt q.val).cnps + 1 }) := by
  show execCnpRx q s = _
  simp only [execCnpRx, live_awake _ _ ha, heard_qpAt, hst, if_true]

/-! ## Completions (R752) -/

theorem exec_wqeComplete_oldest (m : TxMsg) (ms : List TxMsg) (hm : (s.qpAt q.val).acked = m :: ms) :
    exec (.wqeComplete q) s = .next (match m.cmpl with
      | some c => (s.putQp q.val { s.qpAt q.val with acked := ms, done := (s.qpAt q.val).done + 1 }).issueInc (ctrOp c).1 (ctrOp c).2 1
      | none => s.putQp q.val { s.qpAt q.val with acked := ms, done := (s.qpAt q.val).done + 1 }) := by
  show execWqeComplete q s = _
  rw [execWqeComplete, live_awake _ _ ha]
  cases hc : m.cmpl <;> simp only [hm, hc]
end

theorem exec_ratePeriod (e : Fin 4) (s : State) (ha : s.awake) :
    exec (.ratePeriod e) s = .next ((s.engQps e.val).foldl (fun t x =>
      if x.2.st = .rts then t.putQp x.1 ((t.qpAt x.1).newRate (s.lineRate e.val) (s.rg (pgRdma e.val) oRdmaRcParam)) else t) s) :=
  live_awake s _ ha

/-- A pending signal whose condition is met leaves its entry and is on its way to its counter (R663). -/
theorem exec_pendingSignalApply_met (e : Fin 4) (n : Nat) (x : PSig) (s : State) (ha : s.awake)
    (hx : s.eth.psig.find? (fun x => decide (x.eng = e.val) && decide (x.id = n)) = some x) (hm : s.sigMet x = true) :
    exec (.pendingSignalApply e n) s =
      .next (((s.psigDrop x).count (pgSync x.region) oSyncRemoteIncs 1).issueInc x.region x.ctr x.amount) := by
  show execPendingSignalApply e n s = _
  simp only [execPendingSignalApply, live_awake _ _ ha, hx, hm, if_true]

/-- Settles O46: each command by its equation; a NAK by its kind. -/
theorem requesterAnswers : Obligations.RequesterAnswers := by
  unfold Obligations.RequesterAnswers
  refine ⟨?ack, ?credits, ?nak, exec_ackTimeout_retries, exec_creditAck_sends, ?response, exec_cnpRx_counts, exec_ratePeriod, ?complete,
    exec_pendingSignalApply_met⟩
  case ack => exact fun q psn k s ha hst hs => exec_ackRx_noCredits q s ha psn hst k hs
  case credits => exact fun q psn k s ha hst hs hk => exec_ackRx_credits q s ha psn hst k hs hk
  case nak =>
    intro q psn z s ha hst hz
    have hnak := exec_nakRx q s ha psn hst z hz
    exact ⟨hnak .sequence, hnak .rnr, hnak .invalid, hnak .remoteAccess, hnak .remoteOp⟩
  case response => exact fun q d z s ha hst hh hr => exec_rdmaReadResponseRx_runs q s ha d z hst hh hr
  case complete => exact fun q m ms s ha hm => exec_wqeComplete_oldest q s ha m ms hm

end Sys2Proof.Machine
end

section
/-! Proofs about the work-queue entries of a queue pair (R749 to R757). -/

namespace Sys2Proof.Machine

section
variable (s : State) (q : Nat) (hst : (s.qpAt q).st = .rts) (hav : (s.qpAt q).taken < (s.qpAt q).avail)
  (hsz : fld (wordAt (s.qpAt q).ctx 0x28) 55 52 ≠ 0) (hw : (s.qpAt q).txWait = []) (hl : s.qpLinkUp q = true)
  (hpk : s.parkedAt 12 (.rdma q (2 * (s.qpAt q).taken)) = false)
include hst hav hsz hw hl hpk

/-- A queue pair in RTS with an entry available, nothing waiting before it, its link UP and its access not parked runs the entry. -/
theorem wqeRun_ready : ¬((s.qpAt q).st ≠ .rts ∨ (s.qpAt q).avail ≤ (s.qpAt q).taken ∨ fld (wordAt (s.qpAt q).ctx 0x28) 55 52 = 0 ∨
    (s.qpAt q).txWait ≠ [] ∨ s.qpLinkUp q = false ∨ s.parkedAt 12 (.rdma q (2 * (s.qpAt q).taken)) = true) := by
  simp [hst, Nat.not_le.2 hav, hsz, hw, hl, hpk]

variable (z : State) (op va : Nat) (w : List Byte) (ps : List Bool)
  (hva : va = fld (wordAt (s.qpAt q).ctx 0x28) 51 0 + 64 * ((s.qpAt q).taken % 2 ^ fld (wordAt (s.qpAt q).ctx 0x28) 55 52))
  (hrd : s.readVa 12 (.rdma q (2 * (s.qpAt q).taken)) true va 64 = (some (w, ps), z)) (hps : ps.any id = false) (hok : wqeOk w = true)
  (hop : wqeOp w = op) (htx : (s.qpAt q).mayTx (wqeTx w (s.wqeMsg w [] false)) = true)
include hva hrd hps hok hop htx

/-- A READ or an atomic is posted once its entry is read. -/
theorem wqeRun_asks (ho : 4 ≤ op ∧ op ≤ 6) : s.wqeRun q op = (z.wqeTaken q).txPost q (wqeTx w (z.wqeMsg w [] false)) := by
  rw [State.wqeRun]
  refine (if_neg (wqeRun_ready s q hst hav hsz hw hl hpk)).trans ?_
  simp only [← hva, hrd, hps, hok, hop, htx, if_pos ho, Bool.not_true, Bool.or_self, Bool.false_eq_true, if_false, ne_eq, not_true_eq_false]

/-- A WRITE, a SEND or a signal is posted with the clean bytes of its source. -/
theorem wqeRun_carries (y : State) (d : List Byte) (ds : List Bool) (ho : ¬(4 ≤ op ∧ op ≤ 6))
    (hsrc : z.readVa 12 (.rdma q (2 * (s.qpAt q).taken)) true (wqeLocal w) (wqeLen w) = (some (d, ds), y)) (hds : ds.any id = false) :
    s.wqeRun q op = (y.wqeTaken q).txPost q (wqeTx w (y.wqeMsg w d false)) := by
  rw [State.wqeRun]
  refine (if_neg (wqeRun_ready s q hst hav hsz hw hl hpk)).trans ?_
  simp only [← hva, hrd, hps, hok, hop, htx, if_neg ho, hsrc, hds, Bool.not_true, Bool.or_self, Bool.false_and, Bool.false_eq_true, if_false,
    ne_eq, not_true_eq_false]
end

/-- The command of each opcode runs the next entry of that opcode. -/
theorem exec_wqeRow (q : Fin 16384) (e : Nat × Instr) (s : State) (ha : s.awake)
    (he : e ∈ ([(0, .wqeWrite q), (1, .wqeWriteImm q), (2, .wqeSend q), (3, .wqeSendImm q), (4, .wqeRead q), (5, .wqeFetchAdd q),
      (6, .wqeCmpSwap q), (7, .wqeSignal q)] : List (Nat × Instr))) : exec e.2 s = .next (s.wqeRun q.val e.1) := by
  simp only [List.mem_cons, List.not_mem_nil, or_false] at he
  rcases he with rfl | rfl | rfl | rfl | rfl | rfl | rfl | rfl <;> exact live_awake s _ ha

/-- Settles O47: each command runs the entry at its queue's head, whose message asks for a response or carries its source. -/
theorem workQueueEntries : Obligations.WorkQueueEntries := by
  unfold Obligations.WorkQueueEntries
  intro q va e w ps z s ha he hst hav hsz hw hl hpk hva hrd hps hok hop htx
  rw [exec_wqeRow q e s ha he]
  refine ⟨fun h4 h6 => ?_, fun d ds y ho hsrc hds => ?_⟩
  · rw [wqeRun_asks s q.val hst hav hsz hw hl hpk z e.1 va w ps hva hrd hps hok hop htx ⟨h4, h6⟩]
  · rw [wqeRun_carries s q.val hst hav hsz hw hl hpk z e.1 va w ps hva hrd hps hok hop htx y d ds (by omega) hsrc hds]

end Sys2Proof.Machine
end

section
/-! Proofs about queue pairs and streams on command (R739, R812, R816) and about binding (R788 to R792). -/

namespace Sys2Proof.Machine

/-! ## Queue pairs and streams -/

section
variable {src : CmdSrc} {ws : List Word} {z s : State} (ha : s.awake)
include ha

section
variable {q : Nat} (ho : s.offers src 0x18 ws z) (hb : cmdBits ws [0x73FFF] = true) (hq : q = fld (ws.getD 1 0) 13 0) (h3 : 3 ≤ q % 4096)
  (ht : fld (ws.getD 1 0) 18 16 = 3)
include ho hb hq h3 ht

theorem exec_qpModify_toRts (hst : (z.qpAt q).st = .rtr) :
    exec (.qpModify src) s = .next ((z.qpRts q).cmdDone src ws (.ok (pgRdma (q / 4096)) 0)) := by
  refine (live_awake s _ ha).trans (congrArg _ (runCmd_answers ho hb ?_))
  have hnum : ¬(q % 4096 < 3 ∨ 4 < 3) := by omega
  simp only [← hq, ht, hst, if_neg hnum]

theorem exec_qpModify_fromReset (hst : (z.qpAt q).st = .reset) :
    exec (.qpModify src) s = .next (z.cmdDone src ws (.conflict (pgRdma (q / 4096)) QpState.reset.code)) := by
  refine (live_awake s _ ha).trans (congrArg _ (runCmd_answers ho hb ?_))
  have hnum : ¬(q % 4096 < 3 ∨ 4 < 3) := by omega
  simp only [← hq, ht, hst, if_neg hnum]
end

/-- A closed stream with a sound block and a READY graph is open, with every slot posted. -/
theorem exec_streamOpen_opens {b : List Byte} {y : State} (ho : s.offers src 0x20 ws z) (hb : cmdBits ws [0xF, allBits] = true)
    (hst : (z.streamAt (fld (ws.getD 1 0) 3 0)).st = .closed)
    (hr : z.cmdRead (cmdWho src) (ws.getD 2 0).toNat 128 = (some (b, false), y)) (hok : streamOk b = true)
    (hg : (y.graphAt (fld (wordAt b 0) 7 0)).st = .ready) :
    exec (.streamOpen src) s = .next ((y.putStream (fld (ws.getD 1 0) 3 0) ⟨.open_, b, List.replicate (stSlots b) .posted⟩).cmdDone src ws
      (.ok pgHcmd 0)) := by
  refine (live_awake s _ ha).trans (congrArg _ (runCmd_answers ho hb ?_))
  simp only [hst, hr, hok, hg, ne_eq, not_true_eq_false, Bool.not_true, Bool.or_self, Bool.false_eq_true, if_false]

/-- An open stream drains: its posted slots are idle. -/
theorem exec_streamClose_drains {i : Nat} (ho : s.offers src 0x21 ws z) (hb : cmdBits ws [0xF] = true) (hi : i = fld (ws.getD 1 0) 3 0)
    (hst : (z.streamAt i).st = .open_) :
    exec (.streamClose src) s = .next (((z.putStream i { z.streamAt i with
      st := .draining, slots := (z.streamAt i).slots.map (fun x => if x = .posted then .idle else x) }).streamRest i).cmdDone src ws
        (.ok pgHcmd 0)) := by
  refine (live_awake s _ ha).trans (congrArg _ (runCmd_answers ho hb ?_))
  simp only [← hi, hst, ne_eq, not_true_eq_false, if_false]
end

/-! ## What messages and events leave of the host and the rings (R786, R799) -/

theorem ringAt_putRing (s : State) (r k : Nat) (g : RingSt) : (s.putRing r g).ringAt k = if k = r then g else s.ringAt k :=
  smapGet_set _ _ _ _ _

/-- The host's state and the rings are as before. -/
def HostRingsKept (s t : State) : Prop := t.host = s.host ∧ t.rings = s.rings

theorem hostRingsKept_refl (s : State) : HostRingsKept s s := ⟨rfl, rfl⟩

theorem hostRingsKept_trans {s t u : State} (h : HostRingsKept s t) (k : HostRingsKept t u) : HostRingsKept s u :=
  ⟨k.1.trans h.1, k.2.trans h.2⟩

theorem hostRingsKept_setRg (s : State) (pg off : Nat) (v : Word) : HostRingsKept s (s.setRg pg off v) := ⟨rfl, rfl⟩

theorem hostRingsKept_cntSrc (s : State) (pg src n : Nat) : HostRingsKept s (s.cntSrc pg src n) := by
  obtain ⟨r, hr⟩ := cntSrc_frame s pg src n
  rw [hr]
  exact ⟨rfl, rfl⟩

theorem hostRingsKept_count (s : State) (pg off n : Nat) : HostRingsKept s (s.count pg off n) := by
  obtain ⟨r, hr⟩ := count_frame s pg off n
  rw [hr]
  exact ⟨rfl, rfl⟩

theorem hostRingsKept_setFrames (s : State) (v : SMap Nat) : HostRingsKept s (s.setFrames v) := ⟨rfl, rfl⟩
theorem hostRingsKept_setServed (s : State) (v : SMap Nat) : HostRingsKept s (s.setServed v) := ⟨rfl, rfl⟩
theorem hostRingsKept_emit (s : State) (e : Emit) : HostRingsKept s (s.emit e) := ⟨rfl, rfl⟩
theorem hostRingsKept_putQp (s : State) (q : Nat) (v : QpSt) : HostRingsKept s (s.putQp q v) := ⟨rfl, rfl⟩

theorem hostRingsKept_sendFrames (s : State) (n : Nat) (h : FrameHdr) (e : Emit) : HostRingsKept s (s.sendFrames n h e) :=
  hostRingsKept_trans (hostRingsKept_setFrames _ _) (hostRingsKept_trans (hostRingsKept_cntSrc _ _ _ _) (hostRingsKept_emit _ _))

theorem hostRingsKept_sendQp (s : State) (q n : Nat) (e : Emit) : HostRingsKept s (s.sendQp q n e) := hostRingsKept_sendFrames _ _ _ _

theorem hostRingsKept_txNow (s : State) (q : Nat) (m : TxMsg) : HostRingsKept s (s.txNow q m) := by
  unfold State.txNow
  exact hostRingsKept_trans (hostRingsKept_putQp _ _ _) (hostRingsKept_trans (hostRingsKept_count _ _ _ _)
    (hostRingsKept_trans (hostRingsKept_count _ _ _ _) (hostRingsKept_trans (hostRingsKept_sendQp _ _ _ _) (hostRingsKept_setServed _ _))))

theorem hostRingsKept_txDrain (q n : Nat) (s : State) : HostRingsKept s (s.txDrain q n) := by
  induction n generalizing s with
  | zero => exact hostRingsKept_refl s
  | succ n ih =>
    unfold State.txDrain
    simp only
    split
    · exact hostRingsKept_refl s
    · split
      · exact hostRingsKept_trans (hostRingsKept_trans (hostRingsKept_putQp _ _ _) (hostRingsKept_txNow _ _ _)) (ih _)
      · exact hostRingsKept_refl s

theorem hostRingsKept_txPost (s : State) (q : Nat) (m : TxMsg) : HostRingsKept s (s.txPost q m) := by
  unfold State.txPost
  simp only
  split
  · exact hostRingsKept_trans (hostRingsKept_putQp _ _ _) (hostRingsKept_txDrain _ _ _)
  · exact hostRingsKept_refl s

/-- The binding and the control register of every ring are as before: notifications use the rings, but leave this. -/
def BindingKept (s t : State) : Prop :=
  t.host.bound = s.host.bound ∧ t.host.owner = s.host.owner ∧ ∀ r, (t.ringAt r).ctl = (s.ringAt r).ctl

theorem bindingKept_refl (s : State) : BindingKept s s := ⟨rfl, rfl, fun _ => rfl⟩

theorem bindingKept_trans {s t u : State} (h : BindingKept s t) (k : BindingKept t u) : BindingKept s u :=
  ⟨k.1.trans h.1, k.2.1.trans h.2.1, fun r => (k.2.2 r).trans (h.2.2 r)⟩

theorem bindingKept_of_hostRings {s t : State} (h : HostRingsKept s t) : BindingKept s t := by
  obtain ⟨hh, hr⟩ := h
  exact ⟨by rw [hh], by rw [hh], fun r => by simp only [State.ringAt, hr]⟩

theorem bindingKept_putRing (s : State) (r : Nat) (g : RingSt) (h : g.ctl = (s.ringAt r).ctl) : BindingKept s (s.putRing r g) := by
  refine ⟨rfl, rfl, fun k => ?_⟩
  rw [ringAt_putRing]
  split
  · rename_i hk
    rw [hk, h]
  · rfl

theorem bindingKept_writeCpl (s : State) (r kind status cmdId result detail source obj : Nat) :
    BindingKept s (s.writeCpl r kind status cmdId result detail source obj) := by
  unfold State.writeCpl
  refine bindingKept_trans (bindingKept_putRing s r { s.ringAt r with written := (s.ringAt r).written + 1 } rfl) ?_
  simp only
  split
  · exact ⟨rfl, rfl, fun _ => rfl⟩
  · exact bindingKept_of_hostRings (hostRingsKept_txPost _ _ _)

theorem bindingKept_noteOut (l : List Nat) (s : State) : BindingKept s (s.noteOut l) := by
  induction l generalizing s with
  | nil => exact ⟨rfl, rfl, fun _ => rfl⟩
  | cons pg l ih =>
    unfold State.noteOut
    simp only
    split
    · exact ⟨rfl, rfl, fun _ => rfl⟩
    · exact bindingKept_trans (bindingKept_writeCpl _ _ _ _ _ _ _ _ _) (ih _)

theorem bindingKept_notify (s : State) (pg : Nat) : BindingKept s (s.notify pg) := by
  have hnote : BindingKept s (if s.host.notes.contains pg then s else s.setHost { s.host with notes := s.host.notes ++ [pg] }) := by
    split
    · exact bindingKept_refl s
    · exact ⟨rfl, rfl, fun _ => rfl⟩
  unfold State.notify
  split
  · exact bindingKept_trans hnote (bindingKept_noteOut _ _)
  · exact bindingKept_refl s

theorem bindingKept_setEvt (s : State) (pg b : Nat) : BindingKept s (s.setEvt pg b) := by
  have hlog (t : State) (e : LogEnt) (c : Bool) : BindingKept t (if c then t.logPush e else t) := by
    unfold State.logPush
    split
    · split <;> exact ⟨rfl, rfl, fun _ => rfl⟩
    · exact bindingKept_refl t
  have hnote (t : State) (c : Bool) : BindingKept t (if c then t.notify pg else t) := by
    split
    · exact bindingKept_notify _ _
    · exact bindingKept_refl t
  unfold State.setEvt
  exact bindingKept_trans (bindingKept_of_hostRings (hostRingsKept_setRg _ _ _ _))
    (bindingKept_trans (bindingKept_of_hostRings (hostRingsKept_cntSrc _ _ _ _)) (bindingKept_trans (hlog _ _ _) (hnote _ _)))

/-! ## The completion of a management command (R802, R914) -/

/-- A management command that is done with OK leaves its session, is counted, and its completion leaves the block. -/
theorem cmdDone_mgmt_ok (s : State) (k : Fin 4) (l ws : List Word) (pg n : Nat) :
    ∃ e, s.cmdDone (.mgmt k l) ws (.ok pg n) = ((s.holdCmd (.mgmt k l) []).count pgHcmd oHcmdCmds 1).emit e := by
  have hring : ¬(64 + k.val < 64) := by omega
  have hok : stOk ≠ stConflict := by decide
  unfold State.cmdDone State.cplOut
  simp only [cmdRing, CmdRes.ok, ne_eq, not_true_eq_false, false_and, and_false, if_false, if_neg hring, if_neg hok]
  exact ⟨_, rfl⟩

theorem cmdDone_mgmt_bindingKept (s : State) (k : Fin 4) (l ws : List Word) (pg n : Nat) :
    BindingKept s (s.cmdDone (.mgmt k l) ws (.ok pg n)) := by
  obtain ⟨e, he⟩ := cmdDone_mgmt_ok s k l ws pg n
  rw [he]
  refine bindingKept_trans (t := s.holdCmd (.mgmt k l) []) ⟨rfl, rfl, fun _ => rfl⟩ ?_
  exact bindingKept_trans (bindingKept_of_hostRings (hostRingsKept_count _ pgHcmd oHcmdCmds 1)) ⟨rfl, rfl, fun _ => rfl⟩

theorem cmdDone_mgmt_streams (s : State) (k : Fin 4) (l ws : List Word) (pg n : Nat) :
    (s.cmdDone (.mgmt k l) ws (.ok pg n)).streams = s.streams := by
  obtain ⟨e, he⟩ := cmdDone_mgmt_ok s k l ws pg n
  rw [he]
  rw [booked_streams (books_emit _ _).1, booked_streams (booked_count _ _ _ _)]
  rfl

theorem cmdDone_mgmt_ownerId (s : State) (k : Fin 4) (l ws : List Word) (pg n : Nat) :
    (s.cmdDone (.mgmt k l) ws (.ok pg n)).rg pgHcmd oHcmdOwnerId = s.rg pgHcmd oHcmdOwnerId := by
  obtain ⟨e, he⟩ := cmdDone_mgmt_ok s k l ws pg n
  rw [he]
  exact count_rg_other (s.holdCmd (.mgmt k l) []) _ _ _ _ _ (keyPlain_of _ _ (by decide) (by decide)) (by decide)

/-! ## Binding (R788 to R792) -/

/-- The device's owner is set in the state, in its register and in the device record, and the event of a change raised (R788, R789, R792). -/
def State.ownerSet (s : State) (bound : Bool) (owner : List Byte) (id : Word) : State :=
  (((s.setHost { s.host with bound := bound, owner := owner }).setRg pgHcmd oHcmdOwnerId id).recCommit
    (fun r => { r with owner := owner })).setEvt pgHcmd 3

section
variable (s : State) (bound : Bool) (owner : List Byte) (id : Word)

theorem ownerSet_binding : (s.ownerSet bound owner id).host.bound = bound ∧ (s.ownerSet bound owner id).host.owner = owner ∧
    ∀ r, ((s.ownerSet bound owner id).ringAt r).ctl = (s.ringAt r).ctl :=
  bindingKept_setEvt _ pgHcmd 3

theorem ownerSet_streams : (s.ownerSet bound owner id).streams = s.streams := by
  rw [State.ownerSet, booked_streams (booked_setEvt _ _ _)]
  rfl

theorem ownerSet_ownerId : (s.ownerSet bound owner id).rg pgHcmd oHcmdOwnerId = id := by
  rw [State.ownerSet, setEvt_rg_other _ _ _ _ _ (keyPlain_of _ _ (by decide) (by decide)) (by decide)]
  exact rg_setRg_same _ _ _ _
end

/-- Requests are cancelled, and queue pairs in use but those of management enter ERROR (R792). -/
def State.unbindWork (s : State) : State :=
  let t := s.slotsEnd (fun _ => true) stCancelled pgHcmd
  (t.qps.filter (fun e => !mgmtQp e.1 && decide (e.2.st ≠ .reset))).foldl (fun u e =>
    if e.2.up then u.qpErr e.1 else u.putQp e.1 { u.qpAt e.1 with st := .error }) t

/-- Every ring has its ENABLE bit cleared (R792). -/
def State.ringsOff (s : State) : State :=
  s.rings.foldl (fun u e => u.putRing e.1 { u.ringAt e.1 with ctl := setFld (u.ringAt e.1).ctl 0 0 0 }) s

/-- After the rings are disabled, none is enabled: a ring that is not listed is in its reset state. -/
theorem ringsOff_disabled (s : State) (r : Nat) : bit (s.ringsOff.ringAt r).ctl 0 = false := by
  have hfold (l : List (Nat × RingSt)) (t : State) (h : (∃ e ∈ l, e.1 = r) ∨ bit (t.ringAt r).ctl 0 = false) :
      bit ((l.foldl (fun u e => u.putRing e.1 { u.ringAt e.1 with ctl := setFld (u.ringAt e.1).ctl 0 0 0 }) t).ringAt r).ctl 0 = false := by
    induction l generalizing t with
    | nil => simpa using h
    | cons e l ih =>
      refine ih _ ?_
      rw [ringAt_putRing]
      by_cases hr : r = e.1
      · rw [if_pos hr]
        exact Or.inr (bit_setFld_one _ 0 false (by decide))
      · rw [if_neg hr]
        refine h.imp_left fun ⟨f, hf, hfr⟩ => ⟨f, (List.mem_cons.1 hf).resolve_left ?_, hfr⟩
        rintro rfl
        exact hr hfr.symm
  have hlisted (l : SMap RingSt) : (∃ e ∈ l, e.1 = r) ∨ smapGet (fun _ => RingSt.reset) l r = RingSt.reset := by
    induction l with
    | nil => exact Or.inr rfl
    | cons e l ih =>
      by_cases hr : r = e.1
      · exact Or.inl ⟨e, List.mem_cons_self, hr.symm⟩
      · rw [smapGet, if_neg hr]
        exact ih.imp_left fun ⟨f, hf, hfr⟩ => ⟨f, List.mem_cons_of_mem _ hf, hfr⟩
  refine hfold s.rings s ((hlisted s.rings).imp_right fun h => ?_)
  rw [State.ringAt, h]
  decide

section
variable {k : Fin 4} {l ws : List Word} {z s : State} (ha : s.awake)
include ha

theorem exec_bind_unbound (ho : s.offers (.mgmt k l) 0x30 ws z) (hb : cmdBits ws [] = true) (hu : z.host.bound = false) :
    exec (.bind (.mgmt k l)) s = .next ((z.ownerSet true (digestBytes (z.sessAt k.val).chain)
      (wordAt (digestBytes (z.sessAt k.val).chain) 0)).cmdDone (.mgmt k l) ws (.ok pgHcmd 0)) := by
  refine (live_awake s _ ha).trans (congrArg _ (runMgmt_answers ho hb ?_))
  simp only [hu, Bool.false_eq_true, if_false, cmdRing, Nat.add_sub_cancel_left]
  rfl

theorem exec_bind_bound (ho : s.offers (.mgmt k l) 0x30 ws z) (hb : cmdBits ws [] = true) (hu : z.host.bound = true) :
    exec (.bind (.mgmt k l)) s = .next (z.cmdDone (.mgmt k l) ws (.conflict pgHcmd 1)) := by
  refine (live_awake s _ ha).trans (congrArg _ (runMgmt_answers ho hb ?_))
  simp only [hu, if_true]

theorem exec_unbind_bound (ho : s.offers (.mgmt k l) 0x31 ws z) (hb : cmdBits ws [] = true) (hu : z.host.bound = true) :
    exec (.unbind (.mgmt k l)) s = .next (((z.unbindWork.ringsOff.setStreams []).ownerSet false [] 0).cmdDone (.mgmt k l) ws
      (.ok pgHcmd 0)) := by
  refine (live_awake s _ ha).trans (congrArg _ (runMgmt_answers ho hb ?_))
  simp only [hu, Bool.not_true, Bool.false_eq_true, if_false]
  rfl
end

/-- Settles O52: queue pairs and streams by what the command's body answers; binding by what is set before the command completes. -/
theorem bindingQueuesStreams : Obligations.BindingQueuesStreams := by
  unfold Obligations.BindingQueuesStreams
  refine ⟨fun src ws z q s ha => exec_qpModify_toRts ha, fun src ws z q s ha => exec_qpModify_fromReset ha,
    fun src ws z b y s ha => exec_streamOpen_opens ha, fun src ws z i s ha => exec_streamClose_drains ha, ?bind,
    fun k l ws z s ha => exec_bind_bound ha, ?unbind⟩
  case bind =>
    intro k l ws z s ha ho hb hu
    refine ⟨_, exec_bind_unbound ha ho hb hu, ?_⟩
    obtain ⟨hbound, howner, -⟩ := cmdDone_mgmt_bindingKept (z.ownerSet true (digestBytes (z.sessAt k.val).chain)
      (wordAt (digestBytes (z.sessAt k.val).chain) 0)) k l ws pgHcmd 0
    obtain ⟨hb', ho', -⟩ := ownerSet_binding z true (digestBytes (z.sessAt k.val).chain) (wordAt (digestBytes (z.sessAt k.val).chain) 0)
    exact ⟨hbound.trans hb', howner.trans ho', (cmdDone_mgmt_ownerId _ _ _ _ _ _).trans (ownerSet_ownerId _ _ _ _)⟩
  case unbind =>
    intro k l ws z s ha ho hb hu
    refine ⟨_, exec_unbind_bound ha ho hb hu, ?_⟩
    generalize z.unbindWork = t
    obtain ⟨hbound, howner, hctl⟩ := cmdDone_mgmt_bindingKept ((t.ringsOff.setStreams []).ownerSet false [] 0) k l ws pgHcmd 0
    obtain ⟨hb', ho', hc'⟩ := ownerSet_binding (t.ringsOff.setStreams []) false [] 0
    refine ⟨hbound.trans hb', howner.trans ho', ?_, (cmdDone_mgmt_ownerId _ _ _ _ _ _).trans (ownerSet_ownerId _ _ _ _), fun r => ?_⟩
    · rw [cmdDone_mgmt_streams, ownerSet_streams]
      rfl
    · rw [hctl, hc']
      exact ringsOff_disabled t r

end Sys2Proof.Machine
end

section
/-! Proofs about SPDM (R909 to R914, R923): the negotiation of a connection, what the identity answers, and sessions. -/

namespace Sys2Proof.Machine

/-! ## Negotiation (R910) -/

section
variable (p : Fin 4) (s : State) (ha : s.awake)
include ha

theorem exec_getVersion_plain : exec (.getVersion (.plain p)) s = .next ((s.putConn p.val ⟨1⟩).spdmSay (.plain p) 0x04 [0x13]) := live_awake s _ ha

theorem exec_getCapabilities_inOrder (h : (s.connAt p.val).phase = 1) :
    exec (.getCapabilities (.plain p)) s = .next ((s.putConn p.val ⟨2⟩).spdmSay (.plain p) 0x61 []) := (live_awake s _ ha).trans (if_pos h)

theorem exec_getCapabilities_outOfOrder (h : (s.connAt p.val).phase ≠ 1) :
    exec (.getCapabilities (.plain p)) s = .next (s.spdmErr (.plain p) 4) := (live_awake s _ ha).trans (if_neg h)

theorem exec_negotiateAlgorithms_inOrder (h : (s.connAt p.val).phase = 2) (offered : Bool) :
    exec (.negotiateAlgorithms (.plain p) offered) s =
      if offered then .next ((s.putConn p.val ⟨3⟩).spdmSay (.plain p) 0x63 []) else .next (s.spdmErr (.plain p) 1) :=
  (live_awake s _ ha).trans (if_neg (not_not_intro h))
end

/-! ## Identity, challenge, measurements (R909, R910, R923) -/

section
variable (src : SpdmSrc) (s : State) (ha : s.awake)
include ha

theorem exec_getDigests : exec (.getDigests src) s =
    .next (s.spdmAfter src (fun t => t.spdmSay src 0x01 (digestBytes t.certChain))) := live_awake s _ ha

/-- Slot 0 is the one slot there is: its chain is given from the offset on. -/
theorem exec_getCertificate_slot0 (o n : BitVec 16) : exec (.getCertificate src 0 o n) s = .next (s.spdmAfter src (fun t =>
    if t.certChain.length ≤ o.toNat then t.spdmErr src 1 else t.spdmSay src 0x02 ((t.certChain.drop o.toNat).take n.toNat))) := by
  show execGetCertificate src 0 o n s = _
  simp only [execGetCertificate, live_awake _ _ ha, ne_eq, not_true_eq_false, false_or]

theorem exec_challenge_slot0 : exec (.challenge src 0) s = .next (s.spdmAfter src (fun t =>
    (t.demandNow 196 pgSec).spdmSay src 0x03 (digestBytes (t.demandNow 196 pgSec).certChain ++
      Config.sign (digestBytes (t.demandNow 196 pgSec).certChain)))) := by
  show execChallenge src 0 s = _
  simp only [execChallenge, live_awake _ _ ha, ne_eq, not_true_eq_false, if_false]

theorem exec_getMeasurements_all : exec (.getMeasurements src 255) s =
    .next (s.spdmAfter src (fun t => t.spdmSay src 0x60 (measIndices.flatMap t.measBlock))) := by
  have hindex : (255 : Byte).toNat = 255 := rfl
  show execGetMeasurements src 255 s = _
  simp only [execGetMeasurements, live_awake _ _ ha, hindex, if_true, if_neg (show ¬(255 = 0) by decide)]
end

/-! ## Sessions (R912, R914) -/

theorem sessAt_putSess_same (s : State) (k : Nat) (v : SessSt) : (s.putSess k v).sessAt k = v := smapGet_set_same _ _ _ _

/-- An answer changes no session. -/
theorem sessAt_spdmSay (s : State) (src : SpdmSrc) (code : Nat) (data : List Byte) (k : Nat) :
    (s.spdmSay src code data).sessAt k = s.sessAt k :=
  congrArg (smapGet (fun _ => SessSt.reset) · k) (booked_sess (booked_trans (booked_count s _ _ _) (books_emit _ _).1))

/-- The session that a key exchange opens. -/
def SessSt.opened (m : Bool) (now : Nat) : SessSt := { SessSt.reset with open_ := true, auth := m, beat := now }

/-- A key exchange on a negotiated connection opens the first session that is not open. -/
theorem exec_keyExchange_opens (p : Fin 4) (m : Bool) (k : Nat) (s t : State) (ha : s.awake) (hp : (s.connAt p.val).phase = 3)
    (hk : (List.range 4).find? (fun k => !(s.sessAt k).open_) = some k)
    (ht : t = (s.demandNow 196 pgSec).putSess k (SessSt.opened m (s.demandNow 196 pgSec).ns)) :
    exec (.keyExchange (.plain p) 0 m) s =
      .next (t.spdmSay (.plain p) 0x64 (BitVec.ofNat 8 k :: Config.sign (digestBytes t.certChain))) := by
  have hready : s.spdmReady (.plain p) (fun n => decide (n = 3)) = true := decide_eq_true hp
  subst ht
  show execKeyExchange (.plain p) 0 m s = _
  simp only [execKeyExchange, live_awake _ _ ha, State.spdmAfter, hready, hk, if_true, ne_eq, not_true_eq_false, if_false]
  rfl

section
variable (src : SpdmSrc) (k : Fin 4) (c : List Byte) (s : State) (ha : s.awake) (ho : (s.sessAt k.val).open_ = true)
  (hf : (s.sessAt k.val).finished = false)
include ha ho hf

/-- A session stands once it is finished, with the requester's chain where mutual authentication was asked for and verified. -/
theorem exec_finish_stands (v : Bool) (hv : (s.sessAt k.val).auth = true → v = true) :
    exec (.finish src k v c) s = .next ((s.putSess k.val { s.sessAt k.val with
      finished := true, verified := (s.sessAt k.val).auth && v, chain := if (s.sessAt k.val).auth then c else [] }).spdmSay src 0x65 []) := by
  have hgood : ((s.sessAt k.val).auth && !v) = false := by
    cases h : (s.sessAt k.val).auth
    · rfl
    · rw [hv h]; rfl
  show execFinish src k v c s = _
  simp only [execFinish, live_awake _ _ ha, ho, hf, hgood, Bool.not_true, Bool.or_self, Bool.false_eq_true, if_false]

/-- A proof that fails closes the session and is counted. -/
theorem exec_finish_fails (hm : (s.sessAt k.val).auth = true) :
    exec (.finish src k false c) s =
      .next ((((s.putSess k.val SessSt.reset).count pgSec oSecAuthFail 1).setEvt pgSec 1).spdmErr src 1) := by
  show execFinish src k false c s = _
  simp only [execFinish, live_awake _ _ ha, ho, hf, hm, Bool.not_true, Bool.not_false, Bool.or_self, Bool.and_self, Bool.false_eq_true,
    if_false, if_true]
end

/-- Settles O54: each message by its equation; an opened session is read behind the answer. -/
theorem spdmExchanges : Obligations.SpdmExchanges := by
  unfold Obligations.SpdmExchanges
  refine ⟨⟨exec_getVersion_plain, exec_getCapabilities_inOrder, exec_getCapabilities_outOfOrder, ?offered, ?notOffered, ?secured⟩, exec_getDigests,
    fun src o n s ha => exec_getCertificate_slot0 src s ha o n, exec_challenge_slot0, exec_getMeasurements_all, ?opens, ?stands, ?fails,
    ?heartbeat, ?keys, ?ends⟩
  case offered => exact fun p s ha hp => exec_negotiateAlgorithms_inOrder p s ha hp true
  case notOffered => exact fun p s ha hp => exec_negotiateAlgorithms_inOrder p s ha hp false
  case secured => exact fun k s ha => ⟨live_awake s _ ha, live_awake s _ ha⟩
  case opens =>
    intro p m k s ha hp hk
    refine ⟨_, exec_keyExchange_opens p m k s _ ha hp hk rfl, ?_⟩
    simp only [sessAt_spdmSay, sessAt_putSess_same]
    exact ⟨rfl, rfl, rfl⟩
  case stands => exact fun src k v c s ha ho hf hv => exec_finish_stands src k c s ha ho hf v hv
  case fails => exact fun src k c s ha ho hf hm => exec_finish_fails src k c s ha ho hf hm
  case heartbeat => exact fun k s ha => live_awake s _ ha
  case keys => exact fun k s ha => live_awake s _ ha
  case ends => exact fun k s ha => live_awake s _ ha

end Sys2Proof.Machine
end

section
/-! Proofs about power: domains (R824 to R830), the levels of the regions (R831, R832), the budget (R833 to R837), regulators (R973). -/

namespace Sys2Proof.Machine

/-! ## Levels -/

/-- New levels change the levels and what books their events. -/
theorem relevel_booked (s : State) : Booked (s.setPwr { s.pwr with levels := (List.range 12).map s.pwr.lvl }) s.relevel :=
  booked_trans (booked_setRg _ _ _ _) (booked_trans (booked_setRg _ _ _ _) (booked_setEvts _ _ _))

theorem relevel_pwr (s : State) : s.relevel.pwr = { s.pwr with levels := (List.range 12).map s.pwr.lvl } := booked_pwr (relevel_booked s)
@[simp] theorem relevel_dram (s : State) : s.relevel.dram = s.dram := (booked_dram (relevel_booked s)).trans rfl
@[simp] theorem relevel_time (s : State) : s.relevel.time = s.time := (booked_time (relevel_booked s)).trans rfl

/-! ## Domains -/

section
variable (d : Fin 199) (s : State) (ha : s.awake)
include ha

theorem exec_domainWakeDone_waking (h : (s.domAt d.val).st = .waking) :
    exec (.domainWakeDone d) s = .next ((s.domOn d.val).domAwake d.val) := (live_awake s _ ha).trans (if_pos h)

theorem exec_domainDrainDone_toRet (h : (s.domAt d.val).st = .toRet) :
    exec (.domainDrainDone d) s = .next ((s.domGo d.val .ret).count (pgPwrd d.val) oPwrdEntries 1) := by
  show execDomainDrainDone d s = _
  simp only [execDomainDrainDone, live_awake _ _ ha, h]

theorem exec_domainDrainDone_toOff (h : (s.domAt d.val).st = .toOff) :
    exec (.domainDrainDone d) s = .next ((s.domGo d.val .off).count (pgPwrd d.val) oPwrdEntries 1) := by
  show execDomainDrainDone d s = _
  simp only [execDomainDrainDone, live_awake _ _ ha, h]

variable (src : BitVec 16)

/-- A pool block is demanded by nothing. -/
theorem exec_domainDemand_pool (h : 168 ≤ d.val) (h' : d.val < 180) : exec (.domainDemand d src) s = .next s := by
  have hclu : ¬(d.val < 156 ∧ s.cluWanted d.val = false) := by omega
  exact (live_awake s _ ha).trans ((if_neg hclu).trans (if_pos ⟨h, h'⟩))

/-- A demand that counts is met. -/
theorem exec_domainDemand_met (hclu : ¬(d.val < 156 ∧ s.cluWanted d.val = false)) (hpool : ¬(168 ≤ d.val ∧ d.val < 180)) :
    exec (.domainDemand d src) s = .next (s.demand d.val src.toNat) :=
  (live_awake s _ ha).trans ((if_neg hclu).trans (if_neg hpool))
end

/-- A READY task that names a cluster, and that no cluster which asks can take, wants it. -/
theorem cluWanted_of_task (s : State) (c l : Nat) (e : Nat × TaskSt) (hl : s.logClu c = some l)
    (he : e ∈ (s.dispAt (cluRegion c)).window) (hst : e.2.st = .ready) (hk : e.2.kind ≤ 3) (hm : e.2.cluMask.testBit l = true)
    (hask : s.askFor (cluRegion c) e.2.kind e.2.cluMask = none) : s.cluWanted c = true := by
  simp only [State.cluWanted, hl, List.any_eq_true]
  refine ⟨e, he, ?_⟩
  simp only [hst, kindOnCluster, hk, hm, hask, decide_true, Bool.and_self, Option.isNone_none]

/-! ## The budget -/

theorem b2n_le_one (b : Bool) : b2n b ≤ 1 := by cases b <;> decide

/-- One microsecond of the power controller: the level P moves by what it rises and what it falls, the estimates take the newest, and
what follows books and sets the levels of the regions. -/
theorem exec_powerEstimate_books (w : Nat) (s : State) (ha : s.awake) : ∃ v t, exec (.powerEstimate w) s = .next t.relevel ∧
    Booked (s.setPwr v) t ∧ v.est = (((w : Int) + s.pwr.corr).toNat :: s.pwr.est).take 1000 ∧
    ∃ hit long down : Bool, v.p = min 3 (s.pwr.p + (b2n hit + b2n long)) - b2n down := by
  show ∃ v t, execPowerEstimate w s = _ ∧ _
  rw [execPowerEstimate, live_awake _ _ ha]
  extract_lets _ _ _ _ _ _ _ _ _ hit _ down _ _ _ moved
  refine ⟨moved.pwr, _, rfl, ?booked, ?est, ?level⟩
  case booked =>
    have hset (t : State) (p : Prop) [Decidable p] (b : Nat) : Booked t (if p then t.setEvt pgPwr b else t) :=
      booked_ite (booked_setEvt _ _ _) (booked_refl _)
    refine booked_trans ?_ (hset _ _ _)
    refine booked_trans ?_ (hset _ _ _)
    refine booked_trans ?_ (hset _ _ _)
    refine booked_trans ?_ (booked_count _ _ _ _)
    refine booked_trans ?_ (booked_count _ _ _ _)
    refine booked_trans ?_ (booked_ite (booked_setRg _ _ _ _) (booked_refl _))
    refine booked_trans ?_ (booked_ite (booked_count _ _ _ _) (booked_refl _))
    exact booked_trans (booked_setRg _ _ _ _) (booked_setRg _ _ _ _)
  case est => rfl
  case level => exact ⟨hit, _, down, rfl⟩

theorem powerEstimate_completes (w : Nat) (s : State) (ha : s.awake) (hp : s.pwr.p ≤ 3) : Completes (.powerEstimate w) s (fun t =>
    t.pwr.p ≤ 3 ∧ t.pwr.p ≤ s.pwr.p + 2 ∧ s.pwr.p ≤ t.pwr.p + 1 ∧
    t.pwr.est = (((w : Int) + s.pwr.corr).toNat :: s.pwr.est).take 1000 ∧ t.dram = s.dram ∧ t.time = s.time) := by
  obtain ⟨v, t, hx, hb, hest, hit, long, down, hv⟩ := exec_powerEstimate_books w s ha
  have hpwr : t.pwr = v := booked_pwr hb
  have hr1 := b2n_le_one hit
  have hr2 := b2n_le_one long
  have hf := b2n_le_one down
  refine ⟨_, hx, ?_⟩
  simp only [relevel_pwr, relevel_dram, relevel_time, hpwr, hest]
  exact ⟨by omega, by omega, by omega, trivial, (booked_dram hb).trans rfl, (booked_time hb).trans rfl⟩

/-! ## Regulators -/

section
variable (s : State) (ha : s.awake) (hu : s.pmbusUp = true)
include ha hu

theorem exec_pmbusPoll_answered (r : List (Option Nat)) (hr : r.any Option.isSome = true) : exec (.pmbusPoll r) s =
    .next ((s.pmbusAll .readPin).draw.2.setPwr
      { (s.pmbusAll .readPin).draw.2.pwr with corr := signedOf 16 (s.pmbusAll .readPin).draw.1 }) :=
  (live_awake s _ ha).trans ((if_pos hu).trans (if_pos hr))

theorem exec_pmbAlert_up (r : List (BitVec 16)) : exec (.pmbAlert r) s = .next ((s.pmbusAll .statusWord).pmbusAll .clearFaults) :=
  (live_awake s _ ha).trans (if_pos hu)
end

/-- Settles O55: each transition by its equation, the power level by what it rises and falls in one microsecond. -/
theorem powerControl : Obligations.PowerControl := by
  unfold Obligations.PowerControl
  refine ⟨⟨?on, ?ret, ?off, exec_domainDrainDone_toRet, exec_domainDrainDone_toOff, exec_domainWakeDone_waking, ?met, ?pool, ?cluster,
    cluWanted_of_task⟩, powerEstimate_completes, ?poll, fun r s ha hu => exec_pmbAlert_up s ha hu r⟩
  case on => exact fun d z s ha h => (live_awake s _ ha).trans (by rw [h])
  case ret => exact fun d z s ha h => (live_awake s _ ha).trans (by rw [h])
  case off => exact fun d z s ha h => (live_awake s _ ha).trans (by rw [h])
  case met => exact fun d src s ha h h' => exec_domainDemand_met d s ha src (by omega) (by omega)
  case pool => exact fun d src s ha h h' => exec_domainDemand_pool d s ha src h h'
  case cluster =>
    intro d src s ha h hw
    rw [exec_domainDemand_met d s ha src (by rw [hw]; simp) (by omega), State.demand, if_pos h]
  case poll => exact fun r s ha hu hr => exec_pmbusPoll_answered s ha hu r hr

end Sys2Proof.Machine
end

section
/-! Proofs about the states of the stacks (R156): what a stack port, training and temperatures leave alone. -/

namespace Sys2Proof.Machine

/-- Every stack is in the state it was in. -/
def StkKept (s t : State) : Prop := ∀ n, (t.stkAt n).st = (s.stkAt n).st

theorem stkKept_refl (s : State) : StkKept s s := fun _ => rfl

theorem stkKept_trans {s t u : State} (h : StkKept s t) (k : StkKept t u) : StkKept s u := fun n => (k n).trans (h n)

theorem stkKept_booked {s t : State} (h : Booked s t) : StkKept s t := fun n => by rw [booked_stkAt h]

theorem stkAt_putStk (s : State) (n k : Nat) (v : StkSt) : (s.putStk n v).stkAt k = if k = n then v else s.stkAt k :=
  smapGet_set _ _ _ _ _

theorem stkKept_putStk (s : State) (n : Nat) (v : StkSt) (h : v.st = (s.stkAt n).st) : StkKept s (s.putStk n v) := by
  intro k
  rw [stkAt_putStk]
  split
  · rename_i hk
    rw [h, hk]
  · rfl

theorem stkKept_putPch (s : State) (d : Nat) (v : PchSt) : StkKept s (s.putPch d v) := fun _ => rfl
theorem stkKept_putRegion (s : State) (r : Nat) (v : RegionSt) : StkKept s (s.putRegion r v) := fun _ => rfl
theorem stkKept_setPwr (s : State) (v : PwrSt) : StkKept s (s.setPwr v) := fun _ => rfl
theorem stkKept_setPins (s : State) (v : PinSt) : StkKept s (s.setPins v) := fun _ => rfl
theorem stkKept_setDev (s : State) (v : DevSt) : StkKept s (s.setDev v) := fun _ => rfl
theorem stkKept_emit (s : State) (e : Emit) : StkKept s (s.emit e) := fun _ => rfl
theorem stkKept_setRg (s : State) (pg off : Nat) (v : Word) : StkKept s (s.setRg pg off v) := fun _ => rfl
theorem stkKept_storeAcc (s : State) (d a : Nat) (x : List Byte) (p : Bool) : StkKept s (s.storeAcc d a x p) := fun _ => rfl
theorem stkKept_count (s : State) (pg off n : Nat) : StkKept s (s.count pg off n) := stkKept_booked (booked_count _ _ _ _)
theorem stkKept_setEvt (s : State) (pg b : Nat) : StkKept s (s.setEvt pg b) := stkKept_booked (booked_setEvt _ _ _)
theorem stkKept_error (s : State) (pg : Nat) (e : ErrInfo) : StkKept s (s.error pg e) := stkKept_booked (booked_error _ _ _)
theorem stkKept_conflict (s : State) (pg : Nat) : StkKept s (s.conflict pg) := stkKept_booked (books_conflict _ _).1
theorem stkKept_respond (s : State) (n : Nat) (r : Resp) : StkKept s (s.respond n r) := stkKept_putStk _ _ _ rfl
theorem stkKept_poolRow (s : State) (n : Nat) (f : PortCmd) accs : StkKept s (s.poolRow n f accs) := stkKept_putStk _ _ _ rfl
theorem stkKept_takeWait (s : State) (d : Nat) (c : SlotCmd) : StkKept s (s.takeWait d c) := stkKept_putPch _ _ _

theorem stkKept_foldl {α : Type} (f : State → α → State) (l : List α) (h : ∀ s a, StkKept s (f s a)) (s : State) : StkKept s (l.foldl f s) := by
  induction l generalizing s with
  | nil => exact stkKept_refl s
  | cons a l ih => exact stkKept_trans (h s a) (ih _)

theorem stkKept_ite {s a b : State} {p : Prop} [Decidable p] (ha : StkKept s a) (hb : StkKept s b) : StkKept s (if p then a else b) := by
  split
  · exact ha
  · exact hb

/-! ## One access -/

theorem stkKept_failRow (s : State) (d a : Nat) : StkKept s (s.failRow d a) := by
  unfold State.failRow
  exact stkKept_ite (stkKept_refl s) (stkKept_putStk _ _ _ rfl)

theorem stkKept_memCe (s : State) (d a : Nat) : StkKept s (s.memCe d a) := by
  have hcount : StkKept s (((s.count (pgPch d) oPchCe 1).count (pgStk (d / 64)) oStkCe 1).setEvt (pgPch d) 3) :=
    stkKept_trans (stkKept_count _ _ _ _) (stkKept_trans (stkKept_count _ _ _ _) (stkKept_setEvt _ _ _))
  unfold State.memCe
  dsimp only
  generalize ((s.count (pgPch d) oPchCe 1).count (pgStk (d / 64)) oStkCe 1).setEvt (pgPch d) 3 = u at *
  have hrow (v : StkSt) (h : v.st = (u.stkAt (d / 64)).st) (e : ErrInfo) : StkKept s ((u.putStk (d / 64) v).error (pgPch d) e) :=
    stkKept_trans hcount (stkKept_trans (stkKept_putStk u _ _ h) (stkKept_error _ _ _))
  split
  · exact stkKept_trans (hrow _ (by rfl) _) (stkKept_failRow _ _ _)
  · exact hrow _ (by rfl) _

theorem stkKept_memUe (s : State) (d a : Nat) : StkKept s (s.memUe d a) := by
  unfold State.memUe
  exact stkKept_trans (stkKept_count _ _ _ _) (stkKept_trans (stkKept_count _ _ _ _) (stkKept_trans (stkKept_setEvt _ _ _)
    (stkKept_trans (stkKept_error _ _ _) (stkKept_failRow _ _ _))))

theorem stkKept_memPoisonRd (s : State) (d : Nat) : StkKept s (s.memPoisonRd d) :=
  stkKept_trans (stkKept_count _ _ _ _) (stkKept_setEvt _ _ _)

theorem stkKept_accErr (s : State) (d a : Nat) (e : AccErr) : StkKept s (s.accErr d a e).2 := by
  unfold State.accErr
  split <;> exact stkKept_refl _

/-- A read of an access, whatever it decodes. -/
theorem stkKept_readAccE (s : State) (d a : Nat) (e : AccErr) : StkKept s (s.readAccE d a e).2 := by
  have h := stkKept_accErr s d a e
  unfold State.readAccE
  generalize s.accErr d a e = x at *
  obtain ⟨e', u⟩ := x
  dsimp only at h ⊢
  refine stkKept_trans h ?_
  split
  · exact stkKept_refl u
  · exact stkKept_memPoisonRd _ _
  · exact stkKept_memCe _ _ _
  · split
    · exact stkKept_memCe _ _ _
    · exact stkKept_memCe _ _ _
    · exact stkKept_memPoisonRd _ _
    · exact stkKept_memUe _ _ _

theorem stkKept_readAcc (s : State) (d a : Nat) : StkKept s (s.readAcc d a).2 := stkKept_readAccE _ _ _ _

theorem stkKept_readRun (d : Nat) (k : Nat) (s : State) (a : Nat) (es : List AccErr) : StkKept s (s.readRun d a k es).2 := by
  induction k generalizing s a es with
  | zero => exact stkKept_refl s
  | succ k ih => exact stkKept_trans (stkKept_readAccE s d a _) (ih _ _ _)

theorem stkKept_writeRun (d : Nat) (k : Nat) (s : State) (a : Nat) (x : List Byte) (p : Bool) : StkKept s (s.writeRun d k a x p) := by
  induction k generalizing s a x with
  | zero => exact stkKept_refl s
  | succ k ih => exact stkKept_trans (stkKept_storeAcc _ _ _ _ _) (ih _ _ _)

theorem stkKept_rupdRun (d fmt uop cols : Nat) (x : List Byte) (p : Bool) (k : Nat) (s : State) (i a : Nat) :
    StkKept s (s.rupdRun d fmt uop cols x p k i a) := by
  induction k generalizing s i a with
  | zero => exact stkKept_refl s
  | succ k ih =>
    refine stkKept_trans ?_ (ih _ _ _)
    split
    · exact stkKept_storeAcc _ _ _ _ _
    · refine stkKept_trans (stkKept_readAcc s d a) ?_
      exact stkKept_ite (stkKept_ite (stkKept_storeAcc _ _ _ _ _) (stkKept_refl _)) (stkKept_storeAcc _ _ _ _ _)

/-! ## Commands of a port -/

theorem stkKept_serveData (s : State) (n : Nat) (c : SlotCmd) (d a : Nat) : StkKept s (s.serveData n c d a) := by
  have hcount (t : State) (off k : Nat) (r : Resp) : StkKept t ((t.count (pgPch d) off k).respond n r) :=
    stkKept_trans (stkKept_count _ _ _ _) (stkKept_respond _ _ _)
  unfold State.serveData
  dsimp only
  split
  · exact stkKept_trans (stkKept_readRun _ _ _ _ _) (hcount _ _ _ _)
  · exact stkKept_trans (stkKept_writeRun _ _ _ _ _ _) (hcount _ _ _ _)
  · exact stkKept_trans (stkKept_trans (stkKept_readAcc s d a) (stkKept_storeAcc _ _ _ _ _)) (hcount _ _ _ _)
  · exact stkKept_trans (stkKept_readRun _ _ _ _ _) (stkKept_trans (stkKept_count _ _ _ _) (stkKept_poolRow _ _ _ _))
  · exact stkKept_trans (stkKept_rupdRun _ _ _ _ _ _ _ _ _ _) (hcount _ _ _ _)
  · exact stkKept_respond _ _ _

theorem stkKept_deadData (s : State) (n : Nat) (c : SlotCmd) (d a : Nat) : StkKept s (s.deadData n c d a) := by
  unfold State.deadData
  dsimp only
  split
  · exact stkKept_respond _ _ _
  · exact stkKept_poolRow _ _ _ _
  · exact stkKept_respond _ _ _

theorem stkKept_readMoved (d : Nat) (k : Nat) (s : State) (a : Nat) : StkKept s (s.readMoved d a k).2 := by
  induction k generalizing s a with
  | zero => exact stkKept_refl s
  | succ k ih =>
    unfold State.readMoved
    dsimp only
    split
    · exact stkKept_trans (stkKept_trans (stkKept_count _ _ _ _) (stkKept_readAcc _ _ _)) (ih _ _)
    · exact ih _ _

theorem stkKept_serveMoved (s : State) (n : Nat) (c : SlotCmd) (d a : Nat) : StkKept s (s.serveMoved n c d a) := by
  unfold State.serveMoved
  dsimp only
  split
  · exact stkKept_trans (stkKept_readMoved _ _ _ _) (stkKept_poolRow _ _ _ _)
  · refine stkKept_trans (stkKept_foldl _ _ (fun t i => ?_) s) (stkKept_respond _ _ _)
    exact stkKept_ite (stkKept_trans (stkKept_rupdRun _ _ _ _ _ _ _ _ _ _) (stkKept_count _ _ _ _)) (stkKept_refl t)
  · exact stkKept_ite (stkKept_serveData _ _ _ _ _) (stkKept_deadData _ _ _ _ _)

theorem stkKept_portConflict (s : State) (n : Nat) (f : PortCmd) : StkKept s (s.portConflict n f) :=
  stkKept_trans (stkKept_count _ _ _ _) (stkKept_trans (stkKept_conflict _ _) (stkKept_respond _ _ _))

/-- A command that is taken up, wherever it is served or waits. -/
theorem stkKept_takeUp (s : State) (n : Nat) (c : SlotCmd) : StkKept s (s.takeUp n c) := by
  unfold State.takeUp
  dsimp only
  refine stkKept_ite (stkKept_deadData _ _ _ _ _) (stkKept_ite (stkKept_putRegion _ _ _) (stkKept_ite (stkKept_takeWait _ _ _) (stkKept_ite
    (stkKept_ite (stkKept_trans (stkKept_count _ _ _ _) (stkKept_serveMoved _ _ _ _ _)) (stkKept_takeWait _ _ _)) ?_)))
  split
  · exact stkKept_deadData _ _ _ _ _
  · exact stkKept_portConflict _ _ _
  · exact stkKept_portConflict _ _ _
  · exact stkKept_ite (stkKept_takeWait _ _ _) (stkKept_serveData _ _ _ _ _)

theorem stkKept_serveOwn (s : State) (d : Nat) : StkKept s (s.serveOwn d) :=
  stkKept_trans (stkKept_putPch s d { s.pchAt d with waiting := [] }) (stkKept_foldl _ _ (fun _ _ => stkKept_takeUp _ _ _) _)

theorem stkKept_serveWaiting (s : State) (d : Nat) : StkKept s (s.serveWaiting d) :=
  stkKept_trans (stkKept_serveOwn s d) (stkKept_foldl _ _ (fun _ _ => stkKept_serveOwn _ _) _)

theorem stkKept_stackDead (s : State) (n : Nat) : StkKept s (s.stackDead n) := stkKept_foldl _ _ (fun _ _ => stkKept_serveWaiting _ _) s

/-! ## Service commands and triggers -/

theorem stkKept_svcAnswer (s : State) (n rsp st : Nat) : StkKept s (s.svcAnswer n rsp st) := by
  unfold State.svcAnswer
  dsimp only
  split
  · exact stkKept_refl s
  · exact stkKept_trans (stkKept_putStk s n { s.stkAt n with svc := none } rfl) (stkKept_trans (stkKept_setRg _ _ _ _) (stkKept_setEvt _ _ _))

theorem stkKept_svcConflict (s : State) (n : Nat) : StkKept s (s.svcConflict n) := by
  unfold State.svcConflict
  split
  · exact stkKept_refl s
  · exact stkKept_trans (stkKept_count _ _ _ _) (stkKept_trans (stkKept_conflict _ _) (stkKept_svcAnswer _ _ _ _))

theorem stkKept_marginEnd (s : State) (n : Nat) (svc : Bool) : StkKept s (s.marginEnd n svc) :=
  stkKept_trans (stkKept_putStk s n { s.stkAt n with margin := none } rfl) (stkKept_ite (stkKept_svcConflict _ _) (stkKept_refl _))

theorem stkKept_outEnter (s : State) (n : Nat) (t : OutTrig) : StkKept s (s.outEnter n t) := by
  unfold State.outEnter
  dsimp only
  refine stkKept_ite ?_ ?_
  · exact stkKept_trans (stkKept_putPch s (n * 64 + t.pch) _) (stkKept_trans (stkKept_setRg _ _ _ _) (stkKept_setEvt _ _ _))
  · exact stkKept_trans (stkKept_putStk s n { s.stkAt n with margin := some (t.kind, t.svc) } rfl) (stkKept_putPch _ _ _)

theorem stkKept_outNext (n : Nat) (k : Nat) (s : State) : StkKept s (s.outNext n k) := by
  induction k generalizing s with
  | zero => exact stkKept_refl s
  | succ k ih =>
    rw [State.outNext]
    refine stkKept_ite (stkKept_refl s) ?_
    dsimp only
    split
    · exact stkKept_refl s
    · rename_i t ts _
      refine stkKept_ite (stkKept_refl s) (stkKept_trans (stkKept_putStk s n { s.stkAt n with waitQ := ts } rfl) ?_)
      refine stkKept_ite (stkKept_outEnter _ _ _) (stkKept_ite ?_ (stkKept_trans (stkKept_marginEnd _ _ _) (ih _)))
      exact stkKept_trans (stkKept_ite (stkKept_svcConflict _ _) (stkKept_refl _)) (ih _)

theorem stkKept_outTrigger (s : State) (n : Nat) (t : OutTrig) : StkKept s (s.outTrigger n t) :=
  stkKept_trans (stkKept_putStk s n { s.stkAt n with waitQ := (s.stkAt n).waitQ ++ [t] } rfl) (stkKept_outNext _ _ _)

theorem stkKept_retrainTrigger (s : State) (d : Nat) (svc : Bool) : StkKept s (s.retrainTrigger d svc) := by
  have hsvc (t : State) : StkKept t (if svc then t.svcConflict (d / 64) else t) := stkKept_ite (stkKept_svcConflict _ _) (stkKept_refl t)
  unfold State.retrainTrigger
  exact stkKept_ite (stkKept_trans (stkKept_count _ _ _ _) (hsvc _)) (stkKept_ite (stkKept_outTrigger _ _ _) (hsvc s))

/-! ## Temperatures -/

theorem stkKept_relevel (s : State) : StkKept s s.relevel := stkKept_trans (stkKept_setPwr _ _) (stkKept_booked (relevel_booked s))

theorem stkKept_joint (s : State) (n : Nat) (on : Bool) : StkKept s (s.joint n on) := by
  unfold State.joint
  refine stkKept_ite (stkKept_refl s) ?_
  exact stkKept_trans (stkKept_trans (stkKept_setPwr _ _) (stkKept_trans (stkKept_setRg _ _ _ _) (stkKept_setEvt _ _ _))) (stkKept_relevel _)

theorem stkKept_refreshWin (s : State) (n : Nat) (w : Bool) : StkKept s (s.refreshWin n w) := by
  unfold State.refreshWin
  refine stkKept_ite (stkKept_refl s) (stkKept_trans (stkKept_putStk s n { s.stkAt n with window16 := w } rfl) ?_)
  refine stkKept_trans (stkKept_foldl _ _ (fun t j => ?_) _) (stkKept_trans (stkKept_setRg _ _ _ _) (stkKept_setEvt _ _ _))
  exact stkKept_ite (stkKept_refl t) (stkKept_putPch _ _ _)

theorem stkKept_pchTemp (s : State) (d : Nat) (t : Int) : StkKept s (s.pchTemp d t) :=
  stkKept_trans (stkKept_putPch s d { s.pchAt d with tempNow := t }) (stkKept_ite (stkKept_retrainTrigger _ _ _) (stkKept_refl _))

theorem stkKept_avsPut (s : State) (k mv : Nat) : StkKept s (s.avsPut k mv) := stkKept_trans (stkKept_setPins s _) (stkKept_emit _ _)

theorem stkKept_avsFollow (s : State) (k : Nat) : StkKept s (s.avsFollow k) := by
  unfold State.avsFollow
  exact stkKept_ite (stkKept_trans (stkKept_booked (books_draw s).1) (stkKept_ite (stkKept_refl _) (stkKept_avsPut _ _ _))) (stkKept_refl s)

/-! ## Causes of DEGRADED -/

theorem stkKept_devMark (s : State) (st : DevState) : StkKept s (s.devMark st) :=
  stkKept_trans (stkKept_setDev _ _) (stkKept_booked (devMark_booked s st))

theorem stkKept_setCause (s : State) (b : Nat) (v : Bool) : StkKept s (s.setCause b v) := by
  unfold State.setCause
  refine stkKept_ite (stkKept_refl s) ?_
  refine stkKept_trans (t := (s.setRf pgDev oDevCause b b (b2n v)).setEvt pgDev 3) (stkKept_trans (stkKept_setRg _ _ _ _) (stkKept_setEvt _ _ _)) ?_
  exact stkKept_ite (stkKept_devMark _ _) (stkKept_ite (stkKept_devMark _ _) (stkKept_refl _))

theorem stkKept_stackLost (s : State) (n : Nat) : StkKept s (s.stackLost n) := by
  unfold State.stackLost
  refine stkKept_ite (stkKept_refl s) (stkKept_trans (stkKept_putStk s n { s.stkAt n with lost := true, returning := false } rfl) ?_)
  exact stkKept_trans (stkKept_error _ _ _) (stkKept_setCause _ _ _)

/-- A stack that served is SHUTDOWN, and stays so while what it held is answered. -/
theorem stackShut_st (s : State) (n : Nat) (h : (s.stkAt n).st = .base ∨ (s.stkAt n).st = .full) :
    ((s.stackShut n).stkAt n).st = .shutdown := by
  have hdown : ((s.putStk n { s.stkAt n with st := .shutdown }).stkAt n).st = .shutdown := by rw [putStk_stkAt]
  rw [State.stackShut, if_pos h]
  refine Eq.trans ?_ hdown
  exact stkKept_trans (stkKept_stackDead _ n) (stkKept_trans (stkKept_setRg _ _ _ _) (stkKept_trans (stkKept_setEvt _ _ _) (stkKept_stackLost _ _))) n

end Sys2Proof.Machine
end

section
/-! Proofs about the pins (R964 to R979): what ends with the device's stop leaves them alone: requests (R647, R652), domains (R822 to R824),
the service state (R888). -/

namespace Sys2Proof.Machine

/-- The pins are what they were. -/
def PinsKept (s t : State) : Prop := t.pins = s.pins

theorem pinsKept_refl (s : State) : PinsKept s s := rfl
theorem pinsKept_trans {s t u : State} (h : PinsKept s t) (k : PinsKept t u) : PinsKept s u := k.trans h
theorem pinsKept_booked {s t : State} (h : Booked s t) : PinsKept s t := booked_pins h

theorem pinsKept_foldl {α : Type} (f : State → α → State) (l : List α) (h : ∀ t a, PinsKept t (f t a)) (s : State) :
    PinsKept s (l.foldl f s) := by
  induction l generalizing s with
  | nil => exact pinsKept_refl s
  | cons a l ih => exact pinsKept_trans (h s a) (ih _)

theorem pinsKept_ite {s a b : State} {p : Prop} [Decidable p] (ha : PinsKept s a) (hb : PinsKept s b) : PinsKept s (if p then a else b) := by
  split
  · exact ha
  · exact hb

theorem pinsKept_count (s : State) (pg off n : Nat) : PinsKept s (s.count pg off n) := pinsKept_booked (booked_count _ _ _ _)
theorem pinsKept_setEvt (s : State) (pg b : Nat) : PinsKept s (s.setEvt pg b) := pinsKept_booked (booked_setEvt _ _ _)
theorem pinsKept_setRg (s : State) (pg off : Nat) (v : Word) : PinsKept s (s.setRg pg off v) := rfl
theorem pinsKept_draw (s : State) : PinsKept s s.draw.2 := rfl
theorem pinsKept_putDom (s : State) (d : Nat) (v : DomSt) : PinsKept s (s.putDom d v) := rfl
theorem pinsKept_putDisp (s : State) (r : Nat) (v : DispSt) : PinsKept s (s.putDisp r v) := rfl
theorem pinsKept_putTask (s : State) (r e : Nat) (v : TaskSt) : PinsKept s (s.putTask r e v) := rfl
theorem pinsKept_putWv (s : State) (w : Nat) (v : WvSt) : PinsKept s (s.putWv w v) := rfl
theorem pinsKept_putCtx (s : State) (c : CtxRef) (x : CtxSt) : PinsKept s (s.putCtx c x) := rfl
theorem pinsKept_putXfer (s : State) (r i : Nat) (x : XferSt) : PinsKept s (s.putXfer r i x) := rfl
theorem pinsKept_xferFree (s : State) (r i : Nat) : PinsKept s (s.xferFree r i) := rfl
theorem pinsKept_putMat (s : State) (c : Nat) (v : MatSt) : PinsKept s (s.putMat c v) := rfl
theorem pinsKept_putGmx (s : State) (c : Nat) (v : UnitSt) : PinsKept s (s.putGmx c v) := rfl
theorem pinsKept_putVec (s : State) (c : Nat) (v : UnitSt) : PinsKept s (s.putVec c v) := rfl
theorem pinsKept_putEmb (s : State) (r : Nat) (v : EmbSt) : PinsKept s (s.putEmb r v) := rfl
theorem pinsKept_putMig (s : State) (r : Nat) (v : MigSt) : PinsKept s (s.putMig r v) := rfl
theorem pinsKept_setBatches (s : State) (v : List BatchSt) : PinsKept s (s.setBatches v) := rfl
theorem pinsKept_setSwarms (s : State) (v : List SwarmSt) : PinsKept s (s.setSwarms v) := rfl
theorem pinsKept_setRelay (s : State) (v : SMap (List Chunk)) : PinsKept s (s.setRelay v) := rfl
theorem pinsKept_putSlot (s : State) (i : Nat) (v : AdmSt) : PinsKept s (s.putSlot i v) := rfl
theorem pinsKept_unpark (s : State) (u : Nat) (p : XReq → Bool) : PinsKept s (s.unpark u p) := rfl
theorem pinsKept_wUnpark (s : State) (c : CtxRef) : PinsKept s (s.wUnpark c) := rfl
theorem pinsKept_waitDrop (s : State) (r : Nat) (p : Waiter → Bool) : PinsKept s (s.waitDrop r p) := rfl
theorem pinsKept_devMark (s : State) (st : DevState) : PinsKept s (s.devMark st) := devMark_pins s st

/-! ## Tasks and their units -/

theorem pinsKept_waitDropAll (s : State) (p : Waiter → Bool) : PinsKept s (s.waitDropAll p) :=
  pinsKept_foldl (fun t r => t.waitDrop r p) _ (fun _ _ => pinsKept_waitDrop _ _ _) s

theorem pinsKept_taskFree (s : State) (r e : Nat) : PinsKept s (s.taskFree r e) := by
  unfold State.taskFree
  exact pinsKept_ite (pinsKept_trans (pinsKept_putDisp s _ _) (pinsKept_setEvt _ _ _)) (pinsKept_putDisp _ _ _)

theorem pinsKept_taskCancelled (s : State) (r e : Nat) : PinsKept s (s.taskCancelled r e) :=
  pinsKept_trans (pinsKept_count _ _ _ _) (pinsKept_taskFree _ _ _)

theorem pinsKept_taskCancel (s : State) (r e : Nat) : PinsKept s (s.taskCancel r e) := by
  unfold State.taskCancel
  dsimp only
  split
  · exact pinsKept_trans (pinsKept_waitDropAll _ _) (pinsKept_taskCancelled _ _ _)
  · exact pinsKept_trans (pinsKept_waitDropAll _ _) (pinsKept_taskCancelled _ _ _)
  · exact pinsKept_trans (pinsKept_waitDropAll _ _) (pinsKept_putTask _ _ _ _)
  · exact pinsKept_waitDropAll _ _

theorem pinsKept_ctxDrain (s : State) (w i : Nat) : PinsKept s (s.ctxDrain w i) := by
  have hdrop (p : Waiter → Bool) : PinsKept s ((s.wUnpark (ctxRef w i)).waitDropAll p) :=
    pinsKept_trans (pinsKept_wUnpark _ _) (pinsKept_waitDropAll _ _)
  unfold State.ctxDrain
  refine pinsKept_ite (pinsKept_refl s) (pinsKept_ite ?_ ?_)
  · exact pinsKept_trans (hdrop _) (pinsKept_trans (pinsKept_putCtx _ _ _) (pinsKept_count _ _ _ _))
  · exact pinsKept_trans (hdrop _) (pinsKept_putCtx _ _ _)

theorem pinsKept_walkDrain (s : State) (w e : Nat) : PinsKept s (s.walkDrain w e) := by
  unfold State.walkDrain
  refine pinsKept_trans (pinsKept_putWv s w _) (pinsKept_foldl _ _ (fun t _ => ?_) _)
  exact pinsKept_ite (pinsKept_ctxDrain _ _ _) (pinsKept_refl t)

theorem pinsKept_walkCancelled (s : State) (w e : Nat) : PinsKept s (s.walkCancelled w e) := by
  unfold State.walkCancelled
  exact pinsKept_ite (pinsKept_trans (pinsKept_putWv _ _ _) (pinsKept_trans (pinsKept_setEvt _ _ _) (pinsKept_taskCancelled _ _ _)))
    (pinsKept_refl s)

theorem pinsKept_xferCancelled (s : State) (r i : Nat) : PinsKept s (s.xferCancelled r i) := by
  unfold State.xferCancelled
  exact pinsKept_trans (pinsKept_xferFree s r i) (pinsKept_trans (pinsKept_count _ _ _ _)
    (pinsKept_trans (pinsKept_ite (pinsKept_setEvt _ _ _) (pinsKept_refl _)) (pinsKept_taskCancelled _ _ _)))

theorem pinsKept_xferFlight (s : State) (r : Nat) (x : XferSt) : PinsKept s (s.xferFlight r x).2 := by
  unfold State.xferFlight
  split
  · exact pinsKept_refl s
  · exact pinsKept_draw s

theorem pinsKept_xferStop (s : State) (r i ended : Nat) : PinsKept s (s.xferStop r i ended) :=
  pinsKept_trans (pinsKept_xferFlight s r (s.xferAt r i)) (pinsKept_putXfer _ _ _ _)

theorem pinsKept_xferRelease (s : State) (r i : Nat) (p : RowBuf → Bool) : PinsKept s (s.xferRelease r i p) :=
  pinsKept_trans (pinsKept_putXfer _ _ _ _) (pinsKept_count _ _ _ _)

theorem pinsKept_xferCancel (s : State) (r i : Nat) : PinsKept s (s.xferCancel r i) := by
  have hdrop (p : XReq → Bool) (q : Waiter → Bool) : PinsKept s ((s.unpark r p).waitDrop r q) :=
    pinsKept_trans (pinsKept_unpark _ _ _) (pinsKept_waitDrop _ _ _)
  unfold State.xferCancel
  dsimp only
  split
  · exact pinsKept_trans (hdrop _ _) (pinsKept_xferCancelled _ _ _)
  · exact pinsKept_trans (hdrop _ _) (pinsKept_trans (pinsKept_xferRelease _ _ _ _) (pinsKept_xferCancelled _ _ _))
  · exact pinsKept_trans (hdrop _ _) (pinsKept_xferStop _ _ _ _)
  · exact hdrop _ _

theorem pinsKept_cluTake (s : State) (c e : Nat) : PinsKept s (s.cluTake c e).2 :=
  pinsKept_trans (pinsKept_ite (pinsKept_unpark _ _ _) (pinsKept_refl s))
    (pinsKept_trans (pinsKept_putMat _ _ _) (pinsKept_trans (pinsKept_putGmx _ _ _) (pinsKept_putVec _ _ _)))

theorem pinsKept_embTake (s : State) (r e : Nat) : PinsKept s (s.embTake r e).2 := by
  unfold State.embTake
  dsimp only
  split
  · exact pinsKept_unpark _ _ _
  · exact pinsKept_trans (pinsKept_unpark _ _ _) (pinsKept_putEmb _ _ _)

/-- The units of a region that may hold a task give it up one after the other. -/
theorem pinsKept_cluTakes (r e : Nat) (l : List Nat) (a : Bool × State) : PinsKept a.2 (l.foldl (fun (a : Bool × State) i =>
    let (h, t) := a.2.cluTake (r * 13 + i) e
    (a.1 || h, t)) a).2 := by
  induction l generalizing a with
  | nil => exact pinsKept_refl _
  | cons i l ih => exact pinsKept_trans (pinsKept_cluTake a.2 (r * 13 + i) e) (ih _)

theorem pinsKept_unitCancel (s : State) (r e : Nat) : PinsKept s (s.unitCancel r e) := by
  have hclu := pinsKept_cluTakes r e (List.range 13) (false, s)
  have hemb := pinsKept_embTake s r e
  unfold State.unitCancel
  refine pinsKept_ite (pinsKept_refl s) (pinsKept_ite ?walk (pinsKept_ite ?transfer (pinsKept_ite ?cluster ?engine)))
  case walk => exact pinsKept_foldl _ _ (fun t w => pinsKept_trans (pinsKept_walkDrain t w e) (pinsKept_walkCancelled _ _ _)) s
  case transfer =>
    split
    · exact pinsKept_xferCancel _ _ _
    · exact pinsKept_refl s
  case cluster => exact pinsKept_ite (pinsKept_trans hclu (pinsKept_taskCancelled _ _ _)) hclu
  case engine =>
    split
    · next h => rw [h] at hemb; exact pinsKept_trans hemb (pinsKept_taskCancelled _ _ _)
    · next h => rw [h] at hemb; exact hemb

/-! ## Requests -/

theorem pinsKept_regionCancel (s : State) (r slot : Nat) : PinsKept s (s.regionCancel r slot) := by
  unfold State.regionCancel
  exact pinsKept_trans (pinsKept_putDisp s _ _)
    (pinsKept_foldl _ _ (fun t e => pinsKept_trans (pinsKept_taskCancel t r e) (pinsKept_unitCancel _ _ _)) _)

theorem pinsKept_swarmDrop (s : State) (id : Nat) : PinsKept s (s.swarmDrop id) := by
  unfold State.swarmDrop
  exact pinsKept_trans (pinsKept_setSwarms s _) (pinsKept_foldl _ _ (fun _ _ => pinsKept_putDisp _ _ _) _)

theorem pinsKept_swarmCancel (s : State) (w : SwarmSt) : PinsKept s (s.swarmCancel w) :=
  pinsKept_trans (pinsKept_swarmDrop _ _) (pinsKept_trans (pinsKept_count _ _ _ _) (pinsKept_setEvt _ _ _))

theorem pinsKept_swarmsCancel (s : State) (slot : Nat) : PinsKept s (s.swarmsCancel slot) := by
  unfold State.swarmsCancel
  refine pinsKept_foldl _ _ (fun t w => ?_) s
  dsimp only
  exact pinsKept_trans (pinsKept_putCtx _ _ _) (pinsKept_swarmCancel _ _)

theorem pinsKept_batchesCancel (s : State) (slot : Nat) : PinsKept s (s.batchesCancel slot) := by
  unfold State.batchesCancel
  extract_lets _ t
  have hhold : PinsKept s t := pinsKept_foldl _ _ (fun _ _ => pinsKept_putMig _ _ _) s
  exact pinsKept_trans hhold (pinsKept_setBatches t _)

theorem pinsKept_relayCancel (s : State) (slot : Nat) : PinsKept s (s.relayCancel slot) := pinsKept_setRelay _ _

theorem pinsKept_cancelReq (s : State) (slot : Nat) : PinsKept s (s.cancelReq slot) := by
  have hparts (v : AdmSt) : PinsKept s ((((s.putSlot slot v).swarmsCancel slot).batchesCancel slot).relayCancel slot) :=
    pinsKept_trans (pinsKept_putSlot _ _ _) (pinsKept_trans (pinsKept_swarmsCancel _ _)
      (pinsKept_trans (pinsKept_batchesCancel _ _) (pinsKept_relayCancel _ _)))
  unfold State.cancelReq
  exact pinsKept_ite (pinsKept_trans (hparts _) (pinsKept_foldl _ _ (fun _ _ => pinsKept_regionCancel _ _ _) _)) (pinsKept_refl s)

theorem pinsKept_failReq (s : State) (slot status source detail : Nat) : PinsKept s (s.failReq slot status source detail) := by
  unfold State.failReq
  exact pinsKept_ite (pinsKept_trans (pinsKept_putSlot _ _ _) (pinsKept_cancelReq _ _)) (pinsKept_refl s)

theorem pinsKept_slotEnd (s : State) (i status source : Nat) : PinsKept s (s.slotEnd i status source) := by
  unfold State.slotEnd
  dsimp only
  split
  · exact pinsKept_putSlot _ _ _
  · exact pinsKept_failReq _ _ _ _ _
  · exact pinsKept_refl s

theorem pinsKept_slotsEnd (s : State) (p : AdmSt → Bool) (status source : Nat) : PinsKept s (s.slotsEnd p status source) := by
  unfold State.slotsEnd
  exact pinsKept_foldl _ _ (fun _ _ => pinsKept_slotEnd _ _ _ _) s

/-! ## Domains and the service state -/

theorem pinsKept_domClear (s : State) (d : Nat) : PinsKept s (s.domClear d) := by
  unfold State.domClear
  dsimp only
  split_ifs <;> rfl

theorem pinsKept_domGo (s : State) (d : Nat) (st : DomState) : PinsKept s (s.domGo d st) := by
  unfold State.domGo
  refine pinsKept_ite (pinsKept_refl s) ?_
  exact pinsKept_trans (pinsKept_putDom s d _) (pinsKept_trans (pinsKept_ite (pinsKept_domClear _ _) (pinsKept_refl _))
    (pinsKept_trans (pinsKept_ite (pinsKept_putDisp _ _ _) (pinsKept_refl _)) (pinsKept_trans (pinsKept_setRg _ _ _ _) (pinsKept_setEvt _ _ _))))

/-- A device that stops ends its requests and loses its domains, and keeps its pins. -/
theorem pinsKept_devGo_stopped (s : State) : PinsKept s (s.devGo .stopped) := by
  unfold State.devGo
  refine pinsKept_ite (pinsKept_refl s) ?_
  exact pinsKept_trans (pinsKept_trans (pinsKept_devMark s _) (pinsKept_slotsEnd _ _ _ _))
    (pinsKept_foldl _ _ (fun t _ => pinsKept_ite (pinsKept_refl t) (pinsKept_domGo _ _ _)) _)

theorem pinsKept_setCause (s : State) (b : Nat) (v : Bool) : PinsKept s (s.setCause b v) := by
  unfold State.setCause
  refine pinsKept_ite (pinsKept_refl s) ?_
  refine pinsKept_trans (t := (s.setRf pgDev oDevCause b b (b2n v)).setEvt pgDev 3) (pinsKept_trans (pinsKept_setRg _ _ _ _) (pinsKept_setEvt _ _ _)) ?_
  exact pinsKept_ite (pinsKept_devMark _ _) (pinsKept_ite (pinsKept_devMark _ _) (pinsKept_refl _))

end Sys2Proof.Machine
end

section
/-! Proofs about temperatures and the trip (R838 to R841, R978), and about power, reset and reference-clock pins and the test port (R965,
R966, R969, R976 to R978). -/

namespace Sys2Proof.Machine

/-! ## Registers behind events and AVS setpoints -/

theorem setEvts_rg_other (s : State) (pg pg' off' : Nat) (bs : List Nat) (hp : keyPlain (regKey pg' off'))
    (h : regKey pg' off' ≠ regKey pg oEvtStatus) : (s.setEvts pg bs).rg pg' off' = s.rg pg' off' := by
  induction bs generalizing s with
  | nil => rfl
  | cons b bs ih => exact (ih _).trans (setEvt_rg_other _ _ _ _ _ hp h)

/-- The levels of the regions are on the page of power alone. -/
theorem relevel_rg_other (s : State) (pg off : Nat) (hp : keyPlain (regKey pg off)) (ho : off < 4096) (h : pg ≠ pgPwr) :
    s.relevel.rg pg off = s.rg pg off := by
  have hkey : regKey pg off ≠ regKey pgPwr oEvtStatus := by simp only [regKey, pgPwr, oEvtStatus] at h ⊢; omega
  unfold State.relevel
  rw [setEvts_rg_other _ _ _ _ _ hp hkey, rg_setRg_page _ _ _ _ _ _ h (by decide) ho, rg_setRg_page _ _ _ _ _ _ h (by decide) ho]
  rfl

/-- What follows a temperature on the AVS bus: pins, an emission, a free value. -/
def AvsMoved (s t : State) : Prop := ∃ p o f, t = ((s.setPins p).setOut o).setFree f

theorem avsMoved_refl (s : State) : AvsMoved s s := ⟨s.pins, s.out, s.free, rfl⟩

theorem avsMoved_trans {s t u : State} (h : AvsMoved s t) (k : AvsMoved t u) : AvsMoved s u := by
  obtain ⟨p, o, f, rfl⟩ := h
  obtain ⟨p', o', f', rfl⟩ := k
  exact ⟨p', o', f', rfl⟩

theorem avsMoved_follow (s : State) (k : Nat) : AvsMoved s (s.avsFollow k) := by
  have hdraw : AvsMoved s s.draw.2 := ⟨s.pins, s.out, s.free + 1, rfl⟩
  have hput (t : State) (mv : Nat) : AvsMoved t (t.avsPut k mv) := ⟨(t.avsPut k mv).pins, (t.avsPut k mv).out, t.free, rfl⟩
  unfold State.avsFollow
  split
  · dsimp only
    split
    · exact hdraw
    · exact avsMoved_trans hdraw (hput _ _)
  · exact avsMoved_refl s

theorem avsMoved_foldl {α : Type} (f : State → α → State) (l : List α) (h : ∀ t a, AvsMoved t (f t a)) (s : State) :
    AvsMoved s (l.foldl f s) := by
  induction l generalizing s with
  | nil => exact avsMoved_refl s
  | cons a l ih => exact avsMoved_trans (h s a) (ih _)

section
variable {s t : State} (h : AvsMoved s t)
include h

theorem avsMoved_rg (pg off : Nat) : t.rg pg off = s.rg pg off := by obtain ⟨p, o, f, rfl⟩ := h; rfl
theorem avsMoved_pwr : t.pwr = s.pwr := by obtain ⟨p, o, f, rfl⟩ := h; rfl
theorem avsMoved_dram : t.dram = s.dram := by obtain ⟨p, o, f, rfl⟩ := h; rfl
end

/-! ## Temperatures (R838 to R841) -/

/-- The registers of the regions' temperatures after a reading. -/
def State.regionTemps (s : State) (rs : List Int) : State :=
  (List.range 12).foldl (fun t r => t.setRg pgTherm (oThermRegionTemp + 8 * r) (word (temp16 (rs.getD r 0)))) s

/-- The levels of the regions after a reading. -/
def State.hotLevels (s : State) (rs : List Int) : List Nat := (List.range 12).map (fun r => s.hotLevel (s.pwr.h.getD r 0) (rs.getD r 0))

/-- A hot-spot reading written down: temperatures of regions and dies, the levels of the regions. -/
def State.hotspotWritten (s : State) (rs : List Int) (dies : Word) : State :=
  (((s.regionTemps rs).setRg pgTherm oThermDieTemp dies).setPwr { (s.regionTemps rs).pwr with h := s.hotLevels rs }).setRg pgTherm
    oThermHLevel (pack2 (fun r => (s.hotLevels rs).getD r 0))

/-- A hot-spot reading is written, its changed levels are events, the AVS rails follow, and the levels of the regions are set. -/
theorem exec_hotspotReading (rs ds : List Int) (s : State) (ha : s.awake) (hr : rs.length = 12) (hd : ds.length = 3) :
    ∃ dies bs t, AvsMoved ((s.hotspotWritten rs dies).setEvts pgTherm bs) t ∧ exec (.hotspotReading rs ds) s = .next t.relevel := by
  refine ⟨_, _, _, avsMoved_foldl _ _ (fun t k => ?_) _, (live_awake s _ ha).trans (if_pos ⟨hr, hd⟩)⟩
  split
  · exact avsMoved_follow t k
  · exact avsMoved_refl t

theorem hotspotWritten_regionTemp (s : State) (rs : List Int) (dies : Word) (r : Nat) (hr : r < 12) :
    (s.hotspotWritten rs dies).rg pgTherm (oThermRegionTemp + 8 * r) = word (temp16 (rs.getD r 0)) := by
  have hkey (off : Nat) (ho : off < oThermRegionTemp) : regKey pgTherm (oThermRegionTemp + 8 * r) ≠ regKey pgTherm off := by
    simp only [regKey, oThermRegionTemp] at ho ⊢
    omega
  unfold State.hotspotWritten
  rw [rg_setRg_other _ _ _ _ _ _ (hkey _ (by decide))]
  exact (rg_setRg_other _ _ _ _ _ _ (hkey _ (by decide))).trans (rg_foldl_setRg_row_same _ _ _ _ _ _ hr)

theorem hotspotWritten_dram (s : State) (rs : List Int) (dies : Word) : (s.hotspotWritten rs dies).dram = s.dram := by
  have htemps : Booked s (s.regionTemps rs) := booked_foldl _ _ (fun _ _ => booked_setRg _ _ _ _) s
  unfold State.hotspotWritten
  rw [booked_dram (booked_setRg _ _ _ _), State.setPwr_dram, booked_dram (booked_setRg _ _ _ _), booked_dram htemps]

theorem hotspotReading_completes (rs ds : List Int) (s : State) (ha : s.awake) (hr : rs.length = 12) (hd : ds.length = 3) :
    Completes (.hotspotReading rs ds) s (fun t =>
      (∀ r, r < 12 → t.rg pgTherm (oThermRegionTemp + 8 * r) = word (temp16 (rs.getD r 0))) ∧
      t.pwr.h = (List.range 12).map (fun r => s.hotLevel (s.pwr.h.getD r 0) (rs.getD r 0)) ∧ t.dram = s.dram) := by
  obtain ⟨dies, bs, t, hmoved, hx⟩ := exec_hotspotReading rs ds s ha hr hd
  refine ⟨_, hx, fun r hr' => ?temp, ?level, ?dram⟩
  case temp =>
    have hoff : oThermRegionTemp + 8 * r < 4096 := by simp only [oThermRegionTemp]; omega
    have hplain : keyPlain (regKey pgTherm (oThermRegionTemp + 8 * r)) :=
      keyPlain_of _ _ (by simp only [oThermRegionTemp]; omega) (by decide)
    have hevt : regKey pgTherm (oThermRegionTemp + 8 * r) ≠ regKey pgTherm oEvtStatus := by
      simp only [regKey, oThermRegionTemp, oEvtStatus]; omega
    rw [relevel_rg_other _ _ _ hplain hoff (by decide), avsMoved_rg hmoved, setEvts_rg_other _ _ _ _ _ hplain hevt]
    exact hotspotWritten_regionTemp s rs dies r hr'
  case level => rw [relevel_pwr, avsMoved_pwr hmoved, booked_pwr (booked_setEvts _ _ _)]; rfl
  case dram => rw [relevel_dram, avsMoved_dram hmoved, booked_dram (booked_setEvts _ _ _), hotspotWritten_dram]

/-- A stack whose hottest core die is at 105 °C shuts down (R841). -/
theorem stackTempReading_shutsDown (n : Region) (core : List Int) (b : Int) (pt : List Int) (s : State) (ha : s.awake) (hc : core.length = 16)
    (hp : pt.length = 64) (hot : 16 * 105 ≤ core.foldl max (core.getD 0 0)) (hst : (s.stkAt n.val).st = .base ∨ (s.stkAt n.val).st = .full) :
    Completes (.stackTempReading n core b pt) s (fun t => (t.stkAt n.val).st = .shutdown) := by
  obtain ⟨t, hx, hkept⟩ : ∃ t, exec (.stackTempReading n core b pt) s = .next (t.stackShut n.val) ∧ StkKept s t := by
    refine ⟨_, (live_awake s _ ha).trans ((if_pos ⟨hc, hp⟩).trans (congrArg Host.Outcome.next (if_pos hot))), ?_⟩
    exact stkKept_trans (stkKept_putStk s n.val { s.stkAt n.val with coreTemp := core.foldl max (core.getD 0 0) } rfl) <|
      stkKept_trans (stkKept_setRg _ _ _ _) <|
      stkKept_trans (stkKept_ite (stkKept_refreshWin _ _ _) (stkKept_ite (stkKept_refreshWin _ _ _) (stkKept_refl _))) <|
      stkKept_trans (stkKept_ite (stkKept_joint _ _ _) (stkKept_ite (stkKept_joint _ _ _) (stkKept_refl _))) <|
      stkKept_trans (stkKept_foldl _ _ (fun _ _ => stkKept_pchTemp _ _ _) _) (stkKept_ite (stkKept_avsFollow _ _) (stkKept_refl _))
  exact ⟨_, hx, stackShut_st t n.val (by rw [hkept n.val]; exact hst)⟩

section
variable (d : Fin 3) (s : State) (ha : s.awake)
include ha

theorem exec_thermalTrip_stops (h : s.dev.st ≠ .stopped) : exec (.thermalTrip d) s =
    .next (((s.setPins { s.pins with therm := true, hubTrip := s.pins.hubTrip || decide (d.val = 2) }).setCause 18 true).devGo .stopped) :=
  (live_awake s _ ha).trans (if_neg h)

/-- The trip output asserts, and stays so while the device stops. -/
theorem thermalTrip_asserts : Completes (.thermalTrip d) s (fun t => t.pins.therm = true) := by
  by_cases h : s.dev.st = .stopped
  · exact ⟨_, (live_awake s _ ha).trans (if_pos h), rfl⟩
  · refine ⟨_, exec_thermalTrip_stops d s ha h, ?_⟩
    exact congrArg PinSt.therm (pinsKept_trans (pinsKept_setCause _ 18 true) (pinsKept_devGo_stopped _))
end

/-! ## Pins (R965, R966, R969) -/

section
variable (s : State)

theorem exec_resetNLow_running (hp : s.pins.pwrOk = true) (hh : s.pins.held = false) :
    exec .resetNLow s = .next ((s.resetAll 1).setPins { (s.resetAll 1).pins with resetN := false }) := by
  show execResetNLow s = _
  simp only [execResetNLow, hp, hh, Bool.true_eq_false, Bool.false_eq_true, if_false]

theorem exec_resetNLow_held (hp : s.pins.pwrOk = true) (hh : s.pins.held = true) :
    exec .resetNLow s = .next (s.setPins { s.pins with resetN := false }) := by
  show execResetNLow s = _
  simp only [execResetNLow, hp, hh, Bool.true_eq_false, if_true, if_false]

theorem exec_resetNLow_unpowered (hp : s.pins.pwrOk = false) : exec .resetNLow s = .next s := if_pos hp

variable (hh : s.pins.held = false)
include hh

theorem exec_refclkEthLoss_running (p : Fin 4) : exec (.refclkEthLoss p) s = .next ((List.range 4).foldl (fun t k => t.linkDown (p.val * 4 + k))
    (s.setPins { s.pins with clkEth := s.pins.clkEth.set p.val false })) := by
  show execRefclkEthLoss p s = _
  simp only [execRefclkEthLoss, State.setPins_pins, hh, Bool.false_eq_true, if_false]

theorem exec_refclkLoss_running (k : Fin 3) : exec (.refclkLoss k) s =
    .next ((s.resetAll 3).setPins { (s.resetAll 3).pins with clk100 := (s.resetAll 3).pins.clk100.set k.val false }) := by
  show execRefclkLoss k s = _
  simp only [execRefclkLoss, hh, Bool.false_eq_true, if_false]
end

/-- While RESET_N is high an instruction that drives pins acts as BYPASS. -/
theorem exec_testPortInstruction_bypass (s : State) (i : JtagInstr) (hr : s.pins.resetN = true) (hi : i = .extest ∨ i = .highz) :
    exec (.testPortInstruction i) s = .next (s.setPins { s.pins with jtag := .bypass }) := by
  show execTestPortInstruction i s = _
  obtain rfl | rfl := hi
  · simp only [execTestPortInstruction, hr, if_true, reduceCtorEq, if_false]
  · simp only [execTestPortInstruction, hr, if_true, reduceCtorEq, if_false]

/-- Settles O56: the readings through what keeps their registers and states, the pins by their equations. -/
theorem temperaturesAndPins : Obligations.TemperaturesAndPins := by
  unfold Obligations.TemperaturesAndPins
  refine ⟨⟨hotspotReading_completes, stackTempReading_shutsDown, exec_thermalTrip_stops, thermalTrip_asserts⟩, fun _ => rfl, fun _ => rfl,
    exec_resetNLow_running, exec_resetNLow_held, exec_resetNLow_unpowered, fun p s hh => exec_refclkEthLoss_running s hh p,
    fun k s hh => exec_refclkLoss_running s hh k, fun _ => rfl, fun s hr => ⟨?_, ?_⟩⟩
  · exact exec_testPortInstruction_bypass s .extest hr (.inl rfl)
  · exact exec_testPortInstruction_bypass s .highz hr (.inr rfl)

end Sys2Proof.Machine
end

section
/-! Proofs about the event log, telemetry and margin reports (R933 to R942, R954), and about debug of contexts and units (R316, R945 to
R952). -/

namespace Sys2Proof.Machine

/-! ## The event log (R933 to R937) -/

/-- The LOST entry is written and ends the count of what was dropped. -/
theorem exec_logWrite_lost (z s : State) (ha : s.awake) (hen : bit (s.rg pgTel oTelCtl) 1 = true) (hdue : s.lostDue = true)
    (hput : s.logPut s.tel.lostWords = (.ok, z)) : exec .logWrite s = .next (z.setTel { z.tel with dropped := 0 }) := by
  show execLogWrite s = _
  simp only [execLogWrite, live_awake _ _ ha, hen, hdue, hput, Bool.not_true, Bool.false_eq_true, if_true, if_false]

section
variable (e : LogEnt) (u s : State) (ha : s.awake) (hen : bit (s.rg pgTel oTelCtl) 1 = true) (hdue : s.lostDue = false)
  (hq : logFirst s.tel.logQ = some e) (hage : e.st + 4000 ≤ s.ns) (hu : u = s.setTel { s.tel with logQ := s.tel.logQ.erase e })
include ha hen hdue hq hage hu

theorem exec_logWrite_full (hfull : u.logCap ≤ u.logHeld) : exec .logWrite s = .next (u.logDrop e) := by
  subst hu
  show execLogWrite s = _
  simp only [execLogWrite, live_awake _ _ ha, hen, hdue, hq, hfull, Nat.not_lt.2 hage, Bool.not_true, Bool.false_eq_true, if_true, if_false]

/-- The oldest entry, once it is old enough and the ring has space, is written. -/
theorem exec_logWrite_written (y : State) (hroom : u.logHeld < u.logCap) (hput : u.logPut [word e.st, e.w1, e.w2, e.w3] = (.ok, y)) :
    exec .logWrite s = .next y := by
  subst hu
  show execLogWrite s = _
  simp only [execLogWrite, live_awake _ _ ha, hen, hdue, hq, Nat.not_le.2 hroom, Nat.not_lt.2 hage, hput, Bool.not_true, Bool.false_eq_true,
    if_false]

theorem exec_logWrite_faults (y : State) (hroom : u.logHeld < u.logCap)
    (hput : u.logPut [word e.st, e.w1, e.w2, e.w3] = (.fault, y)) : exec .logWrite s = .next (y.logDrop e) := by
  subst hu
  show execLogWrite s = _
  simp only [execLogWrite, live_awake _ _ ha, hen, hdue, hq, Nat.not_le.2 hroom, Nat.not_lt.2 hage, hput, Bool.not_true, Bool.false_eq_true,
    if_false]
end

/-! ## Telemetry (R938 to R940) -/

section
variable (b : Nat) (s : State) (ha : s.awake) (hen : bit (s.rg pgTel oTelCtl) 0 = true) (hb : b = s.ns / s.telPeriod * s.telPeriod)
  (hnew : s.tel.lastB < b)
include ha hen hb hnew

/-- A boundary with the previous record on its way is skipped and counted. -/
theorem exec_telemetrySample_skipped (hf : s.tel.flight = true) :
    exec .telemetrySample s = .next ((((s.setTel { s.tel with lastB := b, flight := true }).count pgTel oTelSeq 1).count
      pgTel oTelSkipped 1).setEvt pgTel 0) := by
  subst hb
  show execTelemetrySample s = _
  simp only [execTelemetrySample, live_awake _ _ ha, hen, decide_eq_false (Nat.not_le.2 hnew), hf, Bool.not_true, Bool.or_self,
    Bool.false_eq_true, Bool.true_or, if_true, if_false]

theorem exec_telemetrySample_posts (z : State) (hf : s.tel.flight = false) (hq : (s.qpAt (s.rf pgTel oTelQp 13 0)).st = .rts)
    (hz : z = (s.setTel { s.tel with lastB := b, flight := true }).count pgTel oTelSeq 1) :
    exec .telemetrySample s = .next (z.txPost (s.rf pgTel oTelQp 13 0)
      { plainTx (.write s.telVa (z.rf pgTel oTelRkey 31 0) (s.telRecord b) none) with pages := true }) := by
  subst hb hz
  show execTelemetrySample s = _
  simp only [execTelemetrySample, live_awake _ _ ha, hen, decide_eq_false (Nat.not_le.2 hnew), hf, hq, ne_eq, not_true_eq_false, decide_false,
    Bool.not_true, Bool.not_false, Bool.or_self, Bool.or_true, Bool.false_eq_true, if_false]
end

/-! ## Margin reports (R942) -/

theorem exec_marginCmd_starts (v : Word) (s : State) (ha : s.awake) (hm : s.tel.margin = none) (hv : fld v 3 0 < 12) : exec (.marginCmd v) s =
    .next (((s.setTel { s.tel with margin := some (fld v 3 0, if bit v 4 then 2 else 1, 0) }).marginStat 1 0 0).marginNext 65) := by
  show execMarginCmd v s = _
  simp only [execMarginCmd, live_awake _ _ ha, hm, Option.isSome_none, Bool.false_eq_true, Nat.not_le.2 hv, if_false]

theorem exec_marginCmd_conflict (v : Word) (s : State) (ha : s.awake) (hm : s.tel.margin.isSome = true) :
    exec (.marginCmd v) s = .next (s.conflict pgTel) := (live_awake s _ ha).trans (if_pos hm)

/-! ## Debug of contexts (R316, R945 to R951) -/

section
variable (w : Fin 4) (i : Fin 512) (z s : State) (ha : s.awake) (hz : z = s.dbgName (s.dbgWv w) i.val)
include ha hz

section
variable (hon : z.dbgOn = true)
include hon

theorem exec_halt_all :
    exec (.halt w i true) s = .next (((z.wvAt (s.dbgWv w)).ctxs.foldl (fun t e => t.dbgHalt (s.dbgWv w) e.1) z).dbgResult 0) := by
  subst hz
  show execHalt w i true s = _
  simp only [execHalt, live_awake _ _ ha, hon, Bool.true_eq_false, if_true, if_false]

theorem exec_halt_one (hd : ((z.wvAt (s.dbgWv w)).ctxAt i.val).st ≠ .drain) :
    exec (.halt w i false) s = .next ((z.dbgHalt (s.dbgWv w) i.val).dbgResult 0) := by
  subst hz
  show execHalt w i false s = _
  simp only [execHalt, live_awake _ _ ha, hon, hd, Bool.true_eq_false, Bool.false_eq_true, if_false]

theorem exec_resume_on (all : Bool) : exec (.resume w i all) s = .next (
    if all then ((z.wvAt (s.dbgWv w)).ctxs.foldl (fun t e => t.dbgResume (s.dbgWv w) e.1) z).dbgResult 0
    else (z.dbgResume (s.dbgWv w) i.val).dbgResult 0) := by
  subst hz
  show execResume w i all s = _
  cases all <;> simp only [execResume, live_awake _ _ ha, hon, Bool.true_eq_false, Bool.false_eq_true, if_true, if_false]

/-- A STEP of a halted context resumes it under STEP. -/
theorem exec_step_halted (hst : ((z.wvAt (s.dbgWv w)).ctxAt i.val).st = .halted) : exec (.step w i) s =
    .next (((z.dbgResult 0).setDbg { (z.dbgResult 0).dbg with step := z.dbg.step ++ [(s.dbgWv w, i.val)] }).dbgResume (s.dbgWv w) i.val) := by
  subst hz
  show execStep w i s = _
  simp only [execStep, live_awake _ _ ha, hon, hst, Bool.true_eq_false, reduceCtorEq, if_true, if_false]
end

section
variable (hoff : z.dbgOn = false)
include hoff

theorem exec_halt_denied (all : Bool) : exec (.halt w i all) s = .next z.dbgDeny := by
  subst hz
  exact (live_awake s _ ha).trans (if_pos hoff)

theorem exec_resume_denied (all : Bool) : exec (.resume w i all) s = .next z.dbgDeny := by
  subst hz
  exact (live_awake s _ ha).trans (if_pos hoff)

theorem exec_step_denied : exec (.step w i) s = .next z.dbgDeny := by
  subst hz
  exact (live_awake s _ ha).trans (if_pos hoff)
end
end

/-! ## Debug of units, and the mode (R945, R949, R952) -/

section
variable (s : State) (ha : s.awake)
include ha

theorem exec_haltUnits_adds (hon : s.dbgOn = true) (hc : s.dbg.units.contains s.dbgClu = false) :
    exec .haltUnits s = .next ((s.setDbg { s.dbg with units := s.dbg.units ++ [s.dbgClu] }).dbgResult 0) := by
  show execHaltUnits s = _
  simp only [execHaltUnits, live_awake _ _ ha, hon, hc, Bool.true_eq_false, Bool.false_eq_true, if_false]

theorem exec_resumeUnits_on (hon : s.dbgOn = true) :
    exec .resumeUnits s = .next ((s.setDbg { s.dbg with units := s.dbg.units.filter (· ≠ s.dbgClu) }).dbgResult 0) := by
  show execResumeUnits s = _
  simp only [execResumeUnits, live_awake _ _ ha, hon, Bool.true_eq_false, if_false]

theorem exec_units_denied (hoff : s.dbgOn = false) : exec .haltUnits s = .next s.dbgDeny ∧ exec .resumeUnits s = .next s.dbgDeny :=
  ⟨(live_awake s _ ha).trans (if_pos hoff), (live_awake s _ ha).trans (if_pos hoff)⟩

variable (v : Word) (hc : s.dbgClu < 156)
include hc

theorem exec_dbgModeWrite_on (hv : bit v 0 = true) (hm : s.dbg.mode.contains s.dbgClu = false) :
    exec (.dbgModeWrite v) s = .next (s.setDbg { s.dbg with mode := s.dbg.mode ++ [s.dbgClu] }) := by
  show execDbgModeWrite v s = _
  simp only [execDbgModeWrite, live_awake _ _ ha, Nat.not_le.2 hc, hv, hm, Bool.false_eq_true, if_true, if_false]

theorem exec_dbgModeWrite_off (hv : bit v 0 = false) : exec (.dbgModeWrite v) s = .next ((s.dbgFree s.dbgClu).setDbg
    { (s.dbgFree s.dbgClu).dbg with mode := (s.dbgFree s.dbgClu).dbg.mode.filter (· ≠ s.dbgClu) }) := by
  show execDbgModeWrite v s = _
  simp only [execDbgModeWrite, live_awake _ _ ha, Nat.not_le.2 hc, hv, Bool.false_eq_true, if_false]
end

/-- Settles O60: one equation for each way a command ends. -/
theorem logsAndDebug : Obligations.LogsAndDebug := by
  unfold Obligations.LogsAndDebug
  refine ⟨⟨exec_logWrite_lost, ?entry, exec_logWrite_full, exec_telemetrySample_skipped, ?posts, exec_marginCmd_starts,
    exec_marginCmd_conflict⟩, ?contexts, ?denied, exec_haltUnits_adds, exec_resumeUnits_on, exec_units_denied,
    fun v s ha hc => exec_dbgModeWrite_on s ha v hc, fun v s ha hc => exec_dbgModeWrite_off s ha v hc⟩
  case entry =>
    exact fun e u y s ha hen hdue hq hage hu hroom =>
      ⟨exec_logWrite_written e u s ha hen hdue hq hage hu y hroom, exec_logWrite_faults e u s ha hen hdue hq hage hu y hroom⟩
  case posts => exact fun b s ha hen hb hnew hf hq => ⟨_, rfl, exec_telemetrySample_posts b s ha hen hb hnew _ hf hq rfl⟩
  case contexts =>
    exact fun w i z s ha hz hon => ⟨exec_halt_all w i z s ha hz hon, exec_resume_on w i z s ha hz hon true,
      exec_resume_on w i z s ha hz hon false, exec_halt_one w i z s ha hz hon, exec_step_halted w i z s ha hz hon⟩
  case denied =>
    exact fun w i all z s ha hz hoff =>
      ⟨exec_halt_denied w i z s ha hz hoff all, exec_resume_denied w i z s ha hz hoff all, exec_step_denied w i z s ha hz hoff⟩

end Sys2Proof.Machine
end
